-- ==== Sys2Proof/Word.lean ====
section
/-! DEFINITION. The words of the part: bytes and two-byte fields of frames, and 24-bit audio samples. -/

namespace Sys2Proof

/-- One byte of a frame or record. -/
abbrev Byte := BitVec 8

/-- A two-byte field, or a mask of up to sixteen bits. -/
abbrev Half := BitVec 16

/-- One audio sample: a signed 24-bit integer (Conventions, Audio numbers). -/
abbrev Sample := BitVec 24

end Sys2Proof
end

