-- ==== Sys2Proof/Syntax.lean ====
section
/-! DEFINITION. The commands of the part: one constructor of `Instr` for each row of spec/opcode_table.json. -/

namespace Sys2Proof

/-- The three control ports (R174). -/
inductive Port where
  | a | b | c
deriving DecidableEq, Repr, Inhabited

/-- The three zones (R1). -/
inductive Zone where
  | main | z2 | z3
deriving DecidableEq, Repr, Inhabited

/-- The channels of a source, in the bit order of a channel mask (R62, R206). -/
inductive Channel where
  | fl | fr | c | lfe | sl | sr | bl | br | hl | hr
deriving DecidableEq, Repr, Inhabited

/-- The kind that a link's stream descriptor names (R63). -/
inductive DescriptorKind where
  | twoChannel | multichannel | packed | unknown
deriving DecidableEq, Repr

/-- The stream descriptor that a digital link carries with its audio (R63). -/
structure Descriptor where
  kind : DescriptorKind
  rate : Byte
  mask : Half
deriving DecidableEq, Repr

/-- The head of a command frame (R176): its length in bytes, its tag and its flags byte. -/
structure FrameHead where
  length : Nat
  tag : Byte
  flags : Byte
deriving DecidableEq, Repr

/-- The samples that one channel of one input (D1 to D8, A1 to A4) brings in one block, at the
internal rate (R86, R93). -/
structure InputAudio where
  input : Fin 12
  channel : Channel
  samples : List Sample
deriving DecidableEq, Repr

/-- The audio that reaches the Mix Engine from outside in one block: the inputs' channels, and
what the tuner's front end receives. A channel not listed is silent. On AM the programme is
`tunerLeft` (log 29). -/
structure BlockAudio where
  inputs : List InputAudio
  tunerLeft : List Sample
  tunerRight : List Sample
deriving DecidableEq, Repr

/-- The commands of section 11.4 with their parameters, each parameter as the bytes of the frame
give it. -/
inductive Cmd where
  | noOperation
  | identify (count : Half)
  | readDetail
  | resetPart
  | zoneOn (zone : Byte)
  | zoneStandby (zone : Byte)
  | selectSource (zone source : Byte)
  | setVolume (zone : Byte) (index : Half)
  | stepVolume (zone step : Byte)
  | setMute (zone mute : Byte)
  | setMaxVolume (zone : Byte) (index : Half)
  | setLipSync (zone : Byte) (ms : Half)
  | setSurroundMode (zone mode : Byte)
  | setSleepTimer (zone minutes : Byte)
  | readZone (zone : Byte) (count : Half)
  | pushOverride (zone source : Byte) (index : Half)
  | popOverride (zone : Byte)
  | readOverrideStack (zone : Byte) (count : Half)
  | setAssignment (output mainRole remoteRole priority : Byte)
  | readAssignment (count : Half)
  | setProtectionLevels (fault thw tht : Byte)
  | readProtection (count : Half)
  | clearFault (name : Byte)
  | readInput (input : Byte) (count : Half)
  | readDecoder (clear : Byte) (count : Half)
  | setSpeaker (position size : Byte) (distance : Half) (trim polarity : Byte)
  | setCrossover (hz : Byte)
  | readSpeakers (count : Half)
  | memoryStart (level : Byte)
  | compactDelayMemory
  | readSegmentTable (count : Half)
  | tune (band : Byte) (frequency : Half)
  | stepTune (direction : Byte)
  | seek (direction : Byte)
  | scan (band : Byte)
  | setSeekThreshold (threshold : Byte)
  | setRegion (region : Byte)
  | readTuner (count : Half)
  | storePreset (preset : Byte)
  | recallPreset (preset : Byte)
  | clearPreset (preset : Byte)
  | readPresets (first : Byte) (count : Half)
  | readStationList (first : Byte) (count : Half)
  | recallStation (index : Byte)
  | notifyOn
  | notifyOff
  | setEventEnable (enable : Half)
  | fetchEvent (all : Byte)
  | peekEvents
  | raiseEvent (kind : Byte)
  | readCompletion
  | abortOperation (slot : Byte)
  | readSlots (count : Half)
deriving DecidableEq, Repr

/-- The steps of the part, one for each row of spec/opcode_table.json. A port command carries its
port, its frame head and its parameters. -/
inductive Instr where
  /-- POWER_ON: the RESET line resets the whole part (R191). -/
  | powerOn
  /-- PORT_RESET: the PRST line of a port is asserted (R191). -/
  | portReset (p : Port)
  /-- RESPONSE_TRANSACTION: a master clocks `clocked` bytes after the kind byte (R177). -/
  | responseTransaction (p : Port) (clocked : Nat)
  /-- COMMAND_FRAME_REFUSED: a COMMAND transaction brings `bytes` after its kind byte (R178). -/
  | commandFrameRefused (p : Port) (bytes : List Byte)
  | noOperation (p : Port) (h : FrameHead)
  | identify (p : Port) (h : FrameHead) (count : Half)
  | readDetail (p : Port) (h : FrameHead)
  | resetPart (p : Port) (h : FrameHead)
  | zoneOn (p : Port) (h : FrameHead) (zone : Byte)
  | zoneStandby (p : Port) (h : FrameHead) (zone : Byte)
  | selectSource (p : Port) (h : FrameHead) (zone source : Byte)
  | setVolume (p : Port) (h : FrameHead) (zone : Byte) (index : Half)
  | stepVolume (p : Port) (h : FrameHead) (zone step : Byte)
  | setMute (p : Port) (h : FrameHead) (zone mute : Byte)
  | setMaxVolume (p : Port) (h : FrameHead) (zone : Byte) (index : Half)
  | setLipSync (p : Port) (h : FrameHead) (zone : Byte) (ms : Half)
  | setSurroundMode (p : Port) (h : FrameHead) (zone mode : Byte)
  | setSleepTimer (p : Port) (h : FrameHead) (zone minutes : Byte)
  | readZone (p : Port) (h : FrameHead) (zone : Byte) (count : Half)
  | pushOverride (p : Port) (h : FrameHead) (zone source : Byte) (index : Half)
  | popOverride (p : Port) (h : FrameHead) (zone : Byte)
  | readOverrideStack (p : Port) (h : FrameHead) (zone : Byte) (count : Half)
  | setAssignment (p : Port) (h : FrameHead) (output mainRole remoteRole priority : Byte)
  | readAssignment (p : Port) (h : FrameHead) (count : Half)
  | setProtectionLevels (p : Port) (h : FrameHead) (fault thw tht : Byte)
  | readProtection (p : Port) (h : FrameHead) (count : Half)
  | clearFault (p : Port) (h : FrameHead) (name : Byte)
  | readInput (p : Port) (h : FrameHead) (input : Byte) (count : Half)
  | readDecoder (p : Port) (h : FrameHead) (clear : Byte) (count : Half)
  | setSpeaker (p : Port) (h : FrameHead) (position size : Byte) (distance : Half) (trim polarity : Byte)
  | setCrossover (p : Port) (h : FrameHead) (hz : Byte)
  | readSpeakers (p : Port) (h : FrameHead) (count : Half)
  | memoryStart (p : Port) (h : FrameHead) (level : Byte)
  | compactDelayMemory (p : Port) (h : FrameHead)
  | readSegmentTable (p : Port) (h : FrameHead) (count : Half)
  | tune (p : Port) (h : FrameHead) (band : Byte) (frequency : Half)
  | stepTune (p : Port) (h : FrameHead) (direction : Byte)
  | seek (p : Port) (h : FrameHead) (direction : Byte)
  | scan (p : Port) (h : FrameHead) (band : Byte)
  | setSeekThreshold (p : Port) (h : FrameHead) (threshold : Byte)
  | setRegion (p : Port) (h : FrameHead) (region : Byte)
  | readTuner (p : Port) (h : FrameHead) (count : Half)
  | storePreset (p : Port) (h : FrameHead) (preset : Byte)
  | recallPreset (p : Port) (h : FrameHead) (preset : Byte)
  | clearPreset (p : Port) (h : FrameHead) (preset : Byte)
  | readPresets (p : Port) (h : FrameHead) (first : Byte) (count : Half)
  | readStationList (p : Port) (h : FrameHead) (first : Byte) (count : Half)
  | recallStation (p : Port) (h : FrameHead) (index : Byte)
  | notifyOn (p : Port) (h : FrameHead)
  | notifyOff (p : Port) (h : FrameHead)
  | setEventEnable (p : Port) (h : FrameHead) (enable : Half)
  | fetchEvent (p : Port) (h : FrameHead) (all : Byte)
  | peekEvents (p : Port) (h : FrameHead)
  | raiseEvent (p : Port) (h : FrameHead) (kind : Byte)
  | readCompletion (p : Port) (h : FrameHead)
  | abortOperation (p : Port) (h : FrameHead) (slot : Byte)
  | readSlots (p : Port) (h : FrameHead) (count : Half)
  /-- QUEUE_HEAD_TAKEN: the port takes the head of its inbound queue (R181). -/
  | queueHeadTaken (p : Port)
  /-- CHAIN_MEMBER_DISCARDED: the port discards the head of its inbound queue (R183). -/
  | chainMemberDiscarded (p : Port)
  /-- DONE_WAITING_POST: a waiting slot of the port posts its record (R196). -/
  | doneWaitingPost (p : Port)
  /-- WAKE_COMPLETION: the 120 ms of the zone's wake have passed (R6). -/
  | wakeCompletion (z : Zone)
  /-- RELAY_STAGE_END: the 20 ms of the zone's relay stage have passed (R8). -/
  | relayStageEnd (z : Zone)
  /-- MINUTE_EVENT: the minute divider has counted 60,000 ms (R21). -/
  | minuteEvent
  /-- SLEEP_TIMER_EXPIRY: the sleep timer of a zone reaches 0 (R21). -/
  | sleepTimerExpiry (z : Zone)
  /-- RELAY_OPEN_EXPIRY: the 20 ms of output O(o+1) in RELAY_OPEN have passed (R45). -/
  | relayOpenExpiry (o : Fin 13)
  /-- FAULT_LINE_ARRIVAL: FLT(n+1) goes to its active level (R56). -/
  | faultLineArrival (n : Fin 11)
  /-- FAULT_LINE_DEPARTURE: FLT(n+1) leaves its active level (R54). -/
  | faultLineDeparture (n : Fin 11)
  | thwArrival
  | thwDeparture
  | thtArrival
  | thtDeparture
  /-- SIGNAL_ARRIVAL: a valid link with descriptor `d` starts at D(i+1) (R63). -/
  | signalArrival (i : Fin 8) (d : Descriptor)
  /-- SIGNAL_LOSS: the link at D(i+1) ends (R63). -/
  | signalLoss (i : Fin 8)
  /-- DESCRIPTOR_CHANGE: the link at D(i+1) now carries descriptor `d` (R63). -/
  | descriptorChange (i : Fin 8) (d : Descriptor)
  /-- LOCK_TIMER_EXPIRY: the 20 ms of D(i+1) in LOCKING have passed (R63). -/
  | lockTimerExpiry (i : Fin 8)
  /-- FRAME_FOUND_SEARCHING: `bytes` are the bound stream from the scan position on (R77). -/
  | frameFoundSearching (bytes : List Byte)
  /-- FRAME_TAKEN_LOCKED: `bytes` are the bound stream from the expected position on (R78). -/
  | frameTakenLocked (bytes : List Byte)
  /-- BLOCK_START: the Mix Engine starts a block, with the outside audio of the block (R86). -/
  | blockStart (audio : BlockAudio)
  /-- CHECK_SEQUENCE_END: the DRAM start sequence ends (R116). -/
  | checkSequenceEnd
  /-- QUICK_ROW_TEST_END: the row under test of a QUICK check passes or fails (R116). -/
  | quickRowTestEnd (pass : Bool)
  /-- FULL_ROW_TEST_END: the row under test of a FULL check passes or fails (R117). -/
  | fullRowTestEnd (pass : Bool)
  /-- PAGE_COPY: one millisecond of COPY has passed (R134). -/
  | pageCopy
  /-- SETTLE_EXPIRY: the settle ends and the front end measures `quality` (R143). -/
  | settleExpiry (quality : Fin 101)
  /-- SEEK_DWELL_EXPIRY: a seek's dwell ends and the front end measures `quality` (R149). -/
  | seekDwellExpiry (quality : Fin 101)
  /-- SCAN_DWELL_EXPIRY: a scan's dwell ends and the front end measures `quality` (R162). -/
  | scanDwellExpiry (quality : Fin 101)
  /-- QUALITY_REPORT: the front end reports a quality (R151). -/
  | qualityReport (quality : Fin 101)
  /-- LABEL_SEGMENT: the data decoder delivers a label segment (R153). -/
  | labelSegment (index : Fin 4) (version : Bool) (first second : Byte)
  /-- PORT_RESET_RELEASE: the PRST line of a port is released (R174). -/
  | portResetRelease (p : Port)
deriving DecidableEq, Repr

end Sys2Proof
end

