-- ==== Sys2Proof/Decode.lean ====
section
/-! DEFINITION. Decoding: the table's words (none spells a command), and the command frame of sections 11.2 and 11.4 with its encoder. -/

namespace Sys2Proof

/-- The command that a word spells by the table's bits. No row of spec/opcode_table.json gives
bits, so no word spells a command. -/
def decodeTableWord (_nbits _w : Nat) : Option Instr := none

/-! ### Command frames (R176, section 11.4) -/

/-- A parameter byte; 0 where the frame is too short to hold it. -/
def byteAt (ps : List Byte) (k : Nat) : Byte := ps.getD k 0

/-- A two-byte parameter, most significant byte first. -/
def halfAt (ps : List Byte) (k : Nat) : Half := byteAt ps k ++ byteAt ps (k + 1)

/-- The most significant byte of a two-byte field. -/
def hiByte (h : Half) : Byte := h.extractLsb' 8 8

/-- The least significant byte of a two-byte field. -/
def loByte (h : Half) : Byte := h.extractLsb' 0 8

/-- The command code of a command (section 11.4). -/
def Cmd.code : Cmd → Byte
  | .noOperation => 0x01
  | .identify _ => 0x02
  | .readDetail => 0x03
  | .resetPart => 0x04
  | .zoneOn _ => 0x10
  | .zoneStandby _ => 0x11
  | .selectSource _ _ => 0x12
  | .setVolume _ _ => 0x13
  | .stepVolume _ _ => 0x14
  | .setMute _ _ => 0x15
  | .setMaxVolume _ _ => 0x16
  | .setLipSync _ _ => 0x17
  | .setSurroundMode _ _ => 0x18
  | .setSleepTimer _ _ => 0x19
  | .readZone _ _ => 0x1A
  | .pushOverride _ _ _ => 0x20
  | .popOverride _ => 0x21
  | .readOverrideStack _ _ => 0x22
  | .setAssignment _ _ _ _ => 0x30
  | .readAssignment _ => 0x31
  | .setProtectionLevels _ _ _ => 0x32
  | .readProtection _ => 0x33
  | .clearFault _ => 0x34
  | .readInput _ _ => 0x40
  | .readDecoder _ _ => 0x41
  | .setSpeaker _ _ _ _ _ => 0x50
  | .setCrossover _ => 0x51
  | .readSpeakers _ => 0x52
  | .memoryStart _ => 0x60
  | .compactDelayMemory => 0x61
  | .readSegmentTable _ => 0x62
  | .tune _ _ => 0x70
  | .stepTune _ => 0x71
  | .seek _ => 0x72
  | .scan _ => 0x73
  | .setSeekThreshold _ => 0x74
  | .setRegion _ => 0x75
  | .readTuner _ => 0x76
  | .storePreset _ => 0x80
  | .recallPreset _ => 0x81
  | .clearPreset _ => 0x82
  | .readPresets _ _ => 0x83
  | .readStationList _ _ => 0x84
  | .recallStation _ => 0x85
  | .notifyOn => 0x90
  | .notifyOff => 0x91
  | .setEventEnable _ => 0x92
  | .fetchEvent _ => 0x93
  | .peekEvents => 0x94
  | .raiseEvent _ => 0x95
  | .readCompletion => 0x96
  | .abortOperation _ => 0x97
  | .readSlots _ => 0x98

/-- The parameter bytes of a command, in the order and sizes of section 11.4. -/
def Cmd.params : Cmd → List Byte
  | .noOperation => []
  | .identify count => [hiByte count, loByte count]
  | .readDetail => []
  | .resetPart => []
  | .zoneOn zone => [zone]
  | .zoneStandby zone => [zone]
  | .selectSource zone source => [zone, source]
  | .setVolume zone index => [zone, hiByte index, loByte index]
  | .stepVolume zone step => [zone, step]
  | .setMute zone mute => [zone, mute]
  | .setMaxVolume zone index => [zone, hiByte index, loByte index]
  | .setLipSync zone ms => [zone, hiByte ms, loByte ms]
  | .setSurroundMode zone mode => [zone, mode]
  | .setSleepTimer zone minutes => [zone, minutes]
  | .readZone zone count => [zone, hiByte count, loByte count]
  | .pushOverride zone source index => [zone, source, hiByte index, loByte index]
  | .popOverride zone => [zone]
  | .readOverrideStack zone count => [zone, hiByte count, loByte count]
  | .setAssignment output mainRole remoteRole priority => [output, mainRole, remoteRole, priority]
  | .readAssignment count => [hiByte count, loByte count]
  | .setProtectionLevels fault thw tht => [fault, thw, tht]
  | .readProtection count => [hiByte count, loByte count]
  | .clearFault name => [name]
  | .readInput input count => [input, hiByte count, loByte count]
  | .readDecoder clear count => [clear, hiByte count, loByte count]
  | .setSpeaker position size distance trim polarity => [position, size, hiByte distance, loByte distance, trim, polarity]
  | .setCrossover hz => [hz]
  | .readSpeakers count => [hiByte count, loByte count]
  | .memoryStart level => [level]
  | .compactDelayMemory => []
  | .readSegmentTable count => [hiByte count, loByte count]
  | .tune band frequency => [band, hiByte frequency, loByte frequency]
  | .stepTune direction => [direction]
  | .seek direction => [direction]
  | .scan band => [band]
  | .setSeekThreshold threshold => [threshold]
  | .setRegion region => [region]
  | .readTuner count => [hiByte count, loByte count]
  | .storePreset preset => [preset]
  | .recallPreset preset => [preset]
  | .clearPreset preset => [preset]
  | .readPresets first count => [first, hiByte count, loByte count]
  | .readStationList first count => [first, hiByte count, loByte count]
  | .recallStation index => [index]
  | .notifyOn => []
  | .notifyOff => []
  | .setEventEnable enable => [hiByte enable, loByte enable]
  | .fetchEvent all => [all]
  | .peekEvents => []
  | .raiseEvent kind => [kind]
  | .readCompletion => []
  | .abortOperation slot => [slot]
  | .readSlots count => [hiByte count, loByte count]

/-- The frame length that is the command's own: 4 plus its parameter bytes (section 11.4). -/
def Cmd.ownLength (c : Cmd) : Nat := 4 + c.params.length

/-- A service command, marked S in section 11.4. -/
def Cmd.isService : Cmd → Bool
  | .readDetail => true
  | .resetPart => true
  | .notifyOn => true
  | .notifyOff => true
  | .setEventEnable _ => true
  | .fetchEvent _ => true
  | .peekEvents => true
  | .raiseEvent _ => true
  | .readCompletion => true
  | .abortOperation _ => true
  | .readSlots _ => true
  | _ => false

/-- The command that a code and parameter bytes name; none for a code that section 11.4 does not
list. -/
def decodeCmd (code : Byte) (ps : List Byte) : Option Cmd :=
  match code.toNat with
  | 0x01 => some .noOperation
  | 0x02 => some (.identify (halfAt ps 0))
  | 0x03 => some .readDetail
  | 0x04 => some .resetPart
  | 0x10 => some (.zoneOn (byteAt ps 0))
  | 0x11 => some (.zoneStandby (byteAt ps 0))
  | 0x12 => some (.selectSource (byteAt ps 0) (byteAt ps 1))
  | 0x13 => some (.setVolume (byteAt ps 0) (halfAt ps 1))
  | 0x14 => some (.stepVolume (byteAt ps 0) (byteAt ps 1))
  | 0x15 => some (.setMute (byteAt ps 0) (byteAt ps 1))
  | 0x16 => some (.setMaxVolume (byteAt ps 0) (halfAt ps 1))
  | 0x17 => some (.setLipSync (byteAt ps 0) (halfAt ps 1))
  | 0x18 => some (.setSurroundMode (byteAt ps 0) (byteAt ps 1))
  | 0x19 => some (.setSleepTimer (byteAt ps 0) (byteAt ps 1))
  | 0x1A => some (.readZone (byteAt ps 0) (halfAt ps 1))
  | 0x20 => some (.pushOverride (byteAt ps 0) (byteAt ps 1) (halfAt ps 2))
  | 0x21 => some (.popOverride (byteAt ps 0))
  | 0x22 => some (.readOverrideStack (byteAt ps 0) (halfAt ps 1))
  | 0x30 => some (.setAssignment (byteAt ps 0) (byteAt ps 1) (byteAt ps 2) (byteAt ps 3))
  | 0x31 => some (.readAssignment (halfAt ps 0))
  | 0x32 => some (.setProtectionLevels (byteAt ps 0) (byteAt ps 1) (byteAt ps 2))
  | 0x33 => some (.readProtection (halfAt ps 0))
  | 0x34 => some (.clearFault (byteAt ps 0))
  | 0x40 => some (.readInput (byteAt ps 0) (halfAt ps 1))
  | 0x41 => some (.readDecoder (byteAt ps 0) (halfAt ps 1))
  | 0x50 => some (.setSpeaker (byteAt ps 0) (byteAt ps 1) (halfAt ps 2) (byteAt ps 4) (byteAt ps 5))
  | 0x51 => some (.setCrossover (byteAt ps 0))
  | 0x52 => some (.readSpeakers (halfAt ps 0))
  | 0x60 => some (.memoryStart (byteAt ps 0))
  | 0x61 => some .compactDelayMemory
  | 0x62 => some (.readSegmentTable (halfAt ps 0))
  | 0x70 => some (.tune (byteAt ps 0) (halfAt ps 1))
  | 0x71 => some (.stepTune (byteAt ps 0))
  | 0x72 => some (.seek (byteAt ps 0))
  | 0x73 => some (.scan (byteAt ps 0))
  | 0x74 => some (.setSeekThreshold (byteAt ps 0))
  | 0x75 => some (.setRegion (byteAt ps 0))
  | 0x76 => some (.readTuner (halfAt ps 0))
  | 0x80 => some (.storePreset (byteAt ps 0))
  | 0x81 => some (.recallPreset (byteAt ps 0))
  | 0x82 => some (.clearPreset (byteAt ps 0))
  | 0x83 => some (.readPresets (byteAt ps 0) (halfAt ps 1))
  | 0x84 => some (.readStationList (byteAt ps 0) (halfAt ps 1))
  | 0x85 => some (.recallStation (byteAt ps 0))
  | 0x90 => some .notifyOn
  | 0x91 => some .notifyOff
  | 0x92 => some (.setEventEnable (halfAt ps 0))
  | 0x93 => some (.fetchEvent (byteAt ps 0))
  | 0x94 => some .peekEvents
  | 0x95 => some (.raiseEvent (byteAt ps 0))
  | 0x96 => some .readCompletion
  | 0x97 => some (.abortOperation (byteAt ps 0))
  | 0x98 => some (.readSlots (halfAt ps 0))
  | _ => none

/-- The bytes of a command frame: length, tag, code, flags, parameters (section 11.2). -/
def encodeFrame (h : FrameHead) (c : Cmd) : List Byte :=
  [BitVec.ofNat 8 h.length, h.tag, c.code, h.flags] ++ c.params

/-- The head and the command of the bytes of a frame; none when there are fewer than 4 bytes or
the code is not known. The length is the number of bytes. -/
def decodeFrame (bytes : List Byte) : Option (FrameHead × Cmd) :=
  match bytes with
  | _ :: tag :: code :: flags :: ps =>
    (decodeCmd code ps).map (fun c => (FrameHead.mk bytes.length tag flags, c))
  | _ => none

end Sys2Proof
end

