-- ==== Sys2Proof/Machine/Filters.lean ====
section
/-! DEFINITION. The crossover filters: what R102 states of them, over sections whose arithmetic is free. -/

namespace Sys2Proof

/-! ### Filters as steps -/

/-- The internal values of one second-order section. DESIGN CHOICE: two of them (log 7). -/
structure SectionState where
  v1 : Int
  v2 : Int
deriving DecidableEq, Repr, Inhabited

/-- The internal values of one fourth-order filter: two second-order sections (R102). -/
structure FilterState where
  first : SectionState
  second : SectionState
deriving DecidableEq, Repr, Inhabited

/-- One step of a section: from its internal values and a sample, the new internal values and what the
section gives. -/
abbrev SectionStep := SectionState → Int → SectionState × Int

/-- One step of a filter, as of a section; what it gives is before saturation. -/
abbrev FilterStep := FilterState → Int → FilterState × Int

/-- The internal values at zero, from which a section starts (R101). -/
def SectionState.zero : SectionState := ⟨0, 0⟩

/-- The internal values at zero, from which a filter starts (R101). -/
def FilterState.zero : FilterState := ⟨SectionState.zero, SectionState.zero⟩

/-- Two sections in cascade: the second takes what the first gives (R102). -/
def cascade (f g : SectionStep) : FilterStep := fun st x =>
  (⟨(f st.first x).1, (g st.second (f st.first x).2).1⟩, (g st.second (f st.first x).2).2)

/-- The internal values of a section or a filter before sample `n` of a signal. -/
def runInner {σ : Type} (f : σ → Int → σ × Int) (start : σ) (x : Nat → Int) : Nat → σ
  | 0 => start
  | n + 1 => (f (runInner f start x n) (x n)).1

/-- What a section or a filter gives for sample `n` of a signal. -/
def runOut {σ : Type} (f : σ → Int → σ × Int) (start : σ) (x : Nat → Int) (n : Nat) : Int :=
  (f (runInner f start x n) (x n)).2

/-- What a section that starts from zero gives for a signal. -/
def SectionStep.out (f : SectionStep) (x : Nat → Int) : Nat → Int := runOut f SectionState.zero x

/-- What a filter that starts from zero gives for a signal. -/
def FilterStep.out (f : FilterStep) (x : Nat → Int) : Nat → Int := runOut f FilterState.zero x

/-- A cascade gives what its second section gives for what its first section gives. -/
theorem cascade_out (f g : SectionStep) (x : Nat → Int) : (cascade f g).out x = g.out (f.out x) := by
  have h : ∀ n, runInner (cascade f g) FilterState.zero x n =
      ⟨runInner f SectionState.zero x n, runInner g SectionState.zero (f.out x) n⟩ := by
    intro n
    induction n with
    | zero => rfl
    | succ n ih => simp only [runInner, ih]; rfl
  funext n
  simp only [FilterStep.out, runOut, h]
  rfl

/-! ### Responses -/

/-- A signal of 24-bit samples. -/
def IsSignal (x : Nat → Int) : Prop := ∀ n, -8388608 ≤ x n ∧ x n ≤ 8388607

/-- From some sample on, two signals differ by no more than `tol`. -/
def SettlesTo (y z : Nat → Int) (tol : Nat) : Prop := ∃ m, ∀ n, m ≤ n → |y n - z n| ≤ (tol : Int)

/-- Sample `n` is within `tol` of a sinusoid at the internal rate: amplitude, frequency in Hz, phase. -/
def NearSinusoid (amplitude f phase : ℝ) (tol n : Nat) (y : Int) : Prop :=
  |(y : ℝ) - amplitude * Real.sin (2 * Real.pi * f / 48000 * n + phase)| ≤ (tol : ℝ)

/-- A section or a filter passes frequency `f` at `gain`: one gain no more than a hundredth from `gain`,
and one shift of the phase, such that every sampled sinusoid of that frequency becomes, from some sample
on, the one of that gain times the amplitude, to within 64 steps of a sample.
DESIGN CHOICE: the hundredth and the 64 steps (log 7). -/
def Passes (out : (Nat → Int) → Nat → Int) (f gain : ℝ) : Prop :=
  ∃ g shift : ℝ, |g - gain| ≤ 1 / 100 ∧ ∀ (amplitude phase : ℝ) (x : Nat → Int), IsSignal x →
    (∀ n, NearSinusoid amplitude f phase 1 n (x n)) →
    ∃ m, ∀ n, m ≤ n → NearSinusoid (g * amplitude) f (phase + shift) 64 n (out x n)

/-- The crossover frequencies, in Hz (R91). -/
def IsCrossover (hz : Nat) : Prop := hz = 60 ∨ hz = 80 ∨ hz = 100 ∨ hz = 120

/-- The gain of a second-order Butterworth section at a ratio: for a low-pass the frequency over the
crossover, for a high-pass the crossover over the frequency (R102). -/
noncomputable def sectionGain (ratio : ℝ) : ℝ := 1 / √(1 + ratio ^ 4)

/-- The gain of two such sections in cascade (R102). -/
noncomputable def filterGain (ratio : ℝ) : ℝ := 1 / (1 + ratio ^ 4)

/-- A section is −3 dB at the crossover: half the power (R102). -/
theorem sectionGain_crossover : sectionGain 1 ^ 2 = 1 / 2 := by
  norm_num [sectionGain, div_pow]

/-- A filter is −6 dB at the crossover: half the amplitude (R102). -/
theorem filterGain_crossover : filterGain 1 = 1 / 2 := by norm_num [filterGain]

/-- Four times above a high-pass's crossover, or below a low-pass's, the gain is unity to within half a
hundredth (R102). -/
theorem filterGain_unity (r : ℝ) (h0 : 0 ≤ r) (h : 4 * r ≤ 1) : |filterGain r - 1| ≤ 1 / 200 := by
  have h4 : r ^ 4 ≤ (1 / 4) ^ 4 := by gcongr; linarith
  have h5 : 0 ≤ r ^ 4 := by positivity
  have e : filterGain r - 1 = -(r ^ 4 / (1 + r ^ 4)) := by
    unfold filterGain; field_simp; ring
  rw [e, abs_neg, abs_of_nonneg (by positivity), div_le_iff₀ (by positivity)]
  norm_num at h4
  linarith

/-- The crossover filters with the responses that R102 states: each is two second-order Butterworth
sections in cascade. The coefficients and the arithmetic of the sections are not given, so everything
else of the four sections is free (log 7). -/
structure CrossoverFilters where
  /-- The sections of the high-pass and of the low-pass at a crossover frequency in Hz. -/
  highFirst : Nat → SectionStep
  highSecond : Nat → SectionStep
  lowFirst : Nat → SectionStep
  lowSecond : Nat → SectionStep
  /-- Each section of the high-pass is a Butterworth section: −3 dB at the crossover. -/
  high_sections : ∀ hz, IsCrossover hz → ∀ f : ℝ, 0 < f → f < 24000 →
    Passes (highFirst hz).out f (sectionGain (hz / f)) ∧ Passes (highSecond hz).out f (sectionGain (hz / f))
  /-- Each section of the low-pass is a Butterworth section: −3 dB at the crossover. -/
  low_sections : ∀ hz, IsCrossover hz → ∀ f : ℝ, 0 < f → f < 24000 →
    Passes (lowFirst hz).out f (sectionGain (f / hz)) ∧ Passes (lowSecond hz).out f (sectionGain (f / hz))
  /-- The high-pass: −6 dB at the crossover, unity gain well above it. -/
  high_filter : ∀ hz, IsCrossover hz → ∀ f : ℝ, 0 < f → f < 24000 →
    Passes (cascade (highFirst hz) (highSecond hz)).out f (filterGain (hz / f))
  /-- The low-pass: −6 dB at the crossover, unity gain well below it. -/
  low_filter : ∀ hz, IsCrossover hz → ∀ f : ℝ, 0 < f → f < 24000 →
    Passes (cascade (lowFirst hz) (lowSecond hz)).out f (filterGain (f / hz))
  /-- The high-pass removes a constant signal. DEDUCED: to the step of a sample (log 7). -/
  high_removes_constant : ∀ hz, IsCrossover hz → ∀ (x : Nat → Int) (c : Int) (m : Nat), IsSignal x →
    (∀ n, m ≤ n → x n = c) → SettlesTo ((cascade (highFirst hz) (highSecond hz)).out x) (fun _ => 0) 0
  /-- The high-pass removes the constant part of a signal. -/
  high_removes_part : ∀ hz, IsCrossover hz → ∀ (x : Nat → Int) (c : Int), IsSignal x →
    IsSignal (fun n => x n + c) →
    SettlesTo ((cascade (highFirst hz) (highSecond hz)).out (fun n => x n + c))
      ((cascade (highFirst hz) (highSecond hz)).out x) 64
  /-- The low-pass passes a constant signal at unity gain. DEDUCED: to the step of a sample (log 7). -/
  low_passes_constant : ∀ hz, IsCrossover hz → ∀ (x : Nat → Int) (c : Int) (m : Nat), IsSignal x →
    (∀ n, m ≤ n → x n = c) → SettlesTo ((cascade (lowFirst hz) (lowSecond hz)).out x) (fun _ => c) 0

end Sys2Proof
end

