-- ==== Sys2Proof/Laws/Butterworth.lean ====
section
/-! SUPPORT. Filters with the responses of R102 exist: sections in exact rational arithmetic, by the bilinear
transform, their outputs rounded to the step of a sample. No part's filters; they serve for nothing else. -/

namespace Sys2Proof.Butterworth

/-! ### Recursions of first and second order -/

/-- A first-order recursion with a pole inside the unit circle: bounded by its input. -/
theorem onePole_bounded (p : ℂ) (hp : ‖p‖ < 1) (u v : ℕ → ℂ) (hu : ∀ n, u (n + 1) = p * u n + v n)
    (V : ℝ) (hV : 0 ≤ V) (N : ℕ) (hv : ∀ n, N ≤ n → ‖v n‖ ≤ V) (ε : ℝ) (hε : 0 < ε) :
    ∃ m, ∀ n, m ≤ n → ‖u n‖ ≤ V / (1 - ‖p‖) + ε := by
  have hd : 0 < 1 - ‖p‖ := by linarith
  have key : ∀ k, ‖u (N + k)‖ ≤ ‖p‖ ^ k * ‖u N‖ + V / (1 - ‖p‖) := by
    intro k
    induction k with
    | zero => simp; positivity
    | succ k ih =>
      have h1 : ‖u (N + (k + 1))‖ ≤ ‖p‖ * ‖u (N + k)‖ + V := by
        rw [← add_assoc, hu]
        refine (norm_add_le _ _).trans ?_
        rw [norm_mul]
        have := hv (N + k) (by omega)
        linarith
      have h2 : ‖p‖ * ‖u (N + k)‖ ≤ ‖p‖ * (‖p‖ ^ k * ‖u N‖ + V / (1 - ‖p‖)) := by gcongr
      have h3 : ‖p‖ * (V / (1 - ‖p‖)) + V = V / (1 - ‖p‖) := by field_simp; ring
      rw [pow_succ]
      nlinarith
  have hlim : Filter.Tendsto (fun k => ‖p‖ ^ k * ‖u N‖) Filter.atTop (nhds 0) := by
    simpa using (tendsto_pow_atTop_nhds_zero_of_lt_one (norm_nonneg p) hp).mul_const ‖u N‖
  obtain ⟨k, hk⟩ := (hlim.eventually (gt_mem_nhds hε)).exists_forall_of_atTop
  refine ⟨N + k, fun n hn => ?_⟩
  obtain ⟨j, rfl⟩ := Nat.exists_eq_add_of_le hn
  have := key (k + j)
  have h2 := hk (k + j) (by omega)
  rw [add_assoc]
  linarith

/-- The same with an input that vanishes: it vanishes. -/
theorem onePole_zero (p : ℂ) (hp : ‖p‖ < 1) (u v : ℕ → ℂ) (hu : ∀ n, u (n + 1) = p * u n + v n)
    (hv : ∀ ε : ℝ, 0 < ε → ∃ m, ∀ n, m ≤ n → ‖v n‖ ≤ ε) (ε : ℝ) (hε : 0 < ε) :
    ∃ m, ∀ n, m ≤ n → ‖u n‖ ≤ ε := by
  have hd : 0 < 1 - ‖p‖ := by linarith
  obtain ⟨N, hN⟩ := hv (ε / 2 * (1 - ‖p‖)) (by positivity)
  obtain ⟨m, hm⟩ := onePole_bounded p hp u v hu _ (by positivity) N hN (ε / 2) (by positivity)
  refine ⟨m, fun n hn => (hm n hn).trans ?_⟩
  rw [mul_div_assoc, div_self hd.ne']
  linarith

/-- A second-order recursion with poles inside the unit circle forgets its start. -/
theorem twoPole_zero (p q : ℂ) (hp : ‖p‖ < 1) (hq : ‖q‖ < 1) (w : ℕ → ℂ)
    (hw : ∀ n, w (n + 2) = (p + q) * w (n + 1) - p * q * w n) (ε : ℝ) (hε : 0 < ε) :
    ∃ m, ∀ n, m ≤ n → ‖w n‖ ≤ ε := by
  refine onePole_zero q hq w (fun n => w (n + 1) - q * w n) (fun n => by ring) (fun ε hε => ?_) ε hε
  refine onePole_zero p hp _ (fun _ => 0) (fun n => ?_) (fun ε hε => ⟨0, fun _ _ => by simpa using hε.le⟩) ε hε
  have := hw n
  simp only [show n + 1 + 1 = n + 2 from rfl, this]
  ring

/-- A first-order section with a zero at `-ζ`: its output is bounded by `M` times its input. -/
theorem stage_bounded (p c : ℂ) (hp : ‖p‖ < 1) (ζ : ℂ) (M : ℝ)
    (h : (ζ = 1 ∧ 2 * ‖c‖ ≤ M * (1 - ‖p‖)) ∨ (ζ = -1 ∧ ‖c‖ ≤ 1 ∧ ‖p - 1‖ ≤ (M - 1) * (1 - ‖p‖)))
    (a e : ℕ → ℂ) (ha : ∀ n, a (n + 1) = p * a n + c * (e (n + 1) + ζ * e n))
    (E : ℝ) (hE : 0 ≤ E) (N : ℕ) (he : ∀ n, N ≤ n → ‖e n‖ ≤ E) (ε : ℝ) (hε : 0 < ε) :
    ∃ m, ∀ n, m ≤ n → ‖a n‖ ≤ M * E + ε := by
  have hd : 0 < 1 - ‖p‖ := by linarith
  rcases h with ⟨rfl, hc⟩ | ⟨rfl, hc, hpc⟩
  · obtain ⟨m, hm⟩ := onePole_bounded p hp a _ ha (2 * ‖c‖ * E) (by positivity) N (fun n hn => by
      rw [norm_mul, one_mul]
      have := norm_add_le (e (n + 1)) (e n)
      have h1 := he n hn
      have h2 := he (n + 1) (by omega)
      nlinarith [norm_nonneg c]) ε hε
    refine ⟨m, fun n hn => (hm n hn).trans ?_⟩
    gcongr
    rw [div_le_iff₀ hd]
    nlinarith
  · obtain ⟨m, hm⟩ := onePole_bounded p hp (fun n => a n - c * e n) (fun n => (p - 1) * c * e n)
      (fun n => by simp only [ha]; ring) (‖p - 1‖ * E) (by positivity) N (fun n hn => by
        rw [norm_mul, norm_mul]
        have h1 := he n hn
        calc ‖p - 1‖ * ‖c‖ * ‖e n‖ ≤ ‖p - 1‖ * 1 * E := by gcongr
          _ = _ := by ring) ε hε
    refine ⟨max m N, fun n hn => ?_⟩
    have h1 := hm n (le_of_max_le_left hn)
    have h2 := he n (le_of_max_le_right hn)
    have h3 : ‖a n‖ ≤ ‖a n - c * e n‖ + ‖c * e n‖ := by
      simpa using norm_add_le (a n - c * e n) (c * e n)
    rw [norm_mul] at h3
    have h4 : ‖c‖ * ‖e n‖ ≤ 1 * E := by gcongr
    have h5 : ‖p - 1‖ * E / (1 - ‖p‖) ≤ (M - 1) * E := by
      rw [div_le_iff₀ hd]; nlinarith
    linarith

/-- A second-order section with the poles `p` and its conjugate: bounded by `M * M` times its input. -/
theorem section_bounded (p c : ℂ) (hp : ‖p‖ < 1) (ζ : ℂ) (M : ℝ)  (hM : 0 ≤ M)
    (h : (ζ = 1 ∧ 2 * ‖c‖ ≤ M * (1 - ‖p‖)) ∨ (ζ = -1 ∧ ‖c‖ ≤ 1 ∧ ‖p - 1‖ ≤ (M - 1) * (1 - ‖p‖)))
    (d e : ℕ → ℂ) (hd : ∀ n, d (n + 2) = (p + starRingEnd ℂ p) * d (n + 1) - p * starRingEnd ℂ p * d n +
      c * starRingEnd ℂ c * (e (n + 2) + 2 * ζ * e (n + 1) + e n))
    (E : ℝ) (hE : 0 ≤ E) (N : ℕ) (he : ∀ n, N ≤ n → ‖e n‖ ≤ E) (ε : ℝ) (hε : 0 < ε) :
    ∃ m, ∀ n, m ≤ n → ‖d n‖ ≤ M * (M * E) + ε := by
  let a : ℕ → ℂ := fun n => Nat.rec 0 (fun n x => p * x + c * (e (n + 1) + ζ * e n)) n
  have ha : ∀ n, a (n + 1) = p * a n + c * (e (n + 1) + ζ * e n) := fun n => rfl
  let b : ℕ → ℂ := fun n => Nat.rec 0 (fun n x => starRingEnd ℂ p * x + starRingEnd ℂ c * (a (n + 1) + ζ * a n)) n
  have hb : ∀ n, b (n + 1) = starRingEnd ℂ p * b n + starRingEnd ℂ c * (a (n + 1) + ζ * a n) := fun n => rfl
  have hζ : ζ * ζ = 1 := by rcases h with ⟨rfl, _⟩ | ⟨rfl, _⟩ <;> norm_num
  have hq : ‖starRingEnd ℂ p‖ < 1 := by simpa using hp
  have h' : (ζ = 1 ∧ 2 * ‖starRingEnd ℂ c‖ ≤ M * (1 - ‖starRingEnd ℂ p‖)) ∨
      (ζ = -1 ∧ ‖starRingEnd ℂ c‖ ≤ 1 ∧ ‖starRingEnd ℂ p - 1‖ ≤ (M - 1) * (1 - ‖starRingEnd ℂ p‖)) := by
    have e1 : ‖starRingEnd ℂ p - 1‖ = ‖p - 1‖ := by
      rw [show starRingEnd ℂ p - 1 = starRingEnd ℂ (p - 1) by simp, Complex.norm_conj]
    rw [e1, Complex.norm_conj, Complex.norm_conj]
    exact h
  obtain ⟨m1, hm1⟩ := stage_bounded p c hp ζ M h a e ha E hE N he (ε / 4 / (M + 1)) (by positivity)
  obtain ⟨m2, hm2⟩ := stage_bounded _ _ hq ζ M h' b a hb (M * E + ε / 4 / (M + 1)) (by positivity) m1 hm1
    (ε / 4) (by positivity)
  obtain ⟨m3, hm3⟩ := twoPole_zero p (starRingEnd ℂ p) hp hq (fun n => d n - b n) (fun n => by
    have e1 := hb (n + 1)
    have e2 := hb n
    have e3 := ha (n + 1)
    have e4 := ha n
    simp only [show n + 1 + 1 = n + 2 from rfl] at *
    rw [hd n, e1, e3, e4]
    linear_combination (-p) * e2 - p * starRingEnd ℂ c * e4 - c * starRingEnd ℂ c * e n * hζ) (ε / 4) (by positivity)
  refine ⟨max m2 m3, fun n hn => ?_⟩
  have h1 := hm2 n (le_of_max_le_left hn)
  have h2 := hm3 n (le_of_max_le_right hn)
  have h3 : ‖d n‖ ≤ ‖d n - b n‖ + ‖b n‖ := by simpa using norm_add_le (d n - b n) (b n)
  have h4 : M * (ε / 4 / (M + 1)) ≤ ε / 4 := by
    rw [mul_div_assoc', div_le_iff₀ (by positivity)]; nlinarith
  have : M * (M * E + ε / 4 / (M + 1)) = M * (M * E) + M * (ε / 4 / (M + 1)) := by ring
  linarith

/-! ### The poles, the coefficients and the response of a section -/

section

open Complex

/-- The upper pole of a second-order Butterworth section: the bilinear image of `-κ + κ i`. -/
noncomputable def pole (κ : ℝ) : ℂ := ⟨(1 - 2 * κ ^ 2) / (1 + 2 * κ + 2 * κ ^ 2), 2 * κ / (1 + 2 * κ + 2 * κ ^ 2)⟩

theorem pole_facts (κ : ℝ) (h0 : 0 < κ) (h1 : κ ≤ 6 / 1000) :
    ‖pole κ‖ < 1 ∧ ‖pole κ - 1‖ ≤ 3 / 2 * (1 - ‖pole κ‖) ∧ ‖1 + pole κ‖ ≤ 2 ∧
    normSq (pole κ) = (1 - 2 * κ + 2 * κ ^ 2) / (1 + 2 * κ + 2 * κ ^ 2) ∧
    normSq (1 - pole κ) = 8 * κ ^ 2 / (1 + 2 * κ + 2 * κ ^ 2) ∧
    normSq (1 + pole κ) = 4 / (1 + 2 * κ + 2 * κ ^ 2) := by
  have hD : 0 < 1 + 2 * κ + 2 * κ ^ 2 := by positivity
  have e1 : normSq (pole κ) = (1 - 2 * κ + 2 * κ ^ 2) / (1 + 2 * κ + 2 * κ ^ 2) := by
    simp only [normSq_apply, pole]; field_simp; ring
  have e2 : normSq (1 - pole κ) = 8 * κ ^ 2 / (1 + 2 * κ + 2 * κ ^ 2) := by
    simp only [normSq_apply, pole, sub_re, sub_im, one_re, one_im]; field_simp; ring
  have e3 : normSq (1 + pole κ) = 4 / (1 + 2 * κ + 2 * κ ^ 2) := by
    simp only [normSq_apply, pole, add_re, add_im, one_re, one_im]; field_simp; ring
  have n1 : ‖pole κ‖ ^ 2 = (1 - 2 * κ + 2 * κ ^ 2) / (1 + 2 * κ + 2 * κ ^ 2) := by rw [← normSq_eq_norm_sq, e1]
  have n2 : ‖1 - pole κ‖ ^ 2 = 8 * κ ^ 2 / (1 + 2 * κ + 2 * κ ^ 2) := by rw [← normSq_eq_norm_sq, e2]
  have n3 : ‖1 + pole κ‖ ^ 2 = 4 / (1 + 2 * κ + 2 * κ ^ 2) := by rw [← normSq_eq_norm_sq, e3]
  have hlt : ‖pole κ‖ < 1 := by
    have : ‖pole κ‖ ^ 2 < 1 := by rw [n1, div_lt_one hD]; linarith
    nlinarith [norm_nonneg (pole κ)]
  have hgap : 2 * κ / (1 + 2 * κ + 2 * κ ^ 2) ≤ 1 - ‖pole κ‖ := by
    have h2 : 1 - ‖pole κ‖ ^ 2 = 4 * κ / (1 + 2 * κ + 2 * κ ^ 2) := by rw [n1]; field_simp; ring
    have h3 : 4 * κ / (1 + 2 * κ + 2 * κ ^ 2) = 2 * (2 * κ / (1 + 2 * κ + 2 * κ ^ 2)) := by ring
    nlinarith [norm_nonneg (pole κ)]
  refine ⟨hlt, ?_, ?_, e1, e2, e3⟩
  · rw [norm_sub_rev]
    refine le_trans ?_ (mul_le_mul_of_nonneg_left hgap (by norm_num))
    refine abs_le_of_sq_le_sq' ?_ (by positivity) |>.2
    have e4 : (3 / 2 * (2 * κ / (1 + 2 * κ + 2 * κ ^ 2))) ^ 2 =
        9 * κ ^ 2 / (1 + 2 * κ + 2 * κ ^ 2) / (1 + 2 * κ + 2 * κ ^ 2) := by field_simp; ring
    rw [n2, e4, le_div_iff₀ hD, div_mul_cancel₀ _ hD.ne']
    have : 1 + 2 * κ + 2 * κ ^ 2 ≤ 9 / 8 := by nlinarith
    rw [le_div_iff₀ hD]
    nlinarith [sq_nonneg κ]
  · have : ‖1 + pole κ‖ ^ 2 ≤ 2 ^ 2 := by rw [n3, div_le_iff₀ hD]; nlinarith
    exact abs_le_of_sq_le_sq' this (by norm_num) |>.2

/-- The feed-forward coefficient: `ζ` is 1 for a low-pass and −1 for a high-pass. -/
noncomputable def feed (κ ζ : ℝ) : ℝ := (if ζ = 1 then 2 * κ ^ 2 else 1) / (1 + 2 * κ + 2 * κ ^ 2)

/-- Two runs of one section whose inputs come close: their outputs come close. -/
theorem section_close (κ ζ : ℝ) (h0 : 0 < κ) (h1 : κ ≤ 6 / 1000) (hζ : ζ = 1 ∨ ζ = -1) (X Y x y : ℕ → ℝ)
    (hY : ∀ n, Y (n + 2) = 2 * (pole κ).re * Y (n + 1) - normSq (pole κ) * Y n +
      feed κ ζ * (X (n + 2) + 2 * ζ * X (n + 1) + X n))
    (hy : ∀ n, y (n + 2) = 2 * (pole κ).re * y (n + 1) - normSq (pole κ) * y n +
      feed κ ζ * (x (n + 2) + 2 * ζ * x (n + 1) + x n))
    (E : ℝ) (hE : 0 ≤ E) (N : ℕ) (he : ∀ n, N ≤ n → |X n - x n| ≤ E) :
    ∃ m, ∀ n, m ≤ n → |Y n - y n| ≤ 25 / 4 * E + 1 / 4 := by
  obtain ⟨hp, hp1, hp2, e1, e2, e3⟩ := pole_facts κ h0 h1
  let c : ℂ := (1 + (-ζ : ℝ) * pole κ) / 2
  have hc : c * starRingEnd ℂ c = (feed κ ζ : ℝ) := by
    rw [mul_conj]
    congr 1
    simp only [c, map_div₀]
    have h4 : normSq (2 : ℂ) = 4 := by norm_num [normSq_apply]
    rcases hζ with rfl | rfl
    · have : (1 + ((-1 : ℝ) : ℂ) * pole κ) = 1 - pole κ := by push_cast; ring
      rw [this, e2, h4]; simp only [feed, if_true]; field_simp; ring
    · have : (1 + ((- -1 : ℝ) : ℂ) * pole κ) = 1 + pole κ := by push_cast; ring
      rw [this, e3, h4]; simp only [feed, if_neg (show ¬ (-1 : ℝ) = 1 by norm_num)]; field_simp
  have hM : ((ζ : ℂ) = 1 ∧ 2 * ‖c‖ ≤ (5 / 2 : ℝ) * (1 - ‖pole κ‖)) ∨
      ((ζ : ℂ) = -1 ∧ ‖c‖ ≤ 1 ∧ ‖pole κ - 1‖ ≤ ((5 / 2 : ℝ) - 1) * (1 - ‖pole κ‖)) := by
    have h2 : ‖(2 : ℂ)‖ = 2 := by norm_num
    rcases hζ with rfl | rfl
    · left
      refine ⟨by norm_num, ?_⟩
      have : (1 + ((-1 : ℝ) : ℂ) * pole κ) = 1 - pole κ := by push_cast; ring
      simp only [c, norm_div, h2, this]
      rw [norm_sub_rev] at hp1
      linarith
    · right
      refine ⟨by norm_num, ?_, by norm_num; linarith⟩
      have : (1 + ((- -1 : ℝ) : ℂ) * pole κ) = 1 + pole κ := by push_cast; ring
      simp only [c, norm_div, h2, this]
      linarith
  obtain ⟨m, hm⟩ := section_bounded (pole κ) c hp ζ (5 / 2) (by norm_num) hM
    (fun n => ((Y n - y n : ℝ) : ℂ)) (fun n => ((X n - x n : ℝ) : ℂ)) (fun n => by
      rw [hc, mul_conj, add_conj]
      norm_cast
      rw [hY, hy]
      ring) E hE N (fun n hn => by rw [norm_real]; exact he n hn) (1 / 4) (by norm_num)
  refine ⟨m, fun n hn => ?_⟩
  have := hm n hn
  rw [norm_real, Real.norm_eq_abs] at this
  linarith

/-- A sinusoid is an exact run of a section: the response, whose gain is `G`. -/
theorem section_sinusoid (κ ζ : ℝ) (h0 : 0 < κ) (h1 : κ ≤ 6 / 1000) (hζ : ζ = 1 ∨ ζ = -1) (ω : ℝ) :
    ∃ G shift : ℝ, 0 ≤ G ∧
      G ^ 2 = feed κ ζ ^ 2 * (2 + 2 * ζ * Real.cos ω) ^ 2 * (1 + 2 * κ + 2 * κ ^ 2) ^ 2 /
        (4 * (4 * κ ^ 4 * (1 + Real.cos ω) ^ 2 + (1 - Real.cos ω) ^ 2)) ∧
      ∀ (A φ : ℝ) (n : ℕ), G * A * Real.sin (ω * (n + 2 : ℕ) + (φ + shift)) =
        2 * (pole κ).re * (G * A * Real.sin (ω * (n + 1 : ℕ) + (φ + shift))) -
        normSq (pole κ) * (G * A * Real.sin (ω * n + (φ + shift))) +
        feed κ ζ * (A * Real.sin (ω * (n + 2 : ℕ) + φ) + 2 * ζ * (A * Real.sin (ω * (n + 1 : ℕ) + φ)) +
          A * Real.sin (ω * n + φ)) := by
  obtain ⟨hp, hp1, hp2, e1, e2, e3⟩ := pole_facts κ h0 h1
  have hD : 0 < 1 + 2 * κ + 2 * κ ^ 2 := by positivity
  let z : ℂ := exp (ω * I)
  have hz : ‖z‖ = 1 := by simp [z, norm_exp_ofReal_mul_I]
  let q : ℂ := z ^ 2 - 2 * (pole κ).re * z + normSq (pole κ)
  have hq : q ≠ 0 := by
    have hfac : q = (z - pole κ) * (z - starRingEnd ℂ (pole κ)) := by
      have a1 := add_conj (pole κ)
      have a2 := mul_conj (pole κ)
      simp only [q]
      push_cast at a1
      linear_combination z * a1 - a2
    rw [hfac]
    refine mul_ne_zero (fun h => ?_) (fun h => ?_)
    · have : z = pole κ := sub_eq_zero.1 h
      rw [← this, hz] at hp; exact lt_irrefl _ hp
    · have : z = starRingEnd ℂ (pole κ) := sub_eq_zero.1 h
      have h5 : ‖z‖ = ‖pole κ‖ := by rw [this, norm_conj]
      rw [hz] at h5; linarith
  let H : ℂ := feed κ ζ * (z + ζ) ^ 2 / q
  have hcos : z.re = Real.cos ω := by simp [z, exp_ofReal_mul_I_re]
  have hsin : z.im = Real.sin ω := by simp [z, exp_ofReal_mul_I_im]
  have hS := Real.sin_sq_add_cos_sq ω
  refine ⟨‖H‖, arg H, norm_nonneg _, ?_, ?_⟩
  · have hnum : normSq (z + ζ) = 2 + 2 * ζ * Real.cos ω := by
      have hζ2 : ζ ^ 2 = 1 := by rcases hζ with rfl | rfl <;> norm_num
      simp only [normSq_apply, add_re, add_im, ofReal_re, ofReal_im, hcos, hsin]
      nlinarith
    have hden : normSq q = 4 * (4 * κ ^ 4 * (1 + Real.cos ω) ^ 2 + (1 - Real.cos ω) ^ 2) /
        (1 + 2 * κ + 2 * κ ^ 2) ^ 2 := by
      have hre : (pole κ).re = (1 - 2 * κ ^ 2) / (1 + 2 * κ + 2 * κ ^ 2) := rfl
      have r1 : q.re = Real.cos ω ^ 2 - Real.sin ω ^ 2 - 2 * (pole κ).re * Real.cos ω + normSq (pole κ) := by
        simp only [q, sq, add_re, sub_re, mul_re, ofReal_re, ofReal_im, hcos, hsin, mul_im, re_ofNat, im_ofNat]; ring
      have r2 : q.im = 2 * Real.cos ω * Real.sin ω - 2 * (pole κ).re * Real.sin ω := by
        simp only [q, sq, add_im, sub_im, mul_re, ofReal_re, ofReal_im, hcos, hsin, mul_im, re_ofNat, im_ofNat]; ring
      rw [normSq_apply, r1, r2, e1, hre]
      generalize Real.cos ω = C at *
      generalize Real.sin ω = S at *
      have hS2 : S ^ 2 = 1 - C ^ 2 := by linarith
      have expand : ∀ a b : ℝ, (C ^ 2 - S ^ 2 - 2 * a * C + b) * (C ^ 2 - S ^ 2 - 2 * a * C + b) +
          (2 * C * S - 2 * a * S) * (2 * C * S - 2 * a * S) =
          (2 * C ^ 2 - 1 - 2 * a * C + b) ^ 2 + 4 * (C - a) ^ 2 * (1 - C ^ 2) := by
        intro a b
        have : (2 * C * S - 2 * a * S) * (2 * C * S - 2 * a * S) = 4 * (C - a) ^ 2 * S ^ 2 := by ring
        rw [this, hS2]; ring
      rw [expand]
      field_simp
      ring
    rw [← normSq_eq_norm_sq]
    simp only [H]
    rw [map_div₀, map_mul, map_pow, hnum, hden, normSq_ofReal]
    field_simp
  · intro A φ n
    have key : ∀ (k : ℕ), ‖H‖ * A * Real.sin (ω * k + (φ + arg H)) = (H * (A * exp (φ * I)) * z ^ k).im := by
      intro k
      have : H * (A * exp (φ * I)) * z ^ k = ((‖H‖ * A : ℝ) : ℂ) * exp ((ω * k + (φ + arg H) : ℝ) * I) := by
        conv_lhs => rw [← norm_mul_exp_arg_mul_I H]
        simp only [z, ← exp_nat_mul]
        push_cast
        rw [show (‖H‖ : ℂ) * exp (arg H * I) * (A * exp (φ * I)) * exp (k * (ω * I)) =
          ‖H‖ * A * (exp (arg H * I) * exp (φ * I) * exp (k * (ω * I))) by ring, ← exp_add, ← exp_add]
        congr 2; ring
      rw [this, im_ofReal_mul, exp_ofReal_mul_I_im]
    have key' : ∀ (k : ℕ), A * Real.sin (ω * k + φ) = (A * exp (φ * I) * z ^ k).im := by
      intro k
      have : A * exp (φ * I) * z ^ k = (A : ℂ) * exp ((ω * k + φ : ℝ) * I) := by
        simp only [z, ← exp_nat_mul]
        push_cast
        rw [mul_assoc, ← exp_add]
        congr 2; ring
      rw [this, im_ofReal_mul, exp_ofReal_mul_I_im]
    have hH : H * q = feed κ ζ * (z + ζ) ^ 2 := div_mul_cancel₀ _ hq
    have hζ2 : (ζ : ℂ) ^ 2 = 1 := by rcases hζ with rfl | rfl <;> norm_num
    generalize hB : (A : ℂ) * exp (φ * I) = B at key key'
    have hc : H * B * z ^ (n + 2) = ((2 * (pole κ).re : ℝ) : ℂ) * (H * B * z ^ (n + 1)) -
        ((normSq (pole κ) : ℝ) : ℂ) * (H * B * z ^ n) +
        ((feed κ ζ : ℝ) : ℂ) * (B * z ^ (n + 2) + ((2 * ζ : ℝ) : ℂ) * (B * z ^ (n + 1)) + B * z ^ n) := by
      simp only [q] at hH
      push_cast
      linear_combination B * z ^ n * hH + feed κ ζ * B * z ^ n * hζ2
    have := congrArg im hc
    simp only [add_im, sub_im, im_ofReal_mul] at this
    rw [key (n + 2), key (n + 1), key n, key' (n + 2), key' (n + 1), key' n]
    linarith

end

/-! ### Its gain is near the Butterworth gain -/

/-- Gains of near ratios are near. -/
theorem gains_near (x y : ℝ) (hx : 0 < x) (hxy : x ≤ y) (h : y ≤ 102 / 100 * x ∨ 10000 ≤ x ∨ y ≤ 1 / 10000) :
    |1 / √(1 + y) - 1 / √(1 + x)| ≤ 1 / 100 ∧ |1 / (1 + y) - 1 / (1 + x)| ≤ 1 / 100 := by
  have hy : 0 < y := by linarith
  have ha : 0 < 1 / √(1 + y) := by positivity
  have hb : 0 < 1 / √(1 + x) := by positivity
  have ea : (1 / √(1 + y)) ^ 2 = 1 / (1 + y) := by rw [div_pow, Real.sq_sqrt (by positivity), one_pow]
  have eb : (1 / √(1 + x)) ^ 2 = 1 / (1 + x) := by rw [div_pow, Real.sq_sqrt (by positivity), one_pow]
  have fa : 1 / (1 + y) * (1 + y) = 1 := by field_simp
  have fb : 1 / (1 + x) * (1 + x) = 1 := by field_simp
  generalize 1 / √(1 + y) = a at *
  generalize 1 / √(1 + x) = b at *
  generalize 1 / (1 + y) = A at *
  generalize 1 / (1 + x) = B at *
  have hA : 0 < A := by rw [← ea]; positivity
  have hB : 0 < B := by rw [← eb]; positivity
  have hAB : A ≤ B := by nlinarith
  have hab : a ≤ b := by nlinarith
  have hB1 : B ≤ 1 := by nlinarith
  have hb1 : b ≤ 1 := by nlinarith
  have key : b - a ≤ 1 / 100 ∧ B - A ≤ 1 / 100 := by
    rcases h with h | h | h
    · have h1 : B - A = (y - x) * A * B := by linear_combination A * fb - B * fa
      have h2 : B - A ≤ 2 / 100 * (x * A * B) := by rw [h1]; nlinarith [mul_pos hA hB]
      have h3 : x * B ≤ 1 := by nlinarith
      have h4 : x * A * B ≤ A := by nlinarith
      have h5 : x * A * B ≤ B * (1 - B) := by
        have : x * B = 1 - B := by linarith
        nlinarith [mul_le_mul_of_nonneg_right hAB hB.le]
      refine ⟨?_, by nlinarith [sq_nonneg (B - 1 / 2)]⟩
      have h6 : b ^ 2 ≤ (101 / 100 * a) ^ 2 := by rw [eb, mul_pow, ea]; nlinarith
      have h7 : b ≤ 101 / 100 * a := abs_le_of_sq_le_sq' h6 (by positivity) |>.2
      linarith
    · have h1 : B ≤ 1 / 10000 := by nlinarith
      refine ⟨?_, by linarith⟩
      have h6 : b ^ 2 ≤ (1 / 100) ^ 2 := by rw [eb]; linarith
      have h7 : b ≤ 1 / 100 := abs_le_of_sq_le_sq' h6 (by norm_num) |>.2
      linarith
    · have h1 : 9998 / 10000 ≤ A := by nlinarith
      refine ⟨?_, by linarith⟩
      have h6 : (99 / 100) ^ 2 ≤ a ^ 2 := by rw [ea]; linarith
      have h7 : 99 / 100 ≤ a := abs_le_of_sq_le_sq' h6 ha.le |>.2
      linarith
  rw [abs_le, abs_le]
  exact ⟨⟨by linarith, by linarith⟩, by linarith, by linarith⟩

/-- The parameter of the sections at a crossover: about `π * hz / (√2 * 48000)`. -/
def kappa (hz : ℚ) : ℚ := 11107 / 5000 * hz / 48000

/-- The warped ratio of a frequency to the crossover is near the ratio, unless both are large. -/
theorem warp (hz f : ℝ) (h60 : 60 ≤ hz) (h120 : hz ≤ 120) (hf : 0 < f) (hf2 : f < 24000) :
    ∃ u : ℝ, 0 < u ∧ (1 - Real.cos (2 * Real.pi * f / 48000)) ^ 2 =
        u * (4 * (11107 / 5000 * hz / 48000) ^ 4 * (1 + Real.cos (2 * Real.pi * f / 48000)) ^ 2) ∧
      0 < 1 + Real.cos (2 * Real.pi * f / 48000) ∧
      (f / hz) ^ 4 ≤ u ∧ (u ≤ 102 / 100 * (f / hz) ^ 4 ∨ 10000 ≤ (f / hz) ^ 4) := by
  have hpi := Real.pi_gt_d6
  have hpi2 := Real.pi_lt_d6
  set θ : ℝ := Real.pi * f / 48000 with hθ
  have e : 2 * Real.pi * f / 48000 = 2 * θ := by rw [hθ]; ring
  have hθ0 : 0 < θ := by positivity
  have hθ1 : θ < Real.pi / 2 := by rw [hθ]; nlinarith [Real.pi_pos]
  have hc : 0 < Real.cos θ := Real.cos_pos_of_mem_Ioo ⟨by linarith, hθ1⟩
  have hs : 0 < Real.sin θ := Real.sin_pos_of_pos_of_lt_pi hθ0 (by linarith)
  have hs1 : Real.sin θ ≤ θ := (Real.sin_lt hθ0).le
  have ht : θ * Real.cos θ ≤ Real.sin θ := by
    have := (Real.lt_tan hθ0 hθ1).le
    rw [Real.tan_eq_sin_div_cos, le_div_iff₀ hc] at this
    exact this
  have hsq := Real.sin_sq_add_cos_sq θ
  have e1 : 1 - Real.cos (2 * θ) = 2 * Real.sin θ ^ 2 := by rw [Real.cos_two_mul]; linarith
  have e2 : 1 + Real.cos (2 * θ) = 2 * Real.cos θ ^ 2 := by rw [Real.cos_two_mul]; ring
  rw [e, e1, e2]
  have hz0 : 0 < hz := by linarith
  set κ : ℝ := 11107 / 5000 * hz / 48000 with hκ
  have hκ0 : 0 < κ := by positivity
  refine ⟨(Real.sin θ / Real.cos θ) ^ 4 / (4 * κ ^ 4), by positivity, by field_simp, by positivity, ?_, ?_⟩
  · -- lower bound
    have h1 : θ ≤ Real.sin θ / Real.cos θ := by rwa [le_div_iff₀ hc]
    have h2 : (f / hz) ^ 4 ≤ θ ^ 4 / (4 * κ ^ 4) := by
      have : θ ^ 4 / (4 * κ ^ 4) = (f / hz) ^ 4 * (Real.pi ^ 4 / (4 * (11107 / 5000) ^ 4)) := by
        rw [hθ, hκ]; field_simp
      rw [this]
      refine le_mul_of_one_le_right (by positivity) ?_
      rw [le_div_iff₀ (by positivity)]
      have : (3.141592 : ℝ) ^ 4 ≤ Real.pi ^ 4 := by gcongr
      norm_num at this ⊢
      linarith
    refine h2.trans ?_
    gcongr
  · by_cases hfar : 10 * hz ≤ f
    · right
      have : (10 : ℝ) ≤ f / hz := by rwa [le_div_iff₀ hz0]
      calc (10000 : ℝ) = 10 ^ 4 := by norm_num
        _ ≤ _ := by gcongr
    · left
      have hθ2 : θ ≤ 79 / 1000 := by rw [hθ]; nlinarith
      have hc2 : 996 / 1000 ≤ Real.cos θ := by
        have := Real.one_sub_sq_div_two_le_cos (x := θ)
        nlinarith
      have h1 : Real.sin θ / Real.cos θ ≤ θ * (1000 / 996) := by
        rw [div_le_iff₀ hc]; nlinarith
      have h2 : (θ * (1000 / 996)) ^ 4 / (4 * κ ^ 4) =
          (f / hz) ^ 4 * (Real.pi ^ 4 / (4 * (11107 / 5000) ^ 4) * (1000 / 996) ^ 4) := by
        rw [hθ, hκ]; field_simp
      have h3 : Real.pi ^ 4 / (4 * (11107 / 5000) ^ 4) * (1000 / 996) ^ 4 ≤ 102 / 100 := by
        have : Real.pi ^ 4 ≤ (3.141593 : ℝ) ^ 4 := by gcongr
        rw [div_mul_eq_mul_div, div_le_iff₀ (by positivity)]
        norm_num at this ⊢
        linarith
      calc (Real.sin θ / Real.cos θ) ^ 4 / (4 * κ ^ 4) ≤ (θ * (1000 / 996)) ^ 4 / (4 * κ ^ 4) := by gcongr
        _ = _ := h2
        _ ≤ (f / hz) ^ 4 * (102 / 100) := by gcongr
        _ = _ := by ring

/-! ### The sections over the integers -/

/-- A rational number as one integer, 0 as 0. -/
def packRat (q : ℚ) : Int := if q = 0 then 0 else (Encodable.encode q : Int) + 1
/-- The rational number of an integer. -/
def unpackRat (n : Int) : ℚ := if n = 0 then 0 else ((Encodable.decode (n - 1).toNat : Option ℚ)).getD 0

theorem unpack_pack (q : ℚ) : unpackRat (packRat q) = q := by
  unfold unpackRat packRat
  by_cases h : q = 0
  · simp [h]
  · have h1 : ¬ ((Encodable.encode q : Int) + 1 = 0) := by omega
    simp [h, h1]

/-- A section with the parameter `κ`; it keeps two rational values and rounds what it gives. -/
def sectionStep (κ ζ : ℚ) : SectionStep := fun st x =>
  let D := 1 + 2 * κ + 2 * κ ^ 2
  let b := (if ζ = 1 then 2 * κ ^ 2 else 1) / D
  let y := b * x + unpackRat st.v1
  (⟨packRat (2 * ζ * b * x + 2 * ((1 - 2 * κ ^ 2) / D) * y + unpackRat st.v2),
    packRat (b * x - (1 - 2 * κ + 2 * κ ^ 2) / D * y)⟩, round y)

/-- What a section gives, before it is rounded. -/
def sectionExact (κ ζ : ℚ) (x : Nat → Int) (n : Nat) : ℚ :=
  (if ζ = 1 then 2 * κ ^ 2 else 1) / (1 + 2 * κ + 2 * κ ^ 2) * x n +
    unpackRat (runInner (sectionStep κ ζ) SectionState.zero x n).v1

theorem section_out (κ ζ : ℚ) (x : Nat → Int) (n : Nat) :
    (sectionStep κ ζ).out x n = round (sectionExact κ ζ x n) := rfl

theorem castLe {κ : ℚ} (h1 : κ ≤ 6 / 1000) : (κ : ℝ) ≤ 6 / 1000 := by
  have := Rat.cast_le (K := ℝ) |>.2 h1
  push_cast at this
  exact this

/-- What a section gives follows its recursion. -/
theorem section_recursion (κ ζ : ℚ) (h0 : 0 < κ) (h1 : κ ≤ 6 / 1000) (hζ : ζ = 1 ∨ ζ = -1) (x : Nat → Int) (n : Nat) :
    (sectionExact κ ζ x (n + 2) : ℝ) = 2 * (pole κ).re * (sectionExact κ ζ x (n + 1) : ℝ) -
      Complex.normSq (pole κ) * (sectionExact κ ζ x n : ℝ) +
      feed κ ζ * ((x (n + 2) : ℝ) + 2 * ζ * (x (n + 1) : ℝ) + x n) := by
  obtain ⟨-, -, -, e1, -, -⟩ := pole_facts κ (by exact_mod_cast h0) (castLe h1)
  have hv1 : ∀ k, unpackRat (runInner (sectionStep κ ζ) SectionState.zero x (k + 1)).v1 =
      2 * ζ * ((if ζ = 1 then 2 * κ ^ 2 else 1) / (1 + 2 * κ + 2 * κ ^ 2)) * x k +
        2 * ((1 - 2 * κ ^ 2) / (1 + 2 * κ + 2 * κ ^ 2)) * sectionExact κ ζ x k +
        unpackRat (runInner (sectionStep κ ζ) SectionState.zero x k).v2 := fun k => unpack_pack _
  have hv2 : ∀ k, unpackRat (runInner (sectionStep κ ζ) SectionState.zero x (k + 1)).v2 =
      (if ζ = 1 then 2 * κ ^ 2 else 1) / (1 + 2 * κ + 2 * κ ^ 2) * x k -
        (1 - 2 * κ + 2 * κ ^ 2) / (1 + 2 * κ + 2 * κ ^ 2) * sectionExact κ ζ x k := fun k => unpack_pack _
  have key : sectionExact κ ζ x (n + 2) = 2 * ((1 - 2 * κ ^ 2) / (1 + 2 * κ + 2 * κ ^ 2)) * sectionExact κ ζ x (n + 1) -
      (1 - 2 * κ + 2 * κ ^ 2) / (1 + 2 * κ + 2 * κ ^ 2) * sectionExact κ ζ x n +
      (if ζ = 1 then 2 * κ ^ 2 else 1) / (1 + 2 * κ + 2 * κ ^ 2) * (x (n + 2) + 2 * ζ * x (n + 1) + x n) := by
    rw [sectionExact, hv1 (n + 1), hv2 n]
    ring
  rw [e1]
  have hf : feed κ ζ = (((if ζ = 1 then 2 * κ ^ 2 else 1) / (1 + 2 * κ + 2 * κ ^ 2) : ℚ) : ℝ) := by
    rcases hζ with rfl | rfl
    · simp [feed]
    · norm_num [feed]
  rw [hf, show (pole κ).re = (((1 - 2 * κ ^ 2) / (1 + 2 * κ + 2 * κ ^ 2) : ℚ) : ℝ) by simp [pole]]
  have := congrArg (fun q : ℚ => (q : ℝ)) key
  simp only [Rat.cast_add, Rat.cast_sub, Rat.cast_mul, Rat.cast_intCast, Rat.cast_ofNat] at this
  rw [this]
  push_cast
  ring

/-- A section follows an exact run of its recursion whose input is near. -/
theorem section_follows (κ ζ : ℚ) (h0 : 0 < κ) (h1 : κ ≤ 6 / 1000) (hζ : ζ = 1 ∨ ζ = -1) (x : Nat → Int)
    (x' y' : ℕ → ℝ) (hy : ∀ n, y' (n + 2) = 2 * (pole κ).re * y' (n + 1) - Complex.normSq (pole κ) * y' n +
      feed κ ζ * (x' (n + 2) + 2 * ζ * x' (n + 1) + x' n))
    (E : ℝ) (hE : 0 ≤ E) (N : ℕ) (he : ∀ n, N ≤ n → |(x n : ℝ) - x' n| ≤ E) :
    ∃ m, ∀ n, m ≤ n → |(sectionExact κ ζ x n : ℝ) - y' n| ≤ 25 / 4 * E + 1 / 4 ∧
      |((sectionStep κ ζ).out x n : ℝ) - y' n| ≤ 25 / 4 * E + 3 / 4 := by
  obtain ⟨m, hm⟩ := section_close κ ζ (by exact_mod_cast h0) (castLe h1)
    (by rcases hζ with rfl | rfl <;> simp) (fun n => (x n : ℝ)) (fun n => (sectionExact κ ζ x n : ℝ)) x' y'
    (section_recursion κ ζ h0 h1 hζ x) hy E hE N he
  refine ⟨m, fun n hn => ⟨hm n hn, ?_⟩⟩
  have hr : |(sectionExact κ ζ x n : ℝ) - (round (sectionExact κ ζ x n) : ℝ)| ≤ 1 / 2 := by
    have := Rat.cast_le (K := ℝ) |>.2 (abs_sub_round (sectionExact κ ζ x n))
    push_cast at this
    exact this
  rw [section_out]
  have := abs_sub_le ((round (sectionExact κ ζ x n) : ℤ) : ℝ) (sectionExact κ ζ x n : ℝ) (y' n)
  rw [abs_sub_comm] at hr
  linarith [hm n hn]

/-- An input that comes to rest: a low-pass passes it, a high-pass removes it. -/
theorem section_constant (κ ζ : ℚ) (h0 : 0 < κ) (h1 : κ ≤ 6 / 1000) (hζ : ζ = 1 ∨ ζ = -1) (x : Nat → Int) (c : Int)
    (m : Nat) (hx : ∀ n, m ≤ n → x n = c) :
    ∃ m', ∀ n, m' ≤ n → (sectionStep κ ζ).out x n = if ζ = 1 then c else 0 := by
  have hD : (0 : ℝ) < 1 + 2 * κ + 2 * κ ^ 2 := by
    have : (0 : ℝ) < κ := by exact_mod_cast h0
    positivity
  obtain ⟨-, -, -, e1, -, -⟩ := pole_facts κ (by exact_mod_cast h0) (castLe h1)
  obtain ⟨m', hm⟩ := section_follows κ ζ h0 h1 hζ x (fun _ => c) (fun _ => if ζ = 1 then c else 0) (fun n => by
    rw [e1]
    rcases hζ with rfl | rfl
    · simp only [if_true, feed, pole, Rat.cast_one]; field_simp; ring
    · norm_num [feed]; right; ring) 0 le_rfl m (fun n hn => by simp [hx n hn])
  refine ⟨m', fun n hn => ?_⟩
  have h := (hm n hn).2
  rw [show ((if ζ = 1 then (c : ℝ) else 0) : ℝ) = (((if ζ = 1 then c else 0 : Int)) : ℝ) by split <;> simp] at h
  have h2 : |((sectionStep κ ζ).out x n - (if ζ = 1 then c else 0) : Int)| < 1 := by
    have : ((|((sectionStep κ ζ).out x n - (if ζ = 1 then c else 0) : Int)| : Int) : ℝ) < 1 := by
      rw [Int.cast_abs, Int.cast_sub]; linarith
    exact_mod_cast this
  have := Int.abs_lt_one_iff.1 h2
  omega

/-- The response to a sinusoid known to within `E`. -/
theorem section_passes (κ ζ : ℚ) (h0 : 0 < κ) (h1 : κ ≤ 6 / 1000) (hζ : ζ = 1 ∨ ζ = -1) (f G shift : ℝ)
    (h : ∀ (A φ : ℝ) (n : ℕ), G * A * Real.sin (2 * Real.pi * f / 48000 * (n + 2 : ℕ) + (φ + shift)) =
        2 * (pole κ).re * (G * A * Real.sin (2 * Real.pi * f / 48000 * (n + 1 : ℕ) + (φ + shift))) -
        Complex.normSq (pole κ) * (G * A * Real.sin (2 * Real.pi * f / 48000 * n + (φ + shift))) +
        feed κ ζ * (A * Real.sin (2 * Real.pi * f / 48000 * (n + 2 : ℕ) + φ) +
          2 * ζ * (A * Real.sin (2 * Real.pi * f / 48000 * (n + 1 : ℕ) + φ)) +
          A * Real.sin (2 * Real.pi * f / 48000 * n + φ)))
    (A φ : ℝ) (x : Nat → Int) (E N : Nat) (hE : 1 ≤ E) (hx : ∀ n, N ≤ n → NearSinusoid A f φ E n (x n)) :
    ∃ m, ∀ n, m ≤ n → NearSinusoid (G * A) f (φ + shift) (7 * E) n ((sectionStep κ ζ).out x n) := by
  obtain ⟨m, hm⟩ := section_follows κ ζ h0 h1 hζ x (fun n => A * Real.sin (2 * Real.pi * f / 48000 * n + φ))
    (fun n => G * A * Real.sin (2 * Real.pi * f / 48000 * n + (φ + shift))) (h A φ) E (by positivity) N hx
  refine ⟨m, fun n hn => (hm n hn).2.trans ?_⟩
  have : (1 : ℝ) ≤ E := by exact_mod_cast hE
  push_cast
  linarith

theorem kappa_range (hz : Nat) (h : IsCrossover hz) : 0 < kappa hz ∧ kappa hz ≤ 6 / 1000 := by
  rcases h with rfl | rfl | rfl | rfl <;> norm_num [kappa]

/-- The gain of a section at a frequency, near the Butterworth gain. -/
theorem section_gain (hz : Nat) (hc : IsCrossover hz) (ζ : ℚ) (hζ : ζ = 1 ∨ ζ = -1) (f : ℝ) (hf : 0 < f)
    (hf2 : f < 24000) :
    ∃ G shift : ℝ, |G - 1 / √(1 + (if ζ = 1 then f / hz else hz / f) ^ 4)| ≤ 1 / 100 ∧
      |G * G - 1 / (1 + (if ζ = 1 then f / hz else hz / f) ^ 4)| ≤ 1 / 100 ∧
      ∀ (A φ : ℝ) (x : Nat → Int) (E N : Nat), 1 ≤ E → (∀ n, N ≤ n → NearSinusoid A f φ E n (x n)) →
        ∃ m, ∀ n, m ≤ n → NearSinusoid (G * A) f (φ + shift) (7 * E) n ((sectionStep (kappa hz) ζ).out x n) := by
  obtain ⟨k0, k1⟩ := kappa_range hz hc
  have k0' : (0 : ℝ) < (kappa hz : ℝ) := by exact_mod_cast k0
  have hz60 : (60 : ℝ) ≤ hz := by rcases hc with rfl | rfl | rfl | rfl <;> norm_num
  have hz120 : (hz : ℝ) ≤ 120 := by rcases hc with rfl | rfl | rfl | rfl <;> norm_num
  obtain ⟨G, shift, hG0, hG, hrec⟩ := section_sinusoid (kappa hz) ζ k0' (castLe k1)
    (by rcases hζ with rfl | rfl <;> simp) (2 * Real.pi * f / 48000)
  obtain ⟨u, hu0, hu, hC, hlo, hhi⟩ := warp hz f hz60 hz120 hf hf2
  have hk : (kappa hz : ℝ) = 11107 / 5000 * hz / 48000 := by simp [kappa]
  rw [← hk] at hu
  have hv : 0 < f / hz := by positivity
  have hD : (0 : ℝ) < 1 + 2 * kappa hz + 2 * (kappa hz) ^ 2 := by positivity
  generalize Real.cos (2 * Real.pi * f / 48000) = C at *
  have hden : 0 < 4 * (kappa hz : ℝ) ^ 4 * (1 + C) ^ 2 := by positivity
  refine ⟨G, shift, ?_⟩
  rw [← and_assoc]
  refine ⟨?_, fun A φ x E N hE hx => section_passes _ ζ k0 k1 hζ f G shift hrec A φ x E N hE hx⟩
  rcases hζ with rfl | rfl
  · have h2 : G ^ 2 = 1 / (1 + u) := by
      rw [hG, hu]
      simp only [feed, Rat.cast_one, if_true]
      field_simp
      ring
    have h1 : G = 1 / √(1 + u) := by
      rw [← Real.sqrt_sq hG0, h2, Real.sqrt_div zero_le_one, Real.sqrt_one]
    simp only [if_true]
    rw [← sq, h2, h1]
    refine gains_near _ u (by positivity) hlo ?_
    rcases hhi with h | h
    · exact .inl h
    · exact .inr (.inl h)
  · have h2 : G ^ 2 = 1 / (1 + 1 / u) := by
      rw [hG]
      have e : (2 + 2 * ((-1 : ℚ) : ℝ) * C) ^ 2 = 4 * (u * (4 * (kappa hz : ℝ) ^ 4 * (1 + C) ^ 2)) := by
        rw [← hu]; push_cast; ring
      rw [e, hu]
      norm_num [feed]
      field_simp
      ring
    have h1 : G = 1 / √(1 + 1 / u) := by
      rw [← Real.sqrt_sq hG0, h2, Real.sqrt_div zero_le_one, Real.sqrt_one]
    have e : ((hz : ℝ) / f) ^ 4 = 1 / (f / hz) ^ 4 := by field_simp
    norm_num only [if_false]
    rw [← sq, h2, h1, e]
    have hv4 : 0 < (f / hz) ^ 4 := by positivity
    have hinv : 1 / u ≤ 1 / (f / hz) ^ 4 := one_div_le_one_div_of_le hv4 hlo
    obtain ⟨r1, r2⟩ := gains_near (1 / u) (1 / (f / hz) ^ 4) (by positivity) hinv (by
      rcases hhi with h | h
      · left
        rw [mul_one_div, div_le_div_iff₀ hv4 hu0]; linarith
      · right; right
        exact one_div_le_one_div_of_le (by norm_num) h)
    rw [abs_sub_comm, abs_sub_comm (1 / (1 + 1 / u))]
    exact ⟨r1, r2⟩

/-- A wider bound holds too. -/
theorem near_mono {A f φ : ℝ} {s t n : Nat} {y : Int} (h : NearSinusoid A f φ s n y) (hst : s ≤ t) :
    NearSinusoid A f φ t n y := h.trans (by exact_mod_cast hst)

/-- A section, and two in cascade, pass every frequency at the Butterworth gain. -/
theorem section_Passes (hz : Nat) (hc : IsCrossover hz) (ζ : ℚ) (hζ : ζ = 1 ∨ ζ = -1) (f : ℝ) (hf : 0 < f)
    (hf2 : f < 24000) :
    Passes (sectionStep (kappa hz) ζ).out f (1 / √(1 + (if ζ = 1 then f / hz else hz / f) ^ 4)) ∧
    Passes (cascade (sectionStep (kappa hz) ζ) (sectionStep (kappa hz) ζ)).out f
      (1 / (1 + (if ζ = 1 then f / hz else hz / f) ^ 4)) := by
  obtain ⟨G, shift, h1, h2, h3⟩ := section_gain hz hc ζ hζ f hf hf2
  refine ⟨⟨G, shift, h1, fun A φ x _ hx => ?_⟩, G * G, shift + shift, h2, fun A φ x _ hx => ?_⟩
  · obtain ⟨m, hm⟩ := h3 A φ x 1 0 le_rfl (fun n _ => hx n)
    exact ⟨m, fun n hn => near_mono (hm n hn) (by norm_num)⟩
  · obtain ⟨m, hm⟩ := h3 A φ x 1 0 le_rfl (fun n _ => hx n)
    obtain ⟨m2, hm2⟩ := h3 (G * A) (φ + shift) _ 7 m (by norm_num) (fun n hn => hm n hn)
    refine ⟨m2, fun n hn => ?_⟩
    rw [cascade_out, mul_assoc, ← add_assoc]
    exact near_mono (hm2 n hn) (by norm_num)

/-- Two sections in cascade on an input that comes to rest. -/
theorem cascade_constant (κ ζ : ℚ) (h0 : 0 < κ) (h1 : κ ≤ 6 / 1000) (hζ : ζ = 1 ∨ ζ = -1) (x : Nat → Int) (c : Int)
    (m : Nat) (hx : ∀ n, m ≤ n → x n = c) :
    SettlesTo ((cascade (sectionStep κ ζ) (sectionStep κ ζ)).out x) (fun _ => if ζ = 1 then c else 0) 0 := by
  obtain ⟨m1, h⟩ := section_constant κ ζ h0 h1 hζ x c m hx
  obtain ⟨m2, h2⟩ := section_constant κ ζ h0 h1 hζ _ _ m1 h
  refine ⟨m2, fun n hn => ?_⟩
  rw [cascade_out, h2 n hn]
  split <;> simp

/-- A high-pass section removes a constant part. -/
theorem section_part (κ : ℚ) (h0 : 0 < κ) (h1 : κ ≤ 6 / 1000) (x w : Nat → Int) (c E : ℝ) (hE : 0 ≤ E) (N : Nat)
    (hx : ∀ n, N ≤ n → |(w n : ℝ) - (x n + c)| ≤ E) :
    ∃ m, ∀ n, m ≤ n → |((sectionStep κ (-1)).out w n : ℝ) - (sectionStep κ (-1)).out x n| ≤ 25 / 4 * E + 5 / 4 := by
  obtain ⟨m, hm⟩ := section_follows κ (-1) h0 h1 (.inr rfl) w (fun n => x n + c) (fun n => sectionExact κ (-1) x n)
    (fun n => by
      rw [section_recursion κ (-1) h0 h1 (.inr rfl)]
      push_cast
      ring) E hE N hx
  refine ⟨m, fun n hn => ?_⟩
  have h := (hm n hn).2
  have hr := Rat.cast_le (K := ℝ) |>.2 (abs_sub_round (sectionExact κ (-1) x n))
  push_cast at hr
  have e : ((sectionStep κ (-1)).out x n : ℝ) = (round (sectionExact κ (-1) x n) : ℤ) := rfl
  rw [e]
  have := abs_sub_le ((sectionStep κ (-1)).out w n : ℝ) (sectionExact κ (-1) x n) (round (sectionExact κ (-1) x n) : ℤ)
  linarith

/-- Filters with the responses of R102 exist. -/
def existing : CrossoverFilters where
  highFirst := fun hz => sectionStep (kappa hz) (-1)
  highSecond := fun hz => sectionStep (kappa hz) (-1)
  lowFirst := fun hz => sectionStep (kappa hz) 1
  lowSecond := fun hz => sectionStep (kappa hz) 1
  high_sections := fun hz h f h0 h1 => by
    have := (section_Passes hz h (-1) (.inr rfl) f h0 h1).1
    norm_num only [if_false] at this
    exact ⟨this, this⟩
  low_sections := fun hz h f h0 h1 => by
    have := (section_Passes hz h 1 (.inl rfl) f h0 h1).1
    simp only [if_true] at this
    exact ⟨this, this⟩
  high_filter := fun hz h f h0 h1 => by
    have := (section_Passes hz h (-1) (.inr rfl) f h0 h1).2
    norm_num only [if_false] at this
    exact this
  low_filter := fun hz h f h0 h1 => by
    have := (section_Passes hz h 1 (.inl rfl) f h0 h1).2
    simp only [if_true] at this
    exact this
  high_removes_constant := fun hz h x c m _ hx => by
    have := cascade_constant (kappa hz) (-1) (kappa_range hz h).1 (kappa_range hz h).2 (.inr rfl) x c m hx
    norm_num only [if_false] at this
    exact this
  high_removes_part := fun hz h x c _ _ => by
    obtain ⟨k0, k1⟩ := kappa_range hz h
    obtain ⟨m1, h1⟩ := section_part (kappa hz) k0 k1 x (fun n => x n + c) c 0 le_rfl 0 (fun n _ => by simp)
    obtain ⟨m2, h2⟩ := section_part (kappa hz) k0 k1 ((sectionStep (kappa hz) (-1)).out x)
      ((sectionStep (kappa hz) (-1)).out (fun n => x n + c)) 0 (5 / 4) (by norm_num) m1 (fun n hn => by
        have := h1 n hn
        rw [add_zero]; linarith)
    refine ⟨m2, fun n hn => ?_⟩
    rw [cascade_out, cascade_out]
    have := h2 n hn
    have h3 : ((|(sectionStep (kappa hz) (-1)).out ((sectionStep (kappa hz) (-1)).out (fun n => x n + c)) n -
        (sectionStep (kappa hz) (-1)).out ((sectionStep (kappa hz) (-1)).out x) n| : Int) : ℝ) ≤ ((64 : Int) : ℝ) := by
      rw [Int.cast_abs, Int.cast_sub]
      refine this.trans (by norm_num)
    exact_mod_cast h3
  low_passes_constant := fun hz h x c m _ hx => by
    have := cascade_constant (kappa hz) 1 (kappa_range hz h).1 (kappa_range hz h).2 (.inl rfl) x c m hx
    simp only [if_true] at this
    exact this

end Sys2Proof.Butterworth
end

