-- ==== Sys2Proof/Config.lean ====
section
/-! DEFINITION. What the manual leaves to the implementation: free values, with no body. -/

namespace Sys2Proof

/-! ### The crossover filters (R102) -/

/-- The part's crossover filters: a free value, of which only the responses of R102 are known. -/
opaque Config.freeFilters [Inhabited CrossoverFilters] : CrossoverFilters

/-- The part's crossover filters (R102, log 7). That such filters exist is all that
`Butterworth.existing` serves for. -/
def Config.filters : CrossoverFilters := @Config.freeFilters ⟨Butterworth.existing⟩

/-- One step of a position's high-pass filter at a crossover frequency in Hz: two sections in cascade.
What it gives is before saturation (R102, log 7). -/
def Config.highPass (hz : Nat) : FilterStep := cascade (Config.filters.highFirst hz) (Config.filters.highSecond hz)

/-- One step of a position's low-pass filter, as `Config.highPass` (R102, log 7). -/
def Config.lowPass (hz : Nat) : FilterStep := cascade (Config.filters.lowFirst hz) (Config.filters.lowSecond hz)

/-! ### Other free values -/

/-- How many samples at the internal rate the `n`-th converted piece of `len` samples at a
rate code becomes. The conversion is not given (R63, R73), so it is a free value (log 8). -/
opaque Config.convertedLength (n rate len : Nat) : Nat

/-- Sample `k` of a channel of the `n`-th converted piece at a rate code (R63, R73, log 8). -/
opaque Config.convertedSample (n rate channel k : Nat) : Sample

/-- Sample `k` of a channel in the `n`-th block that finds too few decoded samples. R81 delivers the
samples without gap and does not say what is heard where they have not come, so it is a free value
(log 9). -/
opaque Config.missingSample (n channel k : Nat) : Sample

/-- The word that the `n`-th tested row leaves at a word address of the DRAM. R116 writes a test pattern
and does not give it, so it is a free value (log 6). -/
opaque Config.testPattern (n a : Nat) : Sample

/-- The code of the status NOT_READY. Section 11.3 gives a code to every other status and none to
this one, so it is a free value (log 18). -/
opaque Config.notReadyCode : Byte

end Sys2Proof
end

