-- ==== Sys2Proof/Machine/State.lean ====
section
/-! DEFINITION. The state of the part: every record the spec names, as plain data, and the state right after POWER-ON. -/

namespace Sys2Proof.Machine

/-! ### Things held once for each port or zone -/

/-- One value for each control port. -/
structure PerPort (α : Type) where
  a : α
  b : α
  c : α
deriving DecidableEq, Repr

/-- One value for each zone. -/
structure PerZone (α : Type) where
  main : α
  z2 : α
  z3 : α
deriving DecidableEq, Repr

/-! ### Zone records (01_zones.md, 02_the_override_stack.md) -/

/-- A source a zone can play: input D1 to D8 (0 to 7), A1 to A4 (8 to 11), or the tuner (R1). -/
inductive Source where
  | input (i : Fin 12)
  | tuner
deriving DecidableEq, Repr

/-- Power states (R1). -/
inductive Power where
  | standby | waking | on | quieting
deriving DecidableEq, Repr

/-- Source statuses (R1, R2). -/
inductive SourceStatus where
  | playing | noSignal | unavailable
deriving DecidableEq, Repr

/-- Surround modes (R1). -/
inductive SurroundMode where
  | direct | stereo | matrix | allStereo
deriving DecidableEq, Repr

/-- A pending power command (R1). -/
inductive PendingPower where
  | on | standby
deriving DecidableEq, Repr

/-- The two stages of QUIETING (R8). -/
inductive QuietStage where
  | ramp | relay
deriving DecidableEq, Repr

/-- One override entry (R24). -/
structure OverrideEntry where
  source : Source
  volume : Int
  mute : Bool
  mode : SurroundMode
  port : Port
  tag : Byte
deriving DecidableEq, Repr

/-- The record of a zone (R1). The override stack is listed from entry 0 at the bottom to the
top. `quietStage`, `wakeTimer`, `relayTimer`, `switchIn` and `noOutput` hold what R6, R8, R105
and R51 imply (log 23). -/
structure ZoneRec where
  power : Power
  live : Source
  waiting : Option Source
  status : SourceStatus
  volume : Int
  maxVolume : Int
  mute : Bool
  lipSync : Nat
  mode : SurroundMode
  opSlot : Option (Fin 8)
  pendingPower : Option PendingPower
  pendingSlot : Option (Fin 8)
  sleepTimer : Nat
  stack : List OverrideEntry
  quietStage : Option QuietStage
  wakeTimer : Option Nat
  relayTimer : Option Nat
  switchIn : Bool
  noOutput : Bool
deriving DecidableEq, Repr

/-- The minute divider: milliseconds toward the next minute event, and minute events counted
since POWER-ON (R21, R189). -/
structure MinuteDivider where
  ms : Nat
  count : Nat
deriving DecidableEq, Repr

/-! ### Output Channel Unit (03_output_channels_assignment_and_protection.md) -/

/-- Loudspeaker positions of MAIN, in the order of R88 and R92. -/
inductive Position where
  | fl | fr | c | sl | sr | bl | br | hl | hr | sub1 | sub2
deriving DecidableEq, Repr, Inhabited

/-- The position an output serves in its zone (R38). -/
inductive Role where
  | pos (p : Position)
  | z2l | z2r | z3l | z3r
deriving DecidableEq, Repr

/-- Output states (R38). -/
inductive OutputState where
  | idle | granted | handover | fault | starved
deriving DecidableEq, Repr

/-- Handover phases (R38). -/
inductive Phase where
  | rampDown | relayOpen | reallocate
deriving DecidableEq, Repr

/-- The record of an output (R38). `target = some none` is the handover target NONE;
`relay = true` is CLOSED. `relayOpenTimer` holds the 20 ms of R45. -/
structure OutputRec where
  state : OutputState
  phase : Option Phase
  zone : Option Zone
  role : Option Role
  target : Option (Option Zone)
  segment : Bool
  relay : Bool
  relayOpenTimer : Option Nat
deriving DecidableEq, Repr

/-- Main roles of an assignment entry (R39). -/
inductive MainRole where
  | none | bl | br | hl | hr
deriving DecidableEq, Repr

/-- Remote roles of an assignment entry (R39). -/
inductive RemoteRole where
  | none | z2l | z2r | z3l | z3r
deriving DecidableEq, Repr

/-- Priorities of an assignment entry (R39). -/
inductive Priority where
  | mainFirst | remoteFirst
deriving DecidableEq, Repr

/-- An entry of the assignment table (R39). -/
structure AssignEntry where
  mainRole : MainRole
  remoteRole : RemoteRole
  priority : Priority
deriving DecidableEq, Repr

/-- Active levels (R54). -/
inductive ActiveLevel where
  | low | high
deriving DecidableEq, Repr

/-- A protection line: the level at its pin (`true` is high) and whether it is active (R54). -/
structure Line where
  pin : Bool
  active : Bool
deriving DecidableEq, Repr

/-- The Output Channel Unit (R37 to R61). Output O(n+1) is entry n; the assignable outputs O6 to
O11 have the assignment entries 0 to 5. -/
structure OutputUnit where
  outs : Vector OutputRec 13
  assign : Vector AssignEntry 6
  flt : Vector Line 11
  thw : Line
  tht : Line
  fltLevel : ActiveLevel
  thwLevel : ActiveLevel
  thtLevel : ActiveLevel
  latch : Bool
deriving DecidableEq, Repr

/-! ### Input Receivers and Frame Decoder (04_inputs_and_the_frame_decoder.md) -/

/-- Input states (R62). -/
inductive InputState where
  | noSignal | locking | pcm2 | pcmn | packed
deriving DecidableEq, Repr

/-- The record of an input (R62), and the link at its pin with the descriptor it carries (R63). -/
structure InputRec where
  state : InputState
  mask : Option Half
  rate : Option Byte
  timer : Option Nat
  link : Option Descriptor
deriving DecidableEq, Repr

/-- Decoder states (R74). -/
inductive DecoderState where
  | idle | searching | locked | concealing
deriving DecidableEq, Repr

/-- The first failing test of a bad frame (R72, R74). -/
inductive FrameError where
  | none | sync | lengthRange | rate | blocks | mask | downmix | width | lengthMismatch | check
deriving DecidableEq, Repr

/-- The header of a good frame (R68, R74); the dialogue level is after the clamp, and `downmix`
holds the centre and surround codes when the field is present. -/
structure FrameHeader where
  length : Nat
  rate : Byte
  blocks : Nat
  mask : Half
  dialogue : Nat
  downmix : Option (Nat × Nat)
deriving DecidableEq, Repr

/-- One frame of decoded samples: its mask and ten lists of samples, one for each channel, zeros
for a channel that is not present (R74). -/
structure DecodedFrame where
  mask : Half
  channels : List (List Sample)
deriving DecidableEq, Repr

/-- The decoder record (R74). `scanPos` is the stream position at which the scan of R77 resumes;
`fifo` holds, for each of the ten channels, the samples delivered under R81 and not yet mixed
(log 9). Stream positions count from the binding (log 14). -/
structure DecoderRec where
  binding : Option (Fin 8)
  state : DecoderState
  candidate : Option (Byte × Half)
  consecutiveBad : Nat
  header : Option FrameHeader
  repeatBuffer : Option DecodedFrame
  expected : Option Nat
  lastError : FrameError
  good : Nat
  bad : Nat
  concealed : Nat
  scanPos : Nat
  fifo : List (List Sample)
deriving DecidableEq, Repr

/-! ### Mix Engine (05_the_mix_engine.md) -/

/-- Speaker sizes (R88); a PRESENT subwoofer is `large`. -/
inductive SpeakerSize where
  | large | small | none
deriving DecidableEq, Repr

/-- A record of the speaker table (R88). -/
structure SpeakerRec where
  size : SpeakerSize
  distance : Nat
  trim : Int
  inverted : Bool
deriving DecidableEq, Repr

/-- Ramp kinds (R87). -/
inductive RampKind where
  | normal | fast
deriving DecidableEq, Repr

/-- The gain state of an output (R87). -/
structure GainRec where
  current : Int
  target : Int
  ramp : RampKind
deriving DecidableEq, Repr

/-- The pair state of a remote zone (R87). -/
inductive PairState where
  | both
  | one (r : Role)
  | none
deriving DecidableEq, Repr

/-- The downmix coefficients c and s in use for a zone (R87, R103). -/
structure DownmixCoef where
  c : Nat
  s : Nat
deriving DecidableEq, Repr

/-- The two filters of a position FL to HR, and whether the position was redirected in the most
recent block (R101). -/
structure FilterPair where
  highPass : FilterState
  lowPass : FilterState
  redirected : Bool
deriving DecidableEq, Repr

/-- A row of the fold matrix: a position and its coefficients by virtual channel (R97). -/
structure FoldRow where
  position : Position
  coefs : List (Channel × Nat)
deriving DecidableEq, Repr

/-- The state of the Mix Engine (R87) and the samples on the thirteen lanes (R105). -/
structure MixState where
  speakers : Vector SpeakerRec 11
  crossover : Byte
  speakerSet : List Position
  sourceSet : PerZone (List Channel)
  virtualSet : List Channel
  foldMatrix : Option (List FoldRow)
  downmix : PerZone DownmixCoef
  pair2 : PairState
  pair3 : PairState
  gains : Vector GainRec 13
  filters : Vector FilterPair 9
  lanes : Vector (List Sample) 13
deriving DecidableEq, Repr

/-! ### Delay Memory Controller (06_delay_memory.md) -/

/-- Controller states (R114). -/
inductive MemoryState where
  | uninit | initializing | ready | fault
deriving DecidableEq, Repr

/-- Check levels (R114, R115). -/
inductive CheckLevel where
  | quick | full
deriving DecidableEq, Repr

/-- Check stages (R114, R116). -/
inductive CheckStage where
  | sequence | rows
deriving DecidableEq, Repr

/-- The check record (R114). -/
structure CheckRec where
  level : CheckLevel
  stage : CheckStage
  nextRow : Nat
  badFound : Nat
  slot : Fin 8
deriving DecidableEq, Repr

/-- Kinds of a pending change (R122). -/
inductive ChangeKind where
  | retime | shrink | grow | relocate
deriving DecidableEq, Repr

/-- A pending change of a segment (R122). -/
structure PendingChange where
  kind : ChangeKind
  delay : Nat
  base : Nat
  count : Nat
deriving DecidableEq, Repr

/-- Stages of a move (R122). -/
inductive MoveStage where
  | ramp | copy
deriving DecidableEq, Repr

/-- The move of a segment (R122), with the pages copied so far in COPY (R134). -/
structure MoveRec where
  target : Nat
  stage : MoveStage
  copied : Nat
deriving DecidableEq, Repr

/-- A segment (R122). -/
structure Segment where
  output : Fin 13
  base : Nat
  count : Nat
  delay : Nat
  writePos : Nat
  change : Option PendingChange
  move : Option MoveRec
deriving DecidableEq, Repr

/-- The compaction record (R132). -/
structure CompactionRec where
  slot : Fin 8
  scanStart : Nat
  examined : List (Fin 13)
  current : Option (Fin 13)
  moved : Nat
  abort : Bool
deriving DecidableEq, Repr

/-- The delay DRAM: word addresses, strictly rising, each with a sample that is not zero. -/
abbrev Dram := List (Nat × Sample)

/-- The Delay Memory Controller (R114). The bad page map is held as the rows it is made of. -/
structure DelayState where
  state : MemoryState
  check : Option CheckRec
  badRows : List Nat
  segments : List Segment
  dref : Option Nat
  starved : List (Fin 13)
  compaction : Option CompactionRec
  dram : Dram
deriving DecidableEq, Repr

/-! ### Tuner (07_the_tuner.md, 08_station_list_and_presets.md) -/

/-- Bands (R139). -/
inductive Band where
  | fm | am
deriving DecidableEq, Repr

/-- Regions (R139). -/
inductive Region where
  | nine | ten
deriving DecidableEq, Repr

/-- Tuner states (R140). -/
inductive TunerState where
  | parked | settling | idle | seeking | scanning
deriving DecidableEq, Repr

/-- Kinds of a tuner operation (R140). -/
inductive TunerOpKind where
  | tune | stepTune | seek | scan
deriving DecidableEq, Repr

/-- Directions (R145, R148). -/
inductive Direction where
  | up | down
deriving DecidableEq, Repr

/-- Blends (R140). -/
inductive Blend where
  | stereo | mono
deriving DecidableEq, Repr

/-- Label states (R153). -/
inductive LabelState where
  | none | partly | complete
deriving DecidableEq, Repr

/-- The tuner operation that holds a slot (R140); `scanBand`, `found` and `dropped` are used by a
SCAN. -/
structure TunerOp where
  kind : TunerOpKind
  slot : Fin 8
  port : Port
  scanBand : Band
  found : Nat
  dropped : Nat
deriving DecidableEq, Repr

/-- The seek field (R140). -/
structure SeekRec where
  direction : Direction
  start : Nat
  dwell : Nat
deriving DecidableEq, Repr

/-- The scan channel (R140). -/
structure ScanRec where
  channel : Nat
  dwell : Nat
deriving DecidableEq, Repr

/-- The label assembly (R153): `pairs` has four places. -/
structure LabelRec where
  state : LabelState
  version : Option Bool
  pair0 : Option (Byte × Byte)
  pair1 : Option (Byte × Byte)
  pair2 : Option (Byte × Byte)
  pair3 : Option (Byte × Byte)
deriving DecidableEq, Repr

/-- An entry of the station list (R160). -/
structure StationEntry where
  band : Band
  frequency : Nat
  quality : Nat
  label : Option (List Byte)
deriving DecidableEq, Repr

/-- A preset that is not EMPTY (R168). -/
structure PresetRec where
  band : Band
  frequency : Nat
  label : Option (List Byte)
deriving DecidableEq, Repr

/-- The tuner record (R140), the station list (R160) and the presets (R168). Preset n+1 is entry n. -/
structure TunerRec where
  band : Band
  frequency : Nat
  region : Region
  state : TunerState
  settle : Option Nat
  op : Option TunerOp
  seek : Option SeekRec
  scan : Option ScanRec
  threshold : Nat
  quality : Nat
  blend : Blend
  label : LabelRec
  stations : List StationEntry
  presets : Vector (Option PresetRec) 40
deriving DecidableEq, Repr

/-! ### Ports, slots and events (09_control_ports_and_commands.md, 10_operation_slots_completions_and_events.md) -/

/-- The statuses (Conventions, Status codes; section 11.3). -/
inductive Status where
  | done | doneNoChange | doneShort | doneTruncated | deferred | accepted | queued | noResponse
  | attention | busy | queueFull | unknownCommand | badLength | badParameter | notOn | notReady
  | memoryBusy | noDelayMemory | fragmented | tunerBusy | notOwner | empty | stillActive
  | isProtected | notAbortable | alreadyDone | chainBroken | noDetail
  | aborted | notFound | failed | cancelled
deriving DecidableEq, Repr

/-- Chained marks (R184, R192). -/
inductive ChainMark where
  | none | member | last
deriving DecidableEq, Repr

/-- A completion record (R194, R207) in a completion queue, with the port's held-back mark (R184). -/
structure Completion where
  tag : Byte
  code : Byte
  status : Status
  slot : Option (Fin 8)
  mark : ChainMark
  result : List Byte
  heldBack : Bool
deriving DecidableEq, Repr

/-- Slot states (R192). -/
inductive SlotState where
  | free | running | doneWaiting
deriving DecidableEq, Repr

/-- Slot kinds, in the order of R192. -/
inductive SlotKind where
  | zoneOn | zoneStandby | memoryStart | compact | tune | stepTune | seek | scan
  | recallStation | recallPreset
deriving DecidableEq, Repr

/-- The optional target of a slot (R192), as the two bytes that R198 reads. -/
abbrev SlotTarget := Option Half

/-- A slot that is not FREE (R192). `waiting` is the record and the completion order of a
DONE_WAITING slot; it is absent in RUNNING. `inChain` says that the chain of the slot's command has
not ended (R184, log 32). -/
structure SlotBody where
  kind : SlotKind
  port : Port
  tag : Byte
  target : SlotTarget
  mark : ChainMark
  inChain : Bool
  waiting : Option (Completion × Nat)
deriving DecidableEq, Repr

/-- A slot: `none` is FREE. -/
abbrev Slot := Option SlotBody

/-- Event kinds, in priority order (R199). -/
inductive EventKind where
  | protection | completion | zone | channel | input | decoder | tuner | override | memory
deriving DecidableEq, Repr

/-- The detail of an event kind, in the fields of the event record (R199, R207). -/
structure EventDetail where
  outputs : Half
  inputs : Half
  zones : Byte
  reasons : Byte
  flags : Byte
deriving DecidableEq, Repr

/-- Whether a kind is pending on a port, and its detail (R200). -/
structure KindState where
  pending : Bool
  detail : EventDetail
deriving DecidableEq, Repr

/-- The event state of a port (R200). COMPLETION has no place here: its pendency is read off the
completion queue (R195). -/
structure EventState where
  protection : KindState
  zone : KindState
  channel : KindState
  input : KindState
  decoder : KindState
  tuner : KindState
  override : KindState
  memory : KindState
  enable : Half
  notifyEnable : Bool
  notifyOnPending : Bool
deriving DecidableEq, Repr

/-- Chain states (R175). -/
inductive ChainState where
  | none | open | holding | broken
deriving DecidableEq, Repr

/-- The hold of a chain (R175). -/
structure HoldRec where
  slot : Fin 8
  link : Bool
deriving DecidableEq, Repr

/-- Reasons of a detail record (R186). -/
inductive DetailReason where
  | none | powerOn | partReset | portReset | frameLength
deriving DecidableEq, Repr

/-- The detail record (R186); the residue is a signed 16-bit number. -/
structure DetailRec where
  status : Status
  code : Byte
  tag : Byte
  param : Byte
  residue : Half
  reason : DetailReason
deriving DecidableEq, Repr

/-- A response frame (R177, R207). -/
structure Response where
  status : Status
  tag : Byte
  code : Byte
  slot : Option (Fin 8)
  data : List Byte
deriving DecidableEq, Repr

/-- A command waiting in an inbound queue (R175). -/
structure QueuedCmd where
  head : FrameHead
  cmd : Cmd
deriving DecidableEq, Repr

/-- The record of a port (R175), its completion queue (R195) and event state (R200). Attention is
SET when `attention` is present; it then holds the reason of R185 (log 12). `prst` is `true` while
PRST is asserted. `dataOut` holds the bytes driven after the kind byte in the port's last
transaction (log 4). -/
structure PortRec where
  inbound : List QueuedCmd
  chain : ChainState
  hold : Option HoldRec
  attention : Option DetailReason
  detail : Option DetailRec
  response : Option Response
  completions : List Completion
  events : EventState
  prst : Bool
  dataOut : List Byte
deriving DecidableEq, Repr

/-! ### The state of the part -/

/-- The whole part. `freeCount` counts the free values used (log 8); `pending` is the queue of
commands that wait, first in, first out. -/
structure State where
  zones : PerZone ZoneRec
  minute : MinuteDivider
  outputs : OutputUnit
  inputs : Vector InputRec 12
  decoder : DecoderRec
  mix : MixState
  delay : DelayState
  tuner : TunerRec
  slots : Vector Slot 8
  ports : PerPort PortRec
  freeCount : Nat
  pending : List Instr
deriving DecidableEq, Repr

/-- Why the part's model stops. -/
inductive Fault where
  /-- Raised by BLOCK_START and PAGE_COPY when a segment of the table has no page, or reaches beyond
  the last word of the delay DRAM, an address R113 says does not exist. Safe: no run from reset
  reaches such a table (log 21). -/
  | outsideDram
deriving DecidableEq, Repr

/-- Why a command has no meaning. -/
inductive Refusal where
  /-- Raised by `exec` for a command that is not modelled yet. Safe. -/
  | notModelled (mnemonic : String)
deriving DecidableEq, Repr

/-! ### The state after POWER-ON -/

/-- No detail of an event (R200). -/
def EventDetail.zero : EventDetail :=
  { outputs := 0, inputs := 0, zones := 0, reasons := 0, flags := 0 }

/-- A kind that is not pending (R205). -/
def KindState.zero : KindState := { pending := false, detail := EventDetail.zero }

/-- The event state of a port after any of its resets (R205). -/
def EventState.reset : EventState :=
  { protection := KindState.zero, zone := KindState.zero, channel := KindState.zero,
    input := KindState.zero, decoder := KindState.zero, tuner := KindState.zero,
    override := KindState.zero, memory := KindState.zero,
    enable := 0, notifyEnable := false, notifyOnPending := false }

/-- The record of a port after a reset for the given reason (R185, R191, R205); its PRST line is
released and nothing has been driven. -/
def PortRec.reset (r : DetailReason) : PortRec :=
  { inbound := [], chain := .none, hold := none, attention := some r,
    detail := some { status := .attention, code := 0, tag := 0, param := 0xFF, residue := 0, reason := r },
    response := none, completions := [], events := EventState.reset, prst := false, dataOut := [] }

/-- The record of a zone after POWER-ON (R23), for its live source and source status. -/
def ZoneRec.reset (live : Source) (status : SourceStatus) : ZoneRec :=
  { power := .standby, live := live, waiting := none, status := status, volume := -80,
    maxVolume := 24, mute := false, lipSync := 0, mode := .direct, opSlot := none,
    pendingPower := none, pendingSlot := none, sleepTimer := 0, stack := [],
    quietStage := none, wakeTimer := none, relayTimer := none, switchIn := false,
    noOutput := false }

/-- An IDLE output (R61). -/
def OutputRec.idle : OutputRec :=
  { state := .idle, phase := none, zone := none, role := none, target := none,
    segment := false, relay := false, relayOpenTimer := none }

/-- The assignment table after POWER-ON (R39). -/
def AssignEntry.table : Vector AssignEntry 6 :=
  #v[⟨.bl, .z2l, .mainFirst⟩, ⟨.br, .z2r, .mainFirst⟩, ⟨.hl, .none, .mainFirst⟩,
     ⟨.hr, .none, .mainFirst⟩, ⟨.none, .z3l, .mainFirst⟩, ⟨.none, .z3r, .mainFirst⟩]

/-- A protection line whose pin is high and which is inactive (log 5). -/
def Line.quiet : Line := { pin := true, active := false }

/-- The Output Channel Unit after POWER-ON with every line inactive (R39, R61). -/
def OutputUnit.reset : OutputUnit :=
  { outs := Vector.replicate 13 OutputRec.idle, assign := AssignEntry.table,
    flt := Vector.replicate 11 Line.quiet, thw := Line.quiet, tht := Line.quiet,
    fltLevel := .low, thwLevel := .low, thtLevel := .low, latch := false }

/-- A digital input with no link (R67). -/
def InputRec.noSignal : InputRec :=
  { state := .noSignal, mask := none, rate := none, timer := none, link := none }

/-- An analog input (R64). -/
def InputRec.analog : InputRec :=
  { state := .pcm2, mask := some 3, rate := some 0, timer := none, link := none }

/-- The input records after a full reset with no link present (R67). -/
def InputRec.table : Vector InputRec 12 :=
  #v[.noSignal, .noSignal, .noSignal, .noSignal, .noSignal, .noSignal, .noSignal, .noSignal,
     .analog, .analog, .analog, .analog]

/-- The Frame Decoder after a full reset (R85). -/
def DecoderRec.reset : DecoderRec :=
  { binding := none, state := .idle, candidate := none, consecutiveBad := 0, header := none,
    repeatBuffer := none, expected := none, lastError := .none, good := 0, bad := 0,
    concealed := 0, scanPos := 0, fifo := [] }

/-- A position of the given size as POWER-ON leaves it (R112). -/
def SpeakerRec.reset (size : SpeakerSize) : SpeakerRec :=
  { size := size, distance := 300, trim := 0, inverted := false }

/-- A silent output's gain (R112). -/
def GainRec.silent : GainRec := { current := -161, target := -161, ramp := .normal }

/-- Zeroed filters (R112). -/
def FilterPair.zero : FilterPair :=
  { highPass := FilterState.zero, lowPass := FilterState.zero, redirected := false }

/-- The default downmix coefficients (R103). -/
def DownmixCoef.default : DownmixCoef := { c := 2896, s := 2896 }

/-- The Mix Engine after POWER-ON (R112). -/
def MixState.reset : MixState :=
  { speakers := #v[.reset .large, .reset .large, .reset .large, .reset .large, .reset .large,
      .reset .large, .reset .large, .reset .large, .reset .large, .reset .large, .reset .none],
    crossover := 80, speakerSet := [], sourceSet := ⟨[.fl, .fr], [.fl, .fr], [.fl, .fr]⟩,
    virtualSet := [], foldMatrix := none, downmix := ⟨.default, .default, .default⟩,
    pair2 := .none, pair3 := .none, gains := Vector.replicate 13 GainRec.silent,
    filters := Vector.replicate 9 FilterPair.zero,
    lanes := Vector.replicate 13 (List.replicate 48 0) }

/-- The Delay Memory Controller after POWER-ON (R138). -/
def DelayState.reset : DelayState :=
  { state := .uninit, check := none, badRows := [], segments := [], dref := none, starved := [],
    compaction := none, dram := [] }

/-- A label with nothing assembled (R153, R154). -/
def LabelRec.cleared : LabelRec :=
  { state := .none, version := none, pair0 := none, pair1 := none, pair2 := none, pair3 := none }

/-- The Tuner after POWER-ON (R159, R173). -/
def TunerRec.reset : TunerRec :=
  { band := .fm, frequency := 8750, region := .nine, state := .parked, settle := none, op := none,
    seek := none, scan := none, threshold := 30, quality := 0, blend := .mono,
    label := LabelRec.cleared, stations := [], presets := Vector.replicate 40 none }

/-- The part right after POWER-ON: no protection line active, no link present, no PRST asserted
(log 5), nothing waiting. -/
def State.reset : State :=
  { zones := ⟨.reset (.input 0) .noSignal, .reset (.input 8) .playing, .reset (.input 9) .playing⟩,
    minute := { ms := 0, count := 0 }, outputs := OutputUnit.reset, inputs := InputRec.table,
    decoder := DecoderRec.reset, mix := MixState.reset, delay := DelayState.reset,
    tuner := TunerRec.reset, slots := Vector.replicate 8 none,
    ports := ⟨.reset .powerOn, .reset .powerOn, .reset .powerOn⟩, freeCount := 0, pending := [] }

end Sys2Proof.Machine
end

