-- ==== Sys2Proof/Machine/Dram.lean ====
section
/-! DEFINITION. The delay DRAM: 262,144 words of one sample, held as the words that are not zero (R113). -/

namespace Sys2Proof.Machine

/-- The number of words of the DRAM (R113). -/
def dramWords : Nat := 262144

/-- What a word that is not listed reads as. DESIGN CHOICE: zero (log 6). -/
def unlistedWord : Sample := 0

/-- The word at an address. -/
def Dram.read (m : Dram) (a : Nat) : Sample :=
  match m with
  | [] => unlistedWord
  | (b, x) :: m => if b = a then x else Dram.read m a

/-- Take a word off the list, so that it reads as an unlisted word. -/
def Dram.erase (m : Dram) (a : Nat) : Dram := m.filter (fun w => w.1 != a)

/-- List a word that is not the unlisted one, at its place in the order. -/
def Dram.insert (m : Dram) (a : Nat) (x : Sample) : Dram :=
  match m with
  | [] => [(a, x)]
  | (b, y) :: m =>
    if a < b then (a, x) :: (b, y) :: m
    else if a = b then (a, x) :: m
    else (b, y) :: Dram.insert m a x

/-- Write a word; writing what an unlisted word reads as takes it off the list. -/
def Dram.write (m : Dram) (a : Nat) (x : Sample) : Dram :=
  if x = unlistedWord then Dram.erase m a else Dram.insert m a x

/-- Zero `n` words from `lo` on. -/
def Dram.clear (m : Dram) (lo n : Nat) : Dram :=
  m.filter (fun w => !(decide (lo ≤ w.1) && decide (w.1 < lo + n)))

/-- The number of words of a row (R113). -/
def rowWords : Nat := 1024

/-- Write `n` words from `lo` on, each with what `f` gives for its address, as far as the DRAM reaches. -/
def Dram.fill (m : Dram) (lo n : Nat) (f : Nat → Sample) : Dram :=
  m.filter (fun w => decide (w.1 < lo)) ++
  ((List.range' lo n).filter (fun a => decide (a < dramWords) && (f a != unlistedWord))).map (fun a => (a, f a)) ++
  m.filter (fun w => decide (lo + n ≤ w.1))

/-- Copy `n` words from `src` on to `dst` on, lowest first (R134). -/
def Dram.copy (m : Dram) (src dst n : Nat) : Dram :=
  (List.range n).foldl (fun m i => Dram.write m (dst + i) (Dram.read m (src + i))) m

/-- The canonical form: addresses of the DRAM, strictly rising, none with the unlisted word. -/
def Dram.wf : Dram → Bool
  | [] => true
  | (a, x) :: m =>
    decide (a < dramWords) && (x != unlistedWord) && m.all (fun w => decide (a < w.1)) && Dram.wf m

/-- The word `n` places before place `i` of a ring of `len` words. -/
def ringBack (len i n : Nat) : Nat := (i + len - n % len) % len

/-- Write samples at consecutive places of the ring of `len` words at `base`, from place `i` on
(R123). -/
def Dram.writeRing (m : Dram) (base len i : Nat) (xs : List Sample) : Dram :=
  match xs with
  | [] => m
  | x :: xs => Dram.writeRing (Dram.write m (base + i % len) x) base len (i + 1) xs

/-- Read `n` samples at consecutive places of a ring, from place `i` on (R123). -/
def Dram.readRing (m : Dram) (base len i n : Nat) : List Sample :=
  (List.range n).map (fun k => Dram.read m (base + (i + k) % len))

end Sys2Proof.Machine
end

