-- ==== Sys2Proof/Machine/Operands.lean ====
section
/-! DEFINITION. Operands: how values stand in frames and records (R206), clamps, and the arithmetic of samples and of the tuning grid. -/

namespace Sys2Proof

/-! ### Codes of ports, zones and channels (R206) -/

/-- The ports in order. -/
def Port.all : List Port := [.a, .b, .c]

/-- The zones in order. -/
def Zone.all : List Zone := [.main, .z2, .z3]

def Port.code : Port → Byte
  | .a => 0
  | .b => 1
  | .c => 2

def Zone.code : Zone → Byte
  | .main => 0
  | .z2 => 1
  | .z3 => 2

/-- The bit of a zone in a zone mask (R206). -/
def Zone.bit : Zone → Byte
  | .main => 1
  | .z2 => 2
  | .z3 => 4

/-- The place of a channel in a channel mask (R206). -/
def Channel.index : Channel → Nat
  | .fl => 0
  | .fr => 1
  | .c => 2
  | .lfe => 3
  | .sl => 4
  | .sr => 5
  | .bl => 6
  | .br => 7
  | .hl => 8
  | .hr => 9

/-- The channels in mask order. -/
def Channel.all : List Channel := [.fl, .fr, .c, .lfe, .sl, .sr, .bl, .br, .hl, .hr]

end Sys2Proof

namespace Sys2Proof.Machine

/-! ### Numbers -/

/-- Clamp a number to a range (Conventions, Clamped settings). -/
def clampInt (lo hi x : Int) : Int := max lo (min x hi)

/-- Saturate to the sample range (Conventions, Audio numbers). -/
def saturate (x : Int) : Int := clampInt (-8388608) 8388607 x

/-- A saturated value as a sample. -/
def toSample (x : Int) : Sample := BitVec.ofInt 24 (saturate x)

/-- A sum of products on the 4096 scale, "in /4096 rounding" (Conventions, Audio numbers). -/
def div4096 (x : Int) : Int := (x + 2048) / 4096

/-! ### Bytes of frames and records -/

/-- A two-byte field, most significant byte first. -/
def halfBytes (h : Half) : List Byte := [h.extractLsb' 8 8, h.extractLsb' 0 8]

/-- A number as a two-byte field. -/
def natBytes (n : Nat) : List Byte := halfBytes (BitVec.ofNat 16 n)

/-- A number as a one-byte field. -/
def natByte (n : Nat) : Byte := BitVec.ofNat 8 n

/-- A three-byte field, most significant byte first. -/
def natBytes3 (n : Nat) : List Byte := [natByte (n / 65536), natByte (n / 256), natByte n]

/-- The absent code of a one-byte field (R206). -/
def absentByte : Byte := 0xFF

/-- The absent code of a two-byte field (R206). -/
def absentHalf : Half := 0xFFFF

/-- A truth value as one byte: 1 or 0. -/
def boolByte (b : Bool) : Byte := if b then 1 else 0

/-- An optional field: its code, or the absent code. -/
def optByte {α : Type} (code : α → Byte) (o : Option α) : Byte := (o.map code).getD absentByte

/-- A slot, or 0xFF when absent. -/
def slotByte (o : Option (Fin 8)) : Byte := optByte (fun k => natByte k.val) o

/-- A gain index read back (R206): the index plus 161. -/
def gainByte (g : Int) : Byte := BitVec.ofInt 8 (g + 161)

/-- A mask with the bit of each listed place set. -/
def maskOf (bits : List Nat) : Half := bits.foldl (fun m k => m ||| BitVec.ofNat 16 (2 ^ k)) 0

/-! ### Codes of sources and settings (R206) -/

def zoneOf (b : Byte) : Option Zone :=
  match b.toNat with
  | 0 => some .main
  | 1 => some .z2
  | 2 => some .z3
  | _ => none

def Source.code : Source → Byte
  | .input i => natByte i.val
  | .tuner => 12

def sourceOf (b : Byte) : Option Source :=
  if h : b.toNat < 12 then some (.input ⟨b.toNat, h⟩)
  else if b.toNat = 12 then some .tuner else none

def Power.code : Power → Byte
  | .standby => 0
  | .waking => 1
  | .on => 2
  | .quieting => 3

def SourceStatus.code : SourceStatus → Byte
  | .playing => 0
  | .noSignal => 1
  | .unavailable => 2

def SurroundMode.code : SurroundMode → Byte
  | .direct => 0
  | .stereo => 1
  | .matrix => 2
  | .allStereo => 3

def surroundOf (b : Byte) : Option SurroundMode :=
  match b.toNat with
  | 0 => some .direct
  | 1 => some .stereo
  | 2 => some .matrix
  | 3 => some .allStereo
  | _ => none

def PendingPower.code : PendingPower → Byte
  | .on => 0
  | .standby => 1

/-- A two-valued parameter coded 0 or 1: mute OFF or ON, ACTIVE_LOW or ACTIVE_HIGH, and so on. -/
def flagOf (b : Byte) : Option Bool :=
  match b.toNat with
  | 0 => some false
  | 1 => some true
  | _ => none

/-! ### Codes of outputs and assignment -/

/-- The number of an output: O1 is 1 (R206). -/
def outputByte (o : Fin 13) : Byte := natByte (o.val + 1)

/-- The bit of an output in an output mask (R206). -/
def outputBit (o : Fin 13) : Half := BitVec.ofNat 16 (2 ^ o.val)

/-- Output state with phase (R206). -/
def OutputRec.stateCode (r : OutputRec) : Byte :=
  match r.state, r.phase with
  | .idle, _ => 0
  | .granted, _ => 1
  | .handover, some .relayOpen => 3
  | .handover, some .reallocate => 4
  | .handover, _ => 2
  | .fault, _ => 5
  | .starved, _ => 6

/-- Handover target: MAIN, Z2, Z3, NONE in the order of R38. -/
def targetCode : Option Zone → Byte
  | some z => z.code
  | none => 3

/-- Segment present: YES, NO in the order of R38. -/
def presentCode (b : Bool) : Byte := if b then 0 else 1

def MainRole.code : MainRole → Byte
  | .none => 0
  | .bl => 1
  | .br => 2
  | .hl => 3
  | .hr => 4

def mainRoleOf (b : Byte) : Option MainRole :=
  match b.toNat with
  | 0 => some .none
  | 1 => some .bl
  | 2 => some .br
  | 3 => some .hl
  | 4 => some .hr
  | _ => none

def RemoteRole.code : RemoteRole → Byte
  | .none => 0
  | .z2l => 1
  | .z2r => 2
  | .z3l => 3
  | .z3r => 4

def remoteRoleOf (b : Byte) : Option RemoteRole :=
  match b.toNat with
  | 0 => some .none
  | 1 => some .z2l
  | 2 => some .z2r
  | 3 => some .z3l
  | 4 => some .z3r
  | _ => none

def Priority.code : Priority → Byte
  | .mainFirst => 0
  | .remoteFirst => 1

def priorityOf (b : Byte) : Option Priority :=
  match b.toNat with
  | 0 => some .mainFirst
  | 1 => some .remoteFirst
  | _ => none

/-- The entry of an assignable output named by its number, 6 to 11 (R40). -/
def assignableOf (b : Byte) : Option (Fin 6) :=
  if h : 6 ≤ b.toNat ∧ b.toNat < 12 then some ⟨b.toNat - 6, by omega⟩ else none

def ActiveLevel.code : ActiveLevel → Byte
  | .low => 0
  | .high => 1

def activeLevelOf (b : Byte) : Option ActiveLevel :=
  match b.toNat with
  | 0 => some .low
  | 1 => some .high
  | _ => none

/-! ### Codes of inputs and the decoder -/

def InputState.code : InputState → Byte
  | .noSignal => 0
  | .locking => 1
  | .pcm2 => 2
  | .pcmn => 3
  | .packed => 4

def DecoderState.code : DecoderState → Byte
  | .idle => 0
  | .searching => 1
  | .locked => 2
  | .concealing => 3

def FrameError.code : FrameError → Byte
  | .none => 0
  | .sync => 1
  | .lengthRange => 2
  | .rate => 3
  | .blocks => 4
  | .mask => 5
  | .downmix => 6
  | .width => 7
  | .lengthMismatch => 8
  | .check => 9

/-- The channels of a channel mask, in bit order. -/
def channelsOf (mask : Half) : List Channel := Channel.all.filter (fun ch => mask.getLsbD ch.index)

/-! ### Codes of positions and speakers -/

/-- The positions in the order of R92. -/
def Position.all : List Position := [.fl, .fr, .c, .sl, .sr, .bl, .br, .hl, .hr, .sub1, .sub2]

def Position.index : Position → Fin 11
  | .fl => 0
  | .fr => 1
  | .c => 2
  | .sl => 3
  | .sr => 4
  | .bl => 5
  | .br => 6
  | .hl => 7
  | .hr => 8
  | .sub1 => 9
  | .sub2 => 10

def positionOf (b : Byte) : Option Position := Position.all[b.toNat]?

def Position.isSub : Position → Bool
  | .sub1 | .sub2 => true
  | _ => false

def SpeakerSize.code : SpeakerSize → Byte
  | .large => 0
  | .small => 1
  | .none => 2

/-- The size a code names, when the position may take it (R88): FL and FR are never NONE, a
subwoofer is never SMALL. -/
def sizeOf (p : Position) (b : Byte) : Option SpeakerSize :=
  match b.toNat with
  | 0 => some .large
  | 1 => if p.isSub then none else some .small
  | 2 => match p with
    | .fl | .fr => none
    | _ => some .none
  | _ => none

/-! ### Codes of the delay memory -/

def MemoryState.code : MemoryState → Byte
  | .uninit => 0
  | .initializing => 1
  | .ready => 2
  | .fault => 3

def CheckLevel.code : CheckLevel → Byte
  | .quick => 0
  | .full => 1

def checkLevelOf (b : Byte) : Option CheckLevel :=
  match b.toNat with
  | 0 => some .quick
  | 1 => some .full
  | _ => none

def ChangeKind.code : ChangeKind → Byte
  | .retime => 1
  | .shrink => 2
  | .grow => 3
  | .relocate => 4

/-- Hold kind of a segment (R137). -/
def Segment.holdCode (g : Segment) : Byte :=
  match g.change, g.move with
  | some c, _ => c.kind.code
  | none, some m => if m.stage = .ramp then 5 else 6
  | none, none => 0

/-! ### Codes of the tuner, and the tuning grid (R139) -/

def Band.code : Band → Byte
  | .fm => 0
  | .am => 1

def bandOf (b : Byte) : Option Band :=
  match b.toNat with
  | 0 => some .fm
  | 1 => some .am
  | _ => none

def Region.code : Region → Byte
  | .nine => 0
  | .ten => 1

def regionOf (b : Byte) : Option Region :=
  match b.toNat with
  | 0 => some .nine
  | 1 => some .ten
  | _ => none

def TunerState.code : TunerState → Byte
  | .parked => 0
  | .settling => 1
  | .idle => 2
  | .seeking => 3
  | .scanning => 4

def TunerOpKind.code : TunerOpKind → Byte
  | .tune => 0
  | .stepTune => 1
  | .seek => 2
  | .scan => 3

def directionOf (b : Byte) : Option Direction :=
  match b.toNat with
  | 0 => some .up
  | 1 => some .down
  | _ => none

def Blend.code : Blend → Byte
  | .stereo => 0
  | .mono => 1

def LabelState.code : LabelState → Byte
  | .none => 0
  | .partly => 1
  | .complete => 2

/-- The lowest channel of a band's grid (R139). -/
def gridLow (b : Band) (r : Region) : Nat :=
  match b, r with
  | .fm, _ => 8750
  | .am, .nine => 522
  | .am, .ten => 530

/-- The highest channel of a band's grid (R139). -/
def gridHigh (b : Band) : Nat :=
  match b with
  | .fm => 10800
  | .am => 1710

/-- The step of a band's grid (R139). -/
def gridStep (b : Band) (r : Region) : Nat :=
  match b, r with
  | .fm, _ => 5
  | .am, .nine => 9
  | .am, .ten => 10

/-- A frequency is in band (R139). -/
def inBand (b : Band) (r : Region) (f : Nat) : Bool := decide (gridLow b r ≤ f) && decide (f ≤ gridHigh b)

/-- A frequency is a channel of the grid (R139). -/
def onGrid (b : Band) (r : Region) (f : Nat) : Bool :=
  inBand b r f && decide ((f - gridLow b r) % gridStep b r = 0)

/-- The highest channel of the grid not above an in-band frequency (R139); a frequency below the
band takes the lowest channel (R156). -/
def snapDown (b : Band) (r : Region) (f : Nat) : Nat :=
  gridLow b r + (f - gridLow b r) / gridStep b r * gridStep b r

/-- The neighbour of a channel in a direction, wrapping at the band edges (R145). -/
def nextChannel (b : Band) (r : Region) (d : Direction) (f : Nat) : Nat :=
  match d with
  | .up => if gridHigh b < f + gridStep b r then gridLow b r else f + gridStep b r
  | .down => if f < gridLow b r + gridStep b r then gridHigh b else f - gridStep b r

/-- The settle time of a band in ms (R142). -/
def settleTime (b : Band) : Nat :=
  match b with
  | .fm => 30
  | .am => 50

/-- The dwell of a band in ms (R148, R161). -/
def dwellTime (b : Band) : Nat :=
  match b with
  | .fm => 25
  | .am => 60

/-! ### Codes of statuses, slots and marks (section 11.3, R206) -/

/-- The code of a status (section 11.3); NOT_READY has none there (log 18). -/
def Status.code : Status → Byte
  | .done => 0x00
  | .doneNoChange => 0x01
  | .doneShort => 0x02
  | .doneTruncated => 0x03
  | .deferred => 0x04
  | .accepted => 0x05
  | .queued => 0x06
  | .noResponse => 0x07
  | .attention => 0x10
  | .busy => 0x11
  | .queueFull => 0x12
  | .unknownCommand => 0x13
  | .badLength => 0x14
  | .badParameter => 0x15
  | .notOn => 0x16
  | .memoryBusy => 0x17
  | .noDelayMemory => 0x18
  | .fragmented => 0x19
  | .tunerBusy => 0x1A
  | .notOwner => 0x1B
  | .empty => 0x1C
  | .stillActive => 0x1D
  | .isProtected => 0x1E
  | .notAbortable => 0x1F
  | .alreadyDone => 0x20
  | .chainBroken => 0x21
  | .noDetail => 0x22
  | .notReady => Config.notReadyCode
  | .aborted => 0x30
  | .notFound => 0x31
  | .failed => 0x32
  | .cancelled => 0x33

def ChainMark.code : ChainMark → Byte
  | .none => 0
  | .member => 1
  | .last => 2

/-- Slot kind as a field of Read Slots: its place in the list of R192. -/
def SlotKind.code : SlotKind → Byte
  | .zoneOn => 0
  | .zoneStandby => 1
  | .memoryStart => 2
  | .compact => 3
  | .tune => 4
  | .stepTune => 5
  | .seek => 6
  | .scan => 7
  | .recallStation => 8
  | .recallPreset => 9

/-- The command code of a slot kind, as completion records carry it (R194, section 11.4). -/
def SlotKind.command : SlotKind → Byte
  | .zoneOn => 0x10
  | .zoneStandby => 0x11
  | .memoryStart => 0x60
  | .compact => 0x61
  | .tune => 0x70
  | .stepTune => 0x71
  | .seek => 0x72
  | .scan => 0x73
  | .recallStation => 0x85
  | .recallPreset => 0x81

def DetailReason.code : DetailReason → Byte
  | .none => 0
  | .powerOn => 1
  | .partReset => 2
  | .portReset => 3
  | .frameLength => 4

/-- The priority of an event kind (R199). -/
def EventKind.priority : EventKind → Nat
  | .protection => 1
  | .completion => 2
  | .zone => 3
  | .channel => 4
  | .input => 5
  | .decoder => 6
  | .tuner => 7
  | .override => 8
  | .memory => 9

/-- The kinds from highest priority to lowest (R199). -/
def EventKind.all : List EventKind :=
  [.protection, .completion, .zone, .channel, .input, .decoder, .tuner, .override, .memory]

/-- The bit of a kind in a pending or enable set (R201). -/
def EventKind.bit (k : EventKind) : Half := BitVec.ofNat 16 (2 ^ (k.priority - 1))

end Sys2Proof.Machine
end

