-- ==== Sys2Proof/Machine/Access.lean ====
section
/-! DEFINITION. Reads and updates of the state's records, one by one. -/

namespace Sys2Proof.Machine

/-- The outputs in ascending order. -/
def allOutputs : List (Fin 13) := [0, 1, 2, 3, 4, 5, 6, 7, 8, 9, 10, 11, 12]

/-- The fault lines in ascending order. -/
def allFaultLines : List (Fin 11) := [0, 1, 2, 3, 4, 5, 6, 7, 8, 9, 10]

/-- The digital inputs in ascending order. -/
def allDigital : List (Fin 8) := [0, 1, 2, 3, 4, 5, 6, 7]

/-- The slots in ascending order. -/
def allSlots : List (Fin 8) := [0, 1, 2, 3, 4, 5, 6, 7]

def PerPort.get {α : Type} (t : PerPort α) : Port → α
  | .a => t.a
  | .b => t.b
  | .c => t.c

def PerPort.set {α : Type} (t : PerPort α) (p : Port) (x : α) : PerPort α :=
  match p with
  | .a => { t with a := x }
  | .b => { t with b := x }
  | .c => { t with c := x }

def PerZone.get {α : Type} (t : PerZone α) : Zone → α
  | .main => t.main
  | .z2 => t.z2
  | .z3 => t.z3

def PerZone.set {α : Type} (t : PerZone α) (z : Zone) (x : α) : PerZone α :=
  match z with
  | .main => { t with main := x }
  | .z2 => { t with z2 := x }
  | .z3 => { t with z3 := x }

/-- The record of a zone. -/
def State.zone (s : State) (z : Zone) : ZoneRec := s.zones.get z

def State.setZone (s : State) (z : Zone) (r : ZoneRec) : State := { s with zones := s.zones.set z r }

/-- The record of a port. -/
def State.port (s : State) (p : Port) : PortRec := s.ports.get p

def State.setPort (s : State) (p : Port) (r : PortRec) : State := { s with ports := s.ports.set p r }

/-- The record of an output. -/
def State.out (s : State) (o : Fin 13) : OutputRec := s.outputs.outs[o]

def State.setOut (s : State) (o : Fin 13) (r : OutputRec) : State :=
  { s with outputs := { s.outputs with outs := s.outputs.outs.set o r } }

/-- The record of an input. -/
def State.input (s : State) (i : Fin 12) : InputRec := s.inputs[i]

def State.setInput (s : State) (i : Fin 12) (r : InputRec) : State :=
  { s with inputs := s.inputs.set i r }

/-- A slot. -/
def State.slot (s : State) (k : Fin 8) : Slot := s.slots[k]

def State.setSlot (s : State) (k : Fin 8) (b : Slot) : State := { s with slots := s.slots.set k b }

/-- The gain state of an output. -/
def State.gain (s : State) (o : Fin 13) : GainRec := s.mix.gains[o]

def State.setGain (s : State) (o : Fin 13) (g : GainRec) : State :=
  { s with mix := { s.mix with gains := s.mix.gains.set o g } }

/-- The speaker record of a position. -/
def State.speaker (s : State) (p : Position) : SpeakerRec := s.mix.speakers[p.index]

def State.setSpeakerRec (s : State) (p : Position) (r : SpeakerRec) : State :=
  { s with mix := { s.mix with speakers := s.mix.speakers.set p.index r } }

/-- A digital input as one of the twelve inputs. -/
def digital (i : Fin 8) : Fin 12 := ⟨i.val, by omega⟩

/-- A fault line's output. -/
def lineOutput (n : Fin 11) : Fin 13 := ⟨n.val, by omega⟩

def State.setOutputs (s : State) (u : OutputUnit) : State := { s with outputs := u }
def State.setDelay (s : State) (d : DelayState) : State := { s with delay := d }
def State.setDecoder (s : State) (d : DecoderRec) : State := { s with decoder := d }
def State.setTuner (s : State) (t : TunerRec) : State := { s with tuner := t }
def State.setMix (s : State) (m : MixState) : State := { s with mix := m }

end Sys2Proof.Machine
end

