-- ==== Sys2Proof/Machine/Flags.lean ====
section
/-! DEFINITION. Status and event flags: pending sets, event details and the NOTIFY line (R199 to R201). -/

namespace Sys2Proof.Machine

/-! ### The kinds of a port's event state -/

/-- The pending mark and detail of a kind; COMPLETION holds none (R195, R200). -/
def EventState.kind (e : EventState) : EventKind → KindState
  | .protection => e.protection
  | .completion => KindState.zero
  | .zone => e.zone
  | .channel => e.channel
  | .input => e.input
  | .decoder => e.decoder
  | .tuner => e.tuner
  | .override => e.override
  | .memory => e.memory

def EventState.setKind (e : EventState) (k : EventKind) (x : KindState) : EventState :=
  match k with
  | .protection => { e with protection := x }
  | .completion => e
  | .zone => { e with zone := x }
  | .channel => { e with channel := x }
  | .input => { e with input := x }
  | .decoder => { e with decoder := x }
  | .tuner => { e with tuner := x }
  | .override => { e with override := x }
  | .memory => { e with memory := x }

/-- OR a detail into another (R200). -/
def EventDetail.merge (d e : EventDetail) : EventDetail :=
  { outputs := d.outputs ||| e.outputs, inputs := d.inputs ||| e.inputs,
    zones := d.zones ||| e.zones, reasons := d.reasons ||| e.reasons, flags := d.flags ||| e.flags }

/-- A raising reaches a port: the kind becomes pending, its detail is ORed in (R200). -/
def EventState.raise (e : EventState) (k : EventKind) (d : EventDetail) : EventState :=
  e.setKind k { pending := true, detail := (e.kind k).detail.merge d }

/-- COMPLETION is pending while the completion queue holds a record that is not held back (R195). -/
def PortRec.completionPending (r : PortRec) : Bool := r.completions.any (fun c => !c.heldBack)

/-- A kind is pending on a port (R195, R200). -/
def PortRec.isPending (r : PortRec) (k : EventKind) : Bool :=
  match k with
  | .completion => r.completionPending
  | k => (r.events.kind k).pending

/-- The pending set, bit n − 1 for priority n (R201). -/
def PortRec.pendingSet (r : PortRec) : Half :=
  EventKind.all.foldl (fun m k => if r.isPending k then m ||| k.bit else m) 0

/-- The NOTIFY line is asserted (R201): a function of the port's record, so it follows at once. -/
def PortRec.notify (r : PortRec) : Bool :=
  r.events.notifyEnable && (r.pendingSet &&& r.events.enable) != 0

/-! ### Raising -/

/-- Raise a kind on one port. -/
def State.raiseOn (s : State) (p : Port) (k : EventKind) (d : EventDetail) : State :=
  s.setPort p { s.port p with events := (s.port p).events.raise k d }

/-- Raise a kind on all three ports. -/
def State.raise (s : State) (k : EventKind) (d : EventDetail) : State :=
  ((s.raiseOn .a k d).raiseOn .b k d).raiseOn .c k d

/-- ZONE for one zone (R3). -/
def State.raiseZone (s : State) (z : Zone) : State :=
  s.raise .zone { EventDetail.zero with zones := z.bit }

/-- Reasons of CHANNEL, in the order of R199. -/
def channelHandover : Byte := 1
def channelStarved : Byte := 2
def channelNoOutput : Byte := 4

/-- CHANNEL for one output with a reason (R53). -/
def State.raiseChannel (s : State) (o : Fin 13) (reason : Byte) : State :=
  s.raise .channel { EventDetail.zero with outputs := outputBit o, reasons := reason }

/-- CHANNEL with reason NO_OUTPUT for a remote zone (R51). -/
def State.raiseNoOutput (s : State) (z : Zone) : State :=
  s.raise .channel { EventDetail.zero with zones := z.bit, reasons := channelNoOutput }

/-- PROTECTION with an output's bit (R55). -/
def State.raiseFaultLine (s : State) (n : Fin 11) : State :=
  s.raise .protection { EventDetail.zero with outputs := outputBit (lineOutput n) }

/-- PROTECTION with the THW flag (R55). -/
def State.raiseThw (s : State) : State := s.raise .protection { EventDetail.zero with flags := 1 }

/-- PROTECTION with the THT flag (R55). -/
def State.raiseTht (s : State) : State := s.raise .protection { EventDetail.zero with flags := 2 }

/-- INPUT for one input (R65). -/
def State.raiseInput (s : State) (i : Fin 12) : State :=
  s.raise .input { EventDetail.zero with inputs := BitVec.ofNat 16 (2 ^ i.val) }

/-- Reasons of DECODER, in the order of R199. -/
def decoderLock : Byte := 1
def decoderLost : Byte := 2
def decoderFormat : Byte := 4
def decoderBind : Byte := 8

/-- DECODER with a reason (R82). -/
def State.raiseDecoder (s : State) (reason : Byte) : State :=
  s.raise .decoder { EventDetail.zero with reasons := reason }

/-- Reasons of TUNER, in the order of R199. -/
def tunerDone : Byte := 1
def tunerLabel : Byte := 2

/-- TUNER with a reason (R158). -/
def State.raiseTuner (s : State) (reason : Byte) : State :=
  s.raise .tuner { EventDetail.zero with reasons := reason }

/-- OVERRIDE with reason STACK_LOST on all ports (R27). -/
def State.raiseStackLost (s : State) (z : Zone) : State :=
  s.raise .override { EventDetail.zero with zones := z.bit, reasons := 1 }

/-- OVERRIDE with reason CANCELLED on one port (R33). -/
def State.raiseCancelled (s : State) (p : Port) (z : Zone) : State :=
  s.raiseOn p .override { EventDetail.zero with zones := z.bit, reasons := 2 }

/-- Reasons of MEMORY, in the order of R199. -/
def memoryReady : Byte := 1
def memoryFault : Byte := 2
def memoryStarved : Byte := 4

/-- MEMORY with a reason (R119). -/
def State.raiseMemory (s : State) (reason : Byte) : State :=
  s.raise .memory { EventDetail.zero with reasons := reason }

end Sys2Proof.Machine
end

