-- ==== Sys2Proof/Machine/Ops.lean ====
section
/-! DEFINITION. Shared operations: answers, operation slots, completion queues and linked chains (R177 to R196). -/

namespace Sys2Proof.Machine

/-! ### Answers -/

/-- What a block answers to a command: a status, the slot of ACCEPTED, data, and the parameter
index and residue that the detail record takes (R177, R186). -/
structure Answer where
  status : Status
  slot : Option (Fin 8)
  data : List Byte
  param : Byte
  residue : Half
deriving DecidableEq, Repr

/-- An answer that is a status alone. -/
def Answer.plain (st : Status) : Answer :=
  { status := st, slot := none, data := [], param := 0xFF, residue := 0 }

/-- A status with data. -/
def Answer.withData (st : Status) (data : List Byte) : Answer := { Answer.plain st with data := data }

/-- ACCEPTED with the slot taken. -/
def Answer.acceptedIn (k : Fin 8) : Answer := { Answer.plain .accepted with slot := some k }

/-- BAD_PARAMETER naming the first parameter at fault (R186). R186 states nothing else of its record:
residue 0 and reason NONE are the model's (DESIGN CHOICE, log 41). -/
def Answer.badParam (index : Byte) : Answer := { Answer.plain .badParameter with param := index }

/-- DONE, or DONE_NO_CHANGE when nothing changed. -/
def Answer.changed (c : Bool) : Answer := Answer.plain (if c then .done else .doneNoChange)

/-- The statuses of refusals (Conventions, Status codes). -/
def Status.isRefusal : Status → Bool
  | .attention | .busy | .queueFull | .unknownCommand | .badLength | .badParameter | .notOn
  | .notReady | .memoryBusy | .noDelayMemory | .fragmented | .tunerBusy | .notOwner | .empty
  | .stillActive | .isProtected | .notAbortable | .alreadyDone | .chainBroken | .noDetail => true
  | _ => false

/-- An answer that counts as success for a chain: DONE, DONE_NO_CHANGE or DEFERRED (R180, R182). -/
def Status.isSuccess : Status → Bool
  | .done | .doneNoChange | .deferred => true
  | _ => false

/-- The answers that write the detail record: every refusal other than NO_DETAIL, DONE_SHORT and
DONE_TRUNCATED (R186). -/
def Status.writesDetail : Status → Bool
  | .doneShort | .doneTruncated => true
  | .noDetail => false
  | st => st.isRefusal

/-- The answer of a read command (R188): a prefix of the bytes available, and the residue. -/
def readAnswer (count : Half) (bytes : List Byte) : Answer :=
  { status :=
      if count.toNat = bytes.length then .done
      else if bytes.length < count.toNat then .doneShort else .doneTruncated
    slot := none
    data := bytes.take count.toNat
    param := 0xFF
    residue := BitVec.ofInt 16 ((count.toNat : Int) - (bytes.length : Int)) }

/-- The count of bytes asked for is at most 4,096 (R176). -/
def countOk (count : Half) : Bool := decide (count.toNat ≤ 4096)

/-- A read command whose count is parameter `index`: BAD_PARAMETER for a count above 4,096, else
the bytes under the residue rule (R176, R188). -/
def readCommand (index : Byte) (count : Half) (bytes : List Byte) : Answer :=
  if countOk count then readAnswer count bytes else Answer.badParam index

/-! ### Who sent a command -/

/-- The port, tag and chained mark of the command being executed. -/
structure Ctx where
  port : Port
  tag : Byte
  mark : ChainMark
deriving DecidableEq, Repr

/-! ### Completion queues -/

/-- The depth of a completion queue (R195). -/
def queueDepth : Nat := 8

/-- The completion queue of a port has room (R181, R194). -/
def State.hasRoom (s : State) (p : Port) : Bool := decide ((s.port p).completions.length < queueDepth)

/-- A record enters the tail of a completion queue (R195). -/
def State.post (s : State) (p : Port) (r : Completion) : State :=
  s.setPort p { s.port p with completions := (s.port p).completions ++ [r] }

/-! ### Slots -/

/-- The lowest-numbered FREE slot (R193). -/
def State.freeSlot (s : State) : Option (Fin 8) := allSlots.find? (fun k => (s.slot k).isNone)

/-- An operation slot is FREE. -/
def State.hasFreeSlot (s : State) : Bool := s.freeSlot.isSome

/-- The state of a slot (R192). -/
def slotState : Slot → SlotState
  | none => .free
  | some b => if b.waiting.isNone then .running else .doneWaiting

/-- A long operation takes slot `k` (R193). When its command is a chain member, the chain holds on
the slot (R182). -/
def State.takeSlot (s : State) (k : Fin 8) (kind : SlotKind) (target : SlotTarget) (x : Ctx) : State :=
  let s1 := s.setSlot k (some
    { kind := kind, port := x.port, tag := x.tag, target := target, mark := x.mark,
      inChain := x.mark != .none, waiting := none })
  if x.mark = .none then s1
  else s1.setPort x.port
    { s1.port x.port with chain := .holding, hold := some ⟨k, x.mark == .member⟩ }

/-- The chains of a port's slots have ended (R184). -/
def State.endSlotChains (s : State) (p : Port) : State :=
  allSlots.foldl (fun s k =>
    match s.slot k with
    | some b => if b.port = p then s.setSlot k (some { b with inChain := false }) else s
    | none => s) s

/-- The chain of a port ends: the state becomes NONE and every held-back record is released (R184). -/
def State.endChain (s : State) (p : Port) : State :=
  (s.setPort p { s.port p with
    chain := .none, hold := none,
    completions := (s.port p).completions.map (fun c => { c with heldBack := false }) }).endSlotChains p

/-- The completion record of a slot (R194); it is held back while its chain has not ended (R184). -/
def SlotBody.record (b : SlotBody) (k : Fin 8) (st : Status) (result : List Byte) : Completion :=
  { tag := b.tag, code := b.kind.command, status := st, slot := some k, mark := b.mark,
    result := result, heldBack := b.inChain }

/-- The completion order that follows those of the port's waiting slots (R194). -/
def State.nextOrder (s : State) (p : Port) : Nat :=
  s.slots.toList.foldl (fun m b =>
    match b with
    | some b => match b.waiting with
      | some (_, n) => if b.port = p then max m (n + 1) else m
      | none => m
    | none => m) 0

/-- The Slot Table offers a record to the originating port's queue: the slot becomes FREE, or
DONE_WAITING when the queue is full (R194). -/
def State.offer (s : State) (k : Fin 8) (b : SlotBody) (r : Completion) : State :=
  if s.hasRoom b.port then (s.post b.port r).setSlot k none
  else s.setSlot k (some { b with waiting := some (r, s.nextOrder b.port) })

/-- The port's chain learns that the operation of a slot has ended (R182). -/
def State.endHold (s : State) (p : Port) (k : Fin 8) (st : Status) : State :=
  match (s.port p).chain, (s.port p).hold with
  | .holding, some h =>
    if h.slot = k then
      if h.link then
        s.setPort p { s.port p with
          chain := if st = .done then .open else .broken, hold := none }
      else s.endChain p
    else s
  | _, _ => s

/-- A long operation ends with a status and a result (R194). -/
def State.complete (s : State) (k : Fin 8) (st : Status) (result : List Byte) : State :=
  match s.slot k with
  | none => s
  | some b => (s.offer k b (b.record k st result)).endHold b.port k st

/-- Complete the operation of an optional slot. -/
def State.completeOpt (s : State) (k : Option (Fin 8)) (st : Status) (result : List Byte) : State :=
  match k with
  | none => s
  | some k => s.complete k st result

/-- The port's DONE_WAITING slot with the earliest completion order, its record and order (R196). -/
def State.firstWaiting (s : State) (p : Port) : Option (Fin 8 × SlotBody × Completion × Nat) :=
  allSlots.foldl (fun best k =>
    match s.slot k with
    | some b => match b.waiting with
      | some (r, n) =>
        if b.port = p then
          match best with
          | some (_, _, _, m) => if n < m then some (k, b, r, n) else best
          | none => some (k, b, r, n)
        else best
      | none => best
    | none => best) none

/-- A waiting slot posts its record when the queue has room, and becomes FREE (R196). -/
def State.postWaiting (s : State) (p : Port) : State :=
  if s.hasRoom p then
    match s.firstWaiting p with
    | some (k, b, r, _) => (s.post p { r with heldBack := b.inChain }).setSlot k none
    | none => s
  else s

/-- Every waiting slot of a port posts, in completion order, as far as there is room (R205). -/
def State.postAllWaiting (s : State) (p : Port) : State :=
  allSlots.foldl (fun s _ => s.postWaiting p) s

end Sys2Proof.Machine
end

