-- ==== Sys2Proof/Machine/Delay.lean ====
section
/-! DEFINITION. The Delay Memory Controller's own operations: pages, delay arithmetic, requests, changes and moves (R113 to R136). -/

namespace Sys2Proof.Machine

/-! ### Pages (R113, R122) -/

/-- The number of pages of the DRAM (R113). -/
def pageTotal : Nat := 1024

/-- The words of a page (R113). -/
def pageWords : Nat := 256

/-- A page lies in a bad row (R113, R114). -/
def DelayState.pageBad (d : DelayState) (p : Nat) : Bool := d.badRows.contains (p / 4)

/-- A page lies in a run of `n` pages from `base` on. -/
def inPages (base n p : Nat) : Bool := decide (base ≤ p) && decide (p < base + n)

/-- A page belongs to the run of a segment. -/
def Segment.hasPage (g : Segment) (p : Nat) : Bool := inPages g.base g.count p

/-- A page is claimed by a segment beyond its run (R122). -/
def Segment.claims (g : Segment) (p : Nat) : Bool :=
  (match g.change with
    | some c => match c.kind with
      | .grow => inPages (g.base + g.count) (c.count - g.count) p
      | .relocate => inPages c.base c.count p
      | _ => false
    | none => false) ||
  (match g.move with
    | some m => inPages m.target g.count p && !g.hasPage p
    | none => false)

/-- A page is allocated: it belongs to the run or the claimed pages of a segment (R113). -/
def DelayState.pageAllocated (d : DelayState) (p : Nat) : Bool :=
  d.segments.any (fun g => g.hasPage p || g.claims p)

/-- A page is free: of the DRAM, good and not allocated (R113). -/
def DelayState.pageFree (d : DelayState) (p : Nat) : Bool :=
  decide (p < pageTotal) && !d.pageBad p && !d.pageAllocated p

/-- The number of free pages. -/
def DelayState.freePages (d : DelayState) : Nat := (List.range pageTotal).countP d.pageFree

/-- The page count of the longest hole, 0 when no page is free (R113). -/
def DelayState.largestHole (d : DelayState) : Nat :=
  ((List.range pageTotal).foldl
    (fun (run, best) p => if d.pageFree p then (run + 1, max best (run + 1)) else (0, best))
    (0, 0)).2

/-- Every run has a page and lies within the DRAM, and so does the target of every move (R113, R122). -/
def DelayState.inDram (d : DelayState) : Bool :=
  d.segments.all (fun g => decide (1 ≤ g.count) && decide (g.base + g.count ≤ pageTotal) &&
    (match g.move with
      | some m => decide (m.target + g.count ≤ pageTotal) && decide (m.copied < g.count)
      | none => true))

/-! ### Delay arithmetic (R120) -/

/-- The distance delay of a position at distance `dist` against the reference `dref` (R120). -/
def distanceDelay (dref dist : Nat) : Nat :=
  if dref < dist then 0 else (480 * (dref - dist) + 171) / 343

/-- The pages needed for a total delay (R120). -/
def pagesFor (t : Nat) : Nat := (t + 48 + 255) / 256

/-! ### The segment table (R122, R123) -/

/-- The segment of an output. -/
def DelayState.segment (d : DelayState) (o : Fin 13) : Option Segment :=
  d.segments.find? (fun g => g.output == o)

/-- Insert a segment at its place by base page. -/
def insertSegment (g : Segment) : List Segment → List Segment
  | [] => [g]
  | h :: t => if g.base < h.base then g :: h :: t else h :: insertSegment g t

/-- Replace the segment of an output, keeping the order by base page. -/
def DelayState.setSegment (d : DelayState) (o : Fin 13) (g : Segment) : DelayState :=
  { d with segments := insertSegment g (d.segments.filter (fun h => h.output != o)) }

/-- Clear a segment's line: every word zero, the write position at the first word (R123). -/
def DelayState.clearLine (d : DelayState) (g : Segment) : DelayState :=
  { d with dram := Dram.clear d.dram (g.base * pageWords) (g.count * pageWords) }.setSegment g.output
    { g with writePos := g.base * pageWords }

/-- Clear the pages that a move in COPY has already copied to its target: the line will lie there
(R105, R134). -/
def DelayState.clearCopied (d : DelayState) (g : Segment) : DelayState :=
  match g.move with
  | some m => { d with dram := Dram.clear d.dram (m.target * pageWords) (m.copied * pageWords) }
  | none => d

/-! ### Requests for new segments (R125) -/

/-- The lowest base page at which `n` pages pass a test. -/
def firstFit (ok : Nat → Bool) (n : Nat) : Option Nat :=
  (List.range (pageTotal + 1 - n)).find? (fun b => (List.range n).all (fun i => ok (b + i)))

/-- Place the outputs of a request one after another, first fit (R125 test 4): output, total delay,
base page and page count of each. `none` when one finds no run. -/
def placeRuns (ok : Nat → Bool) : List (Fin 13 × Nat) → Option (List (Fin 13 × Nat × Nat × Nat))
  | [] => some []
  | (o, t) :: rest =>
    match firstFit ok (pagesFor t) with
    | none => none
    | some b =>
      (placeRuns (fun p => ok p && !inPages b (pagesFor t) p) rest).map
        (fun l => (o, t, b, pagesFor t) :: l)

/-- Create a cleared segment at a placed run. -/
def DelayState.create (d : DelayState) (o : Fin 13) (t base count : Nat) : DelayState :=
  d.clearLine { output := o, base := base, count := count, delay := t, writePos := base * pageWords,
                change := none, move := none }

/-- Tests 1 and 2 of R125. -/
def DelayState.takesRequests (d : DelayState) : Except Status Unit :=
  if d.state = .initializing ∨ d.compaction.isSome then .error .memoryBusy
  else if d.state = .ready then .ok () else .error .notReady

/-- A request for new segments, each output with its total delay, in ascending output order (R125). -/
def DelayState.request (d : DelayState) (reqs : List (Fin 13 × Nat)) : Except Status DelayState :=
  if reqs = [] then .ok d
  else
    match d.takesRequests with
    | .error e => .error e
    | .ok _ =>
      if d.freePages < (reqs.map (fun r => pagesFor r.2)).sum then .error .noDelayMemory
      else
        match placeRuns d.pageFree reqs with
        | none => .error .fragmented
        | some runs => .ok (runs.foldl (fun d (o, t, b, n) => d.create o t b n) d)

/-! ### Change requests (R126, R127) -/

/-- Drop the pending changes of the listed outputs' segments. -/
def DelayState.dropChanges (d : DelayState) (os : List (Fin 13)) : DelayState :=
  { d with segments := d.segments.map (fun g => if os.contains g.output then { g with change := none } else g) }

/-- The pages a segment needs beyond its run for a new total delay. -/
def Segment.extraPages (g : Segment) (t : Nat) : Nat := pagesFor t - g.count

/-- Class and place one covered segment: the pending change it takes, if it can be placed (R126,
R127). -/
def placeChange (ok : Nat → Bool) (g : Segment) (t : Nat) : Option PendingChange :=
  let n := pagesFor t
  if n = g.count then some { kind := .retime, delay := t, base := g.base, count := n }
  else if n < g.count then some { kind := .shrink, delay := t, base := g.base, count := n }
  else if (List.range (n - g.count)).all (fun i => ok (g.base + g.count + i)) then
    some { kind := .grow, delay := t, base := g.base, count := n }
  else
    (firstFit ok n).map (fun b => { kind := .relocate, delay := t, base := b, count := n })

/-- The pages that a pending change claims for a segment. -/
def changeClaims (g : Segment) (c : PendingChange) (p : Nat) : Bool :=
  ({ g with change := some c, move := none } : Segment).claims p

/-- Place the covered segments in ascending output order (R127). -/
def placeChanges (ok : Nat → Bool) : List (Segment × Nat) → Option (List (Fin 13 × PendingChange))
  | [] => some []
  | (g, t) :: rest =>
    match placeChange ok g t with
    | none => none
    | some c =>
      (placeChanges (fun p => ok p && !changeClaims g c p) rest).map (fun l => (g.output, c) :: l)

/-- The segments that a change request names, each with its new total delay, in the order of the
list of outputs. -/
def DelayState.named (d : DelayState) (want : List (Fin 13 × Nat)) : List (Segment × Nat) :=
  want.filterMap (fun (o, t) => (d.segment o).map (fun g => (g, t)))

/-- A pending change claims pages (R122). -/
def Segment.hasClaim (g : Segment) : Bool :=
  match g.change with
  | some c => c.kind == .grow || c.kind == .relocate
  | none => false

/-- A change request: the outputs of the zone in ascending order with their new total delays. The
answer is the committed state and whether the commit freed claimed pages (R126, R127). -/
def DelayState.requestChange (d : DelayState) (want : List (Fin 13 × Nat)) :
    Except Status (DelayState × Bool) :=
  match d.takesRequests with
  | .error e => .error e
  | .ok _ =>
    let segs := d.named want
    let covered := segs.filter (fun (g, t) => t != g.delay)
    let d0 := d.dropChanges (segs.map (fun (g, _) => g.output))
    if d0.freePages < (covered.map (fun (g, t) => g.extraPages t)).sum then .error .noDelayMemory
    else
      match placeChanges d0.pageFree covered with
      | none => .error .fragmented
      | some changes =>
        .ok ({ d0 with segments := d0.segments.map (fun g =>
                match changes.find? (fun oc => oc.1 == g.output) with
                | some (_, c) => { g with change := some c }
                | none => g) },
             segs.any (fun (g, _) => g.hasClaim))

/-- Apply the pending change of an output's segment (R128); the second part says whether pages
became free by a SHRINK or RELOCATE. -/
def DelayState.applyChange (d : DelayState) (o : Fin 13) : DelayState × Bool :=
  match d.segment o with
  | none => (d, false)
  | some g =>
    match g.change with
    | none => (d, false)
    | some c =>
      match c.kind with
      | .retime => (d.setSegment o { g with delay := c.delay, change := none }, false)
      | .shrink => (d.clearLine { g with delay := c.delay, count := c.count, change := none }, true)
      | .grow => (d.clearLine { g with delay := c.delay, count := c.count, change := none }, false)
      | .relocate =>
        (d.clearLine { g with delay := c.delay, base := c.base, count := c.count, change := none }, true)

/-! ### Freeing (R130) -/

/-- Remove the segment of an output; its run and claimed pages become free. -/
def DelayState.removeSegment (d : DelayState) (o : Fin 13) : DelayState :=
  { d with segments := d.segments.filter (fun g => g.output != o) }

/-! ### Moves and examinations (R133, R134) -/

/-- The target of an examined segment: the lowest base page below its own, at or above the scan
start, whose pages are good and free or its own (R133). -/
def DelayState.moveTarget (d : DelayState) (start : Nat) (g : Segment) : Option Nat :=
  ((List.range g.base).filter (fun b => decide (start ≤ b))).find? (fun b =>
    (List.range g.count).all (fun i =>
      decide (b + i < pageTotal) && !d.pageBad (b + i) && (d.pageFree (b + i) || g.hasPage (b + i))))

/-- The segment that the next examination takes (R133): the table is in base order. -/
def DelayState.nextExamined (d : DelayState) (c : CompactionRec) : Option Segment :=
  d.segments.find? (fun g => decide (c.scanStart ≤ g.base) && !c.examined.contains g.output)

/-- Examine segments until one is to be moved (R133). The second part is `true` when no segment is
left and the compaction ends. -/
def DelayState.examine : Nat → DelayState → CompactionRec → DelayState × Bool
  | 0, d, c => ({ d with compaction := some c }, true)
  | fuel + 1, d, c =>
    match d.nextExamined c with
    | none => ({ d with compaction := some { c with current := none } }, true)
    | some g =>
      let c1 := { c with examined := c.examined ++ [g.output] }
      let pass := { c1 with scanStart := g.base + g.count }
      if g.change.isSome then DelayState.examine fuel d pass
      else
        match d.moveTarget c.scanStart g with
        | some b =>
          ({ d with compaction := some { c1 with current := some g.output } }.setSegment g.output
             { g with move := some { target := b, stage := .ramp, copied := 0 } }, false)
        | none => DelayState.examine fuel d pass

/-- Enough examinations for every segment: the table holds at most 13 (R122). -/
def examineFuel (d : DelayState) : Nat := d.segments.length + 1

/-- One page of a move in COPY is copied (R134). -/
def DelayState.copyPage (d : DelayState) (g : Segment) (m : MoveRec) : DelayState :=
  { d with dram := Dram.copy d.dram ((g.base + m.copied) * pageWords) ((m.target + m.copied) * pageWords)
                     pageWords }.setSegment g.output
    { g with move := some { m with copied := m.copied + 1 } }

/-- The last page of a move has been copied: the segment takes its new base (R134). -/
def DelayState.finishMove (d : DelayState) (g : Segment) (m : MoveRec) : DelayState :=
  d.setSegment g.output
    { g with base := m.target, writePos := g.writePos + m.target * pageWords - g.base * pageWords,
             move := none }

/-- A segment is held silent (R124). -/
def Segment.held (g : Segment) : Bool := g.change.isSome || g.move.isSome

/-- A segment's move is in stage COPY (R124). -/
def Segment.copying (g : Segment) : Bool :=
  match g.move with
  | some m => m.stage == .copy
  | none => false

end Sys2Proof.Machine
end

