-- ==== Sys2Proof/Machine/Outputs.lean ====
section
/-! DEFINITION. The Output Channel Unit's shared operations: the grant rule, regrants, handovers, starved outputs, freeing and the steps of a compaction (R42 to R56, R130 to R136). -/

namespace Sys2Proof.Machine

/-! ### Roles (R37, R39) -/

/-- The position of a fixed output (R37). -/
def fixedPosition (o : Fin 13) : Option Position :=
  match o.val with
  | 0 => some .fl
  | 1 => some .fr
  | 2 => some .c
  | 3 => some .sl
  | 4 => some .sr
  | 11 => some .sub1
  | 12 => some .sub2
  | _ => none

/-- The place of an assignable output in the assignment table: O6 to O11 are 0 to 5 (R39). -/
def assignIndex (o : Fin 13) : Fin 6 := ⟨(o.val - 5) % 6, by omega⟩

/-- The output of an assignment entry. -/
def assignOutput (k : Fin 6) : Fin 13 := ⟨k.val + 5, by omega⟩

def MainRole.position : MainRole → Option Position
  | .none => .none
  | .bl => some .bl
  | .br => some .br
  | .hl => some .hl
  | .hr => some .hr

/-- The remote zone and role of an entry (R39). -/
def RemoteRole.zone : RemoteRole → Option (Zone × Role)
  | .none => .none
  | .z2l => some (.z2, .z2l)
  | .z2r => some (.z2, .z2r)
  | .z3l => some (.z3, .z3l)
  | .z3r => some (.z3, .z3r)

/-- O1 to O11 own a relay line; O12 and O13 have none (R37). -/
def hasRelay (o : Fin 13) : Bool := decide (o.val < 11)

/-- A zone is WAKING or ON. -/
def ZoneRec.isUp (r : ZoneRec) : Bool := r.power == .waking || r.power == .on

/-! ### The grant rule (R42) -/

/-- MAIN claims a position: MAIN is WAKING or ON and the position's size is not NONE. -/
def State.mainClaims (s : State) (p : Position) : Bool :=
  (s.zone .main).isUp && (s.speaker p).size != .none

/-- The grant rule: the zone an output should serve and its role there, or none for IDLE (R42). -/
def State.grantRule (s : State) (o : Fin 13) : Option (Zone × Role) :=
  match fixedPosition o with
  | some p => if s.mainClaims p then some (.main, .pos p) else none
  | none =>
    let e := s.outputs.assign[assignIndex o]
    let main : Option (Zone × Role) :=
      (e.mainRole.position.filter s.mainClaims).map (fun p => (.main, .pos p))
    let remote := e.remoteRole.zone.filter (fun zr => (s.zone zr.1).isUp)
    match remote with
    | some r => if e.priority = .remoteFirst ∨ main = none then some r else main
    | none => main

/-- The state in which a zone has entered WAKING, for the grant rule's "if it entered WAKING" (R5). -/
def State.asWaking (s : State) (z : Zone) : State := s.setZone z { s.zone z with power := .waking }

/-! ### What the zones see (R50, R51) -/

/-- An output is GRANTED to a zone. -/
def OutputRec.grantedTo (r : OutputRec) (z : Zone) : Bool := r.state == .granted && r.zone == some z

/-- An output is held by a zone: GRANTED or STARVED there (R38). -/
def OutputRec.heldBy (r : OutputRec) (z : Zone) : Bool :=
  (r.state == .granted || r.state == .starved) && r.zone == some z

/-- The outputs GRANTED to a zone, in ascending order. -/
def State.grantedOutputs (s : State) (z : Zone) : List (Fin 13) :=
  allOutputs.filter (fun o => (s.out o).grantedTo z)

/-- The output of a position of MAIN: the fixed output, or the assignable output whose entry holds
that main role (R50). -/
def State.positionOutput (s : State) (p : Position) : Option (Fin 13) :=
  allOutputs.find? (fun o =>
    match fixedPosition o with
    | some q => q == p
    | none => (s.outputs.assign[assignIndex o]).mainRole.position == some p)

/-- The speaker set of MAIN (R50). -/
def State.speakerSet (s : State) : List Position :=
  Position.all.filter (fun p =>
    (s.speaker p).size != .none &&
    (match s.positionOutput p with
      | some o => (s.out o).grantedTo .main && (s.out o).role == some (.pos p)
      | none => false))

/-- Raise NO_OUTPUT when a remote zone that is ON begins to hold no GRANTED output (R51). -/
def State.noteZone (s : State) (z : Zone) : State :=
  let none' := (s.zone z).power == .on && (s.grantedOutputs z).isEmpty
  let s1 := if none' && !(s.zone z).noOutput then s.raiseNoOutput z else s
  s1.setZone z { s1.zone z with noOutput := none' }

/-- Watch both remote zones for NO_OUTPUT (R51). -/
def State.noteOutputs (s : State) : State := (s.noteZone .z2).noteZone .z3

/-- Change an output's record, watching for NO_OUTPUT. -/
def State.updateOut (s : State) (o : Fin 13) (r : OutputRec) : State := (s.setOut o r).noteOutputs

/-! ### Delay requests of one output (R120, R125) -/

/-- The total delay of an output serving a zone in a role (R120). -/
def State.totalDelay (s : State) (z : Zone) (r : Role) : Nat :=
  48 * (s.zone z).lipSync +
    (match z, r with
      | .main, .pos p => distanceDelay (s.delay.dref.getD 0) (s.speaker p).distance
      | _, _ => 0)

/-- A request for one segment for one output (R44, R125). -/
def State.requestOne (s : State) (o : Fin 13) (z : Zone) (r : Role) : Except Status State :=
  (s.delay.request [(o, s.totalDelay z r)]).map s.setDelay

/-- Add an output to the starved list, in ascending order; MEMORY STARVED (R131). -/
def State.addStarved (s : State) (o : Fin 13) : State :=
  (s.setDelay { s.delay with starved := allOutputs.filter (fun q => q == o || s.delay.starved.contains q) }).raiseMemory
    memoryStarved

/-- An output leaves the starved list (R131). -/
def State.leaveStarved (s : State) (o : Fin 13) : State :=
  s.setDelay { s.delay with starved := s.delay.starved.filter (fun q => q != o) }

/-- An output becomes GRANTED in a zone with its segment, its relay closing (R44). -/
def State.becomeGranted (s : State) (o : Fin 13) (z : Zone) (r : Role) : State :=
  s.updateOut o
    { state := .granted, phase := none, zone := some z, role := some r, target := none,
      segment := true, relay := hasRelay o, relayOpenTimer := none }

/-- An output becomes STARVED in a zone (R44): CHANNEL STARVED, MEMORY STARVED. -/
def State.becomeStarved (s : State) (o : Fin 13) (z : Zone) (r : Role) : State :=
  ((s.updateOut o
    { state := .starved, phase := none, zone := some z, role := some r, target := none,
      segment := false, relay := false, relayOpenTimer := none }).addStarved o).raiseChannel o
    channelStarved

/-- An output becomes IDLE. -/
def State.becomeIdle (s : State) (o : Fin 13) : State := s.updateOut o OutputRec.idle

/-- Retry one starved output (R131). -/
def State.retryOne (s : State) (o : Fin 13) : State :=
  match (s.out o).zone, (s.out o).role with
  | some z, some r =>
    if s.delay.starved.contains o && (s.zone z).isUp then
      match s.requestOne o z r with
      | .ok s1 => ((s1.leaveStarved o).becomeGranted o z r).raiseChannel o channelStarved
      | .error _ => s
    else s
  | _, _ => s

/-- A retry pass of the starved list, in ascending output order, each output once (R131). -/
def State.retryPass (s : State) : State := s.delay.starved.foldl State.retryOne s

/-! ### Compaction steps and freeing (R130, R133 to R136) -/

/-- The compaction ends: the record becomes absent, a retry pass is made, the largest hole is
measured and the slot posts DONE or ABORTED (R136). -/
def State.endCompaction (s : State) (c : CompactionRec) : State :=
  let s1 := (s.setDelay { s.delay with compaction := none }).retryPass
  s1.complete c.slot (if c.abort then .aborted else .done)
    (natBytes c.moved ++ natBytes s1.delay.largestHole)

/-- The next examination, or the end when an abort is requested (R134, R135). -/
def State.continueCompaction (s : State) (c : CompactionRec) : State :=
  if c.abort then s.endCompaction c
  else
    let (d, ended) := DelayState.examine (examineFuel s.delay) s.delay c
    let s1 := s.setDelay d
    if ended then s1.endCompaction (d.compaction.getD c) else s1

/-- A freeing (R130, R135): the segment is removed; without a compaction a retry pass follows, and
a compaction that was moving the segment goes on to its next examination. -/
def State.freeSegment (s : State) (o : Fin 13) : State :=
  match s.delay.segment o with
  | none => s
  | some _ =>
    let s1 := s.setDelay (s.delay.removeSegment o)
    match s1.delay.compaction with
    | none => s1.retryPass
    | some c => if c.current = some o then s1.continueCompaction { c with current := none } else s1

/-! ### Grants and handovers (R43 to R49) -/

/-- An output asks for a segment in a zone and becomes GRANTED or STARVED (R44); the second part
says whether it was granted. -/
def State.placeInZone (s : State) (o : Fin 13) (z : Zone) (r : Role) : State × Bool :=
  match s.requestOne o z r with
  | .ok s1 => (s1.becomeGranted o z r, true)
  | .error _ => (s.becomeStarved o z r, false)

/-- A direct grant (R44). An output whose segment was allocated with its zone's wake takes that
segment (R43). -/
def State.directGrant (s : State) (o : Fin 13) (z : Zone) (r : Role) : State :=
  if (s.delay.segment o).isSome then (s.becomeGranted o z r).raiseChannel o channelHandover
  else
    let (s1, granted) := s.placeInZone o z r
    if granted then s1.raiseChannel o channelHandover else s1

/-- A handover starts (R45). The relay line stays as it is: R38 and R46 show it CLOSED in RAMP_DOWN, and
R52 closes it only on entering GRANTED, so an output whose QUIETING zone has opened its relay already
keeps it open (DESIGN CHOICE, log 38). -/
def State.startHandover (s : State) (o : Fin 13) (g : Option (Zone × Role)) : State :=
  (s.updateOut o { s.out o with state := .handover, phase := some .rampDown,
                                target := some (g.map (·.1)) }).raiseChannel o channelHandover

/-- Entry into REALLOCATE toward the zone that the grant rule gives (R47). `starved` says that the output
comes from STARVED: it enters HANDOVER here, which raises HANDOVER (R53). -/
def State.enterReallocate (s : State) (o : Fin 13) (starved : Bool) : State :=
  let s1 := s.setOut o { s.out o with state := .handover, phase := some .reallocate,
                                      target := some ((s.grantRule o).map (·.1)), relay := false,
                                      relayOpenTimer := none }
  if starved then s1.raiseChannel o channelHandover else s1

/-- REALLOCATE, which takes no time: the old segment is freed, and the output becomes IDLE or asks for a
new one (R47). Leaving STARVED with a segment raises STARVED too (R53, log 17). -/
def State.reallocate (s : State) (o : Fin 13) (starved : Bool) : State :=
  let g := s.grantRule o
  let s2 := (s.enterReallocate o starved).freeSegment o
  let s3 := s2.setOut o { s2.out o with segment := false }
  match g with
  | none => (s3.becomeIdle o).raiseChannel o channelHandover
  | some (z, r) =>
    let (s4, granted) := s3.placeInZone o z r
    if granted then
      let s5 := s4.raiseChannel o channelHandover
      if starved then s5.raiseChannel o channelStarved else s5
    else s4

/-- A handover is abandoned: the output returns to GRANTED with its old segment (R48). -/
def State.abandonHandover (s : State) (o : Fin 13) : State :=
  (s.updateOut o { s.out o with state := .granted, phase := none, target := none,
                                relay := hasRelay o, relayOpenTimer := none }).raiseChannel o channelHandover

/-- The zone an output's record names is QUIETING. -/
def State.zoneQuieting (s : State) (r : OutputRec) : Bool :=
  match r.zone with
  | some z => (s.zone z).power == .quieting
  | none => false

/-- Regrant one output (R43, R48, R49). An output GRANTED to MAIN whose position's size becomes NONE while MAIN
is QUIETING stays GRANTED: R89 says that a handover starts, R43's table that a result IDLE in a QUIETING zone
changes nothing, and the model takes R43 (DESIGN CHOICE, log 42). -/
def State.regrant (s : State) (o : Fin 13) : State :=
  let r := s.out o
  let g := s.grantRule o
  let own := g.isSome && r.zone == g.map (·.1) && r.role == g.map (·.2)
  match r.state with
  | .fault => s
  | .idle => match g with
    | none => s
    | some (z, role) => s.directGrant o z role
  | .granted =>
    if own then s
    else if g.isNone && s.zoneQuieting r then s
    else s.startHandover o g
  | .starved =>
    if own then s
    else if g.isNone && s.zoneQuieting r then s
    else (s.leaveStarved o).reallocate o true
  | .handover =>
    if own then s.abandonHandover o
    else s.setOut o { r with target := some (g.map (·.1)) }

/-- Regrant every output not in FAULT, in ascending output order (R43). -/
def State.regrantAll (s : State) : State := allOutputs.foldl State.regrant s

/-- Release the outputs that a zone holds at its entry into STANDBY (R43, R49, R53). -/
def State.releaseZone (s : State) (z : Zone) : State :=
  allOutputs.foldl (fun s o =>
    if (s.out o).heldBy z then
      ((s.leaveStarved o).becomeIdle o).raiseChannel o channelHandover
    else s) s

/-- Free the segments of the outputs that a zone holds (R9, R130). -/
def State.freeZone (s : State) (z : Zone) : State :=
  allOutputs.foldl (fun s o => if (s.out o).heldBy z then s.freeSegment o else s) s

/-- Open the relays of a zone's GRANTED outputs at its relay stage (R8, R52). -/
def State.openRelays (s : State) (z : Zone) : State :=
  allOutputs.foldl (fun s o =>
    if (s.out o).grantedTo z then s.setOut o { s.out o with relay := false } else s) s

/-! ### Faults (R56) -/

/-- The lane of an output carries silence (R37, R56). -/
def State.silenceLane (s : State) (o : Fin 13) : State :=
  s.setMix { s.mix with lanes := s.mix.lanes.set o (List.replicate 48 0) }

/-- An arrival on FLTn takes output On to FAULT (R56). -/
def State.faultOutput (s : State) (n : Fin 11) : State :=
  let o := lineOutput n
  if (s.out o).state = .fault then s.raiseFaultLine n
  else
    let s1 := (s.leaveStarved o).setGain o { s.gain o with current := -161, target := -161 }
    (((s1.silenceLane o).updateOut o { OutputRec.idle with state := .fault }).freeSegment o).raiseFaultLine n

end Sys2Proof.Machine
end

