-- ==== Sys2Proof/Machine/Binding.lean ====
section
/-! DEFINITION. What follows a change of a zone or an input: source statuses (R2), the decoder binding (R75, R76) and the tuner's activity (R141, R142). -/

namespace Sys2Proof.Machine

/-! ### Source status (R2) -/

/-- The decoder is bound to an input. -/
def State.boundTo (s : State) (i : Fin 12) : Bool :=
  match s.decoder.binding with
  | some b => b.val == i.val
  | none => false

/-- The source status that a live source gives (R2). -/
def State.statusOf (s : State) (src : Source) : SourceStatus :=
  match src with
  | .tuner => .playing
  | .input i => match (s.input i).state with
    | .noSignal | .locking => .noSignal
    | .pcm2 | .pcmn => .playing
    | .packed => if s.boundTo i then .playing else .unavailable

/-- Recompute a zone's source status; a change raises ZONE (R2, R3). -/
def State.refreshStatus (s : State) (z : Zone) : State :=
  let st := s.statusOf (s.zone z).live
  if st = (s.zone z).status then s
  else (s.setZone z { s.zone z with status := st }).raiseZone z

/-- Recompute every zone's source status. -/
def State.refreshStatuses (s : State) : State :=
  ((s.refreshStatus .main).refreshStatus .z2).refreshStatus .z3

/-! ### The decoder binding (R75, R76) -/

/-- The packed input that a WAKING or ON zone plays (R75). -/
def State.packedSource (s : State) (z : Zone) : Option (Fin 8) :=
  if (s.zone z).isUp then
    match (s.zone z).live with
    | .tuner => none
    | .input i =>
      if h : i.val < 8 then
        if (s.input i).state = .packed then some ⟨i.val, h⟩ else none
      else none
  else none

/-- The binding computed by the precedence MAIN, Z2, Z3 (R75). -/
def State.computedBinding (s : State) : Option (Fin 8) :=
  ((s.packedSource .main).or (s.packedSource .z2)).or (s.packedSource .z3)

/-- The decoder record after a change of binding (R76). -/
def DecoderRec.bound (b : Option (Fin 8)) : DecoderRec :=
  { DecoderRec.reset with binding := b, state := if b.isSome then .searching else .idle }

/-- Recompute the binding; a change starts the decoder anew, raises DECODER BIND and recomputes the
source statuses (R75, R76). -/
def State.refreshBinding (s : State) : State :=
  if s.computedBinding = s.decoder.binding then s
  else ((s.setDecoder (DecoderRec.bound s.computedBinding)).raiseDecoder decoderBind).refreshStatuses

/-! ### The tuner's activity (R141, R142) -/

/-- Some WAKING or ON zone has TUNER as its live source (R141). -/
def State.tunerHeard (s : State) : Bool :=
  Zone.all.any (fun z => (s.zone z).isUp && (s.zone z).live == .tuner)

/-- The tuner is active (R141). -/
def State.tunerActive (s : State) : Bool := s.tunerHeard || s.tuner.op.isSome

/-- Enter SETTLING on the frequency held for the settle time of the band; a retune clears the label
(R142, R154). -/
def TunerRec.settleNow (t : TunerRec) : TunerRec :=
  { t with state := .settling, settle := some (settleTime t.band), seek := none, scan := none,
           label := LabelRec.cleared }

/-- Enter PARKED (R141, R142). -/
def TunerRec.parkNow (t : TunerRec) : TunerRec :=
  { t with state := .parked, settle := none, seek := none, scan := none }

/-- Recompute the tuner's activity (R141, R142). -/
def State.refreshTuner (s : State) : State :=
  if s.tunerActive then
    if s.tuner.state = .parked then s.setTuner s.tuner.settleNow else s
  else
    match s.tuner.state with
    | .settling | .idle => s.setTuner s.tuner.parkNow
    | _ => s

/-- The reports that follow a zone's entry into a power state or a change of its live source: the
Frame Decoder recomputes the binding, the Tuner its activity. -/
def State.reportZones (s : State) : State := s.refreshBinding.refreshTuner

end Sys2Proof.Machine
end

