-- ==== Sys2Proof/Machine/ZoneOps.lean ====
section
/-! DEFINITION. The Zone Controller's shared operations: power transitions, wake requests, the override stack's layers and changes of total delays (R4 to R21, R30, R33, R126). -/

namespace Sys2Proof.Machine

/-! ### Power states -/

/-- Change a zone's power state: ZONE is raised, and NO_OUTPUT is watched (R3, R51). -/
def State.setPower (s : State) (z : Zone) (p : Power) : State :=
  ((s.setZone z { s.zone z with power := p }).noteOutputs).raiseZone z

/-- Every output GRANTED to a zone is at index −161 (R8, R13). -/
def State.zoneSilent (s : State) (z : Zone) : Bool :=
  (s.grantedOutputs z).all (fun o => (s.gain o).current == -161)

/-- The relay stage of a QUIETING zone begins: the relays of its outputs open (R8). -/
def State.startRelayStage (s : State) (z : Zone) : State :=
  (s.setZone z { s.zone z with quietStage := some .relay, relayTimer := some 20 }).openRelays z

/-- The entry of one zone into QUIETING, but for the reports and the end of its ramp stage (R7). -/
def State.quietZone (s : State) (z : Zone) (opSlot : Option (Fin 8)) : State :=
  let r := s.zone z
  let s1 := s.setZone z
    { r with live := r.waiting.getD r.live, waiting := none, sleepTimer := 0, opSlot := opSlot,
             wakeTimer := none, quietStage := some .ramp }
  (s1.setPower z .quieting).refreshStatus z

/-- The ramp stage ends at the entry into QUIETING when no output of the zone is above −161 (R8). -/
def State.endSilentRamp (s : State) (z : Zone) : State :=
  if (s.zone z).power = .quieting ∧ (s.zone z).quietStage = some .ramp ∧ s.zoneSilent z then
    s.startRelayStage z
  else s

/-- The reports of the zones' entries into QUIETING, made once, and the ends of ramp stages that
fall at the entry (R7, R8, R11, R21). `before` is the state before the entries: a zone that was
QUIETING there waits for a block start. -/
def State.reportQuieting (before s : State) : State :=
  (Zone.all.filter (fun z => (before.zone z).power != .quieting)).foldl State.endSilentRamp s.reportZones

/-- A zone enters QUIETING (R7). -/
def State.enterQuieting (s : State) (z : Zone) (opSlot : Option (Fin 8)) : State :=
  s.reportQuieting (s.quietZone z opSlot)

/-! ### Pending power commands (R10) -/

/-- Remove a zone's pending power command: ZONE is raised, its slot posts CANCELLED (R10). -/
def State.removePending (s : State) (z : Zone) : State :=
  let k := (s.zone z).pendingSlot
  ((s.setZone z { s.zone z with pendingPower := none, pendingSlot := none }).raiseZone z).completeOpt k
    .cancelled []

/-- A command becomes the pending power command with its own slot (R10). -/
def State.setPending (s : State) (z : Zone) (p : PendingPower) (k : Option (Fin 8)) : State :=
  (s.setZone z { s.zone z with pendingPower := some p, pendingSlot := k }).raiseZone z

/-! ### Waking (R4, R5, R121, R125) -/

/-- Conditions 1 to 3 of R4. -/
def State.wakeTests (s : State) : Except Status Unit :=
  if s.outputs.latch then .error .isProtected else s.delay.takesRequests

/-- The outputs that a zone would be granted directly at its entry into WAKING, with their roles
(R5). -/
def State.directOutputs (s : State) (z : Zone) : List (Fin 13 × Role) :=
  allOutputs.filterMap (fun o =>
    if (s.out o).state = .idle then
      match (s.asWaking z).grantRule o with
      | some (y, r) => if y = z then some (o, r) else none
      | none => none
    else none)

/-- The largest distance among the positions that the grant rule gives MAIN at its entry into
WAKING (R121). -/
def State.wakeReference (s : State) : Nat :=
  allOutputs.foldl (fun m o =>
    if (s.out o).state = .fault then m
    else
      match (s.asWaking .main).grantRule o with
      | some (.main, .pos p) => max m (s.speaker p).distance
      | _ => m) 0

/-- The state with the Dref that a wake of the zone would set (R121, R125). -/
def State.withReference (s : State) (z : Zone) : State :=
  match z with
  | .main => s.setDelay { s.delay with dref := some s.wakeReference }
  | _ => s

/-- The wake request of a zone (R5, R125): the state with the segments, and for MAIN the Dref. -/
def State.wakeRequest (s : State) (z : Zone) : Except Status State :=
  let s1 := s.withReference z
  (s1.delay.request ((s.directOutputs z).map (fun (o, r) => (o, s1.totalDelay z r)))).map s1.setDelay

/-- The zone enters WAKING with an operation slot, its segments being allocated (R5). -/
def State.enterWaking (s : State) (z : Zone) (k : Option (Fin 8)) : State :=
  ((((s.setZone z { s.zone z with opSlot := k, wakeTimer := some 120 }).setPower z .waking).regrantAll).reportZones)

/-! ### Entry into STANDBY (R9, R33) -/

/-- Discard every override entry; each raises OVERRIDE CANCELLED on its pushing port (R33). -/
def State.cancelStack (s : State) (z : Zone) : State :=
  ((s.zone z).stack.foldl (fun s e => s.raiseCancelled e.port z) s).setZone z
    { s.zone z with stack := [] }

/-- Dref becomes absent when MAIN enters STANDBY (R121). -/
def State.dropReference (s : State) (z : Zone) : State :=
  match z with
  | .main => s.setDelay { s.delay with dref := none }
  | _ => s

/-- A pending ON is executed at the entry into STANDBY (R9). -/
def State.runPendingOn (s : State) (z : Zone) : State :=
  if (s.zone z).pendingPower = some .on then
    let k := (s.zone z).pendingSlot
    let s1 := (s.setZone z { s.zone z with pendingPower := none, pendingSlot := none }).raiseZone z
    match s.wakeTests with
    | .error e => s1.completeOpt k .failed [e.code]
    | .ok _ =>
      match s1.wakeRequest z with
      | .error e => s1.completeOpt k .failed [e.code]
      | .ok s2 => s2.enterWaking z k
  else s

/-- A zone enters STANDBY, up to the pending ON that it may hold: its stack is cleared, its segments are
freed, its outputs are released, and the operation slot posts DONE (R9). -/
def State.toStandby (s : State) (z : Zone) : State :=
  let k := (s.zone z).opSlot
  let s1 := (s.setZone z
    { s.zone z with quietStage := none, relayTimer := none, opSlot := none }).setPower z .standby
  let s2 := ((s1.cancelStack z).dropReference z).freeZone z
  let s3 := ((s2.releaseZone z).regrantAll).reportZones
  s3.completeOpt k .done []

/-- A zone enters STANDBY, and executes a pending ON (R9). -/
def State.enterStandby (s : State) (z : Zone) : State := (s.toStandby z).runPendingOn z

/-! ### Layers (R30) -/

/-- The highest index of an entry that a port pushed. -/
def highestPushed (stack : List OverrideEntry) (p : Port) : Option Nat :=
  ((List.range stack.length).filter (fun k =>
    match stack[k]? with
    | some e => e.port == p
    | none => false)).getLast?

/-- A port's layer: the index of the entry its changes go to, or none for the live zone (R30). -/
def layerOf (stack : List OverrideEntry) (p : Port) : Option Nat :=
  if stack = [] then none
  else
    match highestPushed stack p with
    | some k => if k + 1 = stack.length then none else some (k + 1)
    | none => some 0

/-- Change the entry of a layer (R31). -/
def State.changeEntry (s : State) (z : Zone) (k : Nat) (f : OverrideEntry → OverrideEntry) : State :=
  s.setZone z { s.zone z with stack := (s.zone z).stack.modify k f }

/-- The answer of a change that landed on an entry (R31). -/
def deferredAnswer (k : Nat) : Answer := Answer.withData .deferred [natByte k]

/-! ### Sources (R12 to R14) -/

/-- A source applied to the live zone (R12 to R14); the first part says whether anything changed. -/
def State.applySource (s : State) (z : Zone) (src : Source) : Bool × State :=
  let r := s.zone z
  if r.power = .on then
    match r.waiting with
    | none => if src = r.live then (false, s) else (true, s.setZone z { r with waiting := some src })
    | some w =>
      if src = r.live then (true, s.setZone z { r with waiting := none })
      else if src = w then (false, s)
      else (true, s.setZone z { r with waiting := some src })
  else if src = r.live then (false, s)
  else (true, (((s.setZone z { r with live := src }).raiseZone z).refreshStatus z).reportZones)

/-! ### Volumes (R16) -/

/-- Clamp a volume to a zone's range (R16). -/
def ZoneRec.clampVolume (r : ZoneRec) (v : Int) : Int := clampInt (-160) r.maxVolume v

/-- The live volume takes a value; ZONE is raised when it changes (R16). -/
def State.applyVolume (s : State) (z : Zone) (v : Int) : Bool × State :=
  let w := (s.zone z).clampVolume v
  if w = (s.zone z).volume then (false, s)
  else (true, (s.setZone z { s.zone z with volume := w }).raiseZone z)

/-! ### Changes of total delays (R19, R90, R126) -/

/-- Apply a new setting, made in `s1`, to the delays of a zone's outputs as one all-or-nothing
change (R126, R127). The retry pass sees the new setting (log 15). -/
def State.changeDelays (s s1 : State) (z : Zone) : Except Status State :=
  let want := (s.grantedOutputs z).filterMap (fun o =>
    ((s.out o).role).map (fun r => (o, s1.totalDelay z r)))
  match s.delay.requestChange want with
  | .error e => .error e
  | .ok (d, freed) =>
    let s2 := s1.setDelay { d with dref := s1.delay.dref }
    .ok (if freed then s2.retryPass else s2)

end Sys2Proof.Machine
end

