-- ==== Sys2Proof/Machine/Inputs.lean ====
section
/-! DEFINITION. Input Receivers: links, descriptors, lock timers and Read Input (04_inputs_and_the_frame_decoder.md, 4.1). -/

namespace Sys2Proof.Machine

/-- A mask of a multichannel descriptor is valid: FL and FR, and no bit above HR (R63). -/
def maskValid (mask : Half) : Bool := mask.getLsbD 0 && mask.getLsbD 1 && decide (mask.toNat < 1024)

/-- The record that a valid descriptor gives an input; none for a descriptor that is not valid
(R63). -/
def recordOf (d : Descriptor) : Option InputRec :=
  if 2 < d.rate.toNat then none
  else
    match d.kind with
    | .twoChannel => some { state := .pcm2, mask := some 3, rate := some d.rate, timer := none, link := some d }
    | .multichannel =>
      if maskValid d.mask then
        some { state := if d.mask = 3 then .pcm2 else .pcmn, mask := some d.mask,
               rate := some d.rate, timer := none, link := some d }
      else none
    | .packed => some { state := .packed, mask := none, rate := some d.rate, timer := none, link := some d }
    | .unknown => none

/-- An input in LOCKING with its 20 ms running (R63). -/
def InputRec.locking (d : Descriptor) : InputRec :=
  { state := .locking, mask := none, rate := none, timer := some 20, link := some d }

/-- A change of an input's state: INPUT is raised, the Zone Controller recomputes the source
statuses, the Frame Decoder its binding (R65). -/
def State.changeInput (s : State) (i : Fin 8) (r : InputRec) : State :=
  (((s.setInput (digital i) r).raiseInput (digital i)).refreshStatuses).refreshBinding

/-- SIGNAL_ARRIVAL (R63). -/
def State.signalArrives (s : State) (i : Fin 8) (d : Descriptor) : State :=
  if (s.input (digital i)).state = .noSignal then s.changeInput i (InputRec.locking d) else s

/-- SIGNAL_LOSS (R63). -/
def State.signalLost (s : State) (i : Fin 8) : State :=
  if (s.input (digital i)).state = .noSignal then s else s.changeInput i InputRec.noSignal

/-- The descriptor of a link is read: a valid one takes the input to its kind, one that is not valid
leaves it in LOCKING with its timer absent (R63). -/
def State.readDescriptor (s : State) (i : Fin 8) (d : Descriptor) : State :=
  match recordOf d with
  | some r => s.changeInput i r
  | none => s.setInput (digital i) { InputRec.locking d with timer := none }

/-- DESCRIPTOR_CHANGE (R63). -/
def State.descriptorChanges (s : State) (i : Fin 8) (d : Descriptor) : State :=
  let r := s.input (digital i)
  match r.state with
  | .noSignal => s
  | .locking =>
    if r.timer.isSome then s.setInput (digital i) { r with link := some d } else s.readDescriptor i d
  | _ => s.changeInput i (InputRec.locking d)

/-- LOCK_TIMER_EXPIRY: the end of the 20 ms (R63). -/
def State.lockTimerEnds (s : State) (i : Fin 8) : State :=
  let r := s.input (digital i)
  match r.state, r.timer, r.link with
  | .locking, some _, some d => s.readDescriptor i d
  | _, _, _ => s

/-- The source status of a zone is derived, with no event (R23). -/
def State.deriveStatus (s : State) (z : Zone) : State :=
  s.setZone z { s.zone z with status := s.statusOf (s.zone z).live }

/-- The end of a full reset: each digital input is NO_SIGNAL, the source statuses are derived (R23),
and each link that is present is taken as a signal arrival (R67). -/
def State.resetInputs (s : State) : State :=
  let links := s.inputs
  allDigital.foldl (fun s i =>
    match (links[(digital i)]).link with
    | some d => s.signalArrives i d
    | none => s) (Zone.all.foldl State.deriveStatus { s with inputs := InputRec.table })

/-! ### Read Input (R66) -/

/-- The five bytes of an input record (R66). -/
def InputRec.bytes (r : InputRec) (i : Fin 12) : List Byte :=
  [natByte i.val, r.state.code] ++ halfBytes (r.mask.getD 0) ++ [optByte id r.rate]

/-- The twelve inputs in order. -/
def allInputs : List (Fin 12) := [0, 1, 2, 3, 4, 5, 6, 7, 8, 9, 10, 11]

/-- The inputs that Read Input names: one of the twelve, or ALL, 0x80 (R66, R206). -/
def inputsNamed (b : Byte) : Option (List (Fin 12)) :=
  if h : b.toNat < 12 then some [⟨b.toNat, h⟩] else if b = 0x80 then some allInputs else none

/-- Read Input (R66). -/
def doReadInput (_x : Ctx) (input : Byte) (count : Half) (s : State) : Answer × State :=
  match inputsNamed input with
  | none => (Answer.badParam 0, s)
  | some is => (readCommand 1 count ((is.map (fun i => (s.input i).bytes i)).flatten), s)

end Sys2Proof.Machine
end

