-- ==== Sys2Proof/Machine/Frames.lean ====
section
/-! DEFINITION. Frame Decoder: the tests of a layered channel frame, its samples, searching, lock, concealment, and Read Decoder (04_inputs_and_the_frame_decoder.md, 4.2 to 4.5). -/

namespace Sys2Proof.Machine

/-! ### The frame (R68 to R73) -/

/-- The CRC register after one bit (R71). -/
def crcBit (r : Half) (bit : Bool) : Half :=
  if bit != r.msb then (r <<< 1) ^^^ 0x1021 else r <<< 1

/-- The CRC register after one byte, its bits from the most significant down (R71). -/
def crcByte (r : Half) (b : Byte) : Half :=
  ([7, 6, 5, 4, 3, 2, 1, 0] : List Nat).foldl (fun r k => crcBit r (b.getLsbD k)) r

/-- The CRC of a list of bytes (R71). -/
def crc (bs : List Byte) : Half := bs.foldl crcByte 0xFFFF

/-- A channel record of the payload (R69). -/
structure ChannelRecord where
  exponent : Nat
  width : Nat
  bytes : List Byte
deriving DecidableEq, Repr

/-- What the walk of R70 finds: it lacks bytes, it fails a test, or it ends at a position with the
channel records. -/
inductive Walk where
  | needMore
  | bad (e : FrameError)
  | done (pos : Nat) (records : List ChannelRecord)
deriving DecidableEq, Repr

/-- Walk `n` channel records from position `pos` on, `rest` being the bytes there, in a frame whose
length field is `len` (R69, R70, R72). -/
def walkRecords (len : Nat) : Nat → Nat → List Byte → List ChannelRecord → Walk
  | 0, pos, _, acc => .done pos acc.reverse
  | n + 1, pos, rest, acc =>
    if len ≤ pos then .bad .lengthMismatch
    else
      match rest with
      | [] => .needMore
      | h :: t =>
        if 10 < h.toNat % 16 then .bad .width
        else
          let w := 4 + 2 * (h.toNat % 16)
          walkRecords len n (pos + 1 + 32 * w) (t.drop (32 * w))
            ({ exponent := h.toNat / 16, width := w, bytes := t.take (32 * w) } :: acc)

/-- The sample of a mantissa, given as `w` bits, with exponent `e` (R73). -/
def mantissaSample (w e m : Nat) : Sample :=
  let v : Int := if 2 ^ w ≤ 2 * m then (m : Int) - (2 : Int) ^ w else (m : Int)
  BitVec.ofInt 24 (v * (2 : Int) ^ (24 - w) / (2 : Int) ^ e)

/-- The 256 samples of a channel record: the mantissas follow one another, most significant bit
first (R69, R73). -/
def ChannelRecord.samples (r : ChannelRecord) : List Sample :=
  let bits := r.bytes.foldl (fun n b => 256 * n + b.toNat) 0
  (List.range 256).map (fun k =>
    mantissaSample r.width r.exponent (bits / 2 ^ (r.width * (255 - k)) % 2 ^ r.width))

/-- The samples of the `j`-th of `n` present channels: its record of each block in turn (R69). -/
def channelSamples (records : List ChannelRecord) (blocks n j : Nat) : List Sample :=
  ((List.range blocks).map (fun b =>
    match records[b * n + j]? with
    | some r => r.samples
    | none => [])).flatten

/-- The decoded samples of a good frame, zeros for a channel that is not present (R73, R74). -/
def decodeSamples (h : FrameHeader) (records : List ChannelRecord) : DecodedFrame :=
  let present := channelsOf h.mask
  { mask := h.mask
    channels := Channel.all.map (fun ch =>
      if present.contains ch then
        channelSamples records h.blocks present.length (present.findIdx (· == ch))
      else List.replicate (256 * h.blocks) 0) }

/-- The judgement of a frame: bytes lack, it is bad with its first failing test, or it is good
(R72). -/
inductive Judged where
  | needMore
  | bad (e : FrameError)
  | good (h : FrameHeader) (records : List ChannelRecord)
deriving DecidableEq, Repr

/-- Two bytes at a place, most significant first, as a number. -/
def numAt (bs : List Byte) (k : Nat) : Nat := 256 * (byteAt bs k).toNat + (byteAt bs (k + 1)).toNat

/-- The bytes begin with the sync (R68). -/
def startsWithSync (bs : List Byte) : Bool := bs.take 2 == [0xC5, 0x3A]

/-- Tests 7 to 9 of R72, for the header of a frame whose payload starts at `start`. -/
def judgePayload (h : FrameHeader) (start : Nat) (bs : List Byte) : Judged :=
  match walkRecords h.length (h.blocks * (channelsOf h.mask).length) start (bs.drop start) [] with
  | .needMore => .needMore
  | .bad e => .bad e
  | .done pos records =>
    if pos + 2 ≠ h.length then .bad .lengthMismatch
    else if bs.length < h.length then .needMore
    else if crc (bs.take pos) = halfAt bs pos then .good h records
    else .bad .check

/-- Tests 2 to 9 of R72, in order, on the bytes from a frame's start (log 14). -/
def judgeFields (bs : List Byte) : Judged :=
  if bs.length < 10 then .needMore
  else if numAt bs 2 < 64 ∨ 8192 < numAt bs 2 then .bad .lengthRange
  else if 2 < (byteAt bs 4).toNat then .bad .rate
  else if (byteAt bs 5).toNat < 1 ∨ 8 < (byteAt bs 5).toNat then .bad .blocks
  else if !maskValid (halfAt bs 6) then .bad .mask
  else
    let h : FrameHeader :=
      { length := numAt bs 2, rate := byteAt bs 4, blocks := (byteAt bs 5).toNat, mask := halfAt bs 6,
        dialogue := min (byteAt bs 8).toNat 31, downmix := none }
    if (byteAt bs 9).getLsbD 0 then
      if bs.length < 12 then .needMore
      else if 3 < (byteAt bs 10).toNat ∨ 3 < (byteAt bs 11).toNat then .bad .downmix
      else judgePayload { h with downmix := some ((byteAt bs 10).toNat, (byteAt bs 11).toNat) } 12 bs
    else judgePayload h 10 bs

/-- All nine tests of R72 on the bytes from a frame's start. -/
def judge (bs : List Byte) : Judged :=
  if bs.length < 2 then .needMore
  else if startsWithSync bs then judgeFields bs
  else .bad .sync

/-! ### Delivery (R81) -/

/-- A counter that stays at 65,535 (R83). -/
def countUp (n : Nat) : Nat := min (n + 1) 65535

/-- Samples join the delivery queue behind those that wait (R81, log 9). -/
def appendQueue (queue frame : List (List Sample)) : List (List Sample) :=
  if queue = [] then frame else List.zipWith (· ++ ·) queue frame

/-- Samples at the rate of their frame, brought to the internal rate by a conversion that is not
given: free values (R73, log 8). -/
def convertChannel (n : Nat) (rate : Byte) (len ch : Nat) : List Sample :=
  (List.range (Config.convertedLength n rate.toNat len)).map (Config.convertedSample n rate.toNat ch)

/-- Deliver samples of a frame's span to the Mix Engine (R73, R81). -/
def State.deliver (s : State) (rate : Byte) (f : DecodedFrame) : State :=
  if rate = 0 then
    s.setDecoder { s.decoder with fifo := appendQueue s.decoder.fifo f.channels }
  else
    { s with
      freeCount := s.freeCount + 1
      decoder := { s.decoder with
        fifo := appendQueue s.decoder.fifo (f.channels.zipIdx.map (fun (xs, k) =>
          if (channelsOf f.mask).any (fun ch => ch.index == k) then
            convertChannel s.freeCount rate xs.length k
          else List.replicate (Config.convertedLength s.freeCount rate.toNat xs.length) 0)) } }

/-- A frame of silence with a mask (R79). -/
def silentFrame (mask : Half) (blocks : Nat) : DecodedFrame :=
  { mask := mask, channels := List.replicate 10 (List.replicate (256 * blocks) 0) }

/-- Deliver silence for the span of a bad frame (R79); silence is silence at every rate. -/
def State.deliverSilence (s : State) (h : FrameHeader) : State :=
  if h.rate = 0 then
    s.setDecoder { s.decoder with fifo := appendQueue s.decoder.fifo (silentFrame h.mask h.blocks).channels }
  else
    { s with
      freeCount := s.freeCount + 1
      decoder := { s.decoder with
        fifo := appendQueue s.decoder.fifo
          (List.replicate 10
            (List.replicate (Config.convertedLength s.freeCount h.rate.toNat (256 * h.blocks)) 0)) } }

/-- A sample shifted right by one, rounding down (R79). -/
def halve (x : Sample) : Sample := BitVec.sshiftRight x 1

/-- The halved repeat (R79). -/
def DecodedFrame.halved (f : DecodedFrame) : DecodedFrame :=
  { f with channels := f.channels.map (fun xs => xs.map halve) }

/-! ### Searching and lock (R77) -/

/-- The place of the first sync pair. -/
def findSync : List Byte → Nat → Option Nat
  | [], _ => none
  | b :: bs, k => if startsWithSync (b :: bs) then some k else findSync bs (k + 1)

/-- A good frame becomes the candidate (R77). -/
def DecoderRec.takeCandidate (d : DecoderRec) (h : FrameHeader) (next : Nat) : DecoderRec :=
  { d with good := countUp d.good, candidate := some (h.rate, h.mask), header := some h, scanPos := next }

/-- A bad frame in SEARCHING, or a missing sync: no candidate, the scan resumes (R77). -/
def DecoderRec.dropCandidate (d : DecoderRec) (e : FrameError) (next : Nat) : DecoderRec :=
  { d with candidate := none, lastError := e, scanPos := next }

/-- The second frame of a lock (R77). -/
def State.lock (s : State) (h : FrameHeader) (records : List ChannelRecord) : State :=
  let d := s.decoder
  let f := decodeSamples h records
  ((s.setDecoder
    { d with state := .locked, good := countUp d.good, candidate := none, consecutiveBad := 0,
             header := some h, repeatBuffer := some f, expected := some (d.scanPos + h.length),
             scanPos := d.scanPos + h.length }).deliver h.rate f).raiseDecoder decoderLock

/-- The frame awaited at the byte after the candidate's frame (R77). -/
def State.judgeSecond (s : State) (cand : Byte × Half) (bs : List Byte) : State :=
  let d := s.decoder
  match judge bs with
  | .needMore => s
  | .good h records =>
    if (h.rate, h.mask) = cand then s.lock h records
    else s.setDecoder (d.takeCandidate h (d.scanPos + h.length))
  | .bad e => s.setDecoder (d.dropCandidate e (if e = .sync then d.scanPos else d.scanPos + 1))

/-- The frame that the scan finds at place `k` (R77). -/
def State.judgeFound (s : State) (k : Nat) (bs : List Byte) : State :=
  let d := s.decoder
  match judgeFields (bs.drop k) with
  | .needMore => s
  | .good h _ => s.setDecoder (d.takeCandidate h (d.scanPos + k + h.length))
  | .bad e => s.setDecoder (d.dropCandidate e (d.scanPos + k + 1))

/-- FRAME_FOUND_SEARCHING (R77). -/
def State.searchFrame (s : State) (bs : List Byte) : State :=
  if s.decoder.state = .searching then
    match s.decoder.candidate with
    | some cand => s.judgeSecond cand bs
    | none =>
      match findSync bs 0 with
      | some k => s.judgeFound k bs
      | none => s
  else s

/-! ### Locked and concealing (R78 to R80) -/

/-- A good frame in LOCKED or CONCEALING (R78, R80). -/
def State.goodFrame (s : State) (old h : FrameHeader) (at_ : Nat) (records : List ChannelRecord) : State :=
  let d := s.decoder
  let f := decodeSamples h records
  let s1 := (s.setDecoder
    { d with state := .locked, good := countUp d.good, consecutiveBad := 0, header := some h,
             repeatBuffer := some f, expected := some (at_ + h.length),
             scanPos := at_ + h.length }).deliver h.rate f
  if h.rate = old.rate ∧ h.mask = old.mask then s1 else s1.raiseDecoder decoderFormat

/-- A bad frame in LOCKED or CONCEALING (R79). -/
def State.badFrame (s : State) (old : FrameHeader) (e : FrameError) (at_ : Nat) : State :=
  let d := { s.decoder with bad := countUp s.decoder.bad, lastError := e,
                            expected := some (at_ + old.length), scanPos := at_ + old.length }
  match d.consecutiveBad with
  | 0 =>
    (s.setDecoder { d with state := .concealing, consecutiveBad := 1,
                           concealed := countUp d.concealed }).deliver old.rate
      ((d.repeatBuffer.getD (silentFrame old.mask old.blocks)).halved)
  | 1 =>
    (s.setDecoder { d with state := .concealing, consecutiveBad := 2,
                           concealed := countUp d.concealed }).deliverSilence old
  | _ =>
    (s.setDecoder { d with state := .searching, consecutiveBad := 0, repeatBuffer := none,
                           expected := none, candidate := none, scanPos := at_ + 1,
                           fifo := [] }).raiseDecoder decoderLost

/-- The frame at the expected position is judged once its span has been received (R78). -/
def State.judgeExpected (s : State) (old : FrameHeader) (at_ : Nat) (bs : List Byte) : State :=
  match judge bs with
  | .needMore => s
  | .good h records => s.goodFrame old h at_ records
  | .bad e => if bs.length < old.length then s else s.badFrame old e at_

/-- FRAME_TAKEN_LOCKED (R78 to R80). -/
def State.takeFrame (s : State) (bs : List Byte) : State :=
  match s.decoder.state, s.decoder.header, s.decoder.expected with
  | .locked, some old, some at_ => s.judgeExpected old at_ bs
  | .concealing, some old, some at_ => s.judgeExpected old at_ bs
  | _, _, _ => s

/-! ### Read Decoder (R84) -/

/-- The nine header bytes of Read Decoder after the presence byte (R84). -/
def headerBytes : Option FrameHeader → List Byte
  | none => [0, 0, 0, 0, 0, 0, 0, 0, 0]
  | some h =>
    [1, h.rate, natByte h.blocks] ++ halfBytes h.mask ++ [natByte h.dialogue] ++
    (match h.downmix with
      | some (c, s) => [1, natByte c, natByte s]
      | none => [0, 0, 0])

/-- The nineteen bytes of Read Decoder (R84). -/
def DecoderRec.bytes (d : DecoderRec) : List Byte :=
  [optByte (fun i => natByte i.val) d.binding, d.state.code, natByte d.consecutiveBad] ++
  headerBytes d.header ++ [d.lastError.code] ++ natBytes d.good ++ natBytes d.bad ++ natBytes d.concealed

/-- The counters and the last frame error are cleared (R84). -/
def DecoderRec.cleared (d : DecoderRec) : DecoderRec :=
  { d with good := 0, bad := 0, concealed := 0, lastError := .none }

/-- Read Decoder (R84). -/
def doReadDecoder (_x : Ctx) (clear : Byte) (count : Half) (s : State) : Answer × State :=
  match flagOf clear with
  | none => (Answer.badParam 0, s)
  | some c =>
    if countOk count then
      (readAnswer count s.decoder.bytes, if c then s.setDecoder s.decoder.cleared else s)
    else (Answer.badParam 1, s)

end Sys2Proof.Machine
end

