-- ==== Sys2Proof/Machine/Mix.lean ====
section
/-! DEFINITION. The Mix Engine's commands and its arithmetic: speakers, virtual channels, fold matrix, downmix, gain words (05_the_mix_engine.md). -/

namespace Sys2Proof.Machine

/-! ### Set Speaker, Set Crossover, Read Speakers (R89 to R92) -/

/-- The largest distance of the speaker set as it stands, with the distances held in `s1` (R121). -/
def State.changeReference (s s1 : State) : Nat :=
  s.speakerSet.foldl (fun m p => max m (s1.speaker p).distance) 0

/-- The delay change of a Set Speaker that changes a distance (R90, R121). -/
def State.changeDistances (s s1 : State) : Except Status State :=
  if (s.zone .main).isUp then
    s.changeDelays (s1.setDelay { s1.delay with dref := some (s.changeReference s1) }) .main
  else .ok s1

/-- A speaker record is taken: a distance change asks for its delay change, a change to or from NONE
is regranted (R89, R90). -/
def State.takeSpeaker (s : State) (p : Position) (r : SpeakerRec) : Except Status State :=
  let old := s.speaker p
  let s1 := s.setSpeakerRec p r
  let moved := if r.distance = old.distance then .ok s1 else s.changeDistances s1
  moved.map (fun s2 => if (r.size == .none) = (old.size == .none) then s2 else s2.regrantAll)

/-- Set Speaker (R89, R90). -/
def doSetSpeaker (_x : Ctx) (position size : Byte) (distance : Half) (trim polarity : Byte) (s : State) :
    Answer × State :=
  match positionOf position with
  | none => (Answer.badParam 0, s)
  | some p =>
    match sizeOf p size, flagOf polarity with
    | none, _ => (Answer.badParam 1, s)
    | _, none => (Answer.badParam 4, s)
    | some z, some inv =>
      let r : SpeakerRec :=
        { size := z, distance := min distance.toNat 1800, trim := clampInt (-24) 24 trim.toInt,
          inverted := inv }
      if r = s.speaker p then (Answer.plain .doneNoChange, s)
      else
        match s.takeSpeaker p r with
        | .error e => (Answer.plain e, s)
        | .ok s1 => (Answer.plain .done, s1)

/-- Set Crossover (R91). -/
def doSetCrossover (_x : Ctx) (hz : Byte) (s : State) : Answer × State :=
  if hz = 60 ∨ hz = 80 ∨ hz = 100 ∨ hz = 120 then
    if hz = s.mix.crossover then (Answer.plain .doneNoChange, s)
    else (Answer.plain .done, s.setMix { s.mix with crossover := hz })
  else (Answer.badParam 0, s)

/-- The six bytes of a speaker record (R92). -/
def SpeakerRec.bytes (r : SpeakerRec) (p : Position) : List Byte :=
  [natByte p.index.val, r.size.code] ++ natBytes r.distance ++
  [BitVec.ofInt 8 r.trim, boolByte r.inverted]

/-- The 69 bytes of Read Speakers (R92). -/
def State.speakerBytes (s : State) : List Byte :=
  [s.mix.crossover] ++ halfBytes (maskOf (s.mix.speakerSet.map (fun p => p.index.val))) ++
  (Position.all.map (fun p => (s.speaker p).bytes p)).flatten

/-- Read Speakers (R92). -/
def doReadSpeakers (_x : Ctx) (count : Half) (s : State) : Answer × State :=
  (readCommand 0 count s.speakerBytes, s)

/-! ### The samples of one block -/

/-- The samples of one channel in one block, as integers. -/
abbrev Wave := List Int

/-- The length of a block (R86). -/
def blockLength : Nat := 48

/-- A channel of zeros. -/
def Wave.silent : Wave := List.replicate blockLength 0

/-- The first 48 of a list of samples; samples that an ill-formed operand lacks are zeros (log 31). -/
def Wave.of (xs : List Sample) : Wave := (List.range blockLength).map (fun k => (xs.getD k 0).toInt)

/-- Channels with their samples. A channel that is not listed counts as zeros. -/
abbrev Sound := List (Channel × Wave)

/-- The samples of a channel. -/
def Sound.get (v : Sound) (ch : Channel) : Wave :=
  match v.find? (fun cw => cw.1 == ch) with
  | some cw => cw.2
  | none => Wave.silent

/-- The channels of a sound. -/
def Sound.channels (v : Sound) : List Channel := v.map (·.1)

/-- Sums of products on the 4096 scale: rounded once, then saturated (Conventions, Audio numbers). -/
def weighted (terms : List (Int × Wave)) : Wave :=
  (List.range blockLength).map (fun k =>
    saturate (div4096 (terms.foldl (fun a t => a + t.1 * t.2.getD k 0) 0)))

/-- The mean of two channels, rounded half up (R95, R96, R104, R152). -/
def meanWave (l r : Wave) : Wave := weighted [(2048, l), (2048, r)]

/-! ### Source channel sets (R93) -/

/-- A source channel set is two-channel when it holds FL and FR alone (R93). -/
def twoChannel (set : List Channel) : Bool := set == [.fl, .fr]

/-- The source channel set of a zone (R93). -/
def State.sourceChannels (s : State) (z : Zone) : List Channel :=
  let r := s.zone z
  if r.power = .standby ∨ r.status ≠ .playing then [.fl, .fr]
  else
    match r.live with
    | .tuner => [.fl, .fr]
    | .input i =>
      match (s.input i).state with
      | .pcmn => channelsOf ((s.input i).mask.getD 3)
      | .packed =>
        match s.decoder.header with
        | some h => if s.boundTo i then channelsOf h.mask else [.fl, .fr]
        | none => [.fl, .fr]
      | _ => [.fl, .fr]

/-! ### Virtual channels (R94 to R96) -/

/-- The channel of a position (R97): positions are named as channels. -/
def Position.channel : Position → Option Channel
  | .fl => some .fl
  | .fr => some .fr
  | .c => some .c
  | .sl => some .sl
  | .sr => some .sr
  | .bl => some .bl
  | .br => some .br
  | .hl => some .hl
  | .hr => some .hr
  | .sub1 | .sub2 => none

/-- The position of a channel; LFE has none (R97). -/
def Channel.position : Channel → Option Position
  | .fl => some .fl
  | .fr => some .fr
  | .c => some .c
  | .lfe => none
  | .sl => some .sl
  | .sr => some .sr
  | .bl => some .bl
  | .br => some .br
  | .hl => some .hl
  | .hr => some .hr

/-- A channel is made by MATRIX or ALL_STEREO: FL and FR always, LFE with the source, the others as
`made` says (R95, R96). -/
def madeChannels (src : List Channel) (made : Channel → Bool) : List Channel :=
  Channel.all.filter (fun ch =>
    match ch with
    | .fl | .fr => true
    | .lfe => src.contains .lfe
    | ch => made ch)

/-- A channel's position is in the speaker set. -/
def inSet (set : List Position) (ch : Channel) : Bool :=
  match Channel.position ch with
  | some p => set.contains p
  | none => false

/-- The virtual channel set of MAIN (R94 to R96). -/
def virtualChannels (mode : SurroundMode) (src : List Channel) (set : List Position) : List Channel :=
  match mode with
  | .direct => src
  | .stereo => src.filter (fun ch => ch == .fl || ch == .fr || ch == .lfe)
  | .matrix =>
    if twoChannel src then
      madeChannels src (fun ch =>
        match ch with
        | .c | .sl | .sr => true
        | .bl | .br => inSet set ch
        | _ => false)
    else src
  | .allStereo => madeChannels src (inSet set)

/-! ### Downmix (R103) -/

/-- The downmix coefficient of a centre code (R103). -/
def centreCoef : Nat → Nat
  | 0 => 4096
  | 1 => 3446
  | 2 => 2896
  | _ => 2440

/-- The downmix coefficient of a surround code (R103). -/
def surroundCoef : Nat → Nat
  | 0 => 4096
  | 1 => 2896
  | 2 => 2048
  | _ => 0

/-- A zone's live source is the bound input (R81). -/
def State.playsBound (s : State) (z : Zone) : Bool :=
  match (s.zone z).live with
  | .input i => s.boundTo i
  | .tuner => false

/-- The last good header, for a zone whose live source is the bound input (R81). -/
def State.headerFor (s : State) (z : Zone) : Option FrameHeader :=
  if s.playsBound z then s.decoder.header else none

/-- The downmix coefficients in use for a zone (R103). -/
def State.downmixCoefs (s : State) (z : Zone) : DownmixCoef :=
  match s.headerFor z with
  | some h => match h.downmix with
    | some (c, r) => { c := centreCoef c, s := surroundCoef r }
    | none => DownmixCoef.default
  | none => DownmixCoef.default

/-- Lo and Ro of a source (R103). -/
def downmix (k : DownmixCoef) (v : Sound) : Wave × Wave :=
  if twoChannel v.channels then (v.get .fl, v.get .fr)
  else
    (weighted [(4096, v.get .fl), ((k.c : Int), v.get .c), ((k.s : Int), v.get .sl),
       ((k.s : Int), v.get .bl), (2896, v.get .hl)],
     weighted [(4096, v.get .fr), ((k.c : Int), v.get .c), ((k.s : Int), v.get .sr),
       ((k.s : Int), v.get .br), (2896, v.get .hr)])

/-- The virtual channel `ch` of MAIN (R94 to R96). -/
def virtualWave (mode : SurroundMode) (k : DownmixCoef) (v : Sound) (ch : Channel) : Wave :=
  match mode with
  | .direct | .stereo => v.get ch
  | .matrix =>
    if twoChannel v.channels then
      match ch with
      | .c => meanWave (v.get .fl) (v.get .fr)
      | .sl | .bl => weighted [(2896, v.get .fl), (-2896, v.get .fr)]
      | .sr | .br => weighted [(2896, v.get .fr), (-2896, v.get .fl)]
      | ch => v.get ch
    else v.get ch
  | .allStereo =>
    match ch with
    | .fl | .sl | .bl | .hl => (downmix k v).1
    | .fr | .sr | .br | .hr => (downmix k v).2
    | .c => meanWave (downmix k v).1 (downmix k v).2
    | .lfe => v.get .lfe

/-! ### The fold matrix (R97, R98) -/

/-- The fold table (R97). -/
def foldTable : Position → List (Position × Nat)
  | .c => [(.fl, 2896), (.fr, 2896)]
  | .sl => [(.fl, 2896)]
  | .sr => [(.fr, 2896)]
  | .bl => [(.sl, 4096)]
  | .br => [(.sr, 4096)]
  | .hl => [(.fl, 2896)]
  | .hr => [(.fr, 2896)]
  | .fl => [(.c, 2896)]
  | .fr => [(.c, 2896)]
  | .sub1 | .sub2 => []

/-- The product of two coefficients (R98). -/
def mulCoef (a b : Nat) : Nat := (a * b + 2048) / 4096

/-- The ends of the paths that go on through the entry of the position reached, with at most `n`
further hops (R98). -/
def foldPaths (set : List Position) : Nat → List Position → List (Position × Nat) → Nat → List (Position × Nat)
  | 0, _, _, _ => []
  | n + 1, visited, entry, coef =>
    (entry.map (fun (q, k) =>
      if visited.contains q then []
      else if set.contains q then [(q, mulCoef coef k)]
      else foldPaths set n (q :: visited) (foldTable q) (mulCoef coef k))).flatten

/-- What a virtual channel contributes to the positions of the speaker set (R97, R98). -/
def contributions (set : List Position) (ch : Channel) : List (Position × Nat) :=
  match Channel.position ch with
  | some p => if set.contains p then [(p, 4096)] else foldPaths set 3 [p] (foldTable p) 4096
  | none =>
    match set.filter Position.isSub with
    | [] => foldPaths set 3 [] [(.fl, 2896), (.fr, 2896)] 4096
    | subs => subs.map (fun p => (p, 4096))

/-- The coefficient c_ij of a position and a virtual channel (R97, R98). -/
def foldCoef (set : List Position) (p : Position) (ch : Channel) : Nat :=
  (((contributions set ch).filter (fun e => e.1 == p)).map (·.2)).sum

/-- The fold matrix: the coefficients that are not 0 (R97). -/
def buildMatrix (set : List Position) (virtual : List Channel) : List FoldRow :=
  set.map (fun p =>
    { position := p
      coefs := (virtual.map (fun ch => (ch, foldCoef set p ch))).filter (fun e => e.2 != 0) })

/-- The speaker sum of a row (R99). -/
def FoldRow.sum (row : FoldRow) (v : Sound) : Wave :=
  weighted (row.coefs.map (fun e => ((e.2 : Int), v.get e.1)))

/-! ### Gain (R106 to R110) -/

/-- 2w − 1 is at most twice 1,048,576 × 10^(g/40), so w is at most the rounded gain word (R109). -/
def gainReaches (g : Int) (w : Nat) : Bool :=
  decide ((2 * w - 1) ^ 40 * 10 ^ (-g).toNat ≤ 2 ^ 840 * 10 ^ g.toNat)

/-- The gain word W(g): the nearest integer to 1,048,576 × 10^(g/40), a half rounded up, found bit by
bit (R109). -/
def gainWord (g : Int) : Nat :=
  if g ≤ -161 then 0
  else
    ([22, 21, 20, 19, 18, 17, 16, 15, 14, 13, 12, 11, 10, 9, 8, 7, 6, 5, 4, 3, 2, 1, 0] : List Nat).foldl
      (fun w b => if gainReaches g (w + 2 ^ b) then w + 2 ^ b else w) 0

/-- A sample after gain and polarity (R110). -/
def outputSample (word : Nat) (inverted : Bool) (x : Int) : Sample :=
  let y := saturate ((x * (word : Int) + 524288) / 1048576)
  toSample (if inverted then -y else y)

/-- The normal target of an output granted to a zone in a role (R106). -/
def State.normalTarget (s : State) (z : Zone) (r : Role) : Int :=
  let trim := match z, r with
    | .main, .pos p => (s.speaker p).trim
    | _, _ => 0
  let level := match s.headerFor z with
    | some h => (h.dialogue : Int)
    | none => 0
  let thw := if s.outputs.thw.active then 12 else 0
  clampInt (-160) 24 ((s.zone z).volume + trim - 2 * level - thw)

/-- The target and ramp kind of an output GRANTED to a zone in a role (R107). -/
def State.grantedTarget (s : State) (z : Zone) (r : Role) : Int × RampKind :=
  match (s.zone z).power with
  | .on =>
    if (s.zone z).waiting.isSome then (-161, .fast)
    else if (s.zone z).mute then (-161, .normal)
    else (s.normalTarget z r, .normal)
  | _ => (-161, .fast)

/-- The segment of an output is held silent (R124). -/
def State.heldSilent (s : State) (o : Fin 13) : Bool :=
  match s.delay.segment o with
  | some g => g.held
  | none => false

/-- The gain state of an output after the targets of R107 and R124 have been set. -/
def State.aim (s : State) (o : Fin 13) : GainRec :=
  let r := s.out o
  let g := s.gain o
  match r.state, r.phase with
  | .granted, _ =>
    if s.heldSilent o then { g with target := -161, ramp := .fast }
    else
      match r.zone, r.role with
      | some z, some role =>
        { g with target := (s.grantedTarget z role).1, ramp := (s.grantedTarget z role).2 }
      | _, _ => { g with target := -161, ramp := .fast }
  | .handover, some .rampDown => { g with target := -161, ramp := .fast }
  | _, _ => { g with current := -161, target := -161 }

/-- The steps of a ramp kind at one block start (R108). -/
def RampKind.steps : RampKind → Int
  | .normal => 1
  | .fast => 12

/-- The current index moves toward the target and never passes it (R108). -/
def GainRec.step (g : GainRec) : GainRec :=
  { g with current :=
      if g.current ≤ g.target then min (g.current + g.ramp.steps) g.target
      else max (g.current - g.ramp.steps) g.target }

end Sys2Proof.Machine
end

