-- ==== Sys2Proof/Machine/Memory.lean ====
section
/-! DEFINITION. The Delay Memory Controller's commands and steps: Memory Start and its check, Compact Delay Memory and its page copies, Read Segment Table (06_delay_memory.md). -/

namespace Sys2Proof.Machine

/-! ### Memory Start (R115 to R118) -/

/-- The check starts (R115). -/
def DelayState.startCheck (d : DelayState) (l : CheckLevel) (k : Fin 8) : DelayState :=
  { d with state := .initializing, badRows := [],
           check := some { level := l, stage := .sequence, nextRow := 0, badFound := 0, slot := k } }

/-- Memory Start (R115). -/
def doMemoryStart (x : Ctx) (level : Byte) (s : State) : Answer × State :=
  match checkLevelOf level with
  | none => (Answer.badParam 0, s)
  | some l =>
    match s.delay.state with
    | .ready => (Answer.plain .doneNoChange, s)
    | .initializing => (Answer.plain .memoryBusy, s)
    | _ =>
      match s.freeSlot with
      | none => (Answer.plain .busy, s)
      | some k =>
        (Answer.acceptedIn k,
          (s.takeSlot k .memoryStart none x).setDelay (s.delay.startCheck l k))

/-- The check of `c` has passed: READY, with the bad pages found (R116, R117). -/
def State.passCheck (s : State) (c : CheckRec) : State :=
  ((s.setDelay { s.delay with state := .ready, check := none }).complete c.slot .done
    (natBytes (4 * c.badFound))).raiseMemory memoryReady

/-- The check of `c` has failed: FAULT, with the level and a number (R116, R117). -/
def State.failCheck (s : State) (c : CheckRec) (n : Nat) : State :=
  ((s.setDelay { s.delay with state := .fault, check := none }).complete c.slot .failed
    [c.level.code, natByte n]).raiseMemory memoryFault

/-- The check goes on with another record. -/
def State.setCheck (s : State) (c : CheckRec) : State := s.setDelay { s.delay with check := some c }

/-- CHECK_SEQUENCE_END: stage SEQUENCE gives way to stage ROWS (R116). -/
def State.checkSequenceEnds (s : State) : State :=
  match s.delay.check with
  | some c => match c.stage with
    | .sequence => s.setCheck { c with stage := .rows }
    | .rows => s
  | none => s

/-- The row under test has been written with the test pattern, which the spec does not give (R116, log 6). -/
def State.testRow (s : State) (c : CheckRec) : State :=
  { s.setDelay { s.delay with
      dram := s.delay.dram.fill (rowWords * c.nextRow) rowWords (Config.testPattern s.freeCount) } with
    freeCount := s.freeCount + 1 }

/-- QUICK_ROW_TEST_END: rows 0, 85, 170 and 255 (R116). -/
def State.quickRowEnds (s : State) (pass : Bool) : State :=
  match s.delay.check with
  | none => s
  | some c =>
    match c.level, c.stage with
    | .quick, .rows =>
      let s1 := s.testRow c
      if !pass then s1.failCheck c c.nextRow
      else if 255 ≤ c.nextRow then s1.passCheck c
      else s1.setCheck { c with nextRow := c.nextRow + 85 }
    | _, _ => s

/-- The check record and bad rows after a row of a FULL check (R117). -/
def State.countRow (s : State) (c : CheckRec) (pass : Bool) : CheckRec × State :=
  if pass then (c, s)
  else
    ({ c with badFound := c.badFound + 1 },
      s.setDelay { s.delay with badRows := s.delay.badRows ++ [c.nextRow] })

/-- FULL_ROW_TEST_END: rows 0 to 255 (R117). -/
def State.fullRowEnds (s : State) (pass : Bool) : State :=
  match s.delay.check with
  | none => s
  | some c =>
    match c.level, c.stage with
    | .full, .rows =>
      let r := (s.testRow c).countRow c pass
      if 65 ≤ r.1.badFound then r.2.failCheck r.1 r.1.badFound
      else if 255 ≤ c.nextRow then r.2.passCheck r.1
      else r.2.setCheck { r.1 with nextRow := c.nextRow + 1 }
    | _, _ => s

/-- Abort Operation stops a check at once (R118). -/
def State.abortCheck (s : State) : State :=
  match s.delay.check with
  | none => s
  | some c =>
    (s.setDelay { s.delay with state := .uninit, check := none, badRows := [] }).complete c.slot .aborted []

/-! ### Compact Delay Memory (R132 to R136) -/

/-- Compact Delay Memory (R132): the first examination follows at once. -/
def doCompact (x : Ctx) (s : State) : Answer × State :=
  match s.delay.takesRequests with
  | .error e => (Answer.plain e, s)
  | .ok _ =>
    match s.freeSlot with
    | none => (Answer.plain .busy, s)
    | some k =>
      (Answer.acceptedIn k,
        (s.takeSlot k .compact none x).continueCompaction
          { slot := k, scanStart := 0, examined := [], current := none, moved := 0, abort := false })

/-- Abort Operation asks a compaction to end after its move (R135). -/
def State.abortCompaction (s : State) : State :=
  match s.delay.compaction with
  | none => s
  | some c => s.setDelay { s.delay with compaction := some { c with abort := true } }

/-- The last page of a move has been copied (R134). -/
def State.endMove (s : State) (c : CompactionRec) (g : Segment) (m : MoveRec) : State :=
  (s.setDelay (s.delay.finishMove g m)).continueCompaction
    { c with current := none, moved := c.moved + g.count, scanStart := m.target + g.count }

/-- One page of the move of `g` is copied (R134). -/
def State.copyMove (s : State) (c : CompactionRec) (g : Segment) (m : MoveRec) : State :=
  let s1 := s.setDelay (s.delay.copyPage g m)
  if g.count ≤ m.copied + 1 then s1.endMove c g m else s1

/-- PAGE_COPY: one millisecond of COPY, for a segment table that stays within the DRAM (R134). -/
def State.pageCopies (s : State) : State :=
  match s.delay.compaction with
  | none => s
  | some c =>
    match c.current.bind s.delay.segment with
    | none => s
    | some g =>
      match g.move with
      | none => s
      | some m => if m.stage = .copy then s.copyMove c g m else s

/-! ### Read Segment Table (R137) -/

/-- The last five bytes of a segment: new or target base, new count, new total delay (R137). -/
def Segment.newBytes (g : Segment) : List Byte :=
  match g.change, g.move with
  | some c, _ => natBytes c.base ++ [natByte c.count] ++ natBytes c.delay
  | none, some m => natBytes m.target ++ [natByte g.count] ++ natBytes g.delay
  | none, none => natBytes g.base ++ [natByte g.count] ++ natBytes g.delay

/-- The fifteen bytes of a segment (R137). -/
def Segment.bytes (g : Segment) : List Byte :=
  [outputByte g.output] ++ natBytes g.base ++ [natByte g.count] ++ natBytes g.delay ++
  natBytes3 g.writePos ++ [g.holdCode] ++ g.newBytes

/-- The bytes of Read Segment Table (R137); that the second is 1 while a compaction runs is log 18. -/
def DelayState.bytes (d : DelayState) : List Byte :=
  [d.state.code, boolByte d.compaction.isSome] ++ natBytes d.freePages ++
  natBytes (4 * d.badRows.length) ++ natBytes d.largestHole ++ natBytes (d.dref.getD 65535) ++
  halfBytes (maskOf (d.starved.map (·.val))) ++ [natByte d.segments.length] ++
  (d.segments.map Segment.bytes).flatten

/-- Read Segment Table (R137). -/
def doReadSegmentTable (_x : Ctx) (count : Half) (s : State) : Answer × State :=
  (readCommand 0 count s.delay.bytes, s)

end Sys2Proof.Machine
end

