-- ==== Sys2Proof/Machine/Zones.lean ====
section
/-! DEFINITION. The Zone Controller's commands and timed steps (01_zones.md, 02_the_override_stack.md). -/

namespace Sys2Proof.Machine

/-- Test a zone code (parameter 0), then go on with the zone. -/
def withZone (zone : Byte) (s : State) (f : Zone → Answer × State) : Answer × State :=
  match zoneOf zone with
  | none => (Answer.badParam 0, s)
  | some z => f z

/-- A zone as the target of a slot (R192). R206 gives its code one byte and R198 the target two: the code
is the low byte and the high byte is 0 (DESIGN CHOICE, log 25). -/
def zoneTarget (z : Zone) : SlotTarget := some (z.code.zeroExtend 16)

/-! ### Power commands (R4, R5, R7, R10) -/

/-- A power command becomes pending when a slot is free (R10). -/
def becomePending (x : Ctx) (z : Zone) (kind : SlotKind) (p : PendingPower) (s : State) : Answer × State :=
  match s.freeSlot with
  | none => (Answer.plain .busy, s)
  | some k => (Answer.acceptedIn k, (s.takeSlot k kind (zoneTarget z) x).setPending z p (some k))

/-- Zone On of a zone in STANDBY (R4, R5). -/
def wakeFromStandby (x : Ctx) (z : Zone) (s : State) : Answer × State :=
  match s.wakeTests with
  | .error e => (Answer.plain e, s)
  | .ok _ =>
    match s.freeSlot with
    | none => (Answer.plain .busy, s)
    | some k =>
      match s.wakeRequest z with
      | .error e => (Answer.plain e, s)
      | .ok s1 => (Answer.acceptedIn k, (s1.takeSlot k .zoneOn (zoneTarget z) x).enterWaking z (some k))

/-- Zone On (R4, R10). -/
def doZoneOn (x : Ctx) (zone : Byte) (s : State) : Answer × State :=
  withZone zone s fun z =>
    match (s.zone z).power, (s.zone z).pendingPower with
    | .standby, _ => wakeFromStandby x z s
    | .waking, none => (Answer.plain .doneNoChange, s)
    | .waking, some _ => (Answer.plain .doneNoChange, s.removePending z)
    | .on, _ => (Answer.plain .doneNoChange, s)
    | .quieting, none =>
      if s.outputs.latch then (Answer.plain .isProtected, s) else becomePending x z .zoneOn .on s
    | .quieting, some _ => (Answer.plain .doneNoChange, s)

/-- Zone Standby (R7, R10). -/
def doZoneStandby (x : Ctx) (zone : Byte) (s : State) : Answer × State :=
  withZone zone s fun z =>
    match (s.zone z).power, (s.zone z).pendingPower with
    | .standby, _ => (Answer.plain .doneNoChange, s)
    | .waking, none => becomePending x z .zoneStandby .standby s
    | .waking, some _ => (Answer.plain .doneNoChange, s)
    | .on, _ =>
      match s.freeSlot with
      | none => (Answer.plain .busy, s)
      | some k =>
        (Answer.acceptedIn k, (s.takeSlot k .zoneStandby (zoneTarget z) x).enterQuieting z (some k))
    | .quieting, none => (Answer.plain .doneNoChange, s)
    | .quieting, some _ => (Answer.plain .doneNoChange, s.removePending z)

/-! ### Layered settings (R12 to R17, R20, R31, R32) -/

/-- A layered change: on the sending port's entry, or on the live zone (R31, R32). -/
def layered (x : Ctx) (z : Zone) (s : State) (entry : OverrideEntry → OverrideEntry)
    (live : Bool × State) : Answer × State :=
  match layerOf (s.zone z).stack x.port with
  | some k => (deferredAnswer k, s.changeEntry z k entry)
  | none => (Answer.changed live.1, live.2)

/-- Select Source (R12 to R14, R31). -/
def doSelectSource (x : Ctx) (zone source : Byte) (s : State) : Answer × State :=
  withZone zone s fun z =>
    match sourceOf source with
    | none => (Answer.badParam 1, s)
    | some src => layered x z s (fun e => { e with source := src }) (s.applySource z src)

/-- Set Volume (R16, R31). -/
def doSetVolume (x : Ctx) (zone : Byte) (index : Half) (s : State) : Answer × State :=
  withZone zone s fun z =>
    layered x z s (fun e => { e with volume := (s.zone z).clampVolume index.toInt })
      (s.applyVolume z index.toInt)

/-- Step Volume (R16, R31). -/
def doStepVolume (x : Ctx) (zone step : Byte) (s : State) : Answer × State :=
  withZone zone s fun z =>
    if step.toInt = 0 ∨ step.toInt < -20 ∨ 20 < step.toInt then (Answer.badParam 1, s)
    else
      layered x z s (fun e => { e with volume := (s.zone z).clampVolume (e.volume + step.toInt) })
        (s.applyVolume z ((s.zone z).volume + step.toInt))

/-- Mute of the live zone (R17). -/
def State.applyMute (s : State) (z : Zone) (m : Bool) : Bool × State :=
  if m = (s.zone z).mute then (false, s)
  else (true, (s.setZone z { s.zone z with mute := m }).raiseZone z)

/-- Set Mute (R17, R31). -/
def doSetMute (x : Ctx) (zone mute : Byte) (s : State) : Answer × State :=
  withZone zone s fun z =>
    match flagOf mute with
    | none => (Answer.badParam 1, s)
    | some m => layered x z s (fun e => { e with mute := m }) (s.applyMute z m)

/-- Surround mode of the live zone (R20). -/
def State.applyMode (s : State) (z : Zone) (m : SurroundMode) : Bool × State :=
  if m = (s.zone z).mode then (false, s)
  else (true, (s.setZone z { s.zone z with mode := m }).raiseZone z)

/-- Set Surround Mode (R20, R31): MAIN alone. -/
def doSetSurroundMode (x : Ctx) (zone mode : Byte) (s : State) : Answer × State :=
  withZone zone s fun z =>
    if z ≠ .main then (Answer.badParam 0, s)
    else
      match surroundOf mode with
      | none => (Answer.badParam 1, s)
      | some m => layered x z s (fun e => { e with mode := m }) (s.applyMode z m)

/-! ### Settings that are not layered (R18, R19, R21) -/

/-- Set Max Volume (R18): the live volume and the saved volumes above the new maximum are lowered. -/
def doSetMaxVolume (_x : Ctx) (zone : Byte) (index : Half) (s : State) : Answer × State :=
  withZone zone s fun z =>
    let m := clampInt (-160) 24 index.toInt
    if m = (s.zone z).maxVolume then (Answer.plain .doneNoChange, s)
    else
      (Answer.plain .done,
        (s.setZone z { s.zone z with
          maxVolume := m
          volume := min (s.zone z).volume m
          stack := (s.zone z).stack.map (fun e => { e with volume := min e.volume m }) }).raiseZone z)

/-- Set Lip Sync (R19). -/
def doSetLipSync (_x : Ctx) (zone : Byte) (ms : Half) (s : State) : Answer × State :=
  withZone zone s fun z =>
    let v := min ms.toNat 500
    let s1 := s.setZone z { s.zone z with lipSync := v }
    if v = (s.zone z).lipSync then (Answer.plain .doneNoChange, s)
    else if (s.zone z).isUp then
      match s.changeDelays s1 z with
      | .error e => (Answer.plain e, s)
      | .ok s2 => (Answer.plain .done, s2.raiseZone z)
    else (Answer.plain .done, s1.raiseZone z)

/-- Set Sleep Timer (R21). -/
def doSetSleepTimer (_x : Ctx) (zone minutes : Byte) (s : State) : Answer × State :=
  withZone zone s fun z =>
    let n := min minutes.toNat 120
    if (s.zone z).isUp then
      (Answer.changed (!(n == 0 && (s.zone z).sleepTimer == 0)),
        s.setZone z { s.zone z with sleepTimer := n })
    else (Answer.plain .notOn, s)

/-- The sixteen bytes of a zone record (R22). -/
def ZoneRec.bytes (r : ZoneRec) (z : Zone) : List Byte :=
  [z.code, r.power.code, r.live.code, optByte Source.code r.waiting, r.status.code,
   gainByte r.volume, gainByte r.maxVolume, boolByte r.mute] ++ natBytes r.lipSync ++
  [r.mode.code, optByte PendingPower.code r.pendingPower, natByte r.sleepTimer,
   natByte r.stack.length, slotByte r.opSlot, slotByte r.pendingSlot]

/-- Read Zone (R22). -/
def doReadZone (_x : Ctx) (zone : Byte) (count : Half) (s : State) : Answer × State :=
  withZone zone s fun z => (readCommand 1 count ((s.zone z).bytes z), s)

/-! ### Overrides (R25 to R29, R35) -/

/-- A full stack discards its bottom entry; OVERRIDE STACK_LOST (R27). -/
def State.dropBottom (s : State) (z : Zone) : State :=
  if 4 ≤ (s.zone z).stack.length then
    (s.setZone z { s.zone z with stack := (s.zone z).stack.drop 1 }).raiseStackLost z
  else s

/-- Push Override (R25, R26). -/
def doPushOverride (x : Ctx) (zone source : Byte) (index : Half) (s : State) : Answer × State :=
  withZone zone s fun z =>
    match sourceOf source with
    | none => (Answer.badParam 1, s)
    | some src =>
      let r := s.zone z
      if r.power ≠ .on then (Answer.plain .notOn, s)
      else
        let entry : OverrideEntry :=
          { source := r.waiting.getD r.live, volume := r.volume, mute := r.mute, mode := r.mode,
            port := x.port, tag := x.tag }
        let s1 := s.dropBottom z
        let stack := (s1.zone z).stack ++ [entry]
        let s2 := s1.setZone z { s1.zone z with
          stack := stack, volume := r.clampVolume index.toInt, mute := false }
        let s3 := (s2.applySource z src).2
        (Answer.withData .done [natByte (stack.length - 1)], s3.raiseZone z)

/-- Pop Override (R28, R29). -/
def doPopOverride (x : Ctx) (zone : Byte) (s : State) : Answer × State :=
  withZone zone s fun z =>
    match (s.zone z).stack.getLast? with
    | none => (Answer.plain .empty, s)
    | some e =>
      if e.port ≠ x.port then (Answer.plain .notOwner, s)
      else
        let stack := (s.zone z).stack.dropLast
        let s1 := s.setZone z { s.zone z with
          stack := stack, volume := e.volume, mute := e.mute, mode := e.mode }
        let s2 := (s1.applySource z e.source).2
        (Answer.withData .done [natByte stack.length], s2.raiseZone z)

/-- The bytes of one override entry (R35). -/
def OverrideEntry.bytes (e : OverrideEntry) (k : Nat) : List Byte :=
  [natByte k, e.source.code, gainByte e.volume, boolByte e.mute, e.mode.code, e.port.code, e.tag]

/-- The bytes of a zone's stack: the entries from the top down (R35). -/
def stackBytes (z : Zone) (stack : List OverrideEntry) (p : Port) : List Byte :=
  [z.code, natByte stack.length, optByte natByte (layerOf stack p)] ++
  ((stack.zipIdx.reverse).map (fun (e, k) => e.bytes k)).flatten

/-- Read Override Stack (R35). -/
def doReadOverrideStack (x : Ctx) (zone : Byte) (count : Half) (s : State) : Answer × State :=
  withZone zone s fun z => (readCommand 1 count (stackBytes z (s.zone z).stack x.port), s)

/-! ### Timed steps (R6, R8, R21) -/

/-- WAKE_COMPLETION: the zone enters ON, its slot posts DONE, and a pending STANDBY takes it to
QUIETING at once (R6). -/
def State.completeWake (s : State) (z : Zone) : State :=
  if (s.zone z).power = .waking then
    let k := (s.zone z).opSlot
    let s1 := ((s.setZone z { s.zone z with wakeTimer := none, opSlot := none }).setPower z .on).reportZones
    let s2 := s1.completeOpt k .done []
    if (s2.zone z).pendingPower = some .standby then
      (s2.setZone z { s2.zone z with pendingPower := none, pendingSlot := none }).enterQuieting z
        (s2.zone z).pendingSlot
    else s2
  else s

/-- RELAY_STAGE_END: the zone enters STANDBY (R8, R9). -/
def State.endRelayStage (s : State) (z : Zone) : State :=
  if (s.zone z).power = .quieting ∧ (s.zone z).quietStage = some .relay then s.enterStandby z else s

/-- The sleep timer of a zone has reached 0 (R21); the reports follow for all zones together. -/
def State.expireSleep (s : State) (z : Zone) : State :=
  let s1 := (s.setZone z { s.zone z with sleepTimer := 0 }).raiseZone z
  match (s.zone z).power, (s.zone z).pendingPower with
  | .on, _ => s1.quietZone z none
  | .waking, none => s1.setPending z .standby none
  | _, _ => s1

/-- The sleep timer of a zone at a minute event (R21). -/
def State.minuteOfZone (s : State) (z : Zone) : State :=
  match (s.zone z).sleepTimer with
  | 0 => s
  | 1 => s.expireSleep z
  | n + 2 => s.setZone z { s.zone z with sleepTimer := n + 1 }

/-- MINUTE_EVENT: every nonzero sleep timer is decremented; the zones that expire are all acted on
before the reports (R21). The divider's count is what Identify returns (R189). -/
def State.minuteEvent (s : State) : State :=
  let s1 := { s with minute := { ms := 0, count := min (s.minute.count + 1) 65535 } }
  s.reportQuieting (Zone.all.foldl State.minuteOfZone s1)

/-- SLEEP_TIMER_EXPIRY: the nonzero sleep timer of a zone reaches 0 (R21). -/
def State.sleepExpiry (s : State) (z : Zone) : State :=
  if (s.zone z).sleepTimer = 0 then s else s.reportQuieting (s.expireSleep z)

/-! ### The thermal trip (R11) -/

/-- The thermal trip acts on one zone (R11); the reports follow for all zones together. -/
def State.tripZone (s : State) (z : Zone) : State :=
  match (s.zone z).power with
  | .standby => s
  | .waking =>
    let s1 := if (s.zone z).pendingPower.isSome then s.removePending z else s
    (s1.completeOpt (s1.zone z).opSlot .cancelled []).quietZone z none
  | .on => s.quietZone z none
  | .quieting => if (s.zone z).pendingPower.isSome then s.removePending z else s

/-- The thermal latch has been set: all zones are acted on before the reports (R11). -/
def State.thermalTrip (s : State) : State :=
  s.reportQuieting (Zone.all.foldl State.tripZone s)

end Sys2Proof.Machine
end

