-- ==== Sys2Proof/Machine/Protection.lean ====
section
/-! DEFINITION. Assignment and protection: commands, protection line arrivals and departures, handover timing (R40, R41, R45, R54 to R60). -/

namespace Sys2Proof.Machine

/-! ### The assignment table (R40, R41) -/

/-- Another entry holds a main role (R40). -/
def State.mainRoleTaken (s : State) (k : Fin 6) (m : MainRole) : Bool :=
  m != .none && ([0, 1, 2, 3, 4, 5] : List (Fin 6)).any (fun j => j != k && (s.outputs.assign[j]).mainRole == m)

/-- Another entry holds a remote role (R40). -/
def State.remoteRoleTaken (s : State) (k : Fin 6) (r : RemoteRole) : Bool :=
  r != .none && ([0, 1, 2, 3, 4, 5] : List (Fin 6)).any (fun j => j != k && (s.outputs.assign[j]).remoteRole == r)

/-- Set Assignment (R40). -/
def doSetAssignment (_x : Ctx) (output mainRole remoteRole priority : Byte) (s : State) : Answer × State :=
  match assignableOf output, mainRoleOf mainRole, remoteRoleOf remoteRole, priorityOf priority with
  | none, _, _, _ => (Answer.badParam 0, s)
  | _, none, _, _ => (Answer.badParam 1, s)
  | _, _, none, _ => (Answer.badParam 2, s)
  | _, _, _, none => (Answer.badParam 3, s)
  | some k, some m, some r, some pr =>
    if s.mainRoleTaken k m then (Answer.badParam 1, s)
    else if s.remoteRoleTaken k r then (Answer.badParam 2, s)
    else if s.delay.compaction.isSome then (Answer.plain .memoryBusy, s)
    else
      let e : AssignEntry := { mainRole := m, remoteRole := r, priority := pr }
      if e = s.outputs.assign[k] then (Answer.plain .doneNoChange, s)
      else
        (Answer.plain .done,
          (s.setOutputs { s.outputs with assign := s.outputs.assign.set k e }).regrant (assignOutput k))

/-- The four bytes of an assignment entry (R41). -/
def AssignEntry.bytes (e : AssignEntry) (k : Fin 6) : List Byte :=
  [natByte (k.val + 6), e.mainRole.code, e.remoteRole.code, e.priority.code]

/-- The six bytes of an output record (R41). -/
def OutputRec.bytes (r : OutputRec) (o : Fin 13) : List Byte :=
  [outputByte o, r.stateCode, optByte Zone.code r.zone, optByte targetCode r.target,
   presentCode r.segment, boolByte r.relay]

/-- The 102 bytes of Read Assignment (R41). -/
def State.assignmentBytes (s : State) : List Byte :=
  (([0, 1, 2, 3, 4, 5] : List (Fin 6)).map (fun k => (s.outputs.assign[k]).bytes k)).flatten ++
  (allOutputs.map (fun o => (s.out o).bytes o)).flatten

/-- Read Assignment (R41). -/
def doReadAssignment (_x : Ctx) (count : Half) (s : State) : Answer × State :=
  (readCommand 0 count s.assignmentBytes, s)

/-! ### Protection lines (R54, R56, R58) -/

/-- The level that a line is active at is high (R54). -/
def ActiveLevel.pin : ActiveLevel → Bool
  | .low => false
  | .high => true

/-- The record of a fault line. -/
def State.fltLine (s : State) (n : Fin 11) : Line := s.outputs.flt[n]

def State.setFlt (s : State) (n : Fin 11) (l : Line) : State :=
  s.setOutputs { s.outputs with flt := s.outputs.flt.set n l }

def State.setThw (s : State) (l : Line) : State := s.setOutputs { s.outputs with thw := l }

def State.setTht (s : State) (l : Line) : State := s.setOutputs { s.outputs with tht := l }

/-- FLTn becomes active (R56). -/
def State.fltArrives (s : State) (n : Fin 11) : State :=
  (s.setFlt n { s.fltLine n with active := true }).faultOutput n

/-- FLTn becomes inactive: PROTECTION with the bit of On, which stays in FAULT (R54). -/
def State.fltDeparts (s : State) (n : Fin 11) : State :=
  (s.setFlt n { s.fltLine n with active := false }).raiseFaultLine n

/-- THW becomes active or inactive: PROTECTION with the THW flag (R58). The Mix Engine reads the
state at its next block start (R111). -/
def State.thwChanges (s : State) (active : Bool) : State :=
  (s.setThw { s.outputs.thw with active := active }).raiseThw

/-- THT becomes active: the latch is set if it was clear, and the zones are taken to QUIETING (R58,
R11). -/
def State.thtArrives (s : State) : State :=
  let s1 := (s.setTht { s.outputs.tht with active := true }).raiseTht
  if s1.outputs.latch then s1
  else (s1.setOutputs { s1.outputs with latch := true }).thermalTrip

/-- THT becomes inactive: the latch stays set (R54). -/
def State.thtDeparts (s : State) : State :=
  (s.setTht { s.outputs.tht with active := false }).raiseTht

/-- The level at the pin of FLTn is taken under the active level in force; a change of the active
state is the line's arrival or departure (R54). -/
def State.senseFlt (s : State) (n : Fin 11) : State :=
  let l := s.fltLine n
  let now := l.pin == s.outputs.fltLevel.pin
  if now = l.active then s else if now then s.fltArrives n else s.fltDeparts n

/-- THW, as `senseFlt` (R54). -/
def State.senseThw (s : State) : State :=
  let now := s.outputs.thw.pin == s.outputs.thwLevel.pin
  if now = s.outputs.thw.active then s else s.thwChanges now

/-- THT, as `senseFlt` (R54). -/
def State.senseTht (s : State) : State :=
  let now := s.outputs.tht.pin == s.outputs.thtLevel.pin
  if now = s.outputs.tht.active then s else if now then s.thtArrives else s.thtDeparts

/-- Every protection line, one after another (R57, R61). Lines that a change of the active levels or a
reset makes change together are each acted on for themselves, in no order that the rules give: FLT1 to
FLT11, then THW, then THT (DESIGN CHOICE, log 37). -/
def State.senseAll (s : State) : State := ((allFaultLines.foldl State.senseFlt s).senseThw).senseTht

/-! ### Protection commands (R57, R59, R60) -/

/-- Set Protection Levels (R57). -/
def doSetProtectionLevels (_x : Ctx) (fault thw tht : Byte) (s : State) : Answer × State :=
  match activeLevelOf fault, activeLevelOf thw, activeLevelOf tht with
  | none, _, _ => (Answer.badParam 0, s)
  | _, none, _ => (Answer.badParam 1, s)
  | _, _, none => (Answer.badParam 2, s)
  | some f, some w, some t =>
    if f = s.outputs.fltLevel ∧ w = s.outputs.thwLevel ∧ t = s.outputs.thtLevel then
      (Answer.plain .doneNoChange, s)
    else
      (Answer.plain .done,
        (s.setOutputs { s.outputs with fltLevel := f, thwLevel := w, thtLevel := t }).senseAll)

/-- A mask of the fault lines that pass a test (R60). -/
def lineMask (f : Fin 11 → Bool) : Half := maskOf ((allFaultLines.filter f).map (·.val))

/-- The ten bytes of Read Protection (R60). The spec gives no value list for the last three: that an inactive
line reads 0 and an active one 1, and a clear latch 0 and a set one 1, is the model's choice (DESIGN CHOICE,
log 18). -/
def State.protectionBytes (s : State) : List Byte :=
  [s.outputs.fltLevel.code, s.outputs.thwLevel.code, s.outputs.thtLevel.code] ++
  halfBytes (lineMask (fun n => (s.fltLine n).active)) ++
  halfBytes (lineMask (fun n => (s.out (lineOutput n)).state == .fault)) ++
  [boolByte s.outputs.thw.active, boolByte s.outputs.tht.active, boolByte s.outputs.latch]

/-- Read Protection (R60). -/
def doReadProtection (_x : Ctx) (count : Half) (s : State) : Answer × State :=
  (readCommand 0 count s.protectionBytes, s)

/-- Clear Fault of THERMAL (R59). -/
def clearThermal (s : State) : Answer × State :=
  if s.outputs.tht.active then (Answer.plain .stillActive, s)
  else if s.outputs.latch then
    (Answer.plain .done, (s.setOutputs { s.outputs with latch := false }).raiseTht)
  else (Answer.plain .doneNoChange, s)

/-- Clear Fault of an output (R59). -/
def clearOutput (n : Fin 11) (s : State) : Answer × State :=
  let o := lineOutput n
  if (s.fltLine n).active then (Answer.plain .stillActive, s)
  else if (s.out o).state = .fault then
    (Answer.plain .done, ((s.becomeIdle o).raiseFaultLine n).regrant o)
  else (Answer.plain .doneNoChange, s)

/-- Clear Fault (R59): O1 to O11 are 1 to 11, THERMAL is 0. -/
def doClearFault (_x : Ctx) (name : Byte) (s : State) : Answer × State :=
  if name = 0 then clearThermal s
  else if h : 1 ≤ name.toNat ∧ name.toNat < 12 then clearOutput ⟨name.toNat - 1, by omega⟩ s
  else (Answer.badParam 0, s)

/-! ### Steps -/

/-- FAULT_LINE_ARRIVAL: an inactive FLTn goes to its active level (R54, R56). -/
def State.fltPinActive (s : State) (n : Fin 11) : State :=
  if (s.fltLine n).active then s
  else (s.setFlt n { s.fltLine n with pin := s.outputs.fltLevel.pin }).fltArrives n

/-- FAULT_LINE_DEPARTURE: an active FLTn leaves its active level (R54). -/
def State.fltPinInactive (s : State) (n : Fin 11) : State :=
  if (s.fltLine n).active then (s.setFlt n { s.fltLine n with pin := !s.outputs.fltLevel.pin }).fltDeparts n
  else s

/-- THW_ARRIVAL (R58). -/
def State.thwPinActive (s : State) : State :=
  if s.outputs.thw.active then s
  else (s.setThw { s.outputs.thw with pin := s.outputs.thwLevel.pin }).thwChanges true

/-- THW_DEPARTURE (R58). -/
def State.thwPinInactive (s : State) : State :=
  if s.outputs.thw.active then
    (s.setThw { s.outputs.thw with pin := !s.outputs.thwLevel.pin }).thwChanges false
  else s

/-- THT_ARRIVAL (R58). -/
def State.thtPinActive (s : State) : State :=
  if s.outputs.tht.active then s
  else (s.setTht { s.outputs.tht with pin := s.outputs.thtLevel.pin }).thtArrives

/-- THT_DEPARTURE (R54). -/
def State.thtPinInactive (s : State) : State :=
  if s.outputs.tht.active then
    (s.setTht { s.outputs.tht with pin := !s.outputs.thtLevel.pin }).thtDeparts
  else s

/-- RELAY_OPEN_EXPIRY: the handover enters REALLOCATE (R45, R47). -/
def State.relayOpenExpires (s : State) (o : Fin 13) : State :=
  if (s.out o).state = .handover ∧ (s.out o).phase = some .relayOpen then s.reallocate o false else s

end Sys2Proof.Machine
end

