-- ==== Sys2Proof/Machine/Tuning.lean ====
section
/-! DEFINITION. The Tuner: tuning commands, seek, scan, quality, label, region, station list and presets (07_the_tuner.md, 08_station_list_and_presets.md). -/

namespace Sys2Proof.Machine

/-! ### Quality, blend and rest (R142, R151, R152) -/

/-- The blend recomputed from band and quality (R152). -/
def TunerRec.blendNow (t : TunerRec) : TunerRec :=
  { t with blend := if t.band = .fm ∧ 40 ≤ t.quality then .stereo else .mono }

/-- A quality report (R151). -/
def TunerRec.report (t : TunerRec) (q : Nat) : TunerRec := ({ t with quality := q } : TunerRec).blendNow

/-- The tuner settles on its frequency if it is still active, and parks otherwise (R142). -/
def State.settleOrPark (s : State) : State :=
  if s.tunerActive then s.setTuner s.tuner.settleNow else s.setTuner s.tuner.parkNow

/-- The tuner comes to rest on its frequency: IDLE if it is still active, PARKED otherwise (R143,
R149). -/
def State.restTuner (s : State) : State :=
  if s.tunerActive then
    s.setTuner { s.tuner with state := .idle, settle := none, seek := none, scan := none }
  else s.setTuner s.tuner.parkNow

/-- The result of a tuning: band, frequency, quality (R143). -/
def tuneResult (b : Band) (f q : Nat) : List Byte := [b.code] ++ natBytes f ++ [natByte q]

/-- The result of a scan (R164). -/
def scanResult (o : TunerOp) (entries : Nat) : List Byte :=
  [o.scanBand.code] ++ natBytes o.found ++ natBytes o.dropped ++ [natByte entries]

/-- The operation ends: it becomes absent and its slot posts a completion (R140). -/
def State.endTunerOp (s : State) (o : TunerOp) (st : Status) (result : List Byte) : State :=
  (s.setTuner { s.tuner with op := none }).complete o.slot st result

/-! ### Sharing the tuner (R146, R147) -/

/-- A seek or scan. -/
def TunerOpKind.isSearch : TunerOpKind → Bool
  | .seek | .scan => true
  | _ => false

/-- The seek or scan of another port runs (R147). -/
def State.tunerHeldFrom (s : State) (p : Port) : Bool :=
  match s.tuner.op with
  | some o => o.kind.isSearch && o.port != p
  | none => false

/-- A seek or scan ends as Abort Operation ends it (R150, R166). -/
def State.abortTuner (s : State) : State :=
  match s.tuner.op with
  | none => s
  | some o =>
    match o.kind with
    | .seek =>
      let start := (s.tuner.seek.map (·.start)).getD s.tuner.frequency
      ((s.setTuner { s.tuner with frequency := start, seek := none }).endTunerOp o .aborted
        (tuneResult s.tuner.band start 0)).settleOrPark
    | .scan =>
      ((s.setTuner { s.tuner with scan := none }).endTunerOp o .aborted
        (scanResult o s.tuner.stations.length)).settleOrPark
    | _ => s

/-- A TUNE or STEP_TUNE operation is cancelled (R146). -/
def State.cancelTune (s : State) : State :=
  match s.tuner.op with
  | none => s
  | some o => if o.kind.isSearch then s else s.endTunerOp o .cancelled []

/-- What an accepted command ends before it takes its slot: a seek or scan of its own port is aborted,
a TUNE or STEP_TUNE settle is cancelled (R144, R146, R147). -/
def State.takeTuner (s : State) : State := s.abortTuner.cancelTune

/-- The frequency held (R145): in SEEKING, the start frequency. -/
def TunerRec.held (t : TunerRec) : Nat := (t.seek.map (·.start)).getD t.frequency

/-! ### Tune and Step Tune (R144, R145) -/

/-- A tune is carried out: the slot, the operation, the channel, the settle (R144). -/
def State.acceptTune (s : State) (x : Ctx) (kind : SlotKind) (op : TunerOpKind) (b : Band) (f : Nat)
    (k : Fin 8) : State :=
  let s1 := s.takeSlot k kind (some (BitVec.ofNat 16 f)) x
  s1.setTuner (({ s1.tuner with
    band := b, frequency := f
    op := some { kind := op, slot := k, port := x.port, scanBand := b, found := 0, dropped := 0 } } :
    TunerRec).blendNow.settleNow)

/-- The tuner is IDLE on a channel. -/
def TunerRec.idleOn (t : TunerRec) (b : Band) (f : Nat) : Bool :=
  t.state == .idle && t.band == b && t.frequency == f

/-- Tests 3 to 5 of R144, then the tune of a channel. -/
def tuneTo (x : Ctx) (kind : SlotKind) (b : Band) (f : Nat) (s : State) : Answer × State :=
  if s.tunerHeldFrom x.port then (Answer.plain .tunerBusy, s)
  else if s.tuner.idleOn b f then (Answer.plain .doneNoChange, s)
  else if s.hasFreeSlot then
    match s.takeTuner.freeSlot with
    | some k => (Answer.acceptedIn k, s.takeTuner.acceptTune x kind .tune b f k)
    | none => (Answer.plain .busy, s)
  else (Answer.plain .busy, s)

/-- Tune (R144). -/
def doTune (x : Ctx) (band : Byte) (frequency : Half) (s : State) : Answer × State :=
  match bandOf band with
  | none => (Answer.badParam 0, s)
  | some b =>
    if inBand b s.tuner.region frequency.toNat then
      tuneTo x .tune b (snapDown b s.tuner.region frequency.toNat) s
    else (Answer.badParam 1, s)

/-- Tests 3 and 5 of R144, then what the command starts in the slot taken. -/
def startOn (x : Ctx) (s : State) (start : State → Fin 8 → State) : Answer × State :=
  if s.tunerHeldFrom x.port then (Answer.plain .tunerBusy, s)
  else if s.hasFreeSlot then
    match s.takeTuner.freeSlot with
    | some k => (Answer.acceptedIn k, start s.takeTuner k)
    | none => (Answer.plain .busy, s)
  else (Answer.plain .busy, s)

/-- Step Tune (R145). -/
def doStepTune (x : Ctx) (direction : Byte) (s : State) : Answer × State :=
  match directionOf direction with
  | none => (Answer.badParam 0, s)
  | some d =>
    startOn x s fun s k =>
      s.acceptTune x .stepTune .stepTune s.tuner.band
        (nextChannel s.tuner.band s.tuner.region d s.tuner.frequency) k

/-! ### Seek (R148, R149) -/

/-- Seek takes the tuner (R148). -/
def TunerRec.startSeek (t : TunerRec) (d : Direction) (k : Fin 8) (p : Port) : TunerRec :=
  { t with
    op := some { kind := .seek, slot := k, port := p, scanBand := t.band, found := 0, dropped := 0 }
    seek := some { direction := d, start := t.frequency, dwell := dwellTime t.band }
    frequency := nextChannel t.band t.region d t.frequency
    state := .seeking, settle := none, scan := none, label := LabelRec.cleared }

/-- Seek (R148). -/
def doSeek (x : Ctx) (direction : Byte) (s : State) : Answer × State :=
  match directionOf direction with
  | none => (Answer.badParam 0, s)
  | some d =>
    startOn x s fun s k =>
      (s.takeSlot k .seek none x).setTuner (s.tuner.startSeek d k x.port)

/-- The seek has found a station (R149). -/
def State.seekFound (s : State) (o : TunerOp) : State :=
  ((s.setTuner { s.tuner with seek := none }).endTunerOp o .done
    (tuneResult s.tuner.band s.tuner.frequency s.tuner.quality)).restTuner.raiseTuner tunerDone

/-- The seek has found nothing (R149). -/
def State.seekNotFound (s : State) (o : TunerOp) (k : SeekRec) : State :=
  ((s.setTuner { s.tuner with seek := none, frequency := k.start }).endTunerOp o .notFound
    (tuneResult s.tuner.band k.start 0)).settleOrPark

/-- SEEK_DWELL_EXPIRY (R149). -/
def State.seekDwellEnds (s : State) (q : Nat) : State :=
  match s.tuner.state, s.tuner.seek, s.tuner.op with
  | .seeking, some k, some o =>
    let t := s.tuner.report q
    let next := nextChannel t.band t.region k.direction t.frequency
    if t.threshold ≤ q then (s.setTuner t).seekFound o
    else if next = k.start then (s.setTuner t).seekNotFound o k
    else s.setTuner { t with frequency := next, seek := some { k with dwell := dwellTime t.band } }
  | _, _, _ => s

/-- SETTLE_EXPIRY (R143). -/
def State.settleEnds (s : State) (q : Nat) : State :=
  if s.tuner.state = .settling then
    let s1 := s.setTuner (s.tuner.report q)
    let s2 := match s1.tuner.op with
      | some o => s1.endTunerOp o .done (tuneResult s1.tuner.band s1.tuner.frequency q)
      | none => s1
    s2.restTuner.raiseTuner tunerDone
  else s

/-- QUALITY_REPORT: taken while IDLE (R151). -/
def State.qualityReported (s : State) (q : Nat) : State :=
  if s.tuner.state = .idle then s.setTuner (s.tuner.report q) else s

/-! ### Scan (R161 to R164) -/

/-- An entry stands before another in the station list (R160). -/
def StationEntry.before (a b : StationEntry) : Bool :=
  match a.band, b.band with
  | .fm, .am => true
  | .am, .fm => false
  | _, _ => decide (a.frequency < b.frequency)

/-- Insert an entry at its place (R160). -/
def insertStation (e : StationEntry) : List StationEntry → List StationEntry
  | [] => [e]
  | h :: t => if e.before h then e :: h :: t else h :: insertStation e t

/-- The entry of a band with the lowest quality and, among those, the highest frequency (R163). -/
def worstStation (b : Band) (l : List StationEntry) : Option StationEntry :=
  (l.filter (fun e => e.band == b)).foldl (fun w e =>
    match w with
    | none => some e
    | some w =>
      if e.quality < w.quality ∨ (e.quality = w.quality ∧ w.frequency < e.frequency) then some e else some w)
    none

/-- Offer an entry to the list (R163); the second part is `true` when a station is dropped. -/
def offerStation (e : StationEntry) (l : List StationEntry) : List StationEntry × Bool :=
  if l.length < 40 then (insertStation e l, false)
  else
    match worstStation e.band l with
    | some w => if w.quality < e.quality then (insertStation e (l.filter (fun f => f != w)), true) else (l, true)
    | none => (l, true)

/-- Scan takes the tuner (R161). -/
def TunerRec.startScan (t : TunerRec) (b : Band) (k : Fin 8) (p : Port) : TunerRec :=
  { t with
    op := some { kind := .scan, slot := k, port := p, scanBand := b, found := 0, dropped := 0 }
    stations := t.stations.filter (fun e => e.band != b)
    scan := some { channel := gridLow b t.region, dwell := dwellTime b }
    state := .scanning, settle := none, seek := none, label := LabelRec.cleared }

/-- Scan (R161). The slot's target is the band: its one-byte code is the low byte of the two that Read
Slots gives, and the high byte is 0 (DESIGN CHOICE, log 25). -/
def doScan (x : Ctx) (band : Byte) (s : State) : Answer × State :=
  match bandOf band with
  | none => (Answer.badParam 0, s)
  | some b =>
    startOn x s fun s k =>
      (s.takeSlot k .scan (some (b.code.zeroExtend 16)) x).setTuner (s.tuner.startScan b k x.port)

/-- A channel whose quality reaches the threshold is found and offered (R162, R163). -/
def TunerRec.scanMeasured (t : TunerRec) (o : TunerOp) (k : ScanRec) (q : Nat) : TunerRec × TunerOp :=
  if t.threshold ≤ q then
    let r := offerStation { band := o.scanBand, frequency := k.channel, quality := q, label := none } t.stations
    ({ t with stations := r.1 },
      { o with found := o.found + 1, dropped := if r.2 then o.dropped + 1 else o.dropped })
  else (t, o)

/-- SCAN_DWELL_EXPIRY (R162). -/
def State.scanDwellEnds (s : State) (q : Nat) : State :=
  match s.tuner.state, s.tuner.scan, s.tuner.op with
  | .scanning, some k, some o =>
    let r := (s.tuner.report q).scanMeasured o k q
    if k.channel < gridHigh o.scanBand then
      s.setTuner { r.1 with
        op := some r.2
        scan := some { channel := k.channel + gridStep o.scanBand r.1.region, dwell := dwellTime o.scanBand } }
    else
      ((s.setTuner { r.1 with scan := none, op := some r.2 }).endTunerOp r.2 .done
        (scanResult r.2 r.1.stations.length)).settleOrPark
  | _, _, _ => s

/-! ### The station label (R153, R165) -/

/-- A character outside 0x20 to 0x7E becomes a space (R153). -/
def labelChar (b : Byte) : Byte := if b.toNat < 0x20 ∨ 0x7E < b.toNat then 0x20 else b

/-- The pair of an index. -/
def LabelRec.pair (l : LabelRec) (i : Fin 4) : Option (Byte × Byte) :=
  match i with
  | 0 => l.pair0
  | 1 => l.pair1
  | 2 => l.pair2
  | 3 => l.pair3

/-- The pair of an index takes its characters. -/
def LabelRec.setPair (l : LabelRec) (i : Fin 4) (c : Byte × Byte) : LabelRec :=
  match i with
  | 0 => { l with pair0 := some c }
  | 1 => { l with pair1 := some c }
  | 2 => { l with pair2 := some c }
  | 3 => { l with pair3 := some c }

/-- All four pairs are present. -/
def LabelRec.full (l : LabelRec) : Bool :=
  l.pair0.isSome && l.pair1.isSome && l.pair2.isSome && l.pair3.isSome

/-- COMPLETE if all four pairs are present, PARTIAL otherwise. -/
def LabelRec.judged (l : LabelRec) : LabelRec := { l with state := if l.full then .complete else .partly }

/-- The assembly after a taken segment (R153). -/
def LabelRec.take (l : LabelRec) (i : Fin 4) (version : Bool) (c : Byte × Byte) : LabelRec :=
  if l.state ≠ .none ∧ l.version = some version then (l.setPair i c).judged
  else (({ LabelRec.cleared with version := some version } : LabelRec).setPair i c).judged

/-- The characters of a pair, two spaces when it is absent (R157). -/
def pairChars : Option (Byte × Byte) → List Byte
  | some (a, b) => [a, b]
  | none => [0x20, 0x20]

/-- The eight characters of the assembly (R157). -/
def LabelRec.chars (l : LabelRec) : List Byte :=
  pairChars l.pair0 ++ pairChars l.pair1 ++ pairChars l.pair2 ++ pairChars l.pair3

/-- The label where it is COMPLETE (R169). -/
def LabelRec.whole (l : LabelRec) : Option (List Byte) := if l.state = .complete then some l.chars else none

/-- The label is handed to the station list (R165). -/
def TunerRec.handLabel (t : TunerRec) : TunerRec :=
  { t with stations := t.stations.map (fun e =>
      if e.band = .fm ∧ e.frequency = t.frequency then { e with label := some t.label.chars } else e) }

/-- LABEL_SEGMENT (R153, R165): taken in IDLE on FM with quality at least 20. -/
def State.segmentArrives (s : State) (i : Fin 4) (version : Bool) (a b : Byte) : State :=
  let t := s.tuner
  if t.state = .idle ∧ t.band = .fm ∧ 20 ≤ t.quality then
    let l := t.label.take i version (labelChar a, labelChar b)
    if l.state = .complete ∧ l ≠ t.label then
      (s.setTuner (({ t with label := l } : TunerRec).handLabel)).raiseTuner tunerLabel
    else s.setTuner { t with label := l }
  else s

/-! ### Settings (R155, R156, R170) -/

/-- Set Seek Threshold (R155). -/
def doSetSeekThreshold (_x : Ctx) (threshold : Byte) (s : State) : Answer × State :=
  let v := max 10 (min threshold.toNat 90)
  if v = s.tuner.threshold then (Answer.plain .doneNoChange, s)
  else (Answer.plain .done, s.setTuner { s.tuner with threshold := v })

/-- The presets in ascending order: preset n + 1 is entry n. -/
def allPresets : List (Fin 40) :=
  [0, 1, 2, 3, 4, 5, 6, 7, 8, 9, 10, 11, 12, 13, 14, 15, 16, 17, 18, 19,
   20, 21, 22, 23, 24, 25, 26, 27, 28, 29, 30, 31, 32, 33, 34, 35, 36, 37, 38, 39]

/-- A preset that the purge empties: AM, not on the grid of the region (R170). -/
def purged (r : Region) : Option PresetRec → Bool
  | some p => p.band == .am && !onGrid .am r p.frequency
  | none => false

/-- The purge of the station list and the presets (R170). -/
def TunerRec.purge (t : TunerRec) : TunerRec :=
  { t with
    stations := t.stations.filter (fun e => e.band != .am)
    presets := allPresets.foldl (fun v (n : Fin 40) => if purged t.region v[n] then v.set n none else v) t.presets }

/-- Step 3 of R156: an AM frequency is snapped onto the new grid; a change of it settles anew, but in
PARKED. -/
def TunerRec.snapRegion (t : TunerRec) : TunerRec :=
  let f := snapDown .am t.region t.frequency
  if t.band = .am ∧ f ≠ t.frequency then
    let t1 := { t with frequency := f }
    if t.state = .parked then t1 else t1.settleNow
  else t

/-- Set Region (R156). -/
def doSetRegion (x : Ctx) (region : Byte) (s : State) : Answer × State :=
  match regionOf region with
  | none => (Answer.badParam 0, s)
  | some r =>
    if s.tunerHeldFrom x.port then (Answer.plain .tunerBusy, s)
    else if r = s.tuner.region then (Answer.plain .doneNoChange, s)
    else
      let s1 := s.abortTuner
      (Answer.plain .done, s1.setTuner (({ s1.tuner with region := r } : TunerRec).snapRegion.purge))

/-! ### Read Tuner (R157) -/

/-- A bit for each pair that is present (R157). -/
def LabelRec.presence (l : LabelRec) : Byte :=
  (if l.pair0.isSome then 1 else 0) ||| (if l.pair1.isSome then 2 else 0) |||
  (if l.pair2.isSome then 4 else 0) ||| (if l.pair3.isSome then 8 else 0)

/-- The 26 bytes of Read Tuner (R157). -/
def TunerRec.bytes (t : TunerRec) : List Byte :=
  [t.band.code] ++ natBytes t.frequency ++
  [t.region.code, t.state.code, natByte t.quality, t.blend.code, natByte t.threshold,
   optByte (fun o => o.kind.code) t.op, slotByte (t.op.map (·.slot)), optByte (fun o => o.port.code) t.op] ++
  natBytes ((t.seek.map (·.start)).getD 65535) ++ natBytes ((t.scan.map (·.channel)).getD 65535) ++
  [t.label.state.code, optByte boolByte t.label.version, t.label.presence] ++ t.label.chars

/-- Read Tuner (R157). -/
def doReadTuner (_x : Ctx) (count : Half) (s : State) : Answer × State :=
  (readCommand 0 count s.tuner.bytes, s)

/-! ### Station list and presets (R167 to R172) -/

/-- Recall Station (R167). -/
def doRecallStation (x : Ctx) (index : Byte) (s : State) : Answer × State :=
  match s.tuner.stations[index.toNat]? with
  | none => (Answer.badParam 0, s)
  | some e => tuneTo x .recallStation e.band e.frequency s

/-- The entry of a preset number, 1 to 40 (R168). -/
def presetOf (b : Byte) : Option (Fin 40) :=
  if h : 1 ≤ b.toNat ∧ b.toNat ≤ 40 then some ⟨b.toNat - 1, by omega⟩ else none

/-- The station the tuner is on (R169). -/
def TunerRec.here (t : TunerRec) : PresetRec :=
  { band := t.band, frequency := t.held, label := t.label.whole }

/-- A preset takes a value. -/
def TunerRec.setPreset (t : TunerRec) (n : Fin 40) (p : Option PresetRec) : TunerRec :=
  { t with presets := t.presets.set n p }

/-- Store Preset (R169). -/
def doStorePreset (_x : Ctx) (preset : Byte) (s : State) : Answer × State :=
  match presetOf preset with
  | none => (Answer.badParam 0, s)
  | some n =>
    if s.tuner.presets[n] = some s.tuner.here then (Answer.plain .doneNoChange, s)
    else (Answer.plain .done, s.setTuner (s.tuner.setPreset n (some s.tuner.here)))

/-- Recall Preset (R171). -/
def doRecallPreset (x : Ctx) (preset : Byte) (s : State) : Answer × State :=
  match presetOf preset with
  | none => (Answer.badParam 0, s)
  | some n =>
    match s.tuner.presets[n] with
    | none => (Answer.badParam 0, s)
    | some p => tuneTo x .recallPreset p.band p.frequency s

/-- Clear Preset (R171). -/
def doClearPreset (_x : Ctx) (preset : Byte) (s : State) : Answer × State :=
  match presetOf preset with
  | none => (Answer.badParam 0, s)
  | some n =>
    if s.tuner.presets[n] = none then (Answer.plain .doneNoChange, s)
    else (Answer.plain .done, s.setTuner (s.tuner.setPreset n none))

/-- The nine bytes that say whether a label is present and give it (R172). -/
def labelBytes : Option (List Byte) → List Byte
  | some l => 1 :: l
  | none => [0, 0x20, 0x20, 0x20, 0x20, 0x20, 0x20, 0x20, 0x20]

/-- The thirteen bytes of a station entry (R172). -/
def StationEntry.bytes (e : StationEntry) : List Byte :=
  [e.band.code] ++ natBytes e.frequency ++ [natByte e.quality] ++ labelBytes e.label

/-- The thirteen bytes of a preset (R172). -/
def presetBytes (n : Fin 40) : Option PresetRec → List Byte
  | some p => [natByte (n.val + 1), p.band.code] ++ natBytes p.frequency ++ labelBytes p.label
  | none => [natByte (n.val + 1), absentByte] ++ halfBytes absentHalf ++ labelBytes none

/-- Read Presets (R172). -/
def doReadPresets (_x : Ctx) (first : Byte) (count : Half) (s : State) : Answer × State :=
  match presetOf first with
  | none => (Answer.badParam 0, s)
  | some n =>
    (readCommand 1 count
      ((allPresets.drop n.val).map (fun k => presetBytes k s.tuner.presets[k])).flatten, s)

/-- Read Station List (R172). -/
def doReadStationList (_x : Ctx) (first : Byte) (count : Half) (s : State) : Answer × State :=
  if s.tuner.stations.length < first.toNat then (Answer.badParam 0, s)
  else
    (readCommand 1 count
      ([natByte s.tuner.stations.length, first] ++
        ((s.tuner.stations.drop first.toNat).map StationEntry.bytes).flatten), s)

end Sys2Proof.Machine
end

