-- ==== Sys2Proof/Machine/Resets.lean ====
section
/-! DEFINITION. The three kinds of reset: POWER-ON, PART RESET and PORT RESET (R23, R36, R61, R67, R85, R112, R138, R159, R173, R190, R191, R205). -/

namespace Sys2Proof.Machine

/-! ### POWER-ON (R191) -/

/-- A line before its pin is taken at the end of a reset: inactive (R61). -/
def Line.unsensed (l : Line) : Line := { l with active := false }

/-- Every fault line before its pin is taken. -/
def unsensedFlt (v : Vector Line 11) : Vector Line 11 :=
  allFaultLines.foldl (fun v (n : Fin 11) => v.set n (v[n]).unsensed) v

/-- The levels at the protection pins are those outside the part: a reset keeps them (log 27). -/
def OutputUnit.withPins (u old : OutputUnit) : OutputUnit :=
  { u with flt := unsensedFlt old.flt, thw := old.thw.unsensed, tht := old.tht.unsensed }

/-- A port after a full reset; the level of its PRST line is outside the part (log 27). -/
def PortRec.fullReset (r : PortRec) (why : DetailReason) : PortRec := { PortRec.reset why with prst := r.prst }

/-- Every port after a full reset. -/
def State.resetPorts (s : State) (why : DetailReason) : PerPort PortRec :=
  ⟨s.ports.a.fullReset why, s.ports.b.fullReset why, s.ports.c.fullReset why⟩

/-- POWER-ON: every block takes its POWER-ON values, then the protection lines and the links are taken
from their pins (R23, R61, R67, R191). The DRAM's contents and the waiting commands are not the
part's to reset (log 6, log 27). -/
def State.powerOn (s : State) : State :=
  ({ State.reset with
      outputs := OutputUnit.reset.withPins s.outputs
      inputs := s.inputs
      delay := { DelayState.reset with dram := s.delay.dram }
      ports := s.resetPorts .powerOn
      freeCount := s.freeCount
      pending := s.pending } : State).senseAll.resetInputs

/-! ### PART RESET (R190) -/

/-- A zone after PART RESET (R23, R36); its source status is derived afterwards. -/
def ZoneRec.partReset (r : ZoneRec) : ZoneRec :=
  { r with power := .standby, waiting := none, mute := false, opSlot := none, pendingPower := none,
           pendingSlot := none, sleepTimer := 0, stack := [], quietStage := none, wakeTimer := none,
           relayTimer := none, switchIn := false, noOutput := false }

/-- The Output Channel Unit after PART RESET, before its pins are taken (R61). -/
def OutputUnit.partReset (u : OutputUnit) : OutputUnit :=
  ({ u with outs := Vector.replicate 13 OutputRec.idle, latch := false } : OutputUnit).withPins u

/-- The Mix Engine after PART RESET (R112). -/
def MixState.partReset (m : MixState) : MixState :=
  { MixState.reset with speakers := m.speakers, crossover := m.crossover }

/-- The Delay Memory Controller after PART RESET (R138). -/
def DelayState.partReset (d : DelayState) : DelayState :=
  let starting := d.state = .initializing
  { state := if starting then .uninit else d.state, check := none,
    badRows := if starting then [] else d.badRows, segments := [], dref := none, starved := [],
    compaction := none, dram := d.dram }

/-- The Tuner after PART RESET (R159, R173). -/
def TunerRec.partReset (t : TunerRec) : TunerRec :=
  ({ t with frequency := t.held, state := .parked, settle := none, op := none, seek := none,
            scan := none, label := LabelRec.cleared } : TunerRec).blendNow

/-- PART RESET: every block takes its PART RESET values, the slots are freed without completion, then
the protection lines and the links are taken from their pins (R190, R205). -/
def State.partReset (s : State) : State :=
  ({ zones := ⟨s.zones.main.partReset, s.zones.z2.partReset, s.zones.z3.partReset⟩
     minute := s.minute
     outputs := s.outputs.partReset
     inputs := s.inputs
     decoder := DecoderRec.reset
     mix := s.mix.partReset
     delay := s.delay.partReset
     tuner := s.tuner.partReset
     slots := Vector.replicate 8 none
     ports := s.resetPorts .partReset
     freeCount := s.freeCount
     pending := s.pending } : State).senseAll.resetInputs

/-! ### PORT RESET (R191, R205) -/

/-- PORT_RESET: the port's own record, queue and event state are reset, its PRST line is asserted, and
its waiting slots post into the emptied queue (R191, R205). -/
def State.portResets (s : State) (p : Port) : State :=
  ((s.setPort p { PortRec.reset .portReset with prst := true }).endSlotChains p).postAllWaiting p

/-- PORT_RESET_RELEASE: the port takes transactions again (R174). -/
def State.portReleased (s : State) (p : Port) : State := s.setPort p { s.port p with prst := false }

end Sys2Proof.Machine
end

