-- ==== Sys2Proof/Machine/Service.lean ====
section
/-! DEFINITION. The commands of ports, slots and events: No Operation, Identify, Read Detail, Reset Part, completions, Abort Operation, Read Slots and the event commands (09_control_ports_and_commands.md, 10_operation_slots_completions_and_events.md). -/

namespace Sys2Proof.Machine

/-! ### No Operation, Identify, Read Detail, Reset Part (R187, R189, R190) -/

/-- No Operation (R189). -/
def doNoOperation (_x : Ctx) (s : State) : Answer × State := (Answer.plain .done, s)

/-- The 24 bytes of Identify on a port (R189). -/
def State.identityBytes (s : State) (p : Port) : List Byte :=
  [0x43, 0x4D, 0x34, 0x31, 0x36, 0x30, 0x20, 0x20, 1, p.code, 3, 3, 13, 8, 4, 8, 9, 40, 40] ++
  natBytes 1024 ++ [64] ++ natBytes s.minute.count

/-- Identify (R189). -/
def doIdentify (x : Ctx) (count : Half) (s : State) : Answer × State :=
  (readCommand 0 count (s.identityBytes x.port), s)

/-- The seven bytes of a detail record (R187). -/
def DetailRec.bytes (d : DetailRec) : List Byte :=
  [d.status.code, d.code, d.tag, d.param] ++ halfBytes d.residue ++ [d.reason.code]

/-- Read Detail (R187). -/
def doReadDetail (x : Ctx) (s : State) : Answer × State :=
  match (s.port x.port).detail with
  | some d => (Answer.withData .done d.bytes, s.setPort x.port { s.port x.port with detail := none })
  | none => (Answer.plain .noDetail, s)

/-- Reset Part (R190). -/
def doResetPart (_x : Ctx) (s : State) : Answer × State := (Answer.plain .done, s.partReset)

/-! ### Read Completion (R196) -/

/-- The bytes of a completion record (R207). -/
def Completion.bytes (c : Completion) : List Byte :=
  [c.tag, c.code, c.status.code, slotByte c.slot, c.mark.code, natByte c.result.length] ++ c.result

/-- Read Completion (R196): a waiting slot posts into the place that the removal makes. -/
def doReadCompletion (x : Ctx) (s : State) : Answer × State :=
  match (s.port x.port).completions with
  | [] => (Answer.plain .doneNoChange, s)
  | c :: rest =>
    (Answer.withData .done (natByte rest.length :: c.bytes),
      (s.setPort x.port { s.port x.port with completions := rest }).postWaiting x.port)

/-! ### Abort Operation (R197) -/

/-- A slot number (R197). -/
def slotOf (b : Byte) : Option (Fin 8) := if h : b.toNat < 8 then some ⟨b.toNat, h⟩ else none

/-- The abort of a running operation (R118, R135, R150, R166). -/
def abortSlot (b : SlotBody) (s : State) : Answer × State :=
  match b.kind with
  | .memoryStart => (Answer.plain .done, s.abortCheck)
  | .compact =>
    match s.delay.compaction with
    | some c => if c.abort then (Answer.plain .doneNoChange, s) else (Answer.plain .done, s.abortCompaction)
    | none => (Answer.plain .done, s)
  | .seek | .scan => (Answer.plain .done, s.abortTuner)
  | _ => (Answer.plain .notAbortable, s)

/-- Abort Operation (R197). -/
def doAbortOperation (x : Ctx) (slot : Byte) (s : State) : Answer × State :=
  match slotOf slot with
  | none => (Answer.badParam 0, s)
  | some k =>
    match s.slot k with
    | none => (Answer.badParam 0, s)
    | some b =>
      if b.port ≠ x.port then (Answer.plain .notOwner, s)
      else if b.waiting.isSome then (Answer.plain .alreadyDone, s)
      else abortSlot b s

/-! ### Read Slots (R198) -/

/-- The code of a slot's state (R192). -/
def SlotState.code : SlotState → Byte
  | .free => 0
  | .running => 1
  | .doneWaiting => 2

/-- The nine bytes of a slot (R198). The fields of a FREE slot are absent (R192), and
so is its chained mark: 0xFF (R206). -/
def slotBytes (k : Fin 8) (b : Slot) : List Byte :=
  match b with
  | none => [natByte k.val, 0, absentByte, absentByte, 0] ++ halfBytes absentHalf ++ [absentByte, absentByte]
  | some b =>
    [natByte k.val, (slotState (some b)).code, b.kind.code, b.port.code, b.tag] ++
    halfBytes (b.target.getD absentHalf) ++ [b.mark.code, optByte (fun w => w.1.status.code) b.waiting]

/-- The 73 bytes of Read Slots (R198). -/
def State.slotTableBytes (s : State) : List Byte :=
  natByte ((allSlots.filter (fun k => (s.slot k).isNone)).length) ::
  (allSlots.map (fun k => slotBytes k (s.slot k))).flatten

/-- Read Slots (R198). -/
def doReadSlots (_x : Ctx) (count : Half) (s : State) : Answer × State :=
  (readCommand 0 count s.slotTableBytes, s)

/-! ### Events (R201 to R204) -/

/-- The event state of a port takes a value. -/
def State.setEvents (s : State) (p : Port) (e : EventState) : State :=
  s.setPort p { s.port p with events := e }

/-- Set Event Enable (R201). -/
def doSetEventEnable (x : Ctx) (enable : Half) (s : State) : Answer × State :=
  let e := (s.port x.port).events
  if 512 ≤ enable.toNat then (Answer.badParam 0, s)
  else if enable = e.enable then (Answer.plain .doneNoChange, s)
  else (Answer.plain .done, s.setEvents x.port { e with enable := enable })

/-- A kind is a candidate of a fetch (R202). -/
def PortRec.candidate (r : PortRec) (all : Bool) (k : EventKind) : Bool :=
  r.isPending k && (all || (r.events.enable &&& k.bit) != 0)

/-- A fetch takes a kind: it leaves the pending set and its detail is cleared; COMPLETION stays
(R202). -/
def PortRec.takeKind (r : PortRec) (k : EventKind) : PortRec :=
  { r with events := r.events.setKind k KindState.zero }

/-- The event record (R207). -/
def eventBytes (k : EventKind) (pending : Half) (d : EventDetail) : List Byte :=
  [natByte k.priority] ++ halfBytes pending ++ halfBytes d.outputs ++ halfBytes d.inputs ++
  [d.zones, d.reasons, d.flags]

/-- The notify enable is cleared (R202, R204). -/
def PortRec.quiet (r : PortRec) : PortRec := { r with events := { r.events with notifyEnable := false } }

/-- Fetch Event (R202). -/
def doFetchEvent (x : Ctx) (all : Byte) (s : State) : Answer × State :=
  match flagOf all with
  | none => (Answer.badParam 0, s)
  | some a =>
    let r := s.port x.port
    match EventKind.all.find? (r.candidate a) with
    | none => (Answer.plain .doneNoChange, s.setPort x.port r.quiet)
    | some k =>
      let r1 := (r.takeKind k).quiet
      (Answer.withData .done (eventBytes k r1.pendingSet (r.events.kind k).detail), s.setPort x.port r1)

/-- Peek Events (R203). -/
def doPeekEvents (x : Ctx) (s : State) : Answer × State :=
  let r := s.port x.port
  (Answer.withData .done
    (halfBytes r.pendingSet ++ halfBytes r.events.enable ++
      [boolByte r.events.notifyEnable ||| (if r.events.notifyOnPending then 2 else 0),
       natByte r.completions.length]), s)

/-- The kind that a code names for Raise Event; COMPLETION is not one (R203, R206). -/
def raisableOf (b : Byte) : Option EventKind :=
  EventKind.all.find? (fun k => k != .completion && natByte k.priority == b)

/-- Raise Event (R203). -/
def doRaiseEvent (x : Ctx) (kind : Byte) (s : State) : Answer × State :=
  match raisableOf kind with
  | none => (Answer.badParam 0, s)
  | some k =>
    (Answer.changed (!(s.port x.port).isPending k), s.raiseOn x.port k EventDetail.zero)

/-- Notify Off (R204). -/
def doNotifyOff (x : Ctx) (s : State) : Answer × State :=
  let e := (s.port x.port).events
  (Answer.changed (e.notifyEnable || e.notifyOnPending),
    s.setEvents x.port { e with notifyEnable := false, notifyOnPending := false })

/-- Notify On (R204). -/
def doNotifyOn (x : Ctx) (s : State) : Answer × State :=
  let e := (s.port x.port).events
  if e.notifyEnable && !e.notifyOnPending then (Answer.plain .doneNoChange, s)
  else (Answer.plain .done, s.setEvents x.port { e with notifyOnPending := true })

end Sys2Proof.Machine
end

