-- ==== Sys2Proof/Machine/Ports.lean ====
section
/-! DEFINITION. The control ports: how frames are tested, placed, taken, queued, chained, discarded and answered (09_control_ports_and_commands.md). -/

namespace Sys2Proof.Machine

/-- The block that owns the state of a command executes it (R180). -/
def runCmd (x : Ctx) (c : Cmd) (s : State) : Answer × State :=
  match c with
  | .noOperation => doNoOperation x s
  | .identify count => doIdentify x count s
  | .readDetail => doReadDetail x s
  | .resetPart => doResetPart x s
  | .zoneOn zone => doZoneOn x zone s
  | .zoneStandby zone => doZoneStandby x zone s
  | .selectSource zone source => doSelectSource x zone source s
  | .setVolume zone index => doSetVolume x zone index s
  | .stepVolume zone step => doStepVolume x zone step s
  | .setMute zone mute => doSetMute x zone mute s
  | .setMaxVolume zone index => doSetMaxVolume x zone index s
  | .setLipSync zone ms => doSetLipSync x zone ms s
  | .setSurroundMode zone mode => doSetSurroundMode x zone mode s
  | .setSleepTimer zone minutes => doSetSleepTimer x zone minutes s
  | .readZone zone count => doReadZone x zone count s
  | .pushOverride zone source index => doPushOverride x zone source index s
  | .popOverride zone => doPopOverride x zone s
  | .readOverrideStack zone count => doReadOverrideStack x zone count s
  | .setAssignment output mainRole remoteRole priority =>
    doSetAssignment x output mainRole remoteRole priority s
  | .readAssignment count => doReadAssignment x count s
  | .setProtectionLevels fault thw tht => doSetProtectionLevels x fault thw tht s
  | .readProtection count => doReadProtection x count s
  | .clearFault name => doClearFault x name s
  | .readInput input count => doReadInput x input count s
  | .readDecoder clear count => doReadDecoder x clear count s
  | .setSpeaker position size distance trim polarity =>
    doSetSpeaker x position size distance trim polarity s
  | .setCrossover hz => doSetCrossover x hz s
  | .readSpeakers count => doReadSpeakers x count s
  | .memoryStart level => doMemoryStart x level s
  | .compactDelayMemory => doCompact x s
  | .readSegmentTable count => doReadSegmentTable x count s
  | .tune band frequency => doTune x band frequency s
  | .stepTune direction => doStepTune x direction s
  | .seek direction => doSeek x direction s
  | .scan band => doScan x band s
  | .setSeekThreshold threshold => doSetSeekThreshold x threshold s
  | .setRegion region => doSetRegion x region s
  | .readTuner count => doReadTuner x count s
  | .storePreset preset => doStorePreset x preset s
  | .recallPreset preset => doRecallPreset x preset s
  | .clearPreset preset => doClearPreset x preset s
  | .readPresets first count => doReadPresets x first count s
  | .readStationList first count => doReadStationList x first count s
  | .recallStation index => doRecallStation x index s
  | .notifyOn => doNotifyOn x s
  | .notifyOff => doNotifyOff x s
  | .setEventEnable enable => doSetEventEnable x enable s
  | .fetchEvent all => doFetchEvent x all s
  | .peekEvents => doPeekEvents x s
  | .raiseEvent kind => doRaiseEvent x kind s
  | .readCompletion => doReadCompletion x s
  | .abortOperation slot => doAbortOperation x slot s
  | .readSlots count => doReadSlots x count s

/-! ### Answers (R177, R186) -/

/-- The port answers a command: the answer becomes the last response, and writes the detail record
where R186 says so. -/
def State.answer (s : State) (p : Port) (tag code : Byte) (a : Answer) (reason : DetailReason) : State :=
  s.setPort p { s.port p with
    response := some { status := a.status, tag := tag, code := code, slot := a.slot, data := a.data }
    detail :=
      if a.status.writesDetail then
        some { status := a.status, code := code, tag := tag, param := a.param, residue := a.residue,
               reason := reason }
      else (s.port p).detail }

/-- The answer to a command. Reason NONE beside the residue of DONE_SHORT and DONE_TRUNCATED, and beside the
index of BAD_PARAMETER, is the model's (DESIGN CHOICE, log 41). -/
def State.reply (s : State) (p : Port) (h : FrameHead) (c : Cmd) (a : Answer) : State :=
  s.answer p h.tag c.code a .none

/-- BAD_LENGTH of a frame whose length is not the command's own (R178, R180). -/
def lengthRefusal (h : FrameHead) (c : Cmd) : Answer :=
  { Answer.plain .badLength with residue := BitVec.ofInt 16 ((c.ownLength : Int) - (h.length : Int)) }

/-- Execute a command whose frame length is its own (R178, R180). -/
def execute (x : Ctx) (h : FrameHead) (c : Cmd) (s : State) : Answer × State :=
  if h.length = c.ownLength then runCmd x c s else (lengthRefusal h c, s)

/-! ### Chains (R182 to R184) -/

/-- LINK is set in a frame's flags (R176). -/
def linkSet (h : FrameHead) : Bool := h.flags.getLsbD 0

/-- The chained mark of a chain member (R184). -/
def memberMark (h : FrameHead) : ChainMark := if linkSet h then .member else .last

/-- The chained mark of a command taken in a chain state (R182, R184). -/
def markOf (c : ChainState) (h : FrameHead) : ChainMark :=
  if c = .open ∨ linkSet h then memberMark h else .none

/-- The chain after a member's answer; an answer ACCEPTED has moved it with its slot (R182). -/
def State.moveChain (s : State) (p : Port) (mark : ChainMark) (st : Status) : State :=
  if st = .accepted then s
  else
    match mark with
    | .none => s
    | .last => s.endChain p
    | .member => s.setPort p { s.port p with chain := if st.isSuccess then .open else .broken }

/-- The context of an ordinary command taken on a port. -/
def State.ctx (s : State) (p : Port) (h : FrameHead) : Ctx :=
  { port := p, tag := h.tag, mark := markOf (s.port p).chain h }

/-- Take an ordinary command on arrival (R180, R182). -/
def State.takeNow (s : State) (p : Port) (h : FrameHead) (c : Cmd) : State :=
  let x := s.ctx p h
  let r := execute x h c s
  (r.2.reply p h c r.1).moveChain p x.mark r.1.status

/-! ### The inbound queue (R179, R181, R183) -/

/-- The record that a queued command posts for its answer (R181). -/
def answerRecord (h : FrameHead) (c : Cmd) (mark : ChainMark) (st : Status) : Completion :=
  { tag := h.tag, code := c.code, status := if st.isSuccess then .done else .failed, slot := none,
    mark := mark, result := [st.code], heldBack := mark != .none }

/-- Replace the record at a place of a completion queue. -/
def State.setRecord (s : State) (p : Port) (k : Nat) (r : Completion) : State :=
  s.setPort p { s.port p with completions := (s.port p).completions.set k r }

/-- Execute a queued command and post its one record (R181). Where the command's own actions fill the
completion queue, the command's record keeps the place that was free when it was taken (log 10). -/
def State.runQueued (s : State) (x : Ctx) (h : FrameHead) (c : Cmd) : Answer × State :=
  let r := execute x h c s
  if r.1.status = .accepted then r
  else if r.2.hasRoom x.port then (r.1, r.2.post x.port (answerRecord h c x.mark r.1.status))
  else
    let place := (s.port x.port).completions.length
    let r2 := execute x h c (s.post x.port (answerRecord h c x.mark .done))
    (r2.1, r2.2.setRecord x.port place (answerRecord h c x.mark r2.1.status))

/-- Take a command that waited in the inbound queue (R181). -/
def State.takeQueued (s : State) (p : Port) (q : QueuedCmd) : State :=
  let x := s.ctx p q.head
  let r := s.runQueued x q.head q.cmd
  (r.2.reply p q.head q.cmd r.1).moveChain p x.mark r.1.status

/-- The record of a discarded command (R183). -/
def discardRecord (h : FrameHead) (c : Cmd) : Completion :=
  { tag := h.tag, code := c.code, status := .chainBroken, slot := none, mark := memberMark h,
    result := [], heldBack := true }

/-- Discard a command; the discard of one with LINK clear ends the chain (R183). -/
def State.discard (s : State) (p : Port) (h : FrameHead) (c : Cmd) : State :=
  let s1 := s.post p (discardRecord h c)
  if linkSet h then s1 else s1.endChain p

/-- The inbound queue of a port takes a value. -/
def State.setInbound (s : State) (p : Port) (l : List QueuedCmd) : State :=
  s.setPort p { s.port p with inbound := l }

/-- Append an ordinary command to the inbound queue: QUEUED (R179). -/
def State.enqueue (s : State) (p : Port) (h : FrameHead) (c : Cmd) : State :=
  (s.setInbound p ((s.port p).inbound ++ [{ head := h, cmd := c }])).reply p h c (Answer.plain .queued)

/-- Place an ordinary command (R179). -/
def State.place (s : State) (p : Port) (h : FrameHead) (c : Cmd) : State :=
  let r := s.port p
  if 4 ≤ r.inbound.length then s.reply p h c (Answer.plain .queueFull)
  else
    match r.chain with
    | .none | .open => if r.inbound = [] then s.takeNow p h c else s.enqueue p h c
    | .holding => s.enqueue p h c
    | .broken =>
      if r.inbound = [] ∧ s.hasRoom p then (s.discard p h c).reply p h c (Answer.plain .chainBroken)
      else s.enqueue p h c

/-- QUEUE_HEAD_TAKEN (R181). -/
def State.takeHead (s : State) (p : Port) : State :=
  let r := s.port p
  match r.inbound with
  | [] => s
  | q :: rest =>
    if (r.chain = .none ∨ r.chain = .open) ∧ s.hasRoom p then (s.setInbound p rest).takeQueued p q else s

/-- CHAIN_MEMBER_DISCARDED (R183). -/
def State.discardHead (s : State) (p : Port) : State :=
  let r := s.port p
  match r.inbound with
  | [] => s
  | q :: rest =>
    if r.chain = .broken ∧ s.hasRoom p then (s.setInbound p rest).discard p q.head q.cmd else s

/-! ### Arrivals of frames (R174, R178, R204) -/

/-- Take a service command (R178). -/
def State.takeService (s : State) (p : Port) (h : FrameHead) (c : Cmd) : State :=
  let r := execute { port := p, tag := h.tag, mark := .none } h c s
  r.2.reply p h c r.1

/-- The first test of R178: 4 to 64 bytes, as the length field says. -/
def lengthOk (field received : Nat) : Bool :=
  decide (4 ≤ received) && decide (4 ≤ field) && decide (field ≤ 64) && decide (field = received)

/-- BAD_LENGTH from test 1 of R178 (R186). A residue that a signed two-byte field cannot hold, where the
bytes received exceed the length field by more than 32,768, wraps modulo 2^16 (DESIGN CHOICE, log 39). -/
def State.refuseLength (s : State) (p : Port) (tag code : Byte) (field received : Nat) : State :=
  s.answer p tag code
    { Answer.plain .badLength with
      residue := if received < 4 then 0 else BitVec.ofInt 16 ((field : Int) - (received : Int)) }
    .frameLength

/-- ATTENTION: the refusal of test 2 of R178, after which attention is CLEAR (R185). Its record carries
the reason of R185; index 0xFF and residue 0 are the model's (DESIGN CHOICE, log 41). -/
def State.refuseAttention (s : State) (p : Port) (tag code : Byte) (why : DetailReason) : State :=
  (s.setPort p { s.port p with attention := none }).answer p tag code (Answer.plain .attention) why

/-- Tests 4 and 5 of R178, then the command is taken. -/
def State.admitFrame (s : State) (p : Port) (h : FrameHead) (c : Cmd) : State :=
  if h.flags.toNat / 2 ≠ 0 then s.reply p h c (Answer.badParam 0xFE)
  else if c.isService then
    if linkSet h then s.reply p h c (Answer.badParam 0xFE) else s.takeService p h c
  else s.place p h c

/-- A frame of a known command that has passed test 1: test 2 of R178, then the rest. -/
def State.admitAttention (s : State) (p : Port) (h : FrameHead) (c : Cmd) : State :=
  match (s.port p).attention with
  | some why => if c = .readDetail then s.admitFrame p h c else s.refuseAttention p h.tag c.code why
  | none => s.admitFrame p h c

/-- A frame with a code that is not known: tests 2 and 3 of R178. -/
def State.refuseUnknown (s : State) (p : Port) (tag code : Byte) : State :=
  match (s.port p).attention with
  | some why => s.refuseAttention p tag code why
  | none => s.answer p tag code (Answer.plain .unknownCommand) .none

/-- The frame has been answered: a notify-on-pending flag that was SET at its arrival takes effect
(R204), unless the frame made a PART RESET, which cleared it (R205, log 11). -/
def State.arm (s before : State) (p : Port) : State :=
  let reset := (before.port p).attention.isNone && (s.port p).attention.isSome
  if (before.port p).events.notifyOnPending && !reset then
    s.setEvents p { (s.port p).events with notifyEnable := true, notifyOnPending := false }
  else s

/-- The port drives 0xFF on data-out throughout a COMMAND transaction (R174). -/
def State.drive (s : State) (p : Port) (bytes : List Byte) : State :=
  s.setPort p { s.port p with dataOut := bytes }

/-- The arrival of a frame at a port: ignored while PRST is asserted (R174), else acted on by `act`. -/
def State.frame (s : State) (p : Port) (received : Nat) (act : State → State) : State :=
  if (s.port p).prst then s
  else (State.arm (act s) s p).drive p (List.replicate received 0xFF)

/-- The arrival of a frame of a known command (R178). -/
def State.arrive (s : State) (p : Port) (h : FrameHead) (c : Cmd) : State :=
  s.frame p h.length fun s =>
    if lengthOk h.length h.length then s.admitAttention p h c
    else s.refuseLength p h.tag c.code h.length h.length

/-- The tests of R178 on the bytes of a frame. For a frame of fewer than 3 bytes R186 gives the detail
record the code 0 and the tag 0, and the response frame carries the same two zeros (DESIGN CHOICE,
log 40). -/
def State.testBytes (s : State) (p : Port) (bytes : List Byte) : State :=
  let tag := if 3 ≤ bytes.length then byteAt bytes 1 else 0
  let code := if 3 ≤ bytes.length then byteAt bytes 2 else 0
  if lengthOk (byteAt bytes 0).toNat bytes.length then
    match decodeFrame bytes with
    | some (h, c) => s.admitAttention p h c
    | none => s.refuseUnknown p tag code
  else s.refuseLength p tag code (byteAt bytes 0).toNat bytes.length

/-- The arrival of a frame as its bytes, none of which need be right (R178). -/
def State.arriveBytes (s : State) (p : Port) (bytes : List Byte) : State :=
  s.frame p bytes.length fun s => s.testBytes p bytes

/-! ### Transactions (R174, R177, R206) -/

/-- The bytes of a response frame (R207). -/
def Response.bytes (r : Response) : List Byte :=
  [r.status.code, r.tag, r.code, slotByte r.slot] ++ natBytes r.data.length ++ r.data

/-- The response delivered while none is held (R177). -/
def Response.none : Response := { status := .noResponse, tag := 0, code := 0, slot := .none, data := [] }

/-- RESPONSE_TRANSACTION: the bytes of the last response, then 0x00; one byte clocked makes the last
response absent (R174, R177). -/
def State.respond (s : State) (p : Port) (clocked : Nat) : State :=
  let r := s.port p
  if r.prst then s
  else
    s.setPort p { r with
      dataOut := (((r.response.getD Response.none).bytes) ++ List.replicate clocked 0).take clocked
      response := if clocked = 0 then r.response else none }

/-- The transaction kind COMMAND (R206). -/
def kindCommand : Byte := 0xA5

/-- The transaction kind RESPONSE (R206). -/
def kindResponse : Byte := 0x5A

/-- A transaction as the complete bytes that the master sends: the first names its kind, and one with
no byte or of neither kind changes nothing (R174, R206). -/
def State.transact (s : State) (p : Port) (bytes : List Byte) : State :=
  match bytes with
  | [] => s
  | kind :: rest =>
    if kind = kindCommand then s.arriveBytes p rest
    else if kind = kindResponse then s.respond p rest.length
    else s

end Sys2Proof.Machine
end

