-- ==== Sys2Proof/Machine/Commands.lean ====
section
/-! DEFINITION. The meanings of the port commands: each is the arrival of its frame at a port (R178). -/

namespace Sys2Proof.Machine

/-- NO_OPERATION (R189). -/
def execNoOperation (p : Port) (h : FrameHead) (s : State) : Host.Outcome State Fault Refusal :=
  .next (s.arrive p h .noOperation)

/-- IDENTIFY (R189). -/
def execIdentify (p : Port) (h : FrameHead) (count : Half) (s : State) : Host.Outcome State Fault Refusal :=
  .next (s.arrive p h (.identify count))

/-- READ_DETAIL (R187). -/
def execReadDetail (p : Port) (h : FrameHead) (s : State) : Host.Outcome State Fault Refusal :=
  .next (s.arrive p h .readDetail)

/-- RESET_PART (R190). -/
def execResetPart (p : Port) (h : FrameHead) (s : State) : Host.Outcome State Fault Refusal :=
  .next (s.arrive p h .resetPart)

/-- ZONE_ON (R4). -/
def execZoneOn (p : Port) (h : FrameHead) (zone : Byte) (s : State) : Host.Outcome State Fault Refusal :=
  .next (s.arrive p h (.zoneOn zone))

/-- ZONE_STANDBY (R7). -/
def execZoneStandby (p : Port) (h : FrameHead) (zone : Byte) (s : State) : Host.Outcome State Fault Refusal :=
  .next (s.arrive p h (.zoneStandby zone))

/-- SELECT_SOURCE (R12). -/
def execSelectSource (p : Port) (h : FrameHead) (zone source : Byte) (s : State) : Host.Outcome State Fault Refusal :=
  .next (s.arrive p h (.selectSource zone source))

/-- SET_VOLUME (R16). -/
def execSetVolume (p : Port) (h : FrameHead) (zone : Byte) (index : Half) (s : State) : Host.Outcome State Fault Refusal :=
  .next (s.arrive p h (.setVolume zone index))

/-- STEP_VOLUME (R16). -/
def execStepVolume (p : Port) (h : FrameHead) (zone step : Byte) (s : State) : Host.Outcome State Fault Refusal :=
  .next (s.arrive p h (.stepVolume zone step))

/-- SET_MUTE (R17). -/
def execSetMute (p : Port) (h : FrameHead) (zone mute : Byte) (s : State) : Host.Outcome State Fault Refusal :=
  .next (s.arrive p h (.setMute zone mute))

/-- SET_MAX_VOLUME (R18). -/
def execSetMaxVolume (p : Port) (h : FrameHead) (zone : Byte) (index : Half) (s : State) : Host.Outcome State Fault Refusal :=
  .next (s.arrive p h (.setMaxVolume zone index))

/-- SET_LIP_SYNC (R19). -/
def execSetLipSync (p : Port) (h : FrameHead) (zone : Byte) (ms : Half) (s : State) : Host.Outcome State Fault Refusal :=
  .next (s.arrive p h (.setLipSync zone ms))

/-- SET_SURROUND_MODE (R20). -/
def execSetSurroundMode (p : Port) (h : FrameHead) (zone mode : Byte) (s : State) : Host.Outcome State Fault Refusal :=
  .next (s.arrive p h (.setSurroundMode zone mode))

/-- SET_SLEEP_TIMER (R21). -/
def execSetSleepTimer (p : Port) (h : FrameHead) (zone minutes : Byte) (s : State) : Host.Outcome State Fault Refusal :=
  .next (s.arrive p h (.setSleepTimer zone minutes))

/-- READ_ZONE (R22). -/
def execReadZone (p : Port) (h : FrameHead) (zone : Byte) (count : Half) (s : State) : Host.Outcome State Fault Refusal :=
  .next (s.arrive p h (.readZone zone count))

/-- PUSH_OVERRIDE (R26). -/
def execPushOverride (p : Port) (h : FrameHead) (zone source : Byte) (index : Half) (s : State) : Host.Outcome State Fault Refusal :=
  .next (s.arrive p h (.pushOverride zone source index))

/-- POP_OVERRIDE (R29). -/
def execPopOverride (p : Port) (h : FrameHead) (zone : Byte) (s : State) : Host.Outcome State Fault Refusal :=
  .next (s.arrive p h (.popOverride zone))

/-- READ_OVERRIDE_STACK (R35). -/
def execReadOverrideStack (p : Port) (h : FrameHead) (zone : Byte) (count : Half) (s : State) : Host.Outcome State Fault Refusal :=
  .next (s.arrive p h (.readOverrideStack zone count))

/-- SET_ASSIGNMENT (R40). -/
def execSetAssignment (p : Port) (h : FrameHead) (output mainRole remoteRole priority : Byte) (s : State) : Host.Outcome State Fault Refusal :=
  .next (s.arrive p h (.setAssignment output mainRole remoteRole priority))

/-- READ_ASSIGNMENT (R41). -/
def execReadAssignment (p : Port) (h : FrameHead) (count : Half) (s : State) : Host.Outcome State Fault Refusal :=
  .next (s.arrive p h (.readAssignment count))

/-- SET_PROTECTION_LEVELS (R57). -/
def execSetProtectionLevels (p : Port) (h : FrameHead) (fault thw tht : Byte) (s : State) : Host.Outcome State Fault Refusal :=
  .next (s.arrive p h (.setProtectionLevels fault thw tht))

/-- READ_PROTECTION (R60). -/
def execReadProtection (p : Port) (h : FrameHead) (count : Half) (s : State) : Host.Outcome State Fault Refusal :=
  .next (s.arrive p h (.readProtection count))

/-- CLEAR_FAULT (R59). -/
def execClearFault (p : Port) (h : FrameHead) (name : Byte) (s : State) : Host.Outcome State Fault Refusal :=
  .next (s.arrive p h (.clearFault name))

/-- READ_INPUT (R66). -/
def execReadInput (p : Port) (h : FrameHead) (input : Byte) (count : Half) (s : State) : Host.Outcome State Fault Refusal :=
  .next (s.arrive p h (.readInput input count))

/-- READ_DECODER (R84). -/
def execReadDecoder (p : Port) (h : FrameHead) (clear : Byte) (count : Half) (s : State) : Host.Outcome State Fault Refusal :=
  .next (s.arrive p h (.readDecoder clear count))

/-- SET_SPEAKER (R89). -/
def execSetSpeaker (p : Port) (h : FrameHead) (position size : Byte) (distance : Half) (trim polarity : Byte) (s : State) : Host.Outcome State Fault Refusal :=
  .next (s.arrive p h (.setSpeaker position size distance trim polarity))

/-- SET_CROSSOVER (R91). -/
def execSetCrossover (p : Port) (h : FrameHead) (hz : Byte) (s : State) : Host.Outcome State Fault Refusal :=
  .next (s.arrive p h (.setCrossover hz))

/-- READ_SPEAKERS (R92). -/
def execReadSpeakers (p : Port) (h : FrameHead) (count : Half) (s : State) : Host.Outcome State Fault Refusal :=
  .next (s.arrive p h (.readSpeakers count))

/-- MEMORY_START (R115). -/
def execMemoryStart (p : Port) (h : FrameHead) (level : Byte) (s : State) : Host.Outcome State Fault Refusal :=
  .next (s.arrive p h (.memoryStart level))

/-- COMPACT_DELAY_MEMORY (R132). -/
def execCompactDelayMemory (p : Port) (h : FrameHead) (s : State) : Host.Outcome State Fault Refusal :=
  .next (s.arrive p h .compactDelayMemory)

/-- READ_SEGMENT_TABLE (R137). -/
def execReadSegmentTable (p : Port) (h : FrameHead) (count : Half) (s : State) : Host.Outcome State Fault Refusal :=
  .next (s.arrive p h (.readSegmentTable count))

/-- TUNE (R144). -/
def execTune (p : Port) (h : FrameHead) (band : Byte) (frequency : Half) (s : State) : Host.Outcome State Fault Refusal :=
  .next (s.arrive p h (.tune band frequency))

/-- STEP_TUNE (R145). -/
def execStepTune (p : Port) (h : FrameHead) (direction : Byte) (s : State) : Host.Outcome State Fault Refusal :=
  .next (s.arrive p h (.stepTune direction))

/-- SEEK (R148). -/
def execSeek (p : Port) (h : FrameHead) (direction : Byte) (s : State) : Host.Outcome State Fault Refusal :=
  .next (s.arrive p h (.seek direction))

/-- SCAN (R161). -/
def execScan (p : Port) (h : FrameHead) (band : Byte) (s : State) : Host.Outcome State Fault Refusal :=
  .next (s.arrive p h (.scan band))

/-- SET_SEEK_THRESHOLD (R155). -/
def execSetSeekThreshold (p : Port) (h : FrameHead) (threshold : Byte) (s : State) : Host.Outcome State Fault Refusal :=
  .next (s.arrive p h (.setSeekThreshold threshold))

/-- SET_REGION (R156). -/
def execSetRegion (p : Port) (h : FrameHead) (region : Byte) (s : State) : Host.Outcome State Fault Refusal :=
  .next (s.arrive p h (.setRegion region))

/-- READ_TUNER (R157). -/
def execReadTuner (p : Port) (h : FrameHead) (count : Half) (s : State) : Host.Outcome State Fault Refusal :=
  .next (s.arrive p h (.readTuner count))

/-- STORE_PRESET (R169). -/
def execStorePreset (p : Port) (h : FrameHead) (preset : Byte) (s : State) : Host.Outcome State Fault Refusal :=
  .next (s.arrive p h (.storePreset preset))

/-- RECALL_PRESET (R171). -/
def execRecallPreset (p : Port) (h : FrameHead) (preset : Byte) (s : State) : Host.Outcome State Fault Refusal :=
  .next (s.arrive p h (.recallPreset preset))

/-- CLEAR_PRESET (R171). -/
def execClearPreset (p : Port) (h : FrameHead) (preset : Byte) (s : State) : Host.Outcome State Fault Refusal :=
  .next (s.arrive p h (.clearPreset preset))

/-- READ_PRESETS (R172). -/
def execReadPresets (p : Port) (h : FrameHead) (first : Byte) (count : Half) (s : State) : Host.Outcome State Fault Refusal :=
  .next (s.arrive p h (.readPresets first count))

/-- READ_STATION_LIST (R172). -/
def execReadStationList (p : Port) (h : FrameHead) (first : Byte) (count : Half) (s : State) : Host.Outcome State Fault Refusal :=
  .next (s.arrive p h (.readStationList first count))

/-- RECALL_STATION (R167). -/
def execRecallStation (p : Port) (h : FrameHead) (index : Byte) (s : State) : Host.Outcome State Fault Refusal :=
  .next (s.arrive p h (.recallStation index))

/-- NOTIFY_ON (R204). -/
def execNotifyOn (p : Port) (h : FrameHead) (s : State) : Host.Outcome State Fault Refusal :=
  .next (s.arrive p h .notifyOn)

/-- NOTIFY_OFF (R204). -/
def execNotifyOff (p : Port) (h : FrameHead) (s : State) : Host.Outcome State Fault Refusal :=
  .next (s.arrive p h .notifyOff)

/-- SET_EVENT_ENABLE (R201). -/
def execSetEventEnable (p : Port) (h : FrameHead) (enable : Half) (s : State) : Host.Outcome State Fault Refusal :=
  .next (s.arrive p h (.setEventEnable enable))

/-- FETCH_EVENT (R202). -/
def execFetchEvent (p : Port) (h : FrameHead) (all : Byte) (s : State) : Host.Outcome State Fault Refusal :=
  .next (s.arrive p h (.fetchEvent all))

/-- PEEK_EVENTS (R203). -/
def execPeekEvents (p : Port) (h : FrameHead) (s : State) : Host.Outcome State Fault Refusal :=
  .next (s.arrive p h .peekEvents)

/-- RAISE_EVENT (R203). -/
def execRaiseEvent (p : Port) (h : FrameHead) (kind : Byte) (s : State) : Host.Outcome State Fault Refusal :=
  .next (s.arrive p h (.raiseEvent kind))

/-- READ_COMPLETION (R196). -/
def execReadCompletion (p : Port) (h : FrameHead) (s : State) : Host.Outcome State Fault Refusal :=
  .next (s.arrive p h .readCompletion)

/-- ABORT_OPERATION (R197). -/
def execAbortOperation (p : Port) (h : FrameHead) (slot : Byte) (s : State) : Host.Outcome State Fault Refusal :=
  .next (s.arrive p h (.abortOperation slot))

/-- READ_SLOTS (R198). -/
def execReadSlots (p : Port) (h : FrameHead) (count : Half) (s : State) : Host.Outcome State Fault Refusal :=
  .next (s.arrive p h (.readSlots count))

end Sys2Proof.Machine
end

