-- ==== Sys2Proof/Machine/Block.lean ====
section
/-! DEFINITION. BLOCK_START: the changes taken, the gains stepped, the samples of one block, and the reports that follow (R86 to R110, R123, R124). -/

namespace Sys2Proof.Machine

/-! ### Times that run down once a millisecond (log 3) -/

/-- One millisecond less, as far as 0. -/
def tick (t : Option Nat) : Option Nat := t.map (fun n => n - 1)

def ZoneRec.tick (r : ZoneRec) : ZoneRec :=
  { r with wakeTimer := Machine.tick r.wakeTimer, relayTimer := Machine.tick r.relayTimer }

def TunerRec.tick (t : TunerRec) : TunerRec :=
  { t with settle := Machine.tick t.settle
           seek := t.seek.map (fun k => { k with dwell := k.dwell - 1 })
           scan := t.scan.map (fun k => { k with dwell := k.dwell - 1 }) }

/-- Every remaining time is one millisecond less, and the minute divider one more, up to 60,000. -/
def State.countDown (s : State) : State :=
  let zones := Zone.all.foldl (fun s z => s.setZone z (s.zone z).tick) s
  let outs := allOutputs.foldl (fun s o =>
    s.setOut o { s.out o with relayOpenTimer := tick (s.out o).relayOpenTimer }) zones
  let ins := allDigital.foldl (fun s i =>
    s.setInput (digital i) { s.input (digital i) with timer := tick (s.input (digital i)).timer }) outs
  { ins with tuner := ins.tuner.tick, minute := { ins.minute with ms := min (ins.minute.ms + 1) 60000 } }

/-! ### Changes taken (R86 step 1) -/

/-- A role is GRANTED in a zone. -/
def State.roleGranted (s : State) (z : Zone) (r : Role) : Bool :=
  allOutputs.any (fun o => (s.out o).grantedTo z && (s.out o).role == some r)

/-- The pair state of a remote zone with its two roles (R51, R87). -/
def State.pairState (s : State) (z : Zone) (left right : Role) : PairState :=
  match s.roleGranted z left, s.roleGranted z right with
  | true, true => .both
  | true, false => .one left
  | false, true => .one right
  | false, false => .none

/-- Clear the line of an output, with what a move has copied of it (R105, R123). -/
def State.clearOutputLine (s : State) (o : Fin 13) : State :=
  match s.delay.segment o with
  | some g => s.setDelay ((s.delay.clearCopied g).clearLine g)
  | none => s

/-- At the block at which a switch-in is taken, the lines of the zone's GRANTED outputs are cleared
(R105). -/
def State.takeSwitchIn (s : State) (z : Zone) : State :=
  if (s.zone z).switchIn then
    ((s.grantedOutputs z).foldl State.clearOutputLine s).setZone z { s.zone z with switchIn := false }
  else s

/-- The routing of the block: source sets, speaker set, virtual set, fold matrix, downmix coefficients
and pair states from the records as they stand (R86, R87, R100). -/
def State.takeRouting (s : State) : State :=
  let set := s.speakerSet
  let src := s.sourceChannels .main
  let virtual := if (s.zone .main).power = .standby then [] else virtualChannels (s.zone .main).mode src set
  s.setMix { s.mix with
    speakerSet := set
    sourceSet := ⟨src, s.sourceChannels .z2, s.sourceChannels .z3⟩
    virtualSet := virtual
    foldMatrix := if (s.zone .main).power = .standby then none else some (buildMatrix set virtual)
    downmix := ⟨s.downmixCoefs .main, s.downmixCoefs .z2, s.downmixCoefs .z3⟩
    pair2 := s.pairState .z2 .z2l .z2r
    pair3 := s.pairState .z3 .z3l .z3r }

/-- Step 1 of a block start (R86). -/
def State.takeChanges (s : State) : State :=
  (Zone.all.foldl State.takeSwitchIn s).takeRouting

/-- Step 2 of a block start: targets, then one move of every current index (R86, R107, R108). -/
def State.stepGains (s : State) : State :=
  allOutputs.foldl (fun s o => s.setGain o (s.aim o).step) s

/-! ### Stage 1: source channels (R93) -/

/-- The samples that the tuner delivers for one channel of the pair (R152). -/
def State.tunerWave (s : State) (audio : BlockAudio) (right : Bool) : Wave :=
  if s.tuner.state = .idle then
    match s.tuner.band, s.tuner.blend with
    | .fm, .stereo => Wave.of (if right then audio.tunerRight else audio.tunerLeft)
    | .fm, .mono => meanWave (Wave.of audio.tunerLeft) (Wave.of audio.tunerRight)
    | .am, _ => Wave.of audio.tunerLeft
  else Wave.silent

/-- The samples that the outside brings for a channel of an input. -/
def inputWave (audio : BlockAudio) (i : Fin 12) (ch : Channel) : Wave :=
  match audio.inputs.find? (fun a => a.input == i && a.channel == ch) with
  | some a => Wave.of a.samples
  | none => Wave.silent

/-- The decoder delivers decoded samples, and not silence (R81). -/
def State.delivers (s : State) : Bool := s.decoder.state == .locked || s.decoder.state == .concealing

/-- The samples that the decoder delivers for a channel (R77, R81). One that has not come is a free
value (log 9). -/
def State.decodedWave (s : State) (ch : Channel) : Wave :=
  if s.delivers then
    (List.range blockLength).map (fun k =>
      (((s.decoder.fifo.getD ch.index [])[k]?).getD (Config.missingSample s.freeCount ch.index k)).toInt)
  else Wave.silent

/-- The samples of one source channel of a zone (R93). -/
def State.sourceWave (s : State) (audio : BlockAudio) (z : Zone) (ch : Channel) : Wave :=
  let r := s.zone z
  if r.power = .standby ∨ r.status ≠ .playing then Wave.silent
  else
    match r.live with
    | .tuner => s.tunerWave audio (ch == .fr)
    | .input i =>
      if (s.input i).state = .packed then
        if s.boundTo i then s.decodedWave ch else Wave.silent
      else inputWave audio i ch

/-- The source of a zone: its channel set as taken, with the samples (R93). -/
def State.source (s : State) (audio : BlockAudio) (z : Zone) : Sound :=
  (s.mix.sourceSet.get z).map (fun ch => (ch, s.sourceWave audio z ch))

/-! ### Stages 2 to 4: MAIN (R94 to R102) -/

/-- The virtual channels of MAIN with their samples (R94 to R96). -/
def State.virtualSound (s : State) (audio : BlockAudio) : Sound :=
  let src := s.source audio .main
  s.mix.virtualSet.map (fun ch =>
    (ch, virtualWave (s.zone .main).mode (s.mix.downmix.get .main) src ch))

/-- The speaker sum of a position (R99). -/
def State.speakerSum (s : State) (v : Sound) (p : Position) : Wave :=
  match (s.mix.foldMatrix.getD []).find? (fun row => row.position == p) with
  | some row => row.sum v
  | none => Wave.silent

/-- The place of a position among FL to HR. -/
def Position.filterIndex (p : Position) : Option (Fin 9) :=
  if h : p.index.val < 9 then some ⟨p.index.val, h⟩ else none

/-- The nine positions FL to HR. -/
def mainPositions : List Position := [.fl, .fr, .c, .sl, .sr, .bl, .br, .hl, .hr]

/-- A position is redirected (R101). -/
def State.redirected (s : State) (p : Position) : Bool :=
  s.mix.speakerSet.any Position.isSub && !p.isSub && s.mix.speakerSet.contains p &&
  (s.speaker p).size == .small

/-- Run a filter over the samples of a block; every output is saturated (R102). -/
def runFilter (f : FilterState → Int → FilterState × Int) (st : FilterState) (w : Wave) : FilterState × Wave :=
  let r := w.foldl (fun (a : FilterState × Wave) x => ((f a.1 x).1, saturate (f a.1 x).2 :: a.2)) (st, [])
  (r.1, r.2.reverse)

/-- The filters of a position after a block, and what they give (R101, R102): the samples after the
high-pass and after the low-pass. -/
structure Redirect where
  position : Position
  filters : FilterPair
  high : Wave
  low : Wave

/-- Run both filters of a redirected position on its speaker sum; one that was not redirected in the
block before starts from zero (R101). -/
def State.redirect (s : State) (v : Sound) (p : Position) (k : Fin 9) : Redirect :=
  let old := s.mix.filters[k]
  let start := if old.redirected then old else FilterPair.zero
  let hz := s.mix.crossover.toNat
  let h := runFilter (Config.highPass hz) start.highPass (s.speakerSum v p)
  let l := runFilter (Config.lowPass hz) start.lowPass (s.speakerSum v p)
  { position := p, filters := { highPass := h.1, lowPass := l.1, redirected := true },
    high := h.2, low := l.2 }

/-- Every redirected position (R101). -/
def State.redirects (s : State) (v : Sound) : List Redirect :=
  (mainPositions.filter s.redirected).filterMap (fun p => p.filterIndex.map (s.redirect v p))

/-- The filters after the block; those of a position that is not redirected keep their states
(R101). -/
def State.takeFilters (s : State) (rs : List Redirect) : State :=
  mainPositions.foldl (fun s p =>
    match p.filterIndex with
    | none => s
    | some k =>
      let f := match rs.find? (fun r => r.position == p) with
        | some r => r.filters
        | none => { s.mix.filters[k] with redirected := false }
      s.setMix { s.mix with filters := s.mix.filters.set k f }) s

/-- Add samples and saturate once (R102). -/
def addWaves (ws : List Wave) : Wave :=
  (List.range blockLength).map (fun k => saturate (ws.foldl (fun a w => a + w.getD k 0) 0))

/-- The sample of a position that stage 4 gives (R101, R102). -/
def State.positionWave (s : State) (v : Sound) (rs : List Redirect) (p : Position) : Wave :=
  if p.isSub then addWaves (s.speakerSum v p :: rs.map (·.low))
  else
    match rs.find? (fun r => r.position == p) with
    | some r => r.high
    | none => s.speakerSum v p

/-! ### Stage 6 and what is written for an output (R104, R105) -/

/-- The left and right roles of the remote zones. -/
def Role.isLeft : Role → Bool
  | .z2l | .z3l => true
  | _ => false

/-- The pair state of a remote zone as taken. -/
def State.pairOf (s : State) (z : Zone) : PairState :=
  match z with
  | .z3 => s.mix.pair3
  | _ => s.mix.pair2

/-- What is written for a remote output GRANTED in a role (R104). -/
def State.remoteWave (s : State) (audio : BlockAudio) (z : Zone) (r : Role) : Wave :=
  let lr := downmix (s.mix.downmix.get z) (s.source audio z)
  match s.pairOf z with
  | .one _ => meanWave lr.1 lr.2
  | _ => if r.isLeft then lr.1 else lr.2

/-- What is written for a remote output in RAMP_DOWN (R104). -/
def State.leavingWave (s : State) (audio : BlockAudio) (z : Zone) (r : Role) : Wave :=
  let lr := downmix (s.mix.downmix.get z) (s.source audio z)
  if r.isLeft then lr.1 else lr.2

/-- The samples written for an output, if it is written (R104, R105). An output GRANTED to MAIN whose
position is not in the speaker set is written silence (log 26), and so is a subwoofer in RAMP_DOWN
(log 16). -/
def State.writtenWave (s : State) (audio : BlockAudio) (v : Sound) (rs : List Redirect) (o : Fin 13) :
    Option Wave :=
  let r := s.out o
  match r.state, r.phase, r.zone, r.role with
  | .granted, _, some .main, some (.pos p) =>
    some (if s.mix.speakerSet.contains p then s.positionWave v rs p else Wave.silent)
  | .granted, _, some z, some role => some (s.remoteWave audio z role)
  | .handover, some .rampDown, some .main, some (.pos p) =>
    some (match Position.channel p with
      | some ch => v.get ch
      | none => Wave.silent)
  | .handover, some .rampDown, some z, some role => some (s.leavingWave audio z role)
  | _, _, _, _ => none

/-! ### Stage 5 and the lines (R105, R110, R123) -/

/-- The output's polarity is INVERTED (R104, R110): remote outputs are always NORMAL. -/
def State.isInverted (s : State) (o : Fin 13) : Bool :=
  match (s.out o).zone, (s.out o).role with
  | some .main, some (.pos p) => (s.speaker p).inverted
  | _, _ => false

/-- Put samples on the lane of an output. -/
def State.setLane (s : State) (o : Fin 13) (xs : List Sample) : State :=
  s.setMix { s.mix with lanes := s.mix.lanes.set o xs }

/-- The words of a segment's run. -/
def Segment.words (g : Segment) : Nat := g.count * pageWords

/-- The place of the write position in the ring. -/
def Segment.place (g : Segment) : Nat := g.writePos - g.base * pageWords

/-- The DRAM after the 48 samples of a block have been written (R123). -/
def State.writeBlock (s : State) (g : Segment) (w : Wave) : State :=
  s.setDelay { s.delay with
    dram := Dram.writeRing s.delay.dram (g.base * pageWords) g.words g.place (w.map toSample) }

/-- The 48 samples written T samples before those of this block (R105, R123). -/
def State.readBlock (s : State) (g : Segment) : List Sample :=
  Dram.readRing s.delay.dram (g.base * pageWords) g.words (ringBack g.words g.place g.delay) blockLength

/-- The write position moves on by 48 around the ring (R123). -/
def Segment.advance (g : Segment) : Segment :=
  { g with writePos := g.base * pageWords + (g.place + blockLength) % g.words }

/-- Write a block for an output, read it T samples later, and put it on the lane with gain and
polarity (R105, R110, R123). -/
def State.playOutput (s : State) (o : Fin 13) (g : Segment) (w : Wave) : State :=
  let s1 := s.writeBlock g w
  let word := gainWord (s1.gain o).current
  let xs := (s1.readBlock g).map (fun x => outputSample word (s.isInverted o) x.toInt)
  (s1.setDelay (s1.delay.setSegment o g.advance)).setLane o xs

/-- The lane of an output in one block (R105, R124). -/
def State.renderOutput (s : State) (o : Fin 13) (w : Option Wave) : State :=
  match s.delay.segment o, w with
  | some g, some w => if g.copying then s.silenceLane o else s.playOutput o g w
  | _, _ => s.silenceLane o

/-- Step 3 of a block start: the samples of every output (R86). -/
def State.renderBlock (s : State) (audio : BlockAudio) : State :=
  let v := s.virtualSound audio
  let rs := s.redirects v
  (allOutputs.map (fun o => (o, s.writtenWave audio v rs o))).foldl
    (fun s ow => s.renderOutput ow.1 ow.2) (s.takeFilters rs)

/-- The block finds too few decoded samples. -/
def State.misses (s : State) : Bool :=
  s.delivers && (s.decoder.fifo.isEmpty || s.decoder.fifo.any (fun xs => decide (xs.length < blockLength)))

/-- The decoded samples of the block leave the delivery queue; a block that missed samples used one
free value (log 9). -/
def State.popQueue (s : State) : State :=
  let rest := s.decoder.fifo.map (fun xs => xs.drop blockLength)
  { s with
    freeCount := if s.misses then s.freeCount + 1 else s.freeCount
    decoder := { s.decoder with fifo := if rest.all (fun xs => xs.isEmpty) then [] else rest } }

/-! ### The reports of the block (R86, R8, R13, R45, R128, R134; log 13) -/

/-- The switch-in of a source switch (R13). -/
def State.switchIn (s : State) (z : Zone) (w : Source) : State :=
  (((s.setZone z { s.zone z with live := w, waiting := none, switchIn := true }).raiseZone z).refreshStatus
    z).reportZones

/-- The Zone Controller takes the report: the switch-in of an ON zone, the end of the ramp stage of a
QUIETING one (R8, R13). -/
def State.reportToZone (s : State) (z : Zone) : State :=
  match (s.zone z).power, (s.zone z).waiting with
  | .on, some w => if s.zoneSilent z then s.switchIn z w else s
  | .quieting, _ => s.endSilentRamp z
  | _, _ => s

/-- The Output Channel Unit takes the report: RAMP_DOWN ends, the relay opens (R45). -/
def State.reportToOutput (s : State) (o : Fin 13) : State :=
  let r := s.out o
  if r.state = .handover ∧ r.phase = some .rampDown ∧ (s.gain o).current = -161 then
    s.setOut o { r with phase := some .relayOpen, relay := false, relayOpenTimer := some 20 }
  else s

/-- A pending change is applied; a retry pass follows a SHRINK or RELOCATE while no compaction runs
(R128). -/
def State.applyHeld (s : State) (o : Fin 13) : State :=
  let r := s.delay.applyChange o
  let s1 := s.setDelay r.1
  if r.2 && s1.delay.compaction.isNone then s1.retryPass else s1

/-- A move in RAMP goes on to COPY (R134). -/
def State.startCopy (s : State) (o : Fin 13) : State :=
  match s.delay.segment o with
  | some g =>
    match g.move with
    | some m =>
      if m.stage = .ramp then
        s.setDelay (s.delay.setSegment o { g with move := some { m with stage := .copy } })
      else s
    | none => s
  | none => s

/-- The Delay Memory Controller takes the report for an output (R128, R134). -/
def State.reportToDelay (s : State) (o : Fin 13) : State :=
  if (s.gain o).current = -161 then (s.applyHeld o).startCopy o else s

/-- The reports that follow step 2 (R86); what they cause reaches the Mix Engine at the next block
start. -/
def State.reportBlock (s : State) : State :=
  allOutputs.foldl State.reportToDelay
    (allOutputs.foldl State.reportToOutput (Zone.all.foldl State.reportToZone s))

/-- A block start, for a segment table that stays within the DRAM (R86). -/
def State.runBlock (s : State) (audio : BlockAudio) : State :=
  (((s.countDown.takeChanges).stepGains).renderBlock audio).popQueue.reportBlock

end Sys2Proof.Machine
end

