-- ==== Sys2Proof/Machine/Events.lean ====
section
/-! DEFINITION. The meanings of the commands that are no port commands: resets, transactions, the ports' own steps, timed ends and outside events. -/

namespace Sys2Proof.Machine

/-- POWER_ON (R191). -/
def execPowerOn (s : State) : Host.Outcome State Fault Refusal :=
  .next s.powerOn

/-- PORT_RESET (R191). -/
def execPortReset (p : Port) (s : State) : Host.Outcome State Fault Refusal :=
  .next (s.portResets p)

/-- RESPONSE_TRANSACTION: the kind byte, then `clocked` bytes more; what the master sends in them is
ignored (R174, R177). -/
def execResponseTransaction (p : Port) (clocked : Nat) (s : State) : Host.Outcome State Fault Refusal :=
  .next (s.transact p (kindResponse :: List.replicate clocked 0))

/-- COMMAND_FRAME_REFUSED (R178). -/
def execCommandFrameRefused (p : Port) (bytes : List Byte) (s : State) : Host.Outcome State Fault Refusal :=
  .next (s.transact p (kindCommand :: bytes))

/-- QUEUE_HEAD_TAKEN (R181). -/
def execQueueHeadTaken (p : Port) (s : State) : Host.Outcome State Fault Refusal :=
  .next (s.takeHead p)

/-- CHAIN_MEMBER_DISCARDED (R183). -/
def execChainMemberDiscarded (p : Port) (s : State) : Host.Outcome State Fault Refusal :=
  .next (s.discardHead p)

/-- DONE_WAITING_POST (R196). -/
def execDoneWaitingPost (p : Port) (s : State) : Host.Outcome State Fault Refusal :=
  .next (s.postWaiting p)

/-- WAKE_COMPLETION (R6). -/
def execWakeCompletion (z : Zone) (s : State) : Host.Outcome State Fault Refusal :=
  .next (s.completeWake z)

/-- RELAY_STAGE_END (R8). -/
def execRelayStageEnd (z : Zone) (s : State) : Host.Outcome State Fault Refusal :=
  .next (s.endRelayStage z)

/-- MINUTE_EVENT (R21). -/
def execMinuteEvent (s : State) : Host.Outcome State Fault Refusal :=
  .next s.minuteEvent

/-- SLEEP_TIMER_EXPIRY (R21). -/
def execSleepTimerExpiry (z : Zone) (s : State) : Host.Outcome State Fault Refusal :=
  .next (s.sleepExpiry z)

/-- RELAY_OPEN_EXPIRY (R45). -/
def execRelayOpenExpiry (o : Fin 13) (s : State) : Host.Outcome State Fault Refusal :=
  .next (s.relayOpenExpires o)

/-- FAULT_LINE_ARRIVAL (R56). -/
def execFaultLineArrival (n : Fin 11) (s : State) : Host.Outcome State Fault Refusal :=
  .next (s.fltPinActive n)

/-- FAULT_LINE_DEPARTURE (R54). -/
def execFaultLineDeparture (n : Fin 11) (s : State) : Host.Outcome State Fault Refusal :=
  .next (s.fltPinInactive n)

/-- THW_ARRIVAL (R58). -/
def execThwArrival (s : State) : Host.Outcome State Fault Refusal :=
  .next s.thwPinActive

/-- THW_DEPARTURE (R58). -/
def execThwDeparture (s : State) : Host.Outcome State Fault Refusal :=
  .next s.thwPinInactive

/-- THT_ARRIVAL (R58). -/
def execThtArrival (s : State) : Host.Outcome State Fault Refusal :=
  .next s.thtPinActive

/-- THT_DEPARTURE (R54). -/
def execThtDeparture (s : State) : Host.Outcome State Fault Refusal :=
  .next s.thtPinInactive

/-- SIGNAL_ARRIVAL (R63). -/
def execSignalArrival (i : Fin 8) (d : Descriptor) (s : State) : Host.Outcome State Fault Refusal :=
  .next (s.signalArrives i d)

/-- SIGNAL_LOSS (R63). -/
def execSignalLoss (i : Fin 8) (s : State) : Host.Outcome State Fault Refusal :=
  .next (s.signalLost i)

/-- DESCRIPTOR_CHANGE (R63). -/
def execDescriptorChange (i : Fin 8) (d : Descriptor) (s : State) : Host.Outcome State Fault Refusal :=
  .next (s.descriptorChanges i d)

/-- LOCK_TIMER_EXPIRY (R63). -/
def execLockTimerExpiry (i : Fin 8) (s : State) : Host.Outcome State Fault Refusal :=
  .next (s.lockTimerEnds i)

/-- FRAME_FOUND_SEARCHING (R77). -/
def execFrameFoundSearching (bytes : List Byte) (s : State) : Host.Outcome State Fault Refusal :=
  .next (s.searchFrame bytes)

/-- FRAME_TAKEN_LOCKED (R78). -/
def execFrameTakenLocked (bytes : List Byte) (s : State) : Host.Outcome State Fault Refusal :=
  .next (s.takeFrame bytes)

/-- BLOCK_START (R86). -/
def execBlockStart (audio : BlockAudio) (s : State) : Host.Outcome State Fault Refusal :=
  if s.delay.inDram then .next (s.runBlock audio) else .fault .outsideDram

/-- CHECK_SEQUENCE_END (R116). -/
def execCheckSequenceEnd (s : State) : Host.Outcome State Fault Refusal :=
  .next s.checkSequenceEnds

/-- QUICK_ROW_TEST_END (R116). -/
def execQuickRowTestEnd (pass : Bool) (s : State) : Host.Outcome State Fault Refusal :=
  .next (s.quickRowEnds pass)

/-- FULL_ROW_TEST_END (R117). -/
def execFullRowTestEnd (pass : Bool) (s : State) : Host.Outcome State Fault Refusal :=
  .next (s.fullRowEnds pass)

/-- PAGE_COPY (R134). -/
def execPageCopy (s : State) : Host.Outcome State Fault Refusal :=
  if s.delay.inDram then .next s.pageCopies else .fault .outsideDram

/-- SETTLE_EXPIRY (R143). -/
def execSettleExpiry (quality : Fin 101) (s : State) : Host.Outcome State Fault Refusal :=
  .next (s.settleEnds quality.val)

/-- SEEK_DWELL_EXPIRY (R149). -/
def execSeekDwellExpiry (quality : Fin 101) (s : State) : Host.Outcome State Fault Refusal :=
  .next (s.seekDwellEnds quality.val)

/-- SCAN_DWELL_EXPIRY (R162). -/
def execScanDwellExpiry (quality : Fin 101) (s : State) : Host.Outcome State Fault Refusal :=
  .next (s.scanDwellEnds quality.val)

/-- QUALITY_REPORT (R151). -/
def execQualityReport (quality : Fin 101) (s : State) : Host.Outcome State Fault Refusal :=
  .next (s.qualityReported quality.val)

/-- LABEL_SEGMENT (R153). -/
def execLabelSegment (index : Fin 4) (version : Bool) (first second : Byte) (s : State) : Host.Outcome State Fault Refusal :=
  .next (s.segmentArrives index version first second)

/-- PORT_RESET_RELEASE (R174). -/
def execPortResetRelease (p : Port) (s : State) : Host.Outcome State Fault Refusal :=
  .next (s.portReleased p)

end Sys2Proof.Machine
end

