-- ==== Sys2Proof/Machine/Dispatch.lean ====
section
/-! DEFINITION. The dispatch: one arm for each constructor of Instr, each one call of its meaning. -/

namespace Sys2Proof.Machine

def exec (i : Instr) (s : State) : Host.Outcome State Fault Refusal :=
  match i with
  | .powerOn => Sys2Proof.Machine.execPowerOn s
  | .portReset p => Sys2Proof.Machine.execPortReset p s
  | .responseTransaction p clocked => Sys2Proof.Machine.execResponseTransaction p clocked s
  | .commandFrameRefused p bytes => Sys2Proof.Machine.execCommandFrameRefused p bytes s
  | .noOperation p h => Sys2Proof.Machine.execNoOperation p h s
  | .identify p h count => Sys2Proof.Machine.execIdentify p h count s
  | .readDetail p h => Sys2Proof.Machine.execReadDetail p h s
  | .resetPart p h => Sys2Proof.Machine.execResetPart p h s
  | .zoneOn p h zone => Sys2Proof.Machine.execZoneOn p h zone s
  | .zoneStandby p h zone => Sys2Proof.Machine.execZoneStandby p h zone s
  | .selectSource p h zone source => Sys2Proof.Machine.execSelectSource p h zone source s
  | .setVolume p h zone index => Sys2Proof.Machine.execSetVolume p h zone index s
  | .stepVolume p h zone step => Sys2Proof.Machine.execStepVolume p h zone step s
  | .setMute p h zone mute => Sys2Proof.Machine.execSetMute p h zone mute s
  | .setMaxVolume p h zone index => Sys2Proof.Machine.execSetMaxVolume p h zone index s
  | .setLipSync p h zone ms => Sys2Proof.Machine.execSetLipSync p h zone ms s
  | .setSurroundMode p h zone mode => Sys2Proof.Machine.execSetSurroundMode p h zone mode s
  | .setSleepTimer p h zone minutes => Sys2Proof.Machine.execSetSleepTimer p h zone minutes s
  | .readZone p h zone count => Sys2Proof.Machine.execReadZone p h zone count s
  | .pushOverride p h zone source index => Sys2Proof.Machine.execPushOverride p h zone source index s
  | .popOverride p h zone => Sys2Proof.Machine.execPopOverride p h zone s
  | .readOverrideStack p h zone count => Sys2Proof.Machine.execReadOverrideStack p h zone count s
  | .setAssignment p h output mainRole remoteRole priority => Sys2Proof.Machine.execSetAssignment p h output mainRole remoteRole priority s
  | .readAssignment p h count => Sys2Proof.Machine.execReadAssignment p h count s
  | .setProtectionLevels p h fault thw tht => Sys2Proof.Machine.execSetProtectionLevels p h fault thw tht s
  | .readProtection p h count => Sys2Proof.Machine.execReadProtection p h count s
  | .clearFault p h name => Sys2Proof.Machine.execClearFault p h name s
  | .readInput p h input count => Sys2Proof.Machine.execReadInput p h input count s
  | .readDecoder p h clear count => Sys2Proof.Machine.execReadDecoder p h clear count s
  | .setSpeaker p h position size distance trim polarity => Sys2Proof.Machine.execSetSpeaker p h position size distance trim polarity s
  | .setCrossover p h hz => Sys2Proof.Machine.execSetCrossover p h hz s
  | .readSpeakers p h count => Sys2Proof.Machine.execReadSpeakers p h count s
  | .memoryStart p h level => Sys2Proof.Machine.execMemoryStart p h level s
  | .compactDelayMemory p h => Sys2Proof.Machine.execCompactDelayMemory p h s
  | .readSegmentTable p h count => Sys2Proof.Machine.execReadSegmentTable p h count s
  | .tune p h band frequency => Sys2Proof.Machine.execTune p h band frequency s
  | .stepTune p h direction => Sys2Proof.Machine.execStepTune p h direction s
  | .seek p h direction => Sys2Proof.Machine.execSeek p h direction s
  | .scan p h band => Sys2Proof.Machine.execScan p h band s
  | .setSeekThreshold p h threshold => Sys2Proof.Machine.execSetSeekThreshold p h threshold s
  | .setRegion p h region => Sys2Proof.Machine.execSetRegion p h region s
  | .readTuner p h count => Sys2Proof.Machine.execReadTuner p h count s
  | .storePreset p h preset => Sys2Proof.Machine.execStorePreset p h preset s
  | .recallPreset p h preset => Sys2Proof.Machine.execRecallPreset p h preset s
  | .clearPreset p h preset => Sys2Proof.Machine.execClearPreset p h preset s
  | .readPresets p h first count => Sys2Proof.Machine.execReadPresets p h first count s
  | .readStationList p h first count => Sys2Proof.Machine.execReadStationList p h first count s
  | .recallStation p h index => Sys2Proof.Machine.execRecallStation p h index s
  | .notifyOn p h => Sys2Proof.Machine.execNotifyOn p h s
  | .notifyOff p h => Sys2Proof.Machine.execNotifyOff p h s
  | .setEventEnable p h enable => Sys2Proof.Machine.execSetEventEnable p h enable s
  | .fetchEvent p h all => Sys2Proof.Machine.execFetchEvent p h all s
  | .peekEvents p h => Sys2Proof.Machine.execPeekEvents p h s
  | .raiseEvent p h kind => Sys2Proof.Machine.execRaiseEvent p h kind s
  | .readCompletion p h => Sys2Proof.Machine.execReadCompletion p h s
  | .abortOperation p h slot => Sys2Proof.Machine.execAbortOperation p h slot s
  | .readSlots p h count => Sys2Proof.Machine.execReadSlots p h count s
  | .queueHeadTaken p => Sys2Proof.Machine.execQueueHeadTaken p s
  | .chainMemberDiscarded p => Sys2Proof.Machine.execChainMemberDiscarded p s
  | .doneWaitingPost p => Sys2Proof.Machine.execDoneWaitingPost p s
  | .wakeCompletion z => Sys2Proof.Machine.execWakeCompletion z s
  | .relayStageEnd z => Sys2Proof.Machine.execRelayStageEnd z s
  | .minuteEvent => Sys2Proof.Machine.execMinuteEvent s
  | .sleepTimerExpiry z => Sys2Proof.Machine.execSleepTimerExpiry z s
  | .relayOpenExpiry o => Sys2Proof.Machine.execRelayOpenExpiry o s
  | .faultLineArrival n => Sys2Proof.Machine.execFaultLineArrival n s
  | .faultLineDeparture n => Sys2Proof.Machine.execFaultLineDeparture n s
  | .thwArrival => Sys2Proof.Machine.execThwArrival s
  | .thwDeparture => Sys2Proof.Machine.execThwDeparture s
  | .thtArrival => Sys2Proof.Machine.execThtArrival s
  | .thtDeparture => Sys2Proof.Machine.execThtDeparture s
  | .signalArrival input d => Sys2Proof.Machine.execSignalArrival input d s
  | .signalLoss input => Sys2Proof.Machine.execSignalLoss input s
  | .descriptorChange input d => Sys2Proof.Machine.execDescriptorChange input d s
  | .lockTimerExpiry input => Sys2Proof.Machine.execLockTimerExpiry input s
  | .frameFoundSearching bytes => Sys2Proof.Machine.execFrameFoundSearching bytes s
  | .frameTakenLocked bytes => Sys2Proof.Machine.execFrameTakenLocked bytes s
  | .blockStart audio => Sys2Proof.Machine.execBlockStart audio s
  | .checkSequenceEnd => Sys2Proof.Machine.execCheckSequenceEnd s
  | .quickRowTestEnd pass => Sys2Proof.Machine.execQuickRowTestEnd pass s
  | .fullRowTestEnd pass => Sys2Proof.Machine.execFullRowTestEnd pass s
  | .pageCopy => Sys2Proof.Machine.execPageCopy s
  | .settleExpiry quality => Sys2Proof.Machine.execSettleExpiry quality s
  | .seekDwellExpiry quality => Sys2Proof.Machine.execSeekDwellExpiry quality s
  | .scanDwellExpiry quality => Sys2Proof.Machine.execScanDwellExpiry quality s
  | .qualityReport quality => Sys2Proof.Machine.execQualityReport quality s
  | .labelSegment index version first second => Sys2Proof.Machine.execLabelSegment index version first second s
  | .portResetRelease p => Sys2Proof.Machine.execPortResetRelease p s

end Sys2Proof.Machine
end

