-- ==== Sys2Proof/WellFormed.lean ====
section
/-! DEFINITION. Well-formed commands: what a command's operands must be like for it to be an arrival the part can meet. -/

namespace Sys2Proof

/-- A list holds the 48 samples of a block (R86). -/
def fullBlock (xs : List Sample) : Bool := decide (xs.length = 48)

/-- No channel of an input is given twice. -/
def distinctAudio : List InputAudio → Bool
  | [] => true
  | a :: rest => !(rest.any (fun b => b.input == a.input && b.channel == a.channel)) && distinctAudio rest

/-- The audio of a block is well formed: 48 samples of everything, no channel twice. -/
def BlockAudio.wf (a : BlockAudio) : Bool :=
  a.inputs.all (fun c => fullBlock c.samples) && distinctAudio a.inputs &&
  fullBlock a.tunerLeft && fullBlock a.tunerRight

/-- The length of a frame that test 1 of R178 admits. -/
def FrameHead.wf (h : FrameHead) : Bool := decide (4 ≤ h.length) && decide (h.length ≤ 64)

/-- The head of a port command. -/
def Instr.head : Instr → Option FrameHead
  | .powerOn => none
  | .portReset _ => none
  | .responseTransaction _ _ => none
  | .commandFrameRefused _ _ => none
  | .noOperation _ h => some h
  | .identify _ h _ => some h
  | .readDetail _ h => some h
  | .resetPart _ h => some h
  | .zoneOn _ h _ => some h
  | .zoneStandby _ h _ => some h
  | .selectSource _ h _ _ => some h
  | .setVolume _ h _ _ => some h
  | .stepVolume _ h _ _ => some h
  | .setMute _ h _ _ => some h
  | .setMaxVolume _ h _ _ => some h
  | .setLipSync _ h _ _ => some h
  | .setSurroundMode _ h _ _ => some h
  | .setSleepTimer _ h _ _ => some h
  | .readZone _ h _ _ => some h
  | .pushOverride _ h _ _ _ => some h
  | .popOverride _ h _ => some h
  | .readOverrideStack _ h _ _ => some h
  | .setAssignment _ h _ _ _ _ => some h
  | .readAssignment _ h _ => some h
  | .setProtectionLevels _ h _ _ _ => some h
  | .readProtection _ h _ => some h
  | .clearFault _ h _ => some h
  | .readInput _ h _ _ => some h
  | .readDecoder _ h _ _ => some h
  | .setSpeaker _ h _ _ _ _ _ => some h
  | .setCrossover _ h _ => some h
  | .readSpeakers _ h _ => some h
  | .memoryStart _ h _ => some h
  | .compactDelayMemory _ h => some h
  | .readSegmentTable _ h _ => some h
  | .tune _ h _ _ => some h
  | .stepTune _ h _ => some h
  | .seek _ h _ => some h
  | .scan _ h _ => some h
  | .setSeekThreshold _ h _ => some h
  | .setRegion _ h _ => some h
  | .readTuner _ h _ => some h
  | .storePreset _ h _ => some h
  | .recallPreset _ h _ => some h
  | .clearPreset _ h _ => some h
  | .readPresets _ h _ _ => some h
  | .readStationList _ h _ _ => some h
  | .recallStation _ h _ => some h
  | .notifyOn _ h => some h
  | .notifyOff _ h => some h
  | .setEventEnable _ h _ => some h
  | .fetchEvent _ h _ => some h
  | .peekEvents _ h => some h
  | .raiseEvent _ h _ => some h
  | .readCompletion _ h => some h
  | .abortOperation _ h _ => some h
  | .readSlots _ h _ => some h
  | .queueHeadTaken _ => none
  | .chainMemberDiscarded _ => none
  | .doneWaitingPost _ => none
  | .wakeCompletion _ => none
  | .relayStageEnd _ => none
  | .minuteEvent => none
  | .sleepTimerExpiry _ => none
  | .relayOpenExpiry _ => none
  | .faultLineArrival _ => none
  | .faultLineDeparture _ => none
  | .thwArrival => none
  | .thwDeparture => none
  | .thtArrival => none
  | .thtDeparture => none
  | .signalArrival _ _ => none
  | .signalLoss _ => none
  | .descriptorChange _ _ => none
  | .lockTimerExpiry _ => none
  | .frameFoundSearching _ => none
  | .frameTakenLocked _ => none
  | .blockStart _ => none
  | .checkSequenceEnd => none
  | .quickRowTestEnd _ => none
  | .fullRowTestEnd _ => none
  | .pageCopy => none
  | .settleExpiry _ => none
  | .seekDwellExpiry _ => none
  | .scanDwellExpiry _ => none
  | .qualityReport _ => none
  | .labelSegment _ _ _ _ => none
  | .portResetRelease _ => none

/-- A command is well formed. A frame's length need not be its command's own: R178 and R180 say what
the part answers then. -/
def Instr.wf (i : Instr) : Bool :=
  (match i.head with
    | some h => h.wf
    | none => true) &&
  (match i with
    | .blockStart audio => audio.wf
    | _ => true)

/-- A frame as its bytes encode it (sections 11.2 and 11.4): its length is the command's own and its
flags hold no reserved bit. -/
def frameWf (h : FrameHead) (c : Cmd) : Bool :=
  decide (h.length = c.ownLength) && decide (h.flags.toNat < 2)

end Sys2Proof
end

