-- ==== Sys2Proof/Safety.lean ====
section
/-! DEFINITION. The terms that statements about the part are made in: frames, commands taken at once, answers, and invariants. -/

namespace Sys2Proof.Machine

/-! ### Frames -/

/-- The parts that State is made of. -/
inductive Part where
  | zones | minute | outputs | inputs | decoder | mix | delay | tuner | slots | ports | freeCount | pending
deriving DecidableEq, Repr

/-- Two states have a part in common. -/
def Part.same (s t : State) : Part → Prop
  | .zones => t.zones = s.zones
  | .minute => t.minute = s.minute
  | .outputs => t.outputs = s.outputs
  | .inputs => t.inputs = s.inputs
  | .decoder => t.decoder = s.decoder
  | .mix => t.mix = s.mix
  | .delay => t.delay = s.delay
  | .tuner => t.tuner = s.tuner
  | .slots => t.slots = s.slots
  | .ports => t.ports = s.ports
  | .freeCount => t.freeCount = s.freeCount
  | .pending => t.pending = s.pending

/-- Nothing but the listed parts has changed. -/
def onlyChanges (parts : List Part) (s t : State) : Prop := ∀ q, q ∉ parts → q.same s t

/-- A port on which nothing happened but raisings of events (R200). -/
def PortRec.raisedFrom (r u : PortRec) : Prop :=
  u = { r with events := u.events } ∧ u.events.enable = r.events.enable ∧
  u.events.notifyEnable = r.events.notifyEnable ∧ u.events.notifyOnPending = r.events.notifyOnPending ∧
  ∀ k, (r.events.kind k).pending = true → (u.events.kind k).pending = true

/-- On every port nothing happened but raisings of events. -/
def portsRaised (s t : State) : Prop := ∀ q, (s.port q).raisedFrom (t.port q)

/-- A kind is pending on every port, and its detail on every port has the bits of `d` (R200). -/
def reported (t : State) (k : EventKind) (d : EventDetail) : Prop :=
  ∀ q, ((t.port q).events.kind k).pending = true ∧
    ((t.port q).events.kind k).detail.merge d = ((t.port q).events.kind k).detail

/-- ZONE is pending on every port with the bit of a zone (R3). -/
def zoneReported (t : State) (z : Zone) : Prop := reported t .zone { EventDetail.zero with zones := z.bit }

/-- A zone record is the same but for its derived source status (R2). -/
def ZoneRec.sameButStatus (r u : ZoneRec) : Prop := u = { r with status := u.status }

/-! ### Commands taken at once -/

/-- An ordinary command with LINK clear that its port takes on arrival: PRST is released, attention is
CLEAR, no chain runs, nothing waits, and the frame length is the command's own (R178 to R180). -/
def takenAtOnce (s : State) (p : Port) (h : FrameHead) (c : Cmd) : Prop :=
  (s.port p).prst = false ∧ (s.port p).attention = none ∧ (s.port p).chain = .none ∧
  (s.port p).inbound = [] ∧ h.length = c.ownLength ∧ h.flags = 0

/-- A service command that its port takes (R178): PRST is released, attention is CLEAR, and the frame
length is the command's own. The chain and the inbound queue do not matter. -/
def serviceTaken (s : State) (p : Port) (h : FrameHead) (c : Cmd) : Prop :=
  (s.port p).prst = false ∧ (s.port p).attention = none ∧ h.length = c.ownLength ∧ h.flags = 0

/-- A command that its port takes when its frame arrives, and executes as no chain member. -/
def taken (s : State) (p : Port) (h : FrameHead) (c : Cmd) : Prop :=
  if c.isService then serviceTaken s p h c else takenAtOnce s p h c

/-- The context of an unlinked command. -/
def unlinked (p : Port) (h : FrameHead) : Ctx := { port := p, tag := h.tag, mark := .none }

/-- The record of a port after it has answered a command: the answer is the last response (R177), a
refusal or a length mismatch has written the detail record (R186), 0xFF was driven for every byte of
the frame (R174), and a notify-on-pending flag has taken effect (R204). What R186 does not state of the detail
record of BAD_PARAMETER, DONE_SHORT and DONE_TRUNCATED is the model's choice (log 41). -/
def PortRec.answered (r : PortRec) (h : FrameHead) (c : Cmd) (a : Answer) : PortRec :=
  { r with
    response := some { status := a.status, tag := h.tag, code := c.code, slot := a.slot, data := a.data }
    detail :=
      if a.status.writesDetail then
        some { status := a.status, code := c.code, tag := h.tag, param := a.param, residue := a.residue,
               reason := .none }
      else r.detail
    dataOut := List.replicate h.length 0xFF
    events := { r.events with
      notifyEnable := r.events.notifyEnable || r.events.notifyOnPending
      notifyOnPending := false } }

/-- A state in which port `p` has answered a command besides. -/
def State.closed (u : State) (p : Port) (h : FrameHead) (c : Cmd) (a : Answer) : State :=
  u.setPort p ((u.port p).answered h c a)

/-- Port `p` has answered a command, the ports having met nothing else but raisings of events. -/
def onlyReplied (s t : State) (p : Port) (h : FrameHead) (c : Cmd) (a : Answer) : Prop :=
  ∃ u : State, portsRaised s u ∧ t.port p = (u.port p).answered h c a ∧ ∀ q, q ≠ p → t.port q = u.port q

/-- A state in which port `p` has refused a frame of `n` bytes (R178, R186): the refusal is the last
response, the detail record is written, and attention is `attention`. -/
def State.refusedFrame (s : State) (p : Port) (n : Nat) (tag code : Byte) (st : Status) (param : Byte)
    (residue : Half) (why : DetailReason) (attention : Option DetailReason) : State :=
  s.setPort p { s.port p with
    attention := attention
    response := some { status := st, tag := tag, code := code, slot := none, data := [] }
    detail := some { status := st, code := code, tag := tag, param := param, residue := residue, reason := why }
    dataOut := List.replicate n 0xFF
    events := { (s.port p).events with
      notifyEnable := (s.port p).events.notifyEnable || (s.port p).events.notifyOnPending
      notifyOnPending := false } }

/-- Test 1 of R178 on the bytes of a frame. -/
def frameLengthOk (bytes : List Byte) : Prop :=
  4 ≤ bytes.length ∧ 4 ≤ (byteAt bytes 0).toNat ∧ (byteAt bytes 0).toNat ≤ 64 ∧
  (byteAt bytes 0).toNat = bytes.length

/-- A port ready for an ordinary command with no reserved flag, whatever its chain and queue hold:
PRST is released, attention is CLEAR, and the frame passes the tests of R178. -/
def admitted (s : State) (p : Port) (h : FrameHead) (c : Cmd) : Prop :=
  (s.port p).prst = false ∧ (s.port p).attention = none ∧ c.isService = false ∧
  4 ≤ h.length ∧ h.length ≤ 64 ∧ h.flags.toNat < 2

/-- A command taken with its head: with its own length the block that owns its state executes it; with another it
executes nothing and is answered BAD_LENGTH, the residue being the correct length less the frame's (R178, R180,
R186). A residue beyond a signed two-byte field wraps (log 39). -/
def executes (x : Ctx) (h : FrameHead) (c : Cmd) (s : State) (a : Answer) (u : State) : Prop :=
  (h.length = c.ownLength → runCmd x c s = (a, u)) ∧
  (h.length ≠ c.ownLength → u = s ∧
    a = { status := .badLength, slot := none, data := [], param := 0xFF
          residue := BitVec.ofInt 16 ((c.ownLength : Int) - (h.length : Int)) })

/-- The chain of a port has ended: its state is NONE with no hold, and no record of its queue and no slot of the
port is held back any more (R184). -/
def chainEnded (s t : State) (p : Port) : Prop :=
  t.port p = { s.port p with
    chain := .none, hold := none
    completions := (s.port p).completions.map (fun r => { r with heldBack := false }) } ∧
  (∀ q, q ≠ p → t.port q = s.port q) ∧
  (∀ j, t.slot j = (s.slot j).map (fun b => if b.port = p then { b with inChain := false } else b)) ∧
  onlyChanges [.ports, .slots] s t

/-- The code of a value of an enumerated field: its place in the list that defines the values (R206). -/
def placeIn {α : Type} [DecidableEq α] (values : List α) (x : α) : Byte :=
  BitVec.ofNat 8 (values.findIdx (fun y => decide (y = x)))

/-- The bytes of a record from an offset on are these. -/
def fieldsAt (bytes : List Byte) (offset : Nat) (fields : List Byte) : Prop :=
  (bytes.drop offset).take fields.length = fields

/-- The bytes that a read command has available on a port and the count it asks for (R188); none for
a command that is no read command, or that names nothing. -/
def readOf (s : State) (p : Port) : Cmd → Option (List Byte × Half)
  | .identify count => some (s.identityBytes p, count)
  | .readZone zone count => (zoneOf zone).map (fun z => ((s.zone z).bytes z, count))
  | .readOverrideStack zone count => (zoneOf zone).map (fun z => (stackBytes z (s.zone z).stack p, count))
  | .readAssignment count => some (s.assignmentBytes, count)
  | .readProtection count => some (s.protectionBytes, count)
  | .readInput input count =>
    (inputsNamed input).map (fun is => ((is.map (fun i => (s.input i).bytes i)).flatten, count))
  | .readDecoder clear count => if clear = 0 then some (s.decoder.bytes, count) else none
  | .readSpeakers count => some (s.speakerBytes, count)
  | .readSegmentTable count => some (s.delay.bytes, count)
  | .readTuner count => some (s.tuner.bytes, count)
  | .readPresets first count =>
    (presetOf first).map (fun n =>
      (((allPresets.drop n.val).map (fun k => presetBytes k s.tuner.presets[k])).flatten, count))
  | .readStationList first count =>
    if s.tuner.stations.length < first.toNat then none
    else
      some ([natByte s.tuner.stations.length, first] ++
        ((s.tuner.stations.drop first.toNat).map StationEntry.bytes).flatten, count)
  | .readSlots count => some (s.slotTableBytes, count)
  | _ => none

/-- The channels of a frame's samples after those that wait to be mixed (R81). -/
def queuedAfter (queue frame : List (List Sample)) : List (List Sample) :=
  if queue = [] then frame else List.zipWith (· ++ ·) queue frame

/-- The slot that an unlinked long operation takes (R193). -/
def unlinkedSlot (kind : SlotKind) (target : SlotTarget) (p : Port) (h : FrameHead) : Slot :=
  some { kind := kind, port := p, tag := h.tag, target := target, mark := .none, inChain := false,
         waiting := none }

/-! ### Layered channel frames -/

/-- The walk of R70 from position `k` on meets channel records with these width codes, each 0 to 10 and
each header before `len`, and comes to position `pos`. -/
def walked (bs : List Byte) (len : Nat) : Nat → List Nat → Nat → Prop
  | k, [], pos => pos = k
  | k, c :: codes, pos =>
    k < len ∧ k < bs.length ∧ (byteAt bs k).toNat % 16 = c ∧ c ≤ 10 ∧
    walked bs len (k + 1 + 32 * (4 + 2 * c)) codes pos

/-! ### The mix -/

/-- Where a channel whose own place is a front one folds: to the near front position, else to C, else to the far
front position, with the coefficient that the hops there give (R97, R98). -/
def frontFold (set : List Position) (near far : Position) (a b c : Nat) : List (Position × Nat) :=
  if near ∈ set then [(near, a)] else if Position.c ∈ set then [(.c, b)] else if far ∈ set then [(far, c)] else []

/-- The positions that a channel without its own position in the speaker set reaches, with the coefficients of
the paths: 2896 to FL or FR, 2048 through two hops of 2896, 1448 through three; a fourth hop is dropped
(R97, R98). -/
def foldEnds (set : List Position) : Channel → List (Position × Nat)
  | .fl => frontFold set .c .fr 2896 0 2048
  | .fr => frontFold set .c .fl 2896 0 2048
  | .c => set.filterMap (fun p => if p = .fl ∨ p = .fr then some (p, 2896) else none)
  | .lfe => frontFold set .fl .fr 2896 2048 1448 ++ frontFold set .fr .fl 2896 2048 1448
  | .sl | .hl => frontFold set .fl .fr 2896 2048 1448
  | .sr | .hr => frontFold set .fr .fl 2896 2048 1448
  | .bl => if Position.sl ∈ set then [(.sl, 4096)] else frontFold set .fl .fr 2896 2048 0
  | .br => if Position.sr ∈ set then [(.sr, 4096)] else frontFold set .fr .fl 2896 2048 0

/-- The speaker sum of a position in sample `i` of the virtual channels (R99). -/
def State.sumAt (s : State) (v : Sound) (p : Position) (i : Nat) : Int :=
  max (-8388608) (min (((s.mix.virtualSet.map (fun ch =>
    (foldCoef s.mix.speakerSet p ch : Int) * (v.get ch).getD i 0)).sum + 2048) / 4096) 8388607)

/-- A position is redirected: it is one of FL to HR in the speaker set, its size is SMALL, and a subwoofer is
in the speaker set (R101). -/
def State.isRedirected (s : State) (p : Position) : Prop :=
  (Position.sub1 ∈ s.mix.speakerSet ∨ Position.sub2 ∈ s.mix.speakerSet) ∧ p ≠ .sub1 ∧ p ≠ .sub2 ∧
  p ∈ s.mix.speakerSet ∧ (s.speaker p).size = .small

/-- The values that the filters of the position at place `k` of FL to HR start a block from: those held, or
zero when the position was not redirected in the block before (R101). -/
def State.filterStart (s : State) (k : Fin 9) : FilterPair :=
  if s.mix.filters[k].redirected = true then s.mix.filters[k] else FilterPair.zero

/-- The state from whose values a block is computed: the changes taken, the gains stepped (R86). -/
def State.atBlock (s : State) : State := s.countDown.takeChanges.stepGains

/-- What a block writes for an output, if it writes for it (R104, R105). -/
def State.blockWave (s : State) (audio : BlockAudio) (o : Fin 13) : Option Wave :=
  s.atBlock.writtenWave audio (s.atBlock.virtualSound audio)
    (s.atBlock.redirects (s.atBlock.virtualSound audio)) o

/-- Word `k` around the ring of a segment, counted from `n` words before its write position (R123). -/
def Segment.ringWord (g : Segment) (n k : Nat) : Nat :=
  256 * g.base + (g.writePos - 256 * g.base + 256 * g.count - n + k) % (256 * g.count)

/-! ### Delay memory requests -/

/-- The `n` pages from `b` on are free, and none of them lies in a run placed earlier (R125). -/
def freeRun (d : DelayState) (placed : List (Nat × Nat)) (n b : Nat) : Prop :=
  ∀ i, i < n → d.pageFree (b + i) = true ∧ ∀ r, r ∈ placed → ¬ (r.1 ≤ b + i ∧ b + i < r.1 + r.2)

/-- The bases at which a request for new segments, each output with its total delay, is placed: one
output after another, each at the lowest base of a free run of its pages (R125 test 4). -/
def placedAt (d : DelayState) : List (Nat × Nat) → List (Fin 13 × Nat) → List Nat → Prop
  | _, [], [] => True
  | placed, (_, t) :: rest, b :: bases =>
    freeRun d placed (pagesFor t) b ∧ (∀ b', b' < b → ¬ freeRun d placed (pagesFor t) b') ∧
    placedAt d ((b, pagesFor t) :: placed) rest bases
  | _, _, _ => False

/-- A new segment, cleared, at its placed run (R123, R125). -/
def newSegment (r : Fin 13 × Nat) (b : Nat) : Segment :=
  { output := r.1, base := b, count := pagesFor r.2, delay := r.2, writePos := 256 * b, change := none,
    move := none }

/-- The controller after a request placed at `bases` is granted: the new segments are in the table in base
order, their words read 0, and nothing else has changed (R123, R125). -/
def requestGranted (d : DelayState) (reqs : List (Fin 13 × Nat)) (bases : List Nat) (d' : DelayState) : Prop :=
  d' = { d with segments := d'.segments, dram := d'.dram } ∧
  d'.segments.Perm (List.zipWith newSegment reqs bases ++ d.segments) ∧
  (d.segments.Pairwise (fun g h => g.base ≤ h.base) → d'.segments.Pairwise (fun g h => g.base ≤ h.base)) ∧
  ∀ a, Dram.read d'.dram a =
    if ∃ g, g ∈ List.zipWith newSegment reqs bases ∧ 256 * g.base ≤ a ∧ a < 256 * (g.base + g.count) then 0
    else Dram.read d.dram a

/-- The total delays that the outputs GRANTED to a zone have under the settings of `u` (R120, R126). -/
def State.newDelay (s u : State) (z : Zone) (o : Fin 13) : Option Nat :=
  if (s.out o).grantedTo z then ((s.out o).role).map (u.totalDelay z) else none

/-- The outputs that a zone's Zone On asks segments for, in order, with their total delays: those that are
IDLE and that the grant rule gives the zone once it is WAKING (R5, R120). -/
def State.asksFor (s : State) (z : Zone) (dref : Option Nat) (reqs : List (Fin 13 × Nat)) : Prop :=
  (reqs.map (·.1)).Pairwise (· < ·) ∧
  ∀ o n, (o, n) ∈ reqs ↔ (s.out o).state = .idle ∧
    ∃ r, (s.setZone z { s.zone z with power := .waking }).grantRule o = some (z, r) ∧
      n = (s.setDelay { s.delay with dref := dref }).totalDelay z r

/-- The Dref that a wake of a zone is measured against: for MAIN the largest distance among the positions that
the grant rule gives MAIN once it is WAKING, of outputs not in FAULT, and 0 over none; for a remote zone the
one held (R43, R121). -/
def State.wakeDref (s : State) (z : Zone) (dref : Option Nat) : Prop :=
  let given := fun p : Position => ∃ o, (s.out o).state ≠ .fault ∧
    (s.setZone z { s.zone z with power := .waking }).grantRule o = some (.main, .pos p)
  (z ≠ .main → dref = s.delay.dref) ∧
  (z = .main → ∃ m, dref = some m ∧ (∀ p, given p → (s.speaker p).distance ≤ m) ∧
    (m = 0 ∨ ∃ p, given p ∧ (s.speaker p).distance = m))

/-- The controller with the pending changes of the named outputs dropped, as a change request counts its
free pages (R126). -/
def DelayState.withoutChanges (d : DelayState) (want : Fin 13 → Option Nat) : DelayState :=
  { d with segments := d.segments.map (fun g => if (want g.output).isSome then { g with change := none } else g) }

/-- The pages that a change request needs beyond the runs of its GROW segments (R126). -/
def DelayState.pagesAsked (d : DelayState) (want : Fin 13 → Option Nat) : Nat :=
  (d.segments.map (fun g =>
    match want g.output with
    | some t => if t = g.delay then 0 else pagesFor t - g.count
    | none => 0)).sum

/-- A page that a covered segment of an output may claim: free with the named changes dropped, and not
claimed in `d'` by a segment of a lower output (R127). -/
def DelayState.mayClaim (d d' : DelayState) (want : Fin 13 → Option Nat) (o : Fin 13) (p : Nat) : Prop :=
  (d.withoutChanges want).pageFree p = true ∧
  ∀ h, h ∈ d'.segments → h.output < o → h.claims p = false

/-- The pending change that a covered segment takes: its class and its place (R126, R127). -/
def DelayState.changeOf (d d' : DelayState) (want : Fin 13 → Option Nat) (g : Segment) (t : Nat)
    (c : PendingChange) : Prop :=
  let n := pagesFor t
  let run := fun b m => ∀ i, i < m → d.mayClaim d' want g.output (b + i)
  c.delay = t ∧ c.count = n ∧
  (n = g.count → c.kind = .retime ∧ c.base = g.base) ∧
  (n < g.count → c.kind = .shrink ∧ c.base = g.base) ∧
  (g.count < n →
    (run (g.base + g.count) (n - g.count) → c.kind = .grow ∧ c.base = g.base) ∧
    (¬ run (g.base + g.count) (n - g.count) → c.kind = .relocate ∧ run c.base n ∧ ∀ b, b < c.base → ¬ run b n))

/-- The controller after a change request is granted: every segment of a named output whose delay differs
takes its pending change, one whose delay is the same has its pending change withdrawn, and nothing else
has changed (R126, R127). -/
def changeGranted (d : DelayState) (want : Fin 13 → Option Nat) (d' : DelayState) : Prop :=
  d' = { d with segments := d'.segments } ∧
  List.Forall₂ (fun g g' =>
    match want g.output with
    | none => g' = g
    | some t =>
      if t = g.delay then g' = { g with change := none }
      else ∃ c, g' = { g with change := some c } ∧ d.changeOf d' want g t c) d.segments d'.segments

/-! ### Compaction -/

/-- The segment that the next examination takes: the one of lowest base at or above the scan start that has
not been examined (R133). -/
def DelayState.nextSegment (d : DelayState) (c : CompactionRec) (g : Segment) : Prop :=
  g ∈ d.segments ∧ c.scanStart ≤ g.base ∧ g.output ∉ c.examined ∧
  ∀ h, h ∈ d.segments → c.scanStart ≤ h.base → h.output ∉ c.examined → g.base ≤ h.base

/-- A base at or above the scan start and below a segment's own, from which its page count of pages are good,
and free or its own (R133). -/
def DelayState.lowerRun (d : DelayState) (start : Nat) (g : Segment) (b : Nat) : Prop :=
  start ≤ b ∧ b < g.base ∧ ∀ i, i < g.count → b + i < 1024 ∧ d.pageBad (b + i) = false ∧
    (d.pageFree (b + i) = true ∨ g.hasPage (b + i) = true)

/-- An examination passes its segment over: it holds a pending change, or there is no lower run for it. It is
marked examined, and the scan start becomes the page after its run (R133). -/
def DelayState.passesOver (d : DelayState) (c c' : CompactionRec) : Prop :=
  ∃ g, d.nextSegment c g ∧ (g.change ≠ none ∨ ∀ b, ¬ d.lowerRun c.scanStart g b) ∧
    c' = { c with examined := c.examined ++ [g.output], scanStart := g.base + g.count }

/-- The controller when an examination has found the move of a segment to base `b` (R133, R134). -/
def DelayState.moves (d : DelayState) (c : CompactionRec) (g : Segment) (b : Nat) : DelayState :=
  ({ d with compaction := some { c with examined := c.examined ++ [g.output], current := some g.output } } :
    DelayState).setSegment g.output { g with move := some { target := b, stage := .ramp, copied := 0 } }

/-- The end of a compaction, the record being absent: a retry pass, then the slot posts the pages moved and the
largest hole (R136). -/
def State.compactionEnds (s : State) (c : CompactionRec) : State :=
  let v := s.delay.starved.foldl State.retryOne (s.setDelay { s.delay with compaction := none })
  v.complete c.slot (if c.abort = true then .aborted else .done)
    (halfBytes (BitVec.ofNat 16 c.moved) ++ halfBytes (BitVec.ofNat 16 v.delay.largestHole))

/-! ### Full resets -/

/-- At the end of a full reset every protection line is active exactly when its pin is at the level in
force, an FLT line that is active has its output in FAULT and the others are IDLE, THT sets the latch, and
each arrival has raised PROTECTION (R61). -/
def linesTaken (s t : State) (f w h : ActiveLevel) : Prop :=
  t.outputs.fltLevel = f ∧ t.outputs.thwLevel = w ∧ t.outputs.thtLevel = h ∧
  (∀ n, t.fltLine n = { pin := (s.fltLine n).pin, active := (s.fltLine n).pin == f.pin } ∧
    t.out (lineOutput n) =
      (if (s.fltLine n).pin = f.pin then { OutputRec.idle with state := .fault } else OutputRec.idle) ∧
    ((s.fltLine n).pin = f.pin →
      reported t .protection { EventDetail.zero with outputs := outputBit (lineOutput n) })) ∧
  (∀ o : Fin 13, 11 ≤ o.val → t.out o = OutputRec.idle) ∧
  t.outputs.thw = { pin := s.outputs.thw.pin, active := s.outputs.thw.pin == w.pin } ∧
  t.outputs.tht = { pin := s.outputs.tht.pin, active := s.outputs.tht.pin == h.pin } ∧
  t.outputs.latch = (s.outputs.tht.pin == h.pin) ∧
  (s.outputs.thw.pin = w.pin → reported t .protection { EventDetail.zero with flags := 1 }) ∧
  (s.outputs.tht.pin = h.pin → reported t .protection { EventDetail.zero with flags := 2 })

/-- At the end of a full reset each link that is present has started LOCKING and raised INPUT, a digital
input without one is NO_SIGNAL, and no kind but PROTECTION and INPUT is pending (R67, R205). -/
def linksTaken (s t : State) : Prop :=
  (∀ i : Fin 8, ((s.input (digital i)).link = none → t.input (digital i) = InputRec.noSignal) ∧
    (∀ d, (s.input (digital i)).link = some d → t.input (digital i) =
      { state := .locking, mask := none, rate := none, timer := some 20, link := some d } ∧
      reported t .input { EventDetail.zero with inputs := BitVec.ofNat 16 (2 ^ i.val) })) ∧
  (∀ i : Fin 12, 8 ≤ i.val → t.input i = InputRec.analog) ∧
  (∀ q k, ((t.port q).events.kind k).pending = true → k = .protection ∨ k = .input)

/-! ### What follows the zones and the inputs: source statuses, the binding, the tuner's activity -/

/-- A zone is WAKING or ON and its live source is digital input D(i+1), in PACKED: the zones and the kinds that
bind (R75). -/
def State.playsPacked (s : State) (z : Zone) (i : Fin 8) : Prop :=
  ((s.zone z).power = .waking ∨ (s.zone z).power = .on) ∧ (s.zone z).live = .input (digital i) ∧
  (s.input (digital i)).state = .packed

/-- `b` is the binding of R75: the packed input that MAIN plays, else that of Z2, else that of Z3, else none. -/
def State.bindingIs (s : State) (b : Option (Fin 8)) : Prop :=
  (∀ i, s.playsPacked .main i → b = some i) ∧
  ((∀ j, ¬ s.playsPacked .main j) →
    (∀ i, s.playsPacked .z2 i → b = some i) ∧
    ((∀ j, ¬ s.playsPacked .z2 j) →
      (∀ i, s.playsPacked .z3 i → b = some i) ∧ ((∀ j, ¬ s.playsPacked .z3 j) → b = none)))

/-- `st` is the source status that R2 gives a zone whose live source is `src`. -/
def State.statusIs (s : State) (src : Source) (st : SourceStatus) : Prop :=
  (src = .tuner → st = .playing) ∧
  ∀ i, src = .input i →
    let bound := ∃ b, s.decoder.binding = some b ∧ digital b = i
    ((s.input i).state = .noSignal ∨ (s.input i).state = .locking → st = .noSignal) ∧
    ((s.input i).state = .pcm2 ∨ (s.input i).state = .pcmn → st = .playing) ∧
    ((s.input i).state = .packed → (bound → st = .playing) ∧ (¬ bound → st = .unavailable))

/-- Some zone in WAKING or ON has TUNER as its live source (R141). -/
def State.listened (s : State) : Prop :=
  ∃ z, ((s.zone z).power = .waking ∨ (s.zone z).power = .on) ∧ (s.zone z).live = .tuner

/-- The tuner is PARKED exactly when it is not active: no zone listens and no operation is present. In PARKED no
settle, seek or scan runs, and in SEEKING and SCANNING an operation is present (R140 to R142). -/
def State.tunerFollows (s : State) : Prop :=
  (s.tuner.state = .parked ↔ ¬ (s.listened ∨ s.tuner.op ≠ none)) ∧
  (s.tuner.state = .parked → s.tuner.settle = none ∧ s.tuner.seek = none ∧ s.tuner.scan = none) ∧
  (s.tuner.state = .seeking ∨ s.tuner.state = .scanning → s.tuner.op ≠ none)

/-- The derived state is that of R2, R75 and R141: the binding, every source status, the tuner's activity. -/
def State.followed (s : State) : Prop :=
  s.bindingIs s.decoder.binding ∧ (∀ z, s.statusIs (s.zone z).live (s.zone z).status) ∧ s.tunerFollows

/-- The decoder record right after a change of binding (R76): SEARCHING or IDLE, the counters 0, the last frame
error NONE, everything of the old stream gone. -/
def decoderAnew (b : Option (Fin 8)) : DecoderRec :=
  { binding := b, state := if b = none then .idle else .searching, candidate := none, consecutiveBad := 0
    header := none, repeatBuffer := none, expected := none, lastError := .none, good := 0, bad := 0, concealed := 0
    scanPos := 0, fifo := [] }

/-- A binding that has changed has started the decoder anew and raised DECODER BIND; one that has not has left it
alone (R75, R76). -/
def rebinds (s t : State) : Prop :=
  (t.decoder.binding = s.decoder.binding → t.decoder = s.decoder) ∧
  (t.decoder.binding ≠ s.decoder.binding →
    t.decoder = decoderAnew t.decoder.binding ∧ reported t .decoder { EventDetail.zero with reasons := 8 })

/-- The tuner as its activity begins: SETTLING on the frequency held for the settle time of the band, the label
cleared (R142, R154). -/
def TunerRec.unparked (t : TunerRec) : TunerRec :=
  { t with state := .settling, settle := some (if t.band = .fm then 30 else 50), seek := none, scan := none
           label := LabelRec.cleared }

/-- The tuner as its activity ends: PARKED, with no settle, seek or scan; band, frequency, quality, blend and
label are kept (R141, R142). -/
def TunerRec.parkedNow (t : TunerRec) : TunerRec :=
  { t with state := .parked, settle := none, seek := none, scan := none }

/-- The tuner after reports of zones (R141, R142): where its activity has begun it settles, where it has ended it
parks, and otherwise it is as it was. -/
def retunes (s t : State) : Prop :=
  let active := t.listened ∨ s.tuner.op ≠ none
  (active → s.tuner.state = .parked → t.tuner = s.tuner.unparked) ∧
  (¬ active → s.tuner.state = .settling ∨ s.tuner.state = .idle → t.tuner = s.tuner.parkedNow) ∧
  (¬ (active ↔ s.tuner.state = .parked) → t.tuner = s.tuner)

/-- What follows a change of the zones, from a state whose derived state is in order: the derived state is in
order, a source status that has changed has raised ZONE (R3), the binding has changed as R76 says, and the tuner
has settled, parked or stayed as R142 says. -/
def followsOn (s t : State) : Prop :=
  s.followed → t.followed ∧ (∀ z, (t.zone z).status ≠ (s.zone z).status → zoneReported t z) ∧
    rebinds s t ∧ retunes s t

/-- Input D(i+1) has taken a record: INPUT is raised with its bit; every source status is that of R2, one that
has changed having raised ZONE; the binding is that of R75, a change of it having started the decoder anew (R65,
R76); and nothing else of the inputs and zones has changed. -/
def inputBecomes (s t : State) (i : Fin 8) (r : InputRec) : Prop :=
  t.input (digital i) = r ∧ (∀ j, j ≠ digital i → t.input j = s.input j) ∧
  reported t .input { EventDetail.zero with inputs := BitVec.ofNat 16 (2 ^ i.val) } ∧
  (∀ z, (s.zone z).sameButStatus (t.zone z) ∧ t.statusIs (t.zone z).live (t.zone z).status ∧
    ((t.zone z).status ≠ (s.zone z).status → zoneReported t z)) ∧
  t.bindingIs t.decoder.binding ∧ rebinds s t ∧ portsRaised s t ∧
  onlyChanges [.inputs, .zones, .decoder, .ports] s t

/-! ### Remote zones without an output -/

/-- A zone is ON and holds no GRANTED output (R51). -/
abbrev State.noOutputIs (s : State) (z : Zone) : Prop :=
  (s.zone z).power = .on ∧ ∀ o, (s.out o).grantedTo z = false

/-- The no-output mark of each remote zone says whether the zone is ON with no GRANTED output (R51, log 23). -/
def State.noOutputMarked (s : State) : Prop := ∀ z, z ≠ .main → ((s.zone z).noOutput = true ↔ s.noOutputIs z)

/-- CHANNEL is pending with reason NO_OUTPUT and the zone's bit (R51, R53). -/
def noOutputReported (t : State) (z : Zone) : Prop :=
  reported t .channel { EventDetail.zero with zones := z.bit, reasons := 4 }

/-! ### Regrants -/

/-- The record of an output GRANTED in a zone with its segment (R44, R52). -/
def grantedRec (o : Fin 13) (z : Zone) (x : Role) : OutputRec :=
  { state := .granted, phase := none, zone := some z, role := some x, target := none, segment := true
    relay := decide (o.val < 11), relayOpenTimer := none }

/-- The record of an output STARVED in a zone (R44). -/
def starvedRec (z : Zone) (x : Role) : OutputRec :=
  { state := .starved, phase := none, zone := some z, role := some x, target := none, segment := false
    relay := false, relayOpenTimer := none }

/-- The result of the grant rule is the zone and role that an output has (R43). -/
def State.ownGrant (u : State) (o : Fin 13) : Prop :=
  u.grantRule o ≠ none ∧ (u.out o).zone = (u.grantRule o).map (·.1) ∧
  (u.out o).role = (u.grantRule o).map (·.2)

/-- A regrant changes nothing for an output GRANTED or STARVED in its own zone and role, or IDLE by the rule while
its zone is QUIETING (R43). -/
def State.grantStays (u : State) (o : Fin 13) : Prop :=
  u.ownGrant o ∨ (u.grantRule o = none ∧ ∃ z, (u.out o).zone = some z ∧ (u.zone z).power = .quieting)

/-- A regrant finds nothing to do for an output (R43). -/
def State.wellGranted (u : State) (o : Fin 13) : Prop :=
  let r := u.out o
  r.state = .fault ∨ (r.state = .idle ∧ u.grantRule o = none) ∨
  ((r.state = .granted ∨ r.state = .starved) ∧ u.grantStays o)

/-- Output `o` got a segment (`ok`) or is STARVED on the starved list (`refused`), from the memory `u.delay` with
the starved list `old`; CHANNEL is raised with the reasons given (R44, R53). -/
def placedOr (u t : State) (o : Fin 13) (z : Zone) (x : Role) (old : List (Fin 13)) (ok refused : Byte) : Prop :=
  (∀ d, u.delay.request [(o, u.totalDelay z x)] = .ok d →
    t.delay = { d with starved := old } ∧ t.out o = grantedRec o z x ∧
    reported t .channel { EventDetail.zero with outputs := outputBit o, reasons := ok }) ∧
  (∀ e, u.delay.request [(o, u.totalDelay z x)] = .error e →
    t.delay = { u.delay with starved := t.delay.starved } ∧ (∀ q, q ∈ t.delay.starved ↔ q = o ∨ q ∈ old) ∧
    t.out o = starvedRec z x ∧ reported t .memory { EventDetail.zero with reasons := 4 } ∧
    reported t .channel { EventDetail.zero with outputs := outputBit o, reasons := refused })

/-- What one output's regrant does, by the state that it finds the output in (R43 to R45, R47 to R49, R53). A
STARVED output holds no segment. The relay of a GRANTED output that starts a handover stays as it is (log 38), a
STARVED output that gets a segment raises HANDOVER and STARVED (log 17), and IDLE by the rule while MAIN is
QUIETING changes nothing although the position's size has become NONE (log 42). -/
def regrants (u t : State) (o : Fin 13) : Prop :=
  let r := u.out o
  let g := u.grantRule o
  let raised := fun n : Byte => reported t .channel { EventDetail.zero with outputs := outputBit o, reasons := n }
  let left := u.delay.starved.filter (fun q => decide (q ≠ o))
  (u.wellGranted o → t = u) ∧
  ((r.state = .starved → u.delay.segment o = none) →
    (∀ q, q ≠ o → t.out q = u.out q) ∧ (∀ z, t.zone z = { u.zone z with noOutput := (t.zone z).noOutput }) ∧
    portsRaised u t ∧ onlyChanges [.zones, .outputs, .delay, .ports] u t ∧
    t.outputs = { u.outputs with outs := t.outputs.outs } ∧
    (∀ z x, r.state = .idle → g = some (z, x) →
      (u.delay.segment o ≠ none → t.delay = u.delay ∧ t.out o = grantedRec o z x ∧ raised 1) ∧
      (u.delay.segment o = none → placedOr u t o z x u.delay.starved 1 2)) ∧
    (r.state = .granted → ¬ u.grantStays o →
      t.delay = u.delay ∧ raised 1 ∧
      t.out o = { r with state := .handover, phase := some .rampDown, target := some (g.map (·.1)) }) ∧
    (r.state = .starved → ¬ u.grantStays o →
      (g = none → t.out o = OutputRec.idle ∧ raised 1 ∧ t.delay = { u.delay with starved := left }) ∧
      (∀ z x, g = some (z, x) → placedOr u t o z x left 3 3)) ∧
    (r.state = .handover →
      t.delay = u.delay ∧
      (u.ownGrant o → raised 1 ∧ t.out o = { r with
        state := .granted, phase := none, target := none, relay := decide (o.val < 11), relayOpenTimer := none }) ∧
      (¬ u.ownGrant o → t.out o = { r with target := some (g.map (·.1)) })))

/-- The state after a granted change of delays: where the request has withdrawn a GROW or a RELOCATE of a segment
it named, a retry pass has followed (R126, R127, R131; that the pass finds the new settings is log 15). -/
def State.retriedAfter (v : State) (d : DelayState) (want : Fin 13 → Option Nat) (v' : State) : Prop :=
  let freed := ∃ g c, g ∈ d.segments ∧ want g.output ≠ none ∧ g.change = some c ∧ (c.kind = .grow ∨ c.kind = .relocate)
  (freed → v' = v.delay.starved.foldl State.retryOne v) ∧ (¬ freed → v' = v)

/-! ### Ends of long operations -/

/-- The record that a slot posts (R194). -/
def slotRecord (k : Fin 8) (b : SlotBody) (st : Status) (result : List Byte) : Completion :=
  { tag := b.tag, code := b.kind.command, status := st, slot := some k, mark := b.mark, result := result,
    heldBack := b.inChain }

/-- Slot `k` is `b`, its port's completion queue has room and its port's chain does not hold. -/
def canPost (s : State) (k : Fin 8) (b : SlotBody) : Prop :=
  s.slot k = some b ∧ (s.port b.port).completions.length < 8 ∧ (s.port b.port).chain ≠ .holding

/-- Slot `k`, which was `b`, has posted its record and is FREE; no other slot has changed (R194). -/
def slotPosted (s t : State) (k : Fin 8) (b : SlotBody) (st : Status) (result : List Byte) : Prop :=
  t.slot k = none ∧ (∀ j, j ≠ k → t.slot j = s.slot j) ∧
  (t.port b.port).completions = (s.port b.port).completions ++ [slotRecord k b st result]

/-- The operation of a slot, if there is one, has ended with a status and a result (R194; what its record and its
chain do is `complete`'s), and the ports have met nothing else but raisings. Where the port's queue has room and
its chain does not hold, the slot has posted its record and is FREE. -/
def slotEnded (s t : State) (k : Option (Fin 8)) (st : Status) (result : List Byte) : Prop :=
  t.slots = (s.completeOpt k st result).slots ∧ portsRaised (s.completeOpt k st result) t ∧
  (k = none → t.slots = s.slots) ∧
  (∀ j b, k = some j → canPost s j b → slotPosted s t j b st result)

/-- The operations of the listed slots have been cancelled, one after another, and the ports have met nothing
else but raisings (R194). Where no chain holds and every port's queue has room for its records, each slot has
posted its record, in the order of the list, and is FREE. -/
def slotsCancelled (s t : State) (ks : List (Fin 8)) : Prop :=
  let v := ks.foldl (fun u k => u.complete k .cancelled []) s
  let records := fun q : Port => ks.filterMap (fun k => (s.slot k).bind (fun b =>
    if b.port = q then some (slotRecord k b .cancelled []) else none))
  t.slots = v.slots ∧ portsRaised v t ∧
  (ks.Nodup → (∀ q, (s.port q).chain ≠ .holding ∧ (s.port q).completions.length + (records q).length ≤ 8) →
    (∀ k, t.slot k = if k ∈ ks then none else s.slot k) ∧
    (∀ q, (t.port q).completions = (s.port q).completions ++ records q))

/-! ### Quieting and the thermal trip -/

/-- Every output GRANTED to a zone is at −161 (R8). -/
abbrev State.allSilent (s : State) (z : Zone) : Prop :=
  ∀ o, (s.out o).grantedTo z = true → (s.gain o).current = -161

/-- The record of a zone, but for source status and no-output mark, that enters QUIETING with an operation slot:
its waiting source is live, its sleep timer is 0, and it is in the relay stage if every output GRANTED to it is
at −161, in the ramp stage otherwise (R7, R8). -/
def ZoneRec.quieted (r : ZoneRec) (opSlot : Option (Fin 8)) (silent : Prop) [Decidable silent] : ZoneRec :=
  { r with
    power := .quieting, live := r.waiting.getD r.live, waiting := none, sleepTimer := 0, opSlot := opSlot
    wakeTimer := none, quietStage := if silent then some .relay else some .ramp
    relayTimer := if silent then some 20 else r.relayTimer }

/-- A zone record is the same but for its derived source status and its no-output mark (R2, R51). -/
def ZoneRec.sameButDerived (r u : ZoneRec) : Prop := u = { r with status := u.status, noOutput := u.noOutput }

/-- A zone record without its pending power command (R10). -/
def ZoneRec.withoutPending (r : ZoneRec) : ZoneRec :=
  if r.pendingPower = none then r else { r with pendingPower := none, pendingSlot := none }

/-- The zones after a thermal trip (R7, R8, R11): one in STANDBY is as it was; one in QUIETING goes on without its
pending command; one in WAKING or ON has entered QUIETING with no operation slot, one in WAKING without its
pending command. The stage entered is that of the outputs GRANTED to the zone after the trip. -/
def zonesTripped (s t : State) : Prop :=
  ∀ z, let r := s.zone z
    (r.power = .standby → r.sameButDerived (t.zone z)) ∧
    (r.power = .quieting → r.withoutPending.sameButDerived (t.zone z) ∧
      (r.pendingPower ≠ none → zoneReported t z)) ∧
    (r.power = .waking → (r.withoutPending.quieted none (t.allSilent z)).sameButDerived (t.zone z) ∧
      zoneReported t z) ∧
    (r.power = .on → (r.quieted none (t.allSilent z)).sameButDerived (t.zone z) ∧ zoneReported t z)

/-- A trip takes an output's zone to QUIETING, and into its relay stage at once (R8, R11, R52). -/
def opensAtTrip (s t : State) (o : Fin 13) : Prop :=
  ∃ z, ((s.zone z).power = .waking ∨ (s.zone z).power = .on) ∧ (s.out o).grantedTo z = true ∧ t.allSilent z

/-- The slots that a thermal trip cancels: of MAIN, Z2 and Z3 in this order, the pending slot of a zone in WAKING
or QUIETING that holds a pending command, then the operation slot of a zone in WAKING (R11). The order of the
zones and of the records is the model's reading (log 33, log 35). -/
def State.tripCancels (s : State) : List (Fin 8) :=
  (([.main, .z2, .z3] : List Zone).map (fun z =>
    let r := s.zone z
    (if (r.power = .waking ∨ r.power = .quieting) ∧ r.pendingPower ≠ none then r.pendingSlot.toList else []) ++
    (if r.power = .waking then r.opSlot.toList else []))).flatten

/-! ### The tuner -/

/-- A seek or scan of a port other than `p` runs (R147). -/
def State.heldByOther (s : State) (p : Port) : Prop :=
  ∃ o, s.tuner.op = some o ∧ (o.kind = .seek ∨ o.kind = .scan) ∧ o.port ≠ p

/-- The tuner after a quality report (R151, R152). -/
def TunerRec.measured (t : TunerRec) (q : Nat) : TunerRec :=
  { t with quality := q, blend := if t.band = .fm ∧ 40 ≤ q then .stereo else .mono }

/-- The tuner at the end of an operation that ends without a station: it settles on its frequency while
a zone listens, and parks otherwise (R142). -/
def settlesOrParks (s t : State) (b : Band) : Prop :=
  (s.listened → t.tuner.state = .settling ∧ t.tuner.settle = some (if b = .fm then 30 else 50) ∧
    t.tuner.label = LabelRec.cleared) ∧
  (¬ s.listened → t.tuner.state = .parked ∧ t.tuner.settle = none ∧ t.tuner.label = s.tuner.label)

/-- The tuner comes to rest on its channel: IDLE while a zone listens, PARKED otherwise (R143, R149). -/
def comesToRest (s t : State) : Prop :=
  (s.listened → t.tuner.state = .idle) ∧ (¬ s.listened → t.tuner.state = .parked)

/-- The channel that a command to tune names: the kind of the slot, the band and the channel (R144, R167,
R171); none for a command that names none. -/
def State.tunesTo (s : State) : Cmd → Option (SlotKind × Band × Nat)
  | .tune band frequency =>
    match bandOf band with
    | some b =>
      if gridLow b s.tuner.region ≤ frequency.toNat ∧ frequency.toNat ≤ gridHigh b then
        some (.tune, b, snapDown b s.tuner.region frequency.toNat)
      else none
    | none => none
  | .recallStation index =>
    (s.tuner.stations[index.toNat]?).map (fun e => (.recallStation, e.band, e.frequency))
  | .recallPreset preset =>
    (presetOf preset).bind (fun n =>
      (s.tuner.presets[n]).map (fun r => (.recallPreset, r.band, r.frequency)))
  | _ => none

/-- The tuner record of an accepted tune (R144, R145). -/
def TunerRec.tuned (t : TunerRec) (kind : TunerOpKind) (b : Band) (f : Nat) (k : Fin 8) (p : Port) : TunerRec :=
  { t with
    band := b, frequency := f, state := .settling, settle := some (if b = .fm then 30 else 50)
    op := some { kind := kind, slot := k, port := p, scanBand := b, found := 0, dropped := 0 }
    seek := none, scan := none, label := LabelRec.cleared
    blend := if b = .fm ∧ 40 ≤ t.quality then .stereo else .mono }

/-- The tuner record of an accepted seek (R148). -/
def TunerRec.seeking (t : TunerRec) (d : Direction) (k : Fin 8) (p : Port) : TunerRec :=
  { t with
    frequency := nextChannel t.band t.region d t.frequency, state := .seeking, settle := none
    op := some { kind := .seek, slot := k, port := p, scanBand := t.band, found := 0, dropped := 0 }
    seek := some { direction := d, start := t.frequency, dwell := if t.band = .fm then 25 else 60 }
    scan := none, label := LabelRec.cleared }

/-- The tuner record of an accepted scan (R161). -/
def TunerRec.scanning (t : TunerRec) (b : Band) (k : Fin 8) (p : Port) : TunerRec :=
  { t with
    state := .scanning, settle := none
    op := some { kind := .scan, slot := k, port := p, scanBand := b, found := 0, dropped := 0 }
    stations := t.stations.filter (fun e => decide (e.band ≠ b))
    scan := some { channel := gridLow b t.region, dwell := if b = .fm then 25 else 60 }
    seek := none, label := LabelRec.cleared }

/-- The frequency held: the start of a seek that runs, else the tuner's frequency (R145). -/
def State.heldFrequency (s : State) : Nat :=
  match s.tuner.op with
  | some o => if o.kind = .seek then (s.tuner.seek.map (·.start)).getD s.tuner.frequency else s.tuner.frequency
  | none => s.tuner.frequency

/-- What the slot of an operation posts when an accepted command ends it: a TUNE or STEP_TUNE is CANCELLED
with an empty result, a seek is ABORTED with band, start frequency and quality 0, a scan is ABORTED with its
counts (R146, R147, R150, R166). -/
def State.endedWith (s : State) (o : TunerOp) : Status × List Byte :=
  match o.kind with
  | .tune | .stepTune => (.cancelled, [])
  | .seek => (.aborted, [s.tuner.band.code] ++ halfBytes (BitVec.ofNat 16 s.heldFrequency) ++ [0])
  | .scan => (.aborted, [o.scanBand.code] ++ halfBytes (BitVec.ofNat 16 o.found) ++
      halfBytes (BitVec.ofNat 16 o.dropped) ++ [BitVec.ofNat 8 s.tuner.stations.length])

/-- An operation that a command of port `p` ends when it is accepted: a settle of any port, a seek or scan of
the port itself (R146, R147). -/
def TunerOp.yieldsTo (o : TunerOp) (p : Port) : Prop :=
  o.kind = .tune ∨ o.kind = .stepTune ∨ o.port = p

/-- A command of port `p` has been accepted and has ended the operation `o`, whose slot was `x`: that slot has
posted its record, the lowest slot then FREE is `slot`, and the tuner is `after` of that slot (R144, R146,
R147, R193). -/
def tunerTaken (s t : State) (p : Port) (h : FrameHead) (code : Byte) (o : TunerOp) (x : SlotBody)
    (slot : Slot) (after : Fin 8 → TunerRec) : Prop :=
  ∃ k, (s.slot k = none ∨ k = o.slot) ∧ (∀ j, j < k → s.slot j ≠ none ∧ j ≠ o.slot) ∧
    t.slot k = slot ∧ (o.slot ≠ k → t.slot o.slot = none) ∧
    (∀ j, j ≠ k → j ≠ o.slot → t.slot j = s.slot j) ∧ t.tuner = after k ∧
    (t.port x.port).completions = (s.port x.port).completions ++
      [slotRecord o.slot x (s.endedWith o).1 (s.endedWith o).2] ∧
    (t.port p).response = some { status := .accepted, tag := h.tag, code := code, slot := some k, data := [] } ∧
    onlyChanges [.tuner, .slots, .ports] s t

/-- The state after the record of an operation that a command has ended is offered to its port, and the lowest
slot then FREE (R146, R147, R193, R194); that the ended operation's slot counts among them is the model's reading (log 36). -/
def State.afterEnding (s : State) (o : TunerOp) (u : State) (k : Fin 8) : Prop :=
  u = s.complete o.slot (s.endedWith o).1 (s.endedWith o).2 ∧ u.slot k = none ∧ ∀ j, j < k → u.slot j ≠ none

/-- Entry `w` of the station list is the one of its band with the lowest quality and, among those, the
highest frequency (R163). -/
def TunerRec.worstOf (t : TunerRec) (w : StationEntry) : Prop :=
  w ∈ t.stations ∧ ∀ e, e ∈ t.stations → e.band = w.band →
    w.quality < e.quality ∨ (w.quality = e.quality ∧ e.frequency ≤ w.frequency)

/-- The row of the table that a command on a port is. -/
def rowOf (p : Port) (h : FrameHead) : Cmd → Instr
  | .noOperation => .noOperation p h
  | .identify count => .identify p h count
  | .readDetail => .readDetail p h
  | .resetPart => .resetPart p h
  | .zoneOn zone => .zoneOn p h zone
  | .zoneStandby zone => .zoneStandby p h zone
  | .selectSource zone source => .selectSource p h zone source
  | .setVolume zone index => .setVolume p h zone index
  | .stepVolume zone step => .stepVolume p h zone step
  | .setMute zone mute => .setMute p h zone mute
  | .setMaxVolume zone index => .setMaxVolume p h zone index
  | .setLipSync zone ms => .setLipSync p h zone ms
  | .setSurroundMode zone mode => .setSurroundMode p h zone mode
  | .setSleepTimer zone minutes => .setSleepTimer p h zone minutes
  | .readZone zone count => .readZone p h zone count
  | .pushOverride zone source index => .pushOverride p h zone source index
  | .popOverride zone => .popOverride p h zone
  | .readOverrideStack zone count => .readOverrideStack p h zone count
  | .setAssignment output mainRole remoteRole priority => .setAssignment p h output mainRole remoteRole priority
  | .readAssignment count => .readAssignment p h count
  | .setProtectionLevels fault thw tht => .setProtectionLevels p h fault thw tht
  | .readProtection count => .readProtection p h count
  | .clearFault name => .clearFault p h name
  | .readInput input count => .readInput p h input count
  | .readDecoder clear count => .readDecoder p h clear count
  | .setSpeaker position size distance trim polarity => .setSpeaker p h position size distance trim polarity
  | .setCrossover hz => .setCrossover p h hz
  | .readSpeakers count => .readSpeakers p h count
  | .memoryStart level => .memoryStart p h level
  | .compactDelayMemory => .compactDelayMemory p h
  | .readSegmentTable count => .readSegmentTable p h count
  | .tune band frequency => .tune p h band frequency
  | .stepTune direction => .stepTune p h direction
  | .seek direction => .seek p h direction
  | .scan band => .scan p h band
  | .setSeekThreshold threshold => .setSeekThreshold p h threshold
  | .setRegion region => .setRegion p h region
  | .readTuner count => .readTuner p h count
  | .storePreset preset => .storePreset p h preset
  | .recallPreset preset => .recallPreset p h preset
  | .clearPreset preset => .clearPreset p h preset
  | .readPresets first count => .readPresets p h first count
  | .readStationList first count => .readStationList p h first count
  | .recallStation index => .recallStation p h index
  | .notifyOn => .notifyOn p h
  | .notifyOff => .notifyOff p h
  | .setEventEnable enable => .setEventEnable p h enable
  | .fetchEvent all => .fetchEvent p h all
  | .peekEvents => .peekEvents p h
  | .raiseEvent kind => .raiseEvent p h kind
  | .readCompletion => .readCompletion p h
  | .abortOperation slot => .abortOperation p h slot
  | .readSlots count => .readSlots p h count

/-! ### Invariants -/

/-- The delay DRAM's list is in its canonical form. -/
def State.dramOk (s : State) : Prop := Dram.wf s.delay.dram = true

/-- A page is held by a segment: it lies in its run or is claimed by it (R113, R122). -/
def Segment.holds (g : Segment) (p : Nat) : Prop := g.hasPage p = true ∨ g.claims p = true

/-- The pending change of a segment is of its class: its page count is that of its total delay, and its run
keeps the base, or is relocated to pages of the DRAM apart from the present run (R122, R126, R127). -/
def Segment.changeOk (g : Segment) (c : PendingChange) : Prop :=
  g.move = none ∧ c.count = pagesFor c.delay ∧
  match c.kind with
  | .retime => c.base = g.base ∧ c.count = g.count
  | .shrink => c.base = g.base ∧ c.count < g.count
  | .grow => c.base = g.base ∧ g.count < c.count ∧ g.base + c.count ≤ 1024
  | .relocate => c.base + c.count ≤ 1024 ∧ (c.base + c.count ≤ g.base ∨ g.base + g.count ≤ c.base)

/-- A segment lies within the DRAM on good pages, is long enough for its total delay, holds its write position
in its run, and its pending change or move is in order (R113, R122, R123, R134). -/
def DelayState.segmentOk (d : DelayState) (g : Segment) : Prop :=
  pagesFor g.delay ≤ g.count ∧ g.base + g.count ≤ 1024 ∧
  256 * g.base ≤ g.writePos ∧ g.writePos < 256 * (g.base + g.count) ∧
  (∀ p, p < 1024 → g.holds p → d.pageBad p = false) ∧
  (∀ c, g.change = some c → g.changeOk c) ∧
  (∀ m, g.move = some m → m.target < g.base ∧ m.copied < g.count ∧
    ∃ c, d.compaction = some c ∧ c.current = some g.output)

/-- The segment table: one segment for an output at most, in base order, each in order, no page held by two of
them; a table that is not empty stands in READY alone, and a check runs in INITIALIZING alone (R113, R114,
R122). -/
def State.segmentsOk (s : State) : Prop :=
  let d := s.delay
  (d.segments.map (·.output)).Nodup ∧ d.segments.Pairwise (fun g h => g.base < h.base) ∧
  (∀ g, g ∈ d.segments → d.segmentOk g) ∧
  d.segments.Pairwise (fun g h => ∀ p, p < 1024 → ¬ (g.holds p ∧ h.holds p)) ∧
  (d.segments ≠ [] → d.state = .ready) ∧ (d.check ≠ none → d.state = .initializing)

/-- The queues of a port hold no more than R175 and R195 allow. -/
def PortRec.queuesOk (r : PortRec) : Prop := r.inbound.length ≤ 4 ∧ r.completions.length ≤ 8

/-- The queues of every port hold no more than R175 and R195 allow. -/
def State.queuesOk (s : State) : Prop := ∀ p, (s.port p).queuesOk

/-- A gain state lies within −161 to +24 (R87). -/
def GainRec.ok (g : GainRec) : Prop :=
  -161 ≤ g.current ∧ g.current ≤ 24 ∧ -161 ≤ g.target ∧ g.target ≤ 24

/-- Every gain state lies within −161 to +24 (R87). -/
def State.gainsOk (s : State) : Prop := ∀ o, (s.gain o).ok

/-- The tuner's frequency, a seek's start, a scan's channel, the station list and the presets lie on
their grids under the present region (R139, R160, R168). -/
def TunerRec.gridOk (t : TunerRec) : Prop :=
  onGrid t.band t.region t.frequency = true ∧
  (∀ k, t.seek = some k →
    onGrid t.band t.region k.start = true ∧ ∃ o, t.op = some o ∧ o.kind = .seek) ∧
  (∀ k, t.scan = some k →
    ∃ o, t.op = some o ∧ o.kind = .scan ∧ onGrid o.scanBand t.region k.channel = true) ∧
  (∀ e, e ∈ t.stations → onGrid e.band t.region e.frequency = true) ∧
  (∀ (n : Fin 40) (r : PresetRec), t.presets[n] = some r → onGrid r.band t.region r.frequency = true)

/-- A label is eight characters, each 0x20 to 0x7E (R160, R168). -/
def labelOk (l : List Byte) : Prop := l.length = 8 ∧ ∀ c, c ∈ l → 0x20 ≤ c.toNat ∧ c.toNat ≤ 0x7E

/-- The station list is in the order of R160 and holds at most 40 entries; the entries of a running scan's
band lie below its channel; every label held is one, and so are the pairs of the assembly. -/
def TunerRec.listOk (t : TunerRec) : Prop :=
  t.stations.length ≤ 40 ∧ t.stations.Pairwise (fun a b => a.before b = true) ∧
  (∀ k o, t.scan = some k → t.op = some o →
    ∀ e, e ∈ t.stations → e.band = o.scanBand → e.frequency < k.channel) ∧
  (∀ e l, e ∈ t.stations → e.label = some l → labelOk l) ∧
  (∀ (n : Fin 40) (r : PresetRec) l, t.presets[n] = some r → r.label = some l → labelOk l) ∧
  labelOk t.label.chars

/-- The tuner is on its grids and its collections are in order. -/
def State.tunerOk (s : State) : Prop := s.tuner.gridOk ∧ s.tuner.listOk

/-- The decoder is IDLE exactly when it is bound to no input (R74). -/
def State.bindingOk (s : State) : Prop := s.decoder.state = .idle ↔ s.decoder.binding = none

end Sys2Proof.Machine
end

