-- ==== Sys2Proof/Certificates/Slice0/Obligations.lean ====
section
/-! DEFINITION. The statements about the part, for the provers. -/

open Sys2Proof Sys2Proof.Machine

/-! ### Steps and frames -/

/-- A step takes the command at the front of the queue and executes it on the state that holds the
rest of the queue.
With nothing waiting, the part idles: the model's choice (log 2). -/
def Obligations.StepRunsFrontCommand : Prop :=
  (∀ (c : Instr) (rest : List Instr) (s : State), s.pending = c :: rest →
     step s = exec c { s with pending := rest }) ∧
  (∀ s : State, s.pending = [] → step s = .next s)

/-- The bytes of sections 11.2 and 11.4 that encode a command with its own length decode to that
command and head, and their first byte is their number. -/
def Obligations.FrameDecodeEncode : Prop :=
  ∀ (h : FrameHead) (c : Cmd), h.length = c.ownLength →
    decodeFrame (encodeFrame h c) = some (h, c) ∧
    (byteAt (encodeFrame h c) 0).toNat = (encodeFrame h c).length ∧
    (encodeFrame h c).length = h.length

/-- A COMMAND transaction that brings the bytes of a command is the arrival of that command: the
command's own row of the table. -/
def Obligations.FrameBytesAreTheCommand : Prop :=
  ∀ (p : Port) (h : FrameHead) (c : Cmd) (s : State), h.length = c.ownLength →
    exec (.commandFrameRefused p (encodeFrame h c)) s = exec (rowOf p h c) s

/-- The tests of R178 on a frame's bytes, each refusing with the response and the detail record of
R186: BAD_LENGTH, then ATTENTION, then UNKNOWN_COMMAND, then BAD_PARAMETER for the flags and for LINK
on a service command. A frame that arrives while PRST is asserted changes nothing (R174).
A frame of a known command whose length is not the command's own is refused with BAD_LENGTH, and
the residue is the correct length less the frame's: for a service command (R178) and for an ordinary one
taken at once (R180). A residue beyond a signed two-byte field wraps, the model's choice (log 39), and so
are the tag 0 and code 0 in the response to a frame of fewer than 3 bytes (log 40), and the fields of the record
that the spec does not state for BAD_PARAMETER and ATTENTION (log 41). -/
def Obligations.FramesRefusedInOrder : Prop :=
  (∀ (p : Port) (bytes : List Byte) (s : State),
     ((s.port p).prst = true → exec (.commandFrameRefused p bytes) s = .next s) ∧
     ((s.port p).prst = false →
       (¬ frameLengthOk bytes →
         exec (.commandFrameRefused p bytes) s = .next
           (s.refusedFrame p bytes.length
             (if bytes.length < 3 then 0 else byteAt bytes 1) (if bytes.length < 3 then 0 else byteAt bytes 2)
             .badLength 0xFF
             (if bytes.length < 4 then 0
              else BitVec.ofInt 16 (((byteAt bytes 0).toNat : Int) - (bytes.length : Int)))
             .frameLength (s.port p).attention)) ∧
       (frameLengthOk bytes → byteAt bytes 2 ≠ 0x03 → ∀ why, (s.port p).attention = some why →
         exec (.commandFrameRefused p bytes) s = .next
           (s.refusedFrame p bytes.length (byteAt bytes 1) (byteAt bytes 2) .attention 0xFF 0 why none)) ∧
       (frameLengthOk bytes → (s.port p).attention = none →
         decodeCmd (byteAt bytes 2) (bytes.drop 4) = none →
         exec (.commandFrameRefused p bytes) s = .next
           (s.refusedFrame p bytes.length (byteAt bytes 1) (byteAt bytes 2) .unknownCommand 0xFF 0 .none none)) ∧
       (frameLengthOk bytes → ((s.port p).attention = none ∨ byteAt bytes 2 = 0x03) →
         ∀ c, decodeCmd (byteAt bytes 2) (bytes.drop 4) = some c →
         (2 ≤ (byteAt bytes 3).toNat ∨ (c.isService = true ∧ (byteAt bytes 3).toNat = 1)) →
         exec (.commandFrameRefused p bytes) s = .next
           (s.refusedFrame p bytes.length (byteAt bytes 1) (byteAt bytes 2) .badParameter 0xFE 0 .none
             (s.port p).attention)))) ∧
  (∀ (p : Port) (h : FrameHead) (c : Cmd) (s : State),
     (s.port p).prst = false → (s.port p).attention = none → 4 ≤ h.length → h.length ≤ 64 → h.flags = 0 →
     (c.isService = true ∨ ((s.port p).chain = .none ∧ (s.port p).inbound = [])) →
     h.length ≠ c.ownLength →
     exec (rowOf p h c) s = .next (s.closed p h c
       { status := .badLength, slot := none, data := [], param := 0xFF,
         residue := BitVec.ofInt 16 ((c.ownLength : Int) - (h.length : Int)) }))

/-! ### Placing, queueing and chains -/

/-- Where an ordinary command is placed when it is not taken at once (R179): refused with QUEUE_FULL,
appended to the inbound queue with the answer QUEUED, or discarded from a broken chain with CHAIN_BROKEN
and one record (R183). -/
def Obligations.CommandsArePlaced : Prop :=
  ∀ (p : Port) (h : FrameHead) (c : Cmd) (s : State), admitted s p h c →
    (4 ≤ (s.port p).inbound.length →
      exec (rowOf p h c) s = .next (s.closed p h c (Answer.plain .queueFull))) ∧
    ((s.port p).inbound.length < 4 →
      ((((s.port p).chain = .none ∨ (s.port p).chain = .open) ∧ (s.port p).inbound ≠ []) ∨
        (s.port p).chain = .holding ∨
        ((s.port p).chain = .broken ∧ ((s.port p).inbound ≠ [] ∨ 8 ≤ (s.port p).completions.length))) →
      exec (rowOf p h c) s = .next
        ((s.setPort p { s.port p with inbound := (s.port p).inbound ++ [{ head := h, cmd := c }] }).closed
          p h c (Answer.plain .queued))) ∧
    ((s.port p).chain = .broken → (s.port p).inbound = [] → (s.port p).completions.length < 8 →
      h.flags = 1 →
      exec (rowOf p h c) s = .next
        ((s.setPort p { s.port p with
          completions := (s.port p).completions ++
            [{ tag := h.tag, code := c.code, status := .chainBroken, slot := none, mark := .member,
               result := [], heldBack := true }] }).closed p h c (Answer.plain .chainBroken))) ∧
    ((s.port p).chain = .broken → (s.port p).inbound = [] → (s.port p).completions.length < 8 →
      h.flags = 0 →
      ∃ t, exec (rowOf p h c) s = .next t ∧ (t.port p).chain = .none ∧ (t.port p).hold = none ∧
        (t.port p).completions =
          ((s.port p).completions ++
            [({ tag := h.tag, code := c.code, status := .chainBroken, slot := none, mark := .last,
                result := [], heldBack := true } : Completion)]).map (fun r => { r with heldBack := false }) ∧
        (t.port p).inbound = [] ∧
        (t.port p).response =
          some { status := .chainBroken, tag := h.tag, code := c.code, slot := none, data := [] } ∧
        (∀ q, q ≠ p → t.port q = s.port q) ∧ onlyChanges [.ports, .slots] s t)

/-- How a chain moves with a member taken on arrival (R180, R182): a member whose length is not the command's own
is answered BAD_LENGTH with the residue, and executes nothing. Answered ACCEPTED, with its operation still running,
the chain moves to HOLDING with the member's slot and whether LINK was set; where the operation ended at once
(Compact Delay Memory with no segment to move, R133), the chain has moved with that end, to OPEN with LINK set and
to its end with LINK clear. Any other answer takes the chain to OPEN after a success and to BROKEN_CHAIN otherwise
with LINK set, and with LINK clear the chain ends, every held-back record and every slot's chain mark being
released (R184). -/
def Obligations.ChainMovesWithMembers : Prop :=
  ∀ (p : Port) (h : FrameHead) (c : Cmd) (s u : State) (a : Answer), admitted s p h c →
    (s.port p).inbound = [] → ((s.port p).chain = .open ∨ ((s.port p).chain = .none ∧ h.flags = 1)) →
    executes { port := p, tag := h.tag, mark := if h.flags = 1 then .member else .last } h c s a u →
    (a.status ≠ .accepted →
      (h.flags = 1 → exec (rowOf p h c) s = .next ((u.setPort p { u.port p with
        chain := if a.status = .done ∨ a.status = .doneNoChange ∨ a.status = .deferred then .open
                 else .broken }).closed p h c a)) ∧
      (h.flags = 0 → ∃ v, chainEnded u v p ∧ exec (rowOf p h c) s = .next (v.closed p h c a))) ∧
    (a.status = .accepted → exec (rowOf p h c) s = .next (u.closed p h c a) ∧ ∀ k, a.slot = some k →
      (∀ b, u.slot k = some b → b.waiting = none →
        (u.port p).chain = .holding ∧ (u.port p).hold = some ⟨k, h.flags = 1⟩ ∧
        b.mark = (if h.flags = 1 then .member else .last) ∧ b.inChain = true ∧ b.port = p ∧ b.tag = h.tag) ∧
      ((∀ b, u.slot k = some b → b.waiting ≠ none) →
        (u.port p).hold = none ∧ (u.port p).chain = (if h.flags = 1 then .open else .none) ∧
        (h.flags = 0 → ∀ r, r ∈ (u.port p).completions → r.heldBack = false)))

/-- When a long operation ends (R194): where its port's completion queue has room, its record enters the queue
and its slot is FREE; where the queue is full, the record waits in its slot with a completion order after those of
the port's waiting slots. A chain that holds on another slot, or does not hold, stays as it was. A chain that held
on the slot moves: OPEN after DONE and BROKEN_CHAIN after any other status where the member had LINK set; where it
had LINK clear, the chain ends, and the records of the queue and the slots of the port are held back no more (R182,
R184). Nothing else changes. That an order is one more than the highest waiting, and 0 where none waits, is how the
model keeps R194's order. -/
def Obligations.CompletionsMoveTheChain : Prop :=
  ∀ (s : State) (k : Fin 8) (b : SlotBody) (st : Status) (result : List Byte), s.slot k = some b →
    let pr := s.port b.port
    let t := s.complete k st result
    let room := pr.completions.length < 8
    let queued := if room then pr.completions ++ [slotRecord k b st result] else pr.completions
    let waits := fun (j : Fin 8) (m : Nat) =>
      ∃ b' r', s.slot j = some b' ∧ b'.port = b.port ∧ b'.waiting = some (r', m)
    ∃ n : Nat, (∀ j m, waits j m → m < n) ∧ (n = 0 ∨ ∃ j m, waits j m ∧ n = m + 1) ∧
      let left : Slot := if room then none else some { b with waiting := some (slotRecord k b st result, n) }
      (¬ (pr.chain = .holding ∧ ∃ link, pr.hold = some ⟨k, link⟩) →
        t = (s.setSlot k left).setPort b.port { pr with completions := queued }) ∧
      (pr.chain = .holding → pr.hold = some ⟨k, true⟩ →
        t = (s.setSlot k left).setPort b.port { pr with
          completions := queued, hold := none, chain := if st = .done then .open else .broken }) ∧
      (pr.chain = .holding → pr.hold = some ⟨k, false⟩ →
        chainEnded ((s.setSlot k left).setPort b.port { pr with completions := queued }) t b.port)

/-- QUEUE_HEAD_TAKEN (R181): in NONE and in OPEN with room, the command at the head of the queue is
executed and its answer becomes the last response. Unless it is ACCEPTED, its one record enters the
completion queue with DONE for a success and FAILED for anything else, the result holding the answer; as a
chain member it carries its mark, and the chain moves: held back and OPEN or BROKEN_CHAIN with LINK set, the
end of the chain with LINK clear (R182, R184). A head answered ACCEPTED posts no record of its own. A head whose
length is not the command's own executes nothing: its answer is BAD_LENGTH with the residue, and its record FAILED,
which breaks a chain (R180 to R182). Where the command's own records fill the queue, its record keeps the place
that was free when it was taken (DEDUCED, log 10).
CHAIN_MEMBER_DISCARDED (R183): in BROKEN_CHAIN with room, the head of the queue leaves with one
record of status CHAIN_BROKEN; with LINK clear the chain ends and every record is released.
That either step does nothing where its conditions fail is the model's choice (log 30). -/
def Obligations.QueueHeadsTakenAndDiscarded : Prop :=
  (∀ (p : Port) (s : State),
     (∀ (q : QueuedCmd) (rest : List QueuedCmd) (a : Answer) (u : State),
       (s.port p).inbound = q :: rest → ((s.port p).chain = .none ∨ (s.port p).chain = .open) →
       q.head.flags.toNat < 2 → (s.port p).completions.length < 8 →
       let mark : ChainMark := if q.head.flags = 1 then .member
         else if (s.port p).chain = .open then .last else .none
       let x : Ctx := { port := p, tag := q.head.tag, mark := mark }
       let s' := s.setPort p { s.port p with inbound := rest }
       let good := fun a : Answer => a.status = .done ∨ a.status = .doneNoChange ∨ a.status = .deferred
       let record := fun a : Answer => ({ tag := q.head.tag, code := q.cmd.code
                                          status := if good a then .done else .failed, slot := none, mark := mark
                                          result := [a.status.code], heldBack := mark != .none } : Completion)
       executes x q.head q.cmd s' a u →
       let answered := fun (a : Answer) (r : PortRec) => ({ r with
         response := some { status := a.status, tag := q.head.tag, code := q.cmd.code, slot := a.slot,
                            data := a.data }
         detail := if a.status.writesDetail then
             some { status := a.status, code := q.cmd.code, tag := q.head.tag, param := a.param,
                    residue := a.residue, reason := .none }
           else r.detail } : PortRec)
       let gives := fun (a : Answer) (u : State) (completions : List Completion) =>
         let taken : PortRec := { answered a (u.port p) with completions := completions }
         (mark = .none → exec (.queueHeadTaken p) s = .next (u.setPort p taken)) ∧
         (mark = .member → exec (.queueHeadTaken p) s =
           .next (u.setPort p { taken with chain := if good a then .open else .broken })) ∧
         (mark = .last → ∃ t, exec (.queueHeadTaken p) s = .next t ∧ chainEnded (u.setPort p taken) t p)
       (a.status = .accepted → exec (.queueHeadTaken p) s = .next (u.setPort p (answered a (u.port p)))) ∧
       (a.status ≠ .accepted → (u.port p).completions.length < 8 →
         gives a u ((u.port p).completions ++ [record a])) ∧
       (a.status ≠ .accepted → 8 ≤ (u.port p).completions.length → ∀ a' u',
         executes x q.head q.cmd (s'.setPort p { s'.port p with
           completions := (s.port p).completions ++ [record (Answer.plain .done)] }) a' u' → a'.status ≠ .accepted →
         gives a' u' ((u'.port p).completions.set (s.port p).completions.length (record a')))) ∧
     ((s.port p).inbound = [] ∨ (s.port p).chain = .holding ∨ (s.port p).chain = .broken ∨
         8 ≤ (s.port p).completions.length →
       exec (.queueHeadTaken p) s = .next s)) ∧
  (∀ (p : Port) (s : State),
     (∀ (q : QueuedCmd) (rest : List QueuedCmd), (s.port p).inbound = q :: rest →
       (s.port p).chain = .broken → (s.port p).completions.length < 8 →
       (q.head.flags = 1 → exec (.chainMemberDiscarded p) s = .next (s.setPort p { s.port p with
         inbound := rest
         completions := (s.port p).completions ++
           [{ tag := q.head.tag, code := q.cmd.code, status := .chainBroken, slot := none, mark := .member,
              result := [], heldBack := true }] })) ∧
       (q.head.flags = 0 → ∃ t, exec (.chainMemberDiscarded p) s = .next t ∧
         t.port p = { s.port p with
           inbound := rest, chain := .none, hold := none
           completions := ((s.port p).completions ++
             [({ tag := q.head.tag, code := q.cmd.code, status := .chainBroken, slot := none, mark := .last,
                 result := [], heldBack := true } : Completion)]).map (fun r => { r with heldBack := false }) } ∧
         (∀ r, r ≠ p → t.port r = s.port r) ∧ onlyChanges [.ports, .slots] s t)) ∧
     ((s.port p).inbound = [] ∨ (s.port p).chain ≠ .broken ∨ 8 ≤ (s.port p).completions.length →
       exec (.chainMemberDiscarded p) s = .next s))

/-! ### Responses, detail records and resets -/

/-- A RESPONSE transaction drives the bytes of the last response in order and 0x00 after the last,
and a clocked byte makes the last response absent; without one, NO_RESPONSE with tag 0, code 0, slot 0xFF
and length 0 is driven; a transaction that ends after the kind byte leaves the response; while PRST is
asserted nothing happens (R174, R177, R207). That `dataOut` holds what the port's last transaction drove after the
kind byte, and is empty after one that ends there, is how the model records it (log 4). -/
def Obligations.ResponseTransactions : Prop :=
  ∀ (p : Port) (n : Nat) (s : State),
    ((s.port p).prst = true → exec (.responseTransaction p n) s = .next s) ∧
    ((s.port p).prst = false →
      (n = 0 → exec (.responseTransaction p n) s = .next (s.setPort p { s.port p with dataOut := [] })) ∧
      (0 < n → ∀ r : Response, (s.port p).response = some r →
        exec (.responseTransaction p n) s = .next (s.setPort p { s.port p with
          response := none
          dataOut := ([r.status.code, r.tag, r.code, slotByte r.slot] ++ natBytes r.data.length ++ r.data ++
            List.replicate n 0).take n })) ∧
      (0 < n → (s.port p).response = none →
        exec (.responseTransaction p n) s = .next (s.setPort p { s.port p with
          dataOut := ([0x07, 0, 0, 0xFF, 0, 0] ++ List.replicate n 0).take n })))

/-- No Operation is answered DONE with no data and changes nothing else (R189). Read Detail gives the seven
bytes of the record held, which then becomes absent; with none held it is answered NO_DETAIL with no
data and writes no record; attention SET does not matter (R185, R187). -/
def Obligations.NoOperationAndReadDetail : Prop :=
  ∀ (p : Port) (h : FrameHead) (s : State),
    (takenAtOnce s p h .noOperation →
      exec (.noOperation p h) s = .next (s.closed p h .noOperation (Answer.plain .done))) ∧
    ((s.port p).prst = false → h.length = 4 → h.flags = 0 →
    (∀ d : DetailRec, (s.port p).detail = some d →
      exec (.readDetail p h) s = .next
        ((s.setPort p { s.port p with detail := none }).closed p h .readDetail
          (Answer.withData .done
            ([d.status.code, d.code, d.tag, d.param] ++ halfBytes d.residue ++ [d.reason.code])))) ∧
    ((s.port p).detail = none →
      exec (.readDetail p h) s = .next (s.closed p h .readDetail (Answer.plain .noDetail))))

/-- A read command executes whatever the residue: its data is the first of the bytes available, and
its status says whether the count asked for is the number available, above it or below it (R188). A
count above 4,096 is refused with BAD_PARAMETER naming the last parameter (R176). Nothing else changes. The reason
NONE in the detail record of these, and the residue 0 of BAD_PARAMETER, are the model's choice (log 41).
The bytes available, their number and every field at its offset, in the codes of R206: 24 of Identify (R189), 16
of Read Zone (R22), 3 + 7 × depth of Read Override Stack (R35; the layer is that of R30), 102 of Read Assignment
(R41), 10 of Read Protection (R60), 5 for an input and 60 for ALL of Read Input (R66), 19 of Read Decoder (R84),
69 of Read Speakers (R92), 13 + 15 × segments of Read Segment Table (R137), 26 of Read Tuner (R157), 13 for each
preset and 2 + 13 for each station where labels have eight characters (R172), and 73 of Read Slots (R198).
A two-byte field has its high byte first, and an absent field is 0xFF or 0xFFFF. The model's own are the values 0
and 1 of the last three bytes of Read Protection (log 18), the two bytes of a slot's zone or band (log 25), and the
count of minutes since POWER-ON as the step MINUTE_EVENT counts it (log 19). -/
def Obligations.ReadCommandsAnswerAPrefix : Prop :=
  (∀ (p : Port) (h : FrameHead) (c : Cmd) (s : State) (bytes : List Byte) (count : Half),
     taken s p h c → readOf s p c = some (bytes, count) →
     (count.toNat ≤ 4096 →
       exec (rowOf p h c) s = .next (s.closed p h c
         { status := if count.toNat = bytes.length then .done
                     else if bytes.length < count.toNat then .doneShort else .doneTruncated
           slot := none, data := bytes.take count.toNat, param := 0xFF
           residue := BitVec.ofInt 16 ((count.toNat : Int) - (bytes.length : Int)) })) ∧
     (4096 < count.toNat →
       exec (rowOf p h c) s = .next (s.closed p h c
         (Answer.badParam (match c with
           | .readZone _ _ => 1
           | .readOverrideStack _ _ => 1
           | .readInput _ _ => 1
           | .readDecoder _ _ => 1
           | .readPresets _ _ => 1
           | .readStationList _ _ => 1
           | _ => 0))))) ∧
  (∀ (s : State) (p : Port) (c : Cmd) (bytes : List Byte) (count : Half), readOf s p c = some (bytes, count) →
     let one := fun n : Nat => (BitVec.ofNat 8 n : Byte)
     let two := fun n : Nat => ([BitVec.ofNat 8 (n / 256), BitVec.ofNat 8 n] : List Byte)
     let zone := fun z : Zone => placeIn [.main, .z2, .z3] z
     let port := fun q : Port => placeIn [.a, .b, .c] q
     let source := fun x : Source => match x with
       | .input i => one i.val
       | .tuner => 12
     let gain := fun g : Int => (BitVec.ofInt 8 (g + 161) : Byte)
     let slot := fun k : Option (Fin 8) => (k.map (fun k => one k.val)).getD 0xFF
     let mode := fun m : SurroundMode => placeIn [.direct, .stereo, .matrix, .allStereo] m
     let flag := fun b : Bool => placeIn [false, true] b
     let label := fun l : Option (List Byte) => match l with
       | some l => 1 :: l
       | none => 0 :: List.replicate 8 0x20
     match c with
     | .identify _ => bytes.length = 24 ∧
       bytes = [0x43, 0x4D, 0x34, 0x31, 0x36, 0x30, 0x20, 0x20, 1, port p, 3, 3, 13, 8, 4, 8, 9, 40, 40] ++
         two 1024 ++ [64] ++ two s.minute.count
     | .readZone code _ => bytes.length = 16 ∧ ∀ z, zoneOf code = some z →
       let r := s.zone z
       bytes = [zone z, placeIn [.standby, .waking, .on, .quieting] r.power, source r.live,
           (r.waiting.map source).getD 0xFF, placeIn [.playing, .noSignal, .unavailable] r.status,
           gain r.volume, gain r.maxVolume, flag r.mute] ++ two r.lipSync ++
         [mode r.mode, (r.pendingPower.map (placeIn [.on, .standby])).getD 0xFF, one r.sleepTimer,
           one r.stack.length, slot r.opSlot, slot r.pendingSlot]
     | .readOverrideStack code _ => ∀ z, zoneOf code = some z →
       let stack := (s.zone z).stack
       bytes.length = 3 + 7 * stack.length ∧
       fieldsAt bytes 0 [zone z, one stack.length, ((layerOf stack p).map one).getD 0xFF] ∧
       ∀ k e, stack[k]? = some e → fieldsAt bytes (3 + 7 * (stack.length - 1 - k))
         [one k, source e.source, gain e.volume, flag e.mute, mode e.mode, port e.port, e.tag]
     | .readAssignment _ => bytes.length = 102 ∧
       (∀ k : Fin 6, let e := s.outputs.assign[k]
         fieldsAt bytes (4 * k.val) [one (k.val + 6), placeIn [.none, .bl, .br, .hl, .hr] e.mainRole,
           placeIn [.none, .z2l, .z2r, .z3l, .z3r] e.remoteRole, placeIn [.mainFirst, .remoteFirst] e.priority]) ∧
       (∀ o : Fin 13, let r := s.out o
         let state : Byte := match r.state with
           | .idle => 0
           | .granted => 1
           | .handover => if r.phase = some .relayOpen then 3 else if r.phase = some .reallocate then 4 else 2
           | .fault => 5
           | .starved => 6
         fieldsAt bytes (24 + 6 * o.val) [one (o.val + 1), state, (r.zone.map zone).getD 0xFF,
           (r.target.map (fun y => (y.map zone).getD 3)).getD 0xFF, placeIn [true, false] r.segment, flag r.relay])
     | .readProtection _ => bytes.length = 10 ∧
       let level := fun l : ActiveLevel => placeIn [.low, .high] l
       fieldsAt bytes 0 [level s.outputs.fltLevel, level s.outputs.thwLevel, level s.outputs.thtLevel] ∧
       (∀ k, k < 16 →
         ((halfAt bytes 3).getLsbD k = true ↔ ∃ n : Fin 11, n.val = k ∧ (s.fltLine n).active = true) ∧
         ((halfAt bytes 5).getLsbD k = true ↔ ∃ n : Fin 11, n.val = k ∧ (s.out (lineOutput n)).state = .fault)) ∧
       fieldsAt bytes 7 [flag s.outputs.thw.active, flag s.outputs.tht.active, flag s.outputs.latch]
     | .readInput input _ => bytes.length = (if input = 0x80 then 60 else 5) ∧
       ∀ i : Fin 12, let r := s.input i
       let record := [one i.val, placeIn [.noSignal, .locking, .pcm2, .pcmn, .packed] r.state] ++
         two (r.mask.getD 0).toNat ++ [r.rate.getD 0xFF]
       (input.toNat = i.val → bytes = record) ∧ (input = 0x80 → fieldsAt bytes (5 * i.val) record)
     | .readDecoder _ _ => bytes.length = 19 ∧
       let d := s.decoder
       let header : List Byte := match d.header with
         | none => List.replicate 9 0
         | some f => [1, f.rate, one f.blocks] ++ two f.mask.toNat ++ [one f.dialogue] ++
             (match f.downmix with
               | none => [0, 0, 0]
               | some (x, y) => [1, one x, one y])
       bytes = [(d.binding.map (fun i => one i.val)).getD 0xFF,
           placeIn [.idle, .searching, .locked, .concealing] d.state, one d.consecutiveBad] ++ header ++
         [placeIn [.none, .sync, .lengthRange, .rate, .blocks, .mask, .downmix, .width, .lengthMismatch, .check]
           d.lastError] ++ two d.good ++ two d.bad ++ two d.concealed
     | .readSpeakers _ => bytes.length = 69 ∧
       let order : List Position := [.fl, .fr, .c, .sl, .sr, .bl, .br, .hl, .hr, .sub1, .sub2]
       fieldsAt bytes 0 [s.mix.crossover] ∧
       (∀ k, k < 16 → ((halfAt bytes 1).getLsbD k = true ↔ ∃ w, order[k]? = some w ∧ w ∈ s.mix.speakerSet)) ∧
       (∀ k w, order[k]? = some w → let r := s.speaker w
         fieldsAt bytes (3 + 6 * k) ([one k, placeIn [.large, .small, .none] r.size] ++ two r.distance ++
           [BitVec.ofInt 8 r.trim, flag r.inverted]))
     | .readSegmentTable _ =>
       let d := s.delay
       bytes.length = 13 + 15 * d.segments.length ∧
       fieldsAt bytes 0 ([placeIn [.uninit, .initializing, .ready, .fault] d.state, flag d.compaction.isSome] ++
         two ((List.range 1024).filter d.pageFree).length ++ two (4 * d.badRows.length) ++ two d.largestHole ++
         two (d.dref.getD 0xFFFF)) ∧
       (∀ k, k < 16 → ((halfAt bytes 10).getLsbD k = true ↔ ∃ o : Fin 13, o.val = k ∧ o ∈ d.starved)) ∧
       fieldsAt bytes 12 [one d.segments.length] ∧
       ∀ k g, d.segments[k]? = some g →
         let hold : Byte := match g.change, g.move with
           | some x, _ => placeIn [.retime, .shrink, .grow, .relocate] x.kind + 1
           | none, some m => placeIn [.ramp, .copy] m.stage + 5
           | none, none => 0
         let next : List Byte := match g.change, g.move with
           | some x, _ => two x.base ++ [one x.count] ++ two x.delay
           | none, some m => two m.target ++ [one g.count] ++ two g.delay
           | none, none => two g.base ++ [one g.count] ++ two g.delay
         fieldsAt bytes (13 + 15 * k) ([one (g.output.val + 1)] ++ two g.base ++ [one g.count] ++ two g.delay ++
           [one (g.writePos / 65536)] ++ two g.writePos ++ [hold] ++ next)
     | .readTuner _ => bytes.length = 26 ∧
       let t := s.tuner
       let chars := fun i : Fin 4 => match t.label.pair i with
         | some (a, b) => [a, b]
         | none => [0x20, 0x20]
       fieldsAt bytes 0 ([placeIn [.fm, .am] t.band] ++ two t.frequency ++ [placeIn [.nine, .ten] t.region,
         placeIn [.parked, .settling, .idle, .seeking, .scanning] t.state, one t.quality,
         placeIn [.stereo, .mono] t.blend, one t.threshold,
         (t.op.map (fun o => placeIn [.tune, .stepTune, .seek, .scan] o.kind)).getD 0xFF,
         slot (t.op.map (·.slot)), (t.op.map (fun o => port o.port)).getD 0xFF] ++
         two ((t.seek.map (·.start)).getD 0xFFFF) ++ two ((t.scan.map (·.channel)).getD 0xFFFF) ++
         [placeIn [.none, .partly, .complete] t.label.state, (t.label.version.map flag).getD 0xFF]) ∧
       (∀ k, k < 8 → ((byteAt bytes 17).getLsbD k = true ↔ ∃ i : Fin 4, i.val = k ∧ t.label.pair i ≠ none)) ∧
       fieldsAt bytes 18 (chars 0 ++ chars 1 ++ chars 2 ++ chars 3)
     | .readPresets first _ =>
       (∀ (n : Fin 40) (r : PresetRec) l, s.tuner.presets[n] = some r → r.label = some l → l.length = 8) →
       bytes.length = 13 * (41 - first.toNat) ∧
       ∀ n : Fin 40, first.toNat ≤ n.val + 1 → fieldsAt bytes (13 * (n.val + 1 - first.toNat))
         (match s.tuner.presets[n] with
           | some r => [one (n.val + 1), placeIn [.fm, .am] r.band] ++ two r.frequency ++ label r.label
           | none => [one (n.val + 1), 0xFF, 0xFF, 0xFF] ++ label none)
     | .readStationList first _ =>
       (∀ e l, e ∈ s.tuner.stations → e.label = some l → l.length = 8) →
       bytes.length = 2 + 13 * (s.tuner.stations.length - first.toNat) ∧
       fieldsAt bytes 0 [one s.tuner.stations.length, first] ∧
       ∀ k e, first.toNat ≤ k → s.tuner.stations[k]? = some e → fieldsAt bytes (2 + 13 * (k - first.toNat))
         ([placeIn [.fm, .am] e.band] ++ two e.frequency ++ [one e.quality] ++ label e.label)
     | .readSlots _ => bytes.length = 73 ∧
       fieldsAt bytes 0 [one ((List.finRange 8).filter (fun k => (s.slot k).isNone)).length] ∧
       ∀ k : Fin 8, fieldsAt bytes (1 + 9 * k.val) (match s.slot k with
         | none => [one k.val, 0, 0xFF, 0xFF, 0, 0xFF, 0xFF, 0xFF, 0xFF]
         | some b => [one k.val, if b.waiting = none then 1 else 2,
             placeIn [.zoneOn, .zoneStandby, .memoryStart, .compact, .tune, .stepTune, .seek, .scan, .recallStation,
               .recallPreset] b.kind, port b.port, b.tag] ++ two (b.target.getD 0xFFFF).toNat ++
             [placeIn [.none, .member, .last] b.mark, (b.waiting.map (fun w => w.1.status.code)).getD 0xFF])
     | _ => True)

/-- PORT_RESET: the port's own record, completion queue and event state take the values of R191 and
R205; the emptied queue then holds the records of its waiting slots in completion order and nothing else,
none of them held back; no other port and no other block changes, and a slot that is running keeps
running. PORT_RESET_RELEASE releases the line alone (R174). -/
def Obligations.PortResetReachesItsPortAlone : Prop :=
  ∀ (p : Port) (s : State),
    (∃ t, exec (.portReset p) s = .next t ∧
      (t.port p).inbound = [] ∧ (t.port p).chain = .none ∧ (t.port p).hold = none ∧
      (t.port p).attention = some .portReset ∧
      (t.port p).detail = some { status := .attention, code := 0, tag := 0, param := 0xFF, residue := 0,
                                 reason := .portReset } ∧
      (t.port p).response = none ∧ (t.port p).events = EventState.reset ∧ (t.port p).prst = true ∧
      (t.port p).notify = false ∧
      (∀ l : List (Fin 8 × Completion × Nat),
        (∀ x, x ∈ l ↔ ∃ b, s.slot x.1 = some b ∧ b.port = p ∧ b.waiting = some x.2) →
        l.Pairwise (fun x y => x.2.2 < y.2.2) →
        (t.port p).completions = l.map (fun x => { x.2.1 with heldBack := false })) ∧
      (∀ k b, s.slot k = some b → b.port = p → b.waiting = none → t.slot k = some { b with inChain := false }) ∧
      (∀ k b, s.slot k = some b → b.port = p → b.waiting ≠ none → t.slot k = none) ∧
      (∀ k b, s.slot k = some b → b.port ≠ p → t.slot k = some b) ∧
      (∀ q, q ≠ p → t.port q = s.port q) ∧ onlyChanges [.ports, .slots] s t) ∧
    exec (.portResetRelease p) s = .next (s.setPort p { s.port p with prst := false })

/-- Reset Part (R190, R205): the sending port holds the DONE answer and the others none; every port
has attention SET with the record of R185, an emptied queue and emptied event settings; every slot is
FREE. Every block takes the values of its PART RESET column (R23, R36, R61, R67, R85, R112, R138, R159,
R173): what the column keeps is kept, what it clears is cleared, and the minute divider runs on. That the
notify enable is CLEAR although the notify-on-pending flag was SET when the frame arrived is the model's
reading (log 11).
POWER_ON (R23, R61, R67, R85, R112, R138, R159, R173, R191): every block holds its POWER-ON values.
After both, each protection line is taken from its pin, each link that is present starts LOCKING, and what
they raise is found pending (R61, R67); every source status is that of R2. That the pins, the links, the PRST lines, the DRAM's words and the
waiting commands are kept is the model's choice (log 27). So are the values of the fields that the rules imply
without naming them, in the zone and output records and in the mix: quieting stage, wake, relay and relay-open
timers absent, switch-in and no-output marks clear, no virtual channel, no position redirected, silent lanes
(DESIGN CHOICE, log 23), and the empty `dataOut` of a port after POWER_ON (DESIGN CHOICE, log 4). -/
def Obligations.ResetsReachEveryBlock : Prop :=
  (∀ (p : Port) (h : FrameHead) (s : State), serviceTaken s p h .resetPart →
     ∃ t, exec (.resetPart p h) s = .next t ∧
       (t.port p).response = some { status := .done, tag := h.tag, code := 0x04, slot := none, data := [] } ∧
       (∀ q, q ≠ p → (t.port q).response = none) ∧
       (∀ q, (t.port q).attention = some .partReset ∧ (t.port q).inbound = [] ∧ (t.port q).chain = .none ∧
         (t.port q).hold = none ∧ (t.port q).completions = [] ∧ (t.port q).events.enable = 0 ∧
         (t.port q).events.notifyEnable = false ∧ (t.port q).events.notifyOnPending = false ∧
         (t.port q).notify = false ∧ (t.port q).prst = (s.port q).prst ∧
         (t.port q).detail = some { status := .attention, code := 0, tag := 0, param := 0xFF, residue := 0,
                                    reason := .partReset }) ∧
       (∀ z, t.zone z = { s.zone z with
           power := .standby, waiting := none, mute := false, opSlot := none, pendingPower := none
           pendingSlot := none, sleepTimer := 0, stack := [], quietStage := none, wakeTimer := none
           relayTimer := none, switchIn := false, noOutput := false, status := (t.zone z).status } ∧
         t.statusIs (t.zone z).live (t.zone z).status) ∧
       t.minute = s.minute ∧ t.outputs.assign = s.outputs.assign ∧
       linesTaken s t s.outputs.fltLevel s.outputs.thwLevel s.outputs.thtLevel ∧ linksTaken s t ∧
       t.decoder = DecoderRec.reset ∧
       t.mix = { MixState.reset with speakers := s.mix.speakers, crossover := s.mix.crossover } ∧
       t.delay = { s.delay with
         state := if s.delay.state = .initializing then .uninit else s.delay.state, check := none
         badRows := if s.delay.state = .initializing then [] else s.delay.badRows
         segments := [], dref := none, starved := [], compaction := none } ∧
       t.tuner = { s.tuner with
         frequency := (s.tuner.seek.map (·.start)).getD s.tuner.frequency, state := .parked
         settle := none, op := none, seek := none, scan := none, label := LabelRec.cleared
         blend := if s.tuner.band = .fm ∧ 40 ≤ s.tuner.quality then .stereo else .mono } ∧
       (∀ k, t.slot k = none) ∧ t.pending = s.pending ∧ t.freeCount = s.freeCount) ∧
  (∀ s : State, ∃ t, exec .powerOn s = .next t ∧
    (∀ z, t.zone z = { State.reset.zone z with status := (t.zone z).status } ∧
      t.statusIs (t.zone z).live (t.zone z).status) ∧
    t.minute = { ms := 0, count := 0 } ∧ t.mix = MixState.reset ∧ t.decoder = DecoderRec.reset ∧
    t.delay = { DelayState.reset with dram := s.delay.dram } ∧ t.tuner = TunerRec.reset ∧
    (∀ k, t.slot k = none) ∧ t.outputs.assign = AssignEntry.table ∧
    linesTaken s t .low .low .low ∧ linksTaken s t ∧
    (∀ q, t.port q = { PortRec.reset .powerOn with prst := (s.port q).prst, events := (t.port q).events } ∧
      (t.port q).events.enable = 0 ∧ (t.port q).events.notifyEnable = false ∧
      (t.port q).events.notifyOnPending = false ∧ (t.port q).notify = false) ∧
    t.freeCount = s.freeCount ∧ t.pending = s.pending)

/-! ### Completions, slots and events -/

/-- DONE_WAITING_POST (R196): when the completion queue has room, the port's waiting slot with the
earliest completion order posts its record, held back while its chain has not ended, and becomes FREE.
Nothing else changes.
Read Completion (R196): with an empty queue DONE_NO_CHANGE; otherwise the head record is removed
and delivered after the number of records left; from a full queue, the waiting slot with the earliest
order posts into the place made. -/
def Obligations.CompletionsAreRead : Prop :=
  (∀ (p : Port) (s : State) (k : Fin 8) (b : SlotBody) (r : Completion) (n : Nat),
     (s.port p).completions.length < 8 → s.slot k = some b → b.port = p → b.waiting = some (r, n) →
     (∀ j b' r' m, s.slot j = some b' → b'.port = p → b'.waiting = some (r', m) → j ≠ k → n < m) →
     exec (.doneWaitingPost p) s = .next ((s.setPort p { s.port p with
       completions := (s.port p).completions ++ [{ r with heldBack := b.inChain }] }).setSlot k none)) ∧
  (∀ (p : Port) (h : FrameHead) (s : State), serviceTaken s p h .readCompletion →
     ((s.port p).completions = [] →
       exec (.readCompletion p h) s = .next (s.closed p h .readCompletion (Answer.plain .doneNoChange))) ∧
     (∀ (c : Completion) (rest : List Completion), (s.port p).completions = c :: rest →
       let a := Answer.withData .done
         ([BitVec.ofNat 8 rest.length, c.tag, c.code, c.status.code, slotByte c.slot, c.mark.code,
           BitVec.ofNat 8 c.result.length] ++ c.result)
       ((∀ k b, s.slot k = some b → b.port = p → b.waiting = none) →
         exec (.readCompletion p h) s = .next
           ((s.setPort p { s.port p with completions := rest }).closed p h .readCompletion a)) ∧
       (∀ (k : Fin 8) (b : SlotBody) (r : Completion) (n : Nat), rest.length = 7 → s.slot k = some b →
         b.port = p → b.waiting = some (r, n) →
         (∀ j b' r' m, s.slot j = some b' → b'.port = p → b'.waiting = some (r', m) → j ≠ k → n < m) →
         exec (.readCompletion p h) s = .next
           (((s.setPort p { s.port p with
               completions := rest ++ [{ r with heldBack := b.inChain }] }).setSlot k none).closed p h
             .readCompletion a))))

/-- Abort Operation, the tests of R197 in order: BAD_PARAMETER for a number above 7 and for a FREE
slot, NOT_OWNER, ALREADY_DONE, NOT_ABORTABLE, and DONE_NO_CHANGE for a compaction whose abort is already
requested; each changes nothing but the answer. A passed abort is answered DONE: a check stops with the
memory UNINIT (R118), a compaction has its abort requested (R135), a seek returns to its start (R150), a
scan keeps the entries found (R166), and each but the compaction ends its slot ABORTED (R194): the record is posted,
or waits in the slot where the queue is full, and a chain that holds on the slot moves (what `complete` does is
CompletionsMoveTheChain). -/
def Obligations.AbortOperationTests : Prop :=
  ∀ (p : Port) (h : FrameHead) (slot : Byte) (s : State), serviceTaken s p h (.abortOperation slot) →
    let same := fun a => exec (.abortOperation p h slot) s = .next (s.closed p h (.abortOperation slot) a)
    (8 ≤ slot.toNat → same (Answer.badParam 0)) ∧
    (∀ k : Fin 8, slot.toNat = k.val →
      (s.slot k = none → same (Answer.badParam 0)) ∧
      (∀ b, s.slot k = some b →
        (b.port ≠ p → same (Answer.plain .notOwner)) ∧
        (b.port = p → b.waiting ≠ none → same (Answer.plain .alreadyDone)) ∧
        (b.port = p → b.waiting = none →
          let aborts := fun (parts : List Part) (result : List Byte) (after : State → Prop) =>
            ∃ t, exec (.abortOperation p h slot) s = .next t ∧ after t ∧
              t = ({ s.complete k .aborted result with delay := t.delay, tuner := t.tuner } : State).closed p h
                (.abortOperation slot) (Answer.plain .done) ∧
              (canPost s k b → slotPosted s t k b .aborted result) ∧
              (t.port p).response =
                some { status := .done, tag := h.tag, code := 0x97, slot := none, data := [] } ∧
              onlyChanges (.slots :: .ports :: parts) s t
          (b.kind ≠ .memoryStart → b.kind ≠ .compact → b.kind ≠ .seek → b.kind ≠ .scan →
            same (Answer.plain .notAbortable)) ∧
          (b.kind = .compact → ∀ c, s.delay.compaction = some c →
            (c.abort = true → same (Answer.plain .doneNoChange)) ∧
            (c.abort = false → exec (.abortOperation p h slot) s =
              .next ((s.setDelay { s.delay with compaction := some { c with abort := true } }).closed p h
                (.abortOperation slot) (Answer.plain .done)))) ∧
          (b.kind = .memoryStart → ∀ c, s.delay.check = some c → c.slot = k →
            aborts [.delay] [] (fun t =>
              t.delay = { s.delay with state := .uninit, check := none, badRows := [] })) ∧
          (b.kind = .seek → ∀ o from', s.tuner.op = some o → o.kind = .seek → o.slot = k →
            s.tuner.seek = some from' →
            aborts [.tuner]
              ([s.tuner.band.code] ++ halfBytes (BitVec.ofNat 16 from'.start) ++ [0]) (fun t =>
                t.tuner.frequency = from'.start ∧ t.tuner.seek = none ∧ t.tuner.op = none ∧
                t.tuner.stations = s.tuner.stations ∧ settlesOrParks s t s.tuner.band)) ∧
          (b.kind = .scan → ∀ o, s.tuner.op = some o → o.kind = .scan → o.slot = k →
            aborts [.tuner]
              ([o.scanBand.code] ++ halfBytes (BitVec.ofNat 16 o.found) ++
                halfBytes (BitVec.ofNat 16 o.dropped) ++ [BitVec.ofNat 8 s.tuner.stations.length]) (fun t =>
                t.tuner.frequency = s.tuner.frequency ∧ t.tuner.scan = none ∧ t.tuner.op = none ∧
                t.tuner.stations = s.tuner.stations ∧ settlesOrParks s t s.tuner.band)))))

/-- Set Event Enable (R201): a bit above 8 is refused; the same set is DONE_NO_CHANGE; otherwise the
enable set takes it, and no pending kind or detail changes. Notify Off makes the notify enable CLEAR;
Notify On sets the notify-on-pending flag unless NOTIFY is already armed; a flag that was SET when the
frame arrived takes effect after its answer (R204). -/
def Obligations.EventEnablesAndNotify : Prop :=
  ∀ (p : Port) (h : FrameHead) (m : Half) (s : State),
    (serviceTaken s p h (.setEventEnable m) →
    (512 ≤ m.toNat →
      exec (.setEventEnable p h m) s = .next (s.closed p h (.setEventEnable m) (Answer.badParam 0))) ∧
    (m.toNat < 512 → m = (s.port p).events.enable →
      exec (.setEventEnable p h m) s = .next
        (s.closed p h (.setEventEnable m) (Answer.plain .doneNoChange))) ∧
    (m.toNat < 512 → m ≠ (s.port p).events.enable →
      exec (.setEventEnable p h m) s = .next
        ((s.setPort p { s.port p with events := { (s.port p).events with enable := m } }).closed p h
          (.setEventEnable m) (Answer.plain .done)))) ∧
    (serviceTaken s p h .notifyOff → (s.port p).events.notifyOnPending = false →
      exec (.notifyOff p h) s = .next
        ((s.setPort p { s.port p with
          events := { (s.port p).events with notifyEnable := false } }).closed p h .notifyOff
          (Answer.plain (if (s.port p).events.notifyEnable then .done else .doneNoChange)))) ∧
    (serviceTaken s p h .notifyOn → (s.port p).events.notifyOnPending = false →
      ((s.port p).events.notifyEnable = true →
        exec (.notifyOn p h) s = .next (s.closed p h .notifyOn (Answer.plain .doneNoChange))) ∧
      ((s.port p).events.notifyEnable = false →
        exec (.notifyOn p h) s = .next (s.setPort p { s.port p with
          response := some { status := .done, tag := h.tag, code := 0x90, slot := none, data := [] }
          dataOut := List.replicate h.length 0xFF
          events := { (s.port p).events with notifyOnPending := true } }))) ∧
    (serviceTaken s p h .notifyOn → (s.port p).events.notifyOnPending = true →
      exec (.notifyOn p h) s = .next (s.closed p h .notifyOn (Answer.plain .done)))

/-- Fetch Event (R202): of the kinds pending and enabled, or with ALL of the kinds pending, the one
of highest priority is returned with its detail and the pending set after the fetch, and leaves the
pending set with its detail cleared, but for COMPLETION; with no candidate the answer is DONE_NO_CHANGE.
In both cases the notify enable is cleared. An ALL flag other than 0 and 1 is refused. -/
def Obligations.FetchEventTakesTheFirst : Prop :=
  ∀ (p : Port) (h : FrameHead) (all : Byte) (s : State), serviceTaken s p h (.fetchEvent all) →
    let r := s.port p
    let candidate := fun k : EventKind => r.isPending k = true ∧ (all = 1 ∨ r.events.enable &&& k.bit ≠ 0)
    (2 ≤ all.toNat →
      exec (.fetchEvent p h all) s = .next (s.closed p h (.fetchEvent all) (Answer.badParam 0))) ∧
    (all.toNat < 2 → (∀ k, ¬ candidate k) →
      exec (.fetchEvent p h all) s = .next
        ((s.setPort p { r with events := { r.events with notifyEnable := false } }).closed p h
          (.fetchEvent all) (Answer.plain .doneNoChange))) ∧
    (all.toNat < 2 → ∀ k, candidate k → (∀ j : EventKind, j.priority < k.priority → ¬ candidate j) →
      let r1 : PortRec := { r with events := { (r.events.setKind k KindState.zero) with notifyEnable := false } }
      let d := (r.events.kind k).detail
      exec (.fetchEvent p h all) s = .next
        ((s.setPort p r1).closed p h (.fetchEvent all) (Answer.withData .done
          ([BitVec.ofNat 8 k.priority] ++ halfBytes r1.pendingSet ++ halfBytes d.outputs ++
            halfBytes d.inputs ++ [d.zones, d.reasons, d.flags]))))

/-- R203: Peek Events answers DONE with six bytes and changes no state, the notify enable among it;
Raise Event makes its kind pending on the sending port alone, keeps the detail held, has the line follow
R201, and is answered DONE, or DONE_NO_CHANGE when the kind was pending; a code that names none of the
nine kinds, or COMPLETION, is refused with BAD_PARAMETER. -/
def Obligations.PeekAndRaiseEvents : Prop :=
  ∀ (p : Port) (h : FrameHead) (kind : Byte) (s : State),
    (serviceTaken s p h .peekEvents →
      exec (.peekEvents p h) s = .next (s.closed p h .peekEvents (Answer.withData .done
        (halfBytes (s.port p).pendingSet ++ halfBytes (s.port p).events.enable ++
          [(if (s.port p).events.notifyEnable then 1 else 0) |||
            (if (s.port p).events.notifyOnPending then 2 else 0),
           BitVec.ofNat 8 (s.port p).completions.length])))) ∧
    (serviceTaken s p h (.raiseEvent kind) →
      ((kind = 0 ∨ kind = 2 ∨ 10 ≤ kind.toNat) →
        exec (.raiseEvent p h kind) s = .next (s.closed p h (.raiseEvent kind) (Answer.badParam 0))) ∧
      (∀ k : EventKind, k ≠ .completion → k.priority = kind.toNat →
        let r1 : PortRec := { s.port p with events :=
          ((s.port p).events.setKind k
            { pending := true, detail := ((s.port p).events.kind k).detail }) }
        exec (.raiseEvent p h kind) s = .next
          ((s.setPort p r1).closed p h (.raiseEvent kind)
            (Answer.plain (if (s.port p).isPending k then .doneNoChange else .done))) ∧
        (r1.notify = true ↔
          (s.port p).events.notifyEnable = true ∧
            ((s.port p).events.enable &&& k.bit ≠ 0 ∨
              (s.port p).pendingSet &&& (s.port p).events.enable ≠ 0))))

/-! ### Zones: power -/

/-- A Zone On in STANDBY that passes the conditions of R4 takes the lowest free slot, enters WAKING
for 120 ms with that slot as its operation slot, raises ZONE and is answered ACCEPTED (R5). The other
zones keep their records but for their derived fields; the inputs, the minute divider and the mix keep
theirs. The source statuses, the binding and the tuner follow (R2, R75, R76, R141, R142). The outputs that the segments were asked for are GRANTED in the zone with their relays closed, and hold
those segments; an output GRANTED elsewhere that comes to the zone begins its handover (R5, R43, R44).
What a wake asks for: one segment for each IDLE output that the grant rule gives the zone once it is WAKING,
with its total delay, in ascending order, and for MAIN against the new Dref (R5, R121, R125).
Two points are the model's: that the relay of an output GRANTED elsewhere stays as it was in RAMP_DOWN, so that it
stays open where the relay stage of a QUIETING zone had opened it (DESIGN CHOICE, log 38; the tables of R38 and
R46 say CLOSED), and that the two-byte target of the slot has the zone's code in its low byte (DESIGN CHOICE,
log 25).
The conditions of R4 on a Zone On in STANDBY, in their order: PROTECTED, MEMORY_BUSY, NOT_READY,
BUSY, and what the Delay Memory Controller answers; a zone code that names no zone is BAD_PARAMETER. A
refusal changes nothing but the answer. -/
def Obligations.ZoneOnTestsAndWakes : Prop :=
  (∀ (p : Port) (h : FrameHead) (zone : Byte) (z : Zone) (s u : State) (k : Fin 8),
     takenAtOnce s p h (.zoneOn zone) → zoneOf zone = some z → (s.zone z).power = .standby →
     s.outputs.latch = false → s.delay.state = .ready → s.delay.compaction = none →
     s.freeSlot = some k → s.wakeRequest z = .ok u →
     ∃ t, exec (.zoneOn p h zone) s = .next t ∧
       t.zone z = { s.zone z with
         power := .waking, opSlot := some k, wakeTimer := some 120, status := (t.zone z).status,
         noOutput := (t.zone z).noOutput } ∧
       t.slot k = unlinkedSlot .zoneOn (some (z.code.zeroExtend 16)) p h ∧
       (∀ j, j ≠ k → t.slot j = s.slot j) ∧ zoneReported t z ∧
       (∀ y, y ≠ z → (s.zone y).sameButDerived (t.zone y)) ∧ followsOn s t ∧
       onlyReplied s t p h (.zoneOn zone) (Answer.acceptedIn k) ∧
       onlyChanges [.zones, .outputs, .delay, .decoder, .tuner, .slots, .ports] s t ∧
       ((∀ o, (s.out o).state = .starved → s.delay.segment o = none) → ∀ o r,
         (s.setZone z { s.zone z with power := .waking }).grantRule o = some (z, r) →
         ((s.out o).state = .idle →
           t.out o = { state := .granted, phase := none, zone := some z, role := some r, target := none
                       segment := true, relay := decide (o.val < 11), relayOpenTimer := none } ∧
           t.delay.segment o = u.delay.segment o ∧ t.delay.segment o ≠ none) ∧
         ((s.out o).state = .granted → (s.out o).zone ≠ some z →
           t.out o = { s.out o with state := .handover, phase := some .rampDown, target := some (some z) }))) ∧
  (∀ (z : Zone) (s : State) (dref : Option Nat) (reqs : List (Fin 13 × Nat)),
    s.asksFor z dref reqs → s.wakeDref z dref →
    (∀ e, ({ s.delay with dref := dref } : DelayState).request reqs = .error e → s.wakeRequest z = .error e) ∧
    (∀ d, ({ s.delay with dref := dref } : DelayState).request reqs = .ok d →
      s.wakeRequest z = .ok (s.setDelay d))) ∧
  (∀ (p : Port) (h : FrameHead) (zone : Byte) (s : State), takenAtOnce s p h (.zoneOn zone) →
     let same := fun a => exec (.zoneOn p h zone) s = .next (s.closed p h (.zoneOn zone) a)
     (3 ≤ zone.toNat → same (Answer.badParam 0)) ∧
     (∀ z, zoneOf zone = some z → (s.zone z).power = .standby →
       (s.outputs.latch = true → same (Answer.plain .isProtected)) ∧
       (s.outputs.latch = false →
         (s.delay.state = .initializing ∨ s.delay.compaction ≠ none → same (Answer.plain .memoryBusy)) ∧
         (s.delay.compaction = none →
           (s.delay.state = .uninit ∨ s.delay.state = .fault → same (Answer.plain .notReady)) ∧
           (s.delay.state = .ready →
             (s.freeSlot = none → same (Answer.plain .busy)) ∧
             (∀ e, s.freeSlot ≠ none → s.wakeRequest z = .error e → same (Answer.plain e)))))))

/-- Power commands that find the zone in a transition or in the requested state (R10): the rows
answered DONE_NO_CHANGE with nothing changed, the commands that become pending with a slot of their own,
and their refusals. That the two-byte target of the slot has the zone's code in its low byte is the model's
choice (log 25). -/
def Obligations.PowerCommandsInTransition : Prop :=
  ∀ (p : Port) (h : FrameHead) (zone : Byte) (z : Zone) (s : State), zoneOf zone = some z →
    let r := s.zone z
    (takenAtOnce s p h (.zoneOn zone) →
      let answers := fun u a => exec (.zoneOn p h zone) s = .next (State.closed u p h (.zoneOn zone) a)
      (r.power = .on ∨ (r.power = .waking ∧ r.pendingPower = none) ∨
          (r.power = .quieting ∧ r.pendingPower ≠ none) → answers s (Answer.plain .doneNoChange)) ∧
      (r.power = .quieting → r.pendingPower = none →
        (s.outputs.latch = true → answers s (Answer.plain .isProtected)) ∧
        (s.outputs.latch = false → s.freeSlot = none → answers s (Answer.plain .busy)) ∧
        (s.outputs.latch = false → ∀ k, s.freeSlot = some k →
          answers (((s.setSlot k (unlinkedSlot .zoneOn (some (z.code.zeroExtend 16)) p h)).setZone z
            { r with pendingPower := some .on, pendingSlot := some k }).raiseZone z) (Answer.acceptedIn k)))) ∧
    (takenAtOnce s p h (.zoneStandby zone) →
      let answers := fun u a => exec (.zoneStandby p h zone) s = .next (State.closed u p h (.zoneStandby zone) a)
      (r.power = .standby ∨ (r.power = .waking ∧ r.pendingPower ≠ none) ∨
          (r.power = .quieting ∧ r.pendingPower = none) → answers s (Answer.plain .doneNoChange)) ∧
      (r.power = .waking → r.pendingPower = none →
        (s.freeSlot = none → answers s (Answer.plain .busy)) ∧
        (∀ k, s.freeSlot = some k →
          answers (((s.setSlot k (unlinkedSlot .zoneStandby (some (z.code.zeroExtend 16)) p h)).setZone z
            { r with pendingPower := some .standby, pendingSlot := some k }).raiseZone z)
            (Answer.acceptedIn k))) ∧
      (r.power = .on → s.freeSlot = none → answers s (Answer.plain .busy)))

/-- Zone On in WAKING, and Zone Standby in QUIETING, remove the contrary pending command: ZONE is
raised, the answer is DONE_NO_CHANGE, and a pending slot ends CANCELLED: its record enters the queue of the port
that sent the pending command when it has room, and waits in the slot where it has none; a chain that holds on the
slot moves (R10, R194; what `complete` does is CompletionsMoveTheChain). -/
def Obligations.PendingCommandsAreRemoved : Prop :=
  ∀ (p : Port) (h : FrameHead) (zone : Byte) (z : Zone) (s : State) (w : PendingPower),
    zoneOf zone = some z → (s.zone z).pendingPower = some w →
    ∀ c i, ((c = .zoneOn zone ∧ i = .zoneOn p h zone ∧ (s.zone z).power = .waking) ∨
        (c = .zoneStandby zone ∧ i = .zoneStandby p h zone ∧ (s.zone z).power = .quieting)) →
    takenAtOnce s p h c →
    ((s.zone z).pendingSlot = none →
      exec i s = .next (((s.setZone z { s.zone z with pendingPower := none, pendingSlot := none }).raiseZone z).closed
        p h c (Answer.plain .doneNoChange))) ∧
    (∀ k, (s.zone z).pendingSlot = some k →
      exec i s = .next ((((s.setZone z { s.zone z with pendingPower := none, pendingSlot := none }).raiseZone z).complete
        k .cancelled []).closed p h c (Answer.plain .doneNoChange))) ∧
    (∀ k b, (s.zone z).pendingSlot = some k → s.slot k = some b →
      (s.port b.port).completions.length < 8 → (s.port b.port).chain ≠ .holding →
      ∃ t, exec i s = .next t ∧
        t.zone z = { s.zone z with pendingPower := none, pendingSlot := none } ∧ t.slot k = none ∧
        (t.port b.port).completions = (s.port b.port).completions ++
          [{ tag := b.tag, code := b.kind.command, status := .cancelled, slot := some k, mark := b.mark,
             result := [], heldBack := b.inChain }] ∧
        zoneReported t z ∧ (∀ y, y ≠ z → t.zone y = s.zone y) ∧ (∀ j, j ≠ k → t.slot j = s.slot j) ∧
        (t.port p).response =
          some { status := .doneNoChange, tag := h.tag, code := c.code, slot := none, data := [] } ∧
        onlyChanges [.zones, .slots, .ports] s t)

/-- Zone Standby in ON takes the lowest free slot, is answered ACCEPTED, and takes the zone to
QUIETING: a waiting source becomes live, the sleep timer is 0 and ZONE is raised (R7); the relay stage
begins at once when every output granted to the zone is at −161, opening the relays of those outputs, and the
ramp stage is entered otherwise, with every relay as it was (R8, R52). The other zones keep their records but for
their derived fields; the source statuses, the binding and the tuner follow: the zone loses the decoder and the
tuner (R2, R75, R76, R141, R142). That the two-byte target of the slot has
the zone's code in its low byte is the model's choice (log 25). -/
def Obligations.ZoneStandbyQuiets : Prop :=
  ∀ (p : Port) (h : FrameHead) (zone : Byte) (z : Zone) (s : State) (k : Fin 8),
    takenAtOnce s p h (.zoneStandby zone) → zoneOf zone = some z → (s.zone z).power = .on →
    s.freeSlot = some k →
    ∃ t, exec (.zoneStandby p h zone) s = .next t ∧
      t.zone z = { s.zone z with
        power := .quieting, live := (s.zone z).waiting.getD (s.zone z).live, waiting := none
        sleepTimer := 0, opSlot := some k, wakeTimer := none, noOutput := (t.zone z).noOutput
        status := (t.zone z).status
        quietStage := if (∀ o, (s.out o).grantedTo z = true → (s.gain o).current = -161) then some .relay
                      else some .ramp
        relayTimer := if (∀ o, (s.out o).grantedTo z = true → (s.gain o).current = -161) then some 20
                      else (s.zone z).relayTimer } ∧
      t.slot k = unlinkedSlot .zoneStandby (some (z.code.zeroExtend 16)) p h ∧
      (∀ j, j ≠ k → t.slot j = s.slot j) ∧ zoneReported t z ∧
      (∀ y, y ≠ z → (s.zone y).sameButDerived (t.zone y)) ∧ followsOn s t ∧
      t.outputs = { s.outputs with outs := t.outputs.outs } ∧
      (∀ o, t.out o =
        (if (∀ o, (s.out o).grantedTo z = true → (s.gain o).current = -161) ∧ (s.out o).grantedTo z = true
         then { s.out o with relay := false } else s.out o)) ∧
      onlyReplied s t p h (.zoneStandby zone) (Answer.acceptedIn k) ∧
      onlyChanges [.zones, .outputs, .decoder, .tuner, .slots, .ports] s t

/-- WAKE_COMPLETION: a WAKING zone with no pending STANDBY enters ON, raises ZONE, and its operation
slot ends DONE (R6); for one that holds a pending STANDBY the slot ends DONE as well, and the zone goes on to
QUIETING at once, the pending slot becoming the operation slot: it enters the relay stage, opening the relays of
its outputs, when every output granted to it is at −161, and the ramp stage otherwise (R6, R7, R8, R52). A slot
that ends posts its record, or waits with it (R194). The other zones keep their records but for their derived
fields; the source statuses, the binding and the tuner follow (R2, R75, R76, R141, R142). A remote zone that enters
ON with no output GRANTED to it raises CHANNEL NO_OUTPUT with its bit, even where a pending STANDBY takes it on to
QUIETING at once (R51).
In every step a remote zone that begins to be ON with no GRANTED output raises CHANNEL NO_OUTPUT with its bit: at
its entry into ON, and at the loss of its last GRANTED output in ON; the mark that the raising was made holds
exactly while the condition lasts, so that it is made once (R51; that a mark of the zone's record holds this is the
model's, log 35). That the step leaves a zone that is not WAKING alone is the model's choice (log 30). -/
def Obligations.WakesComplete : Prop :=
  (∀ (z : Zone) (s : State),
    ((s.zone z).power ≠ .waking → exec (.wakeCompletion z) s = .next s) ∧
    ((s.zone z).power = .waking → (s.zone z).pendingPower ≠ some .standby →
      ∃ t, exec (.wakeCompletion z) s = .next t ∧
        t.zone z = { s.zone z with power := .on, wakeTimer := none, opSlot := none
                                   status := (t.zone z).status, noOutput := (t.zone z).noOutput } ∧
        slotEnded s t (s.zone z).opSlot .done [] ∧ (∀ y, y ≠ z → (s.zone y).sameButDerived (t.zone y)) ∧
        followsOn s t ∧ (z ≠ .main → ((t.zone z).noOutput = true ↔ ∀ o, (s.out o).grantedTo z = false)) ∧
        (z ≠ .main → (s.zone z).noOutput = false → (∀ o, (s.out o).grantedTo z = false) → noOutputReported t z) ∧
        zoneReported t z ∧ onlyChanges [.zones, .decoder, .tuner, .slots, .ports] s t) ∧
    ((s.zone z).power = .waking → (s.zone z).pendingPower = some .standby →
      ∃ t, exec (.wakeCompletion z) s = .next t ∧
        t.zone z = { (s.zone z).quieted (s.zone z).pendingSlot (s.allSilent z) with
          pendingPower := none, pendingSlot := none, status := (t.zone z).status
          noOutput := (t.zone z).noOutput } ∧
        slotEnded s t (s.zone z).opSlot .done [] ∧ (∀ y, y ≠ z → (s.zone y).sameButDerived (t.zone y)) ∧
        followsOn s t ∧ (z ≠ .main → (t.zone z).noOutput = false) ∧
        (z ≠ .main → (s.zone z).noOutput = false → (∀ o, (s.out o).grantedTo z = false) → noOutputReported t z) ∧
        t.outputs = { s.outputs with outs := t.outputs.outs } ∧
        (∀ o, t.out o = (if s.allSilent z ∧ (s.out o).grantedTo z = true then { s.out o with relay := false }
          else s.out o)) ∧
        zoneReported t z ∧ onlyChanges [.zones, .outputs, .decoder, .tuner, .slots, .ports] s t)) ∧
  (∀ (c : Instr) (s t : State), exec c s = .next t → s.noOutputMarked →
    t.noOutputMarked ∧ ∀ z, z ≠ .main → t.noOutputIs z → ¬ s.noOutputIs z → noOutputReported t z)

/-- RELAY_STAGE_END: a QUIETING zone in its relay stage enters STANDBY with an empty override stack, no
operation slot, no held output and no segment of the outputs it held, and its entries raise OVERRIDE
CANCELLED on the ports that pushed them (R8, R9, R33). The operation slot, if present, ends DONE; where a
compaction runs, its own slot may have ended before (R9, R136, R194). A pending ON is then tested against conditions 1, 2,
3 and 5 of R4: where one fails the zone stays in STANDBY and the pending slot posts FAILED with the refusal;
where all pass the zone enters WAKING for 120 ms with the pending slot as its operation slot (R9). Both at the
STANDBY and at the wake the other zones keep their records but for their derived fields, and the source statuses,
the binding and the tuner follow (R2, R75, R76, R141, R142); a failed test leaves every other record as it was. That
the step does nothing elsewhere is the model's choice (log 30). -/
def Obligations.RelayStagesEndInStandby : Prop :=
  ∀ (z : Zone) (s : State),
    (¬ ((s.zone z).power = .quieting ∧ (s.zone z).quietStage = some .relay) →
      exec (.relayStageEnd z) s = .next s) ∧
    ((s.zone z).power = .quieting → (s.zone z).quietStage = some .relay →
      let u := s.toStandby z
      (u.zone z = { s.zone z with
          power := .standby, quietStage := none, relayTimer := none, opSlot := none, stack := []
          status := (u.zone z).status, noOutput := (u.zone z).noOutput } ∧
        (∀ o, (u.out o).heldBy z = false) ∧ zoneReported u z ∧
        (∀ y, y ≠ z → (s.zone y).sameButDerived (u.zone y)) ∧ followsOn s u ∧
        (∀ o, (s.out o).heldBy z = true → u.delay.segment o = none ∨ ∃ y, y ≠ z ∧ (u.out o).grantedTo y = true) ∧
        (∀ e, e ∈ (s.zone z).stack →
          ((u.port e.port).events.kind .override).pending = true ∧
          ((u.port e.port).events.kind .override).detail.reasons &&& 2 = 2 ∧
          ((u.port e.port).events.kind .override).detail.zones &&& z.bit = z.bit) ∧
        (z = .main → u.delay.dref = none) ∧
        (s.delay.compaction = none → slotEnded s u (s.zone z).opSlot .done []) ∧
        (∃ v : State, u = v.completeOpt (s.zone z).opSlot .done [] ∧
          ∀ k b, (s.zone z).opSlot = some k → s.slot k = some b →
            (∀ c, s.delay.compaction = some c → c.slot ≠ k) →
            ∃ x, v.slot k = some { b with inChain := x }) ∧
        onlyChanges [.zones, .outputs, .delay, .decoder, .tuner, .slots, .ports] s u) ∧
      ((s.zone z).pendingPower ≠ some .on → exec (.relayStageEnd z) s = .next u) ∧
      ((s.zone z).pendingPower = some .on →
        let fails := fun e : Status => ∃ t, exec (.relayStageEnd z) s = .next t ∧
          t.zone z = { u.zone z with pendingPower := none, pendingSlot := none } ∧ zoneReported t z ∧
          (∀ y, y ≠ z → t.zone y = u.zone y) ∧
          slotEnded u t (s.zone z).pendingSlot .failed [e.code] ∧
          onlyChanges [.zones, .slots, .ports] u t
        (u.outputs.latch = true → fails .isProtected) ∧
        (u.outputs.latch = false →
          (u.delay.state = .initializing ∨ u.delay.compaction ≠ none → fails .memoryBusy) ∧
          (u.delay.compaction = none → (u.delay.state = .uninit ∨ u.delay.state = .fault → fails .notReady) ∧
            (u.delay.state = .ready →
              (∀ e, u.wakeRequest z = .error e → fails e) ∧
              (∀ v, u.wakeRequest z = .ok v → ∃ t, exec (.relayStageEnd z) s = .next t ∧
                t.zone z = { u.zone z with
                  power := .waking, opSlot := (s.zone z).pendingSlot, wakeTimer := some 120
                  pendingPower := none, pendingSlot := none, status := (t.zone z).status
                  noOutput := (t.zone z).noOutput } ∧
                zoneReported t z ∧ t.slots = u.slots ∧
                (∀ y, y ≠ z → (u.zone y).sameButDerived (t.zone y)) ∧ followsOn u t ∧
                onlyChanges [.zones, .outputs, .delay, .decoder, .tuner, .ports] u t))))))

/-- MINUTE_EVENT: the divider starts its next minute and counts the event up to 65,535; every nonzero
sleep timer loses one; a zone whose timer reaches 0 goes to QUIETING from ON with no operation slot, into its relay
stage where every output granted to it is at −161, the relays of those outputs opening, and in WAKING with no
pending command holds a pending STANDBY without a slot; ZONE is raised for it (R7, R8, R21, R189). Every other field
of every zone's record is as it was but for the derived ones, and the source statuses, the binding and the tuner
follow (R2, R75, R76, R141, R142).
SLEEP_TIMER_EXPIRY of a zone whose timer runs has the same effect on that zone and none on the others; on a zone
whose timer is off it has none, which is the model's choice (log 19). That a timer which runs in STANDBY or
QUIETING, as no run from reset has it, counts down with no other effect is how the model meets such a state. -/
def Obligations.MinuteEventsCountDown : Prop :=
  ∀ s : State,
    let expired := fun z : Zone => let r := s.zone z
      if r.power = .on then r.quieted none (s.allSilent z)
      else if r.power = .waking ∧ r.pendingPower = none then
        { r with sleepTimer := 0, pendingPower := some .standby, pendingSlot := none }
      else { r with sleepTimer := 0 }
    let opens := fun (z : Zone) (o : Fin 13) =>
      (s.zone z).power = .on ∧ s.allSilent z ∧ (s.out o).grantedTo z = true
    (∃ t, exec .minuteEvent s = .next t ∧
      t.minute = { ms := 0, count := min (s.minute.count + 1) 65535 } ∧
      (∀ z, (s.zone z).sleepTimer ≠ 1 →
        ({ s.zone z with sleepTimer := (s.zone z).sleepTimer - 1 } : ZoneRec).sameButDerived (t.zone z)) ∧
      (∀ z, (s.zone z).sleepTimer = 1 → (expired z).sameButDerived (t.zone z) ∧ zoneReported t z) ∧
      t.outputs = { s.outputs with outs := t.outputs.outs } ∧
      (∀ o, ((∃ z, (s.zone z).sleepTimer = 1 ∧ opens z o) → t.out o = { s.out o with relay := false }) ∧
        (¬ (∃ z, (s.zone z).sleepTimer = 1 ∧ opens z o) → t.out o = s.out o)) ∧
      followsOn s t ∧ portsRaised s t ∧
      onlyChanges [.zones, .minute, .outputs, .decoder, .tuner, .ports] s t) ∧
    ∀ z : Zone,
      ((s.zone z).sleepTimer = 0 → exec (.sleepTimerExpiry z) s = .next s) ∧
      ((s.zone z).sleepTimer ≠ 0 →
        ∃ t, exec (.sleepTimerExpiry z) s = .next t ∧ (expired z).sameButDerived (t.zone z) ∧ zoneReported t z ∧
          (∀ y, y ≠ z → (s.zone y).sameButDerived (t.zone y)) ∧
          t.outputs = { s.outputs with outs := t.outputs.outs } ∧
          (∀ o, (opens z o → t.out o = { s.out o with relay := false }) ∧ (¬ opens z o → t.out o = s.out o)) ∧
          followsOn s t ∧ portsRaised s t ∧
          onlyChanges [.zones, .outputs, .decoder, .tuner, .ports] s t)

/-! ### Zones: settings and overrides -/

/-- The layer of a port (R30): the live zone for an empty stack or for the port of the top entry; the
entry above the highest entry the port pushed; entry 0 for a port that pushed none. -/
def Obligations.LayersOfPorts : Prop :=
  ∀ (stack : List OverrideEntry) (p : Port),
    (stack = [] → layerOf stack p = none) ∧
    (∀ e, stack.getLast? = some e → e.port = p → layerOf stack p = none) ∧
    (∀ k e, stack[k]? = some e → e.port = p → k + 1 < stack.length →
      (∀ j f, k < j → stack[j]? = some f → f.port ≠ p) → layerOf stack p = some (k + 1)) ∧
    (stack ≠ [] → (∀ e, e ∈ stack → e.port ≠ p) → layerOf stack p = some 0)

/-- A layered change from a port whose layer is an entry changes that entry alone and is answered
DEFERRED with its index; no live field changes and nothing is raised (R31). -/
def Obligations.LayeredChangesAreDeferred : Prop :=
  ∀ (p : Port) (h : FrameHead) (zone : Byte) (z : Zone) (s : State) (k : Nat),
    zoneOf zone = some z → layerOf (s.zone z).stack p = some k →
    let gives := fun (f : OverrideEntry → OverrideEntry) (c : Cmd) =>
      (s.setZone z { s.zone z with stack := (s.zone z).stack.modify k f }).closed p h c
        (Answer.withData .deferred [BitVec.ofNat 8 k])
    let clamp := fun v : Int => max (-160) (min v (s.zone z).maxVolume)
    (∀ b src, sourceOf b = some src → takenAtOnce s p h (.selectSource zone b) →
      exec (.selectSource p h zone b) s = .next (gives (fun e => { e with source := src }) (.selectSource zone b))) ∧
    (∀ v : Half, takenAtOnce s p h (.setVolume zone v) →
      exec (.setVolume p h zone v) s = .next (gives (fun e => { e with volume := clamp v.toInt }) (.setVolume zone v))) ∧
    (∀ d : Byte, d ≠ 0 → -20 ≤ d.toInt → d.toInt ≤ 20 → takenAtOnce s p h (.stepVolume zone d) →
      exec (.stepVolume p h zone d) s = .next
        (gives (fun e => { e with volume := clamp (e.volume + d.toInt) }) (.stepVolume zone d))) ∧
    (∀ m : Byte, m.toNat < 2 → takenAtOnce s p h (.setMute zone m) →
      exec (.setMute p h zone m) s = .next (gives (fun e => { e with mute := m == 1 }) (.setMute zone m))) ∧
    (∀ b m, z = .main → surroundOf b = some m → takenAtOnce s p h (.setSurroundMode zone b) →
      exec (.setSurroundMode p h zone b) s = .next (gives (fun e => { e with mode := m }) (.setSurroundMode zone b)))

/-- The live settings (R12, R13, R14, R16, R17, R20): a change to the live zone takes its value and is
answered DONE, ZONE being raised for volume, mute and surround mode; the value held is DONE_NO_CHANGE; in
ON a new source becomes the waiting source, and the live source ends a running switch. Outside ON a new source is
live at once, and the source statuses, the binding and the tuner follow (R2, R75, R76, R141, R142). -/
def Obligations.LiveSettings : Prop :=
  ∀ (p : Port) (h : FrameHead) (zone : Byte) (z : Zone) (s : State),
    zoneOf zone = some z → layerOf (s.zone z).stack p = none →
    let r := s.zone z
    let clamp := fun v : Int => max (-160) (min v r.maxVolume)
    let gives := fun (b : Bool) (u : State) (c : Cmd) =>
      if b then Host.Outcome.next (s.closed p h c (Answer.plain .doneNoChange))
      else Host.Outcome.next (u.closed p h c (Answer.plain .done))
    (∀ v : Half, takenAtOnce s p h (.setVolume zone v) →
      exec (.setVolume p h zone v) s =
        gives (clamp v.toInt == r.volume) ((s.setZone z { r with volume := clamp v.toInt }).raiseZone z)
          (.setVolume zone v)) ∧
    (∀ d : Byte, d ≠ 0 → -20 ≤ d.toInt → d.toInt ≤ 20 → takenAtOnce s p h (.stepVolume zone d) →
      exec (.stepVolume p h zone d) s =
        gives (clamp (r.volume + d.toInt) == r.volume)
          ((s.setZone z { r with volume := clamp (r.volume + d.toInt) }).raiseZone z) (.stepVolume zone d)) ∧
    (∀ m : Byte, m.toNat < 2 → takenAtOnce s p h (.setMute zone m) →
      exec (.setMute p h zone m) s =
        gives ((m == 1) == r.mute) ((s.setZone z { r with mute := m == 1 }).raiseZone z) (.setMute zone m)) ∧
    (∀ b m, z = .main → surroundOf b = some m → takenAtOnce s p h (.setSurroundMode zone b) →
      exec (.setSurroundMode p h zone b) s =
        gives (m == r.mode) ((s.setZone z { r with mode := m }).raiseZone z) (.setSurroundMode zone b)) ∧
    (∀ b src, sourceOf b = some src → takenAtOnce s p h (.selectSource zone b) → r.power = .on →
      exec (.selectSource p h zone b) s =
        gives ((src == r.live && r.waiting == none) || (src != r.live && r.waiting == some src))
          (s.setZone z { r with waiting := if src = r.live then none else some src })
          (.selectSource zone b)) ∧
    (∀ b src, sourceOf b = some src → takenAtOnce s p h (.selectSource zone b) → r.power ≠ .on →
      (src = r.live → exec (.selectSource p h zone b) s =
        .next (s.closed p h (.selectSource zone b) (Answer.plain .doneNoChange))) ∧
      (src ≠ r.live → ∃ t, exec (.selectSource p h zone b) s = .next t ∧
        t.zone z = { r with live := src, status := (t.zone z).status } ∧
        (∀ y, y ≠ z → (s.zone y).sameButStatus (t.zone y)) ∧ zoneReported t z ∧ followsOn s t ∧
        onlyReplied s t p h (.selectSource zone b) (Answer.plain .done) ∧
        onlyChanges [.zones, .decoder, .tuner, .ports] s t))

/-- Settings with a parameter at fault are refused with BAD_PARAMETER naming it, and nothing changes:
a zone or source that names nothing, a step of 0 or above 20, a mute or mode outside its list, and a
surround mode for Z2 or Z3 (R12, R16, R17, R20, R31, R186). The residue 0 and the reason NONE in the detail record
are the model's choice (log 41). -/
def Obligations.SettingsRefuseBadParameters : Prop :=
  ∀ (p : Port) (h : FrameHead) (zone x : Byte) (v : Half) (s : State),
    let same := fun (c : Cmd) (k : Byte) => takenAtOnce s p h c →
      exec (rowOf p h c) s = .next (s.closed p h c (Answer.badParam k))
    (3 ≤ zone.toNat → same (.selectSource zone x) 0 ∧ same (.setVolume zone v) 0 ∧ same (.stepVolume zone x) 0 ∧
      same (.setMute zone x) 0 ∧ same (.setMaxVolume zone v) 0 ∧ same (.setLipSync zone v) 0 ∧
      same (.setSurroundMode zone x) 0 ∧ same (.setSleepTimer zone x) 0 ∧ same (.pushOverride zone x v) 0 ∧
      same (.popOverride zone) 0 ∧ same (.zoneStandby zone) 0 ∧ same (.readZone zone v) 0 ∧
      same (.readOverrideStack zone v) 0) ∧
    (zone.toNat < 3 →
      (13 ≤ x.toNat → same (.selectSource zone x) 1 ∧ same (.pushOverride zone x v) 1) ∧
      (x = 0 ∨ x.toInt < -20 ∨ 20 < x.toInt → same (.stepVolume zone x) 1) ∧
      (2 ≤ x.toNat → same (.setMute zone x) 1) ∧
      (zone ≠ 0 → same (.setSurroundMode zone x) 0) ∧
      (zone = 0 → 4 ≤ x.toNat → same (.setSurroundMode zone x) 1))

/-- Set Max Volume clamps its index to −160 to +24; the same value is DONE_NO_CHANGE; otherwise the
live volume and every saved volume above the new max are lowered to it, no volume is raised, and ZONE is
raised (R18). -/
def Obligations.SetMaxVolumeLowersVolumes : Prop :=
  ∀ (p : Port) (h : FrameHead) (zone : Byte) (z : Zone) (v : Half) (s : State),
    takenAtOnce s p h (.setMaxVolume zone v) → zoneOf zone = some z →
    let m := max (-160) (min v.toInt 24)
    (m = (s.zone z).maxVolume →
      exec (.setMaxVolume p h zone v) s = .next
        (s.closed p h (.setMaxVolume zone v) (Answer.plain .doneNoChange))) ∧
    (m ≠ (s.zone z).maxVolume →
      exec (.setMaxVolume p h zone v) s = .next (((s.setZone z { s.zone z with
        maxVolume := m
        volume := if m < (s.zone z).volume then m else (s.zone z).volume
        stack := (s.zone z).stack.map (fun e => { e with volume := if m < e.volume then m else e.volume })
        }).raiseZone z).closed p h (.setMaxVolume zone v) (Answer.plain .done)))

/-- Set Lip Sync clamps its delay to 500 ms: in STANDBY and QUIETING it is recorded; in WAKING and ON
the Delay Memory Controller tests the change in order (MEMORY_BUSY, NOT_READY, NO_DELAY_MEMORY, FRAGMENTED) and
refuses the command as a whole, or every segment of an output granted to the zone whose total delay differs
takes its pending change with the new total delay, classed and placed as R126 and R127 say, and ZONE is
raised with the new value (R19); where the request has withdrawn a GROW or a RELOCATE, each starved output is
retried, in ascending order, as GrantRule says, with the new setting in place (R126, R131, log 15). This zone's
record takes the one field, the other zones keep theirs, but for the no-output marks that a retry may clear (R51).
That the pages of
a pending change which the request withdraws count as free, in the test of the pages and in the placing, is the
model's reading of R126 (`withoutChanges`; DEDUCED, log 24). Set Sleep Timer clamps to 120 minutes, and outside WAKING and ON is
refused with NOT_ON (R21). -/
def Obligations.LipSyncAndSleepTimer : Prop :=
  ∀ (p : Port) (h : FrameHead) (zone : Byte) (z : Zone) (s : State), zoneOf zone = some z →
    let r := s.zone z
    (∀ v : Half, takenAtOnce s p h (.setLipSync zone v) →
      let ms := min v.toNat 500
      let u := s.setZone z { r with lipSync := ms }
      (ms = r.lipSync → exec (.setLipSync p h zone v) s =
        .next (s.closed p h (.setLipSync zone v) (Answer.plain .doneNoChange))) ∧
      (ms ≠ r.lipSync → (r.power = .standby ∨ r.power = .quieting) →
        exec (.setLipSync p h zone v) s =
          .next ((u.raiseZone z).closed p h (.setLipSync zone v) (Answer.plain .done))) ∧
      (ms ≠ r.lipSync → (r.power = .waking ∨ r.power = .on) →
        let want := s.newDelay u z
        let refused := fun e => exec (.setLipSync p h zone v) s =
          .next (s.closed p h (.setLipSync zone v) (Answer.plain e))
        (s.delay.state = .initializing ∨ s.delay.compaction ≠ none → refused .memoryBusy) ∧
        (s.delay.compaction = none → (s.delay.state = .uninit ∨ s.delay.state = .fault → refused .notReady) ∧
          (s.delay.state = .ready → (s.delay.segments.map (·.output)).Nodup →
            ((s.delay.withoutChanges want).freePages < s.delay.pagesAsked want → refused .noDelayMemory) ∧
            (s.delay.pagesAsked want ≤ (s.delay.withoutChanges want).freePages →
              ((¬ ∃ d, changeGranted s.delay want d) → refused .fragmented) ∧
              ((∃ d, changeGranted s.delay want d) → ∃ t d v', exec (.setLipSync p h zone v) s = .next t ∧
                changeGranted s.delay want d ∧ State.retriedAfter (u.setDelay d) s.delay want v' ∧
                t = (v'.raiseZone z).closed p h (.setLipSync zone v) (Answer.plain .done) ∧
                t.zone z = { r with lipSync := ms, noOutput := (t.zone z).noOutput } ∧
                (∀ y, y ≠ z → t.zone y = { s.zone y with noOutput := (t.zone y).noOutput }) ∧
                (s.delay.starved = [] → t.zones = u.zones ∧ t.outputs = s.outputs) ∧
                (∀ o, o ∉ s.delay.starved → t.delay.segment o = d.segment o) ∧
                (s.delay.starved = [] → t.delay = d) ∧
                (t.zone z).lipSync = ms ∧ (t.zone z).power = r.power ∧ (t.zone z).volume = r.volume ∧
                zoneReported t z ∧ (t.port p).response =
                  some { status := .done, tag := h.tag, code := 0x17, slot := none, data := [] } ∧
                onlyChanges [.zones, .outputs, .delay, .slots, .ports] s t)))))) ∧
    (∀ n : Byte, takenAtOnce s p h (.setSleepTimer zone n) →
      ((r.power = .standby ∨ r.power = .quieting) → exec (.setSleepTimer p h zone n) s =
        .next (s.closed p h (.setSleepTimer zone n) (Answer.plain .notOn))) ∧
      ((r.power = .waking ∨ r.power = .on) → exec (.setSleepTimer p h zone n) s =
        .next ((s.setZone z { r with sleepTimer := min n.toNat 120 }).closed p h (.setSleepTimer zone n)
          (Answer.plain (if n = 0 ∧ r.sleepTimer = 0 then .doneNoChange else .done)))))

/-- Push Override in ON saves the settings that were live (the waiting source where a switch runs) as
a new top entry, makes the named volume live and mute OFF, applies the named source as Select Source would,
raises ZONE and is answered DONE with the entry's index; a full stack loses its bottom entry first, raising
OVERRIDE STACK_LOST on all ports; outside ON it is refused with NOT_ON (R25, R26, R27). -/
def Obligations.PushOverrideSavesTheZone : Prop :=
  ∀ (p : Port) (h : FrameHead) (zone b : Byte) (v : Half) (z : Zone) (src : Source) (s : State),
    takenAtOnce s p h (.pushOverride zone b v) → zoneOf zone = some z → sourceOf b = some src →
    let r := s.zone z
    let e : OverrideEntry := { source := r.waiting.getD r.live, volume := r.volume, mute := r.mute,
                               mode := r.mode, port := p, tag := h.tag }
    let u : ZoneRec := { r with
      stack := (if r.stack.length = 4 then r.stack.drop 1 else r.stack) ++ [e]
      volume := max (-160) (min v.toInt r.maxVolume), mute := false
      waiting := if src = r.live then none else some src }
    (r.power ≠ .on → exec (.pushOverride p h zone b v) s =
      .next (s.closed p h (.pushOverride zone b v) (Answer.plain .notOn))) ∧
    (r.power = .on → r.stack.length < 4 → exec (.pushOverride p h zone b v) s =
      .next (((s.setZone z u).raiseZone z).closed p h (.pushOverride zone b v)
        (Answer.withData .done [BitVec.ofNat 8 r.stack.length]))) ∧
    (r.power = .on → r.stack.length = 4 → ∃ t, exec (.pushOverride p h zone b v) s = .next t ∧
      t.zone z = u ∧ (∀ y, y ≠ z → t.zone y = s.zone y) ∧ zoneReported t z ∧
      reported t .override { EventDetail.zero with zones := z.bit, reasons := 1 } ∧
      onlyReplied s t p h (.pushOverride zone b v) (Answer.withData .done [3]) ∧
      onlyChanges [.zones, .ports] s t)

/-- Pop Override of an empty stack is EMPTY, and of another port's top entry NOT_OWNER; otherwise the
top entry leaves, its four settings become live, ZONE is raised, and the answer is DONE with the new depth:
in ON its source is applied as Select Source would, in QUIETING it is live at once, and the source statuses, the
binding and the tuner follow (R2, R28, R29, R75, R141). -/
def Obligations.PopOverrideRestoresTheZone : Prop :=
  ∀ (p : Port) (h : FrameHead) (zone : Byte) (z : Zone) (s : State),
    takenAtOnce s p h (.popOverride zone) → zoneOf zone = some z →
    let r := s.zone z
    (r.stack = [] → exec (.popOverride p h zone) s =
      .next (s.closed p h (.popOverride zone) (Answer.plain .empty))) ∧
    (∀ (rest : List OverrideEntry) (e : OverrideEntry), r.stack = rest ++ [e] →
      (e.port ≠ p → exec (.popOverride p h zone) s =
        .next (s.closed p h (.popOverride zone) (Answer.plain .notOwner))) ∧
      (e.port = p → r.power = .on → exec (.popOverride p h zone) s =
        .next (((s.setZone z { r with
          stack := rest, volume := e.volume, mute := e.mute, mode := e.mode
          waiting := if e.source = r.live then none else some e.source }).raiseZone z).closed p h
            (.popOverride zone) (Answer.withData .done [BitVec.ofNat 8 rest.length]))) ∧
      (e.port = p → r.power = .quieting → ∃ t, exec (.popOverride p h zone) s = .next t ∧
        t.zone z = { r with stack := rest, volume := e.volume, mute := e.mute, mode := e.mode
                            live := e.source, status := (t.zone z).status } ∧
        (∀ y, y ≠ z → (s.zone y).sameButStatus (t.zone y)) ∧ zoneReported t z ∧ followsOn s t ∧
        onlyReplied s t p h (.popOverride zone) (Answer.withData .done [BitVec.ofNat 8 rest.length]) ∧
        onlyChanges [.zones, .decoder, .tuner, .ports] s t))

/-! ### Outputs and protection -/

/-- The grant rule (R42): a fixed output serves MAIN while MAIN is WAKING or ON and its position's
size is not NONE; an assignable one serves its remote zone while that zone is WAKING or ON and either the
priority is REMOTE_FIRST or MAIN does not claim it, else MAIN if MAIN claims it; else it is IDLE.
The segment that a grant asks for: its total delay and page count (R120), the tests of a request in their
order, and the place of each new segment, first fit in the order of the request, all or nothing (R125). A
retry of a starved output whose zone is WAKING or ON makes such a request: granted, the output leaves the
starved list and is GRANTED, raising CHANNEL STARVED; refused, nothing changes; an output of a zone in another
power state is passed over (R131). -/
def Obligations.GrantRule : Prop :=
  (∀ (s : State) (o : Fin 13),
    let up := fun z : Zone => (s.zone z).power = .waking ∨ (s.zone z).power = .on
    (∀ w, fixedPosition o = some w →
      (up .main → (s.speaker w).size ≠ .none → s.grantRule o = some (.main, .pos w)) ∧
      (¬ up .main ∨ (s.speaker w).size = .none → s.grantRule o = none)) ∧
    (∀ k : Fin 6, o.val = k.val + 5 →
      let e := s.outputs.assign[k]
      let claims := up .main ∧ ∃ w, e.mainRole.position = some w ∧ (s.speaker w).size ≠ .none
      let remote := ∃ z r, e.remoteRole.zone = some (z, r) ∧ up z
      (∀ z r, e.remoteRole.zone = some (z, r) → up z → e.priority = .remoteFirst ∨ ¬ claims →
        s.grantRule o = some (z, r)) ∧
      (∀ w, e.mainRole.position = some w → claims → (¬ remote ∨ e.priority = .mainFirst) →
        s.grantRule o = some (.main, .pos w)) ∧
      (¬ claims → ¬ remote → s.grantRule o = none))) ∧
  (∀ (s : State) (z : Zone) (r : Role),
    (z ≠ .main → s.totalDelay z r = 48 * (s.zone z).lipSync) ∧
    (∀ w dref, z = .main → r = .pos w → s.delay.dref = some dref →
      (dref < (s.speaker w).distance → s.totalDelay z r = 48 * (s.zone z).lipSync) ∧
      ((s.speaker w).distance ≤ dref → s.totalDelay z r =
        48 * (s.zone z).lipSync + (480 * (dref - (s.speaker w).distance) + 171) / 343))) ∧
  (∀ t : Nat, t + 48 ≤ 256 * pagesFor t ∧ 256 * pagesFor t < t + 48 + 256) ∧
  (∀ (d : DelayState) (reqs : List (Fin 13 × Nat)),
    let pages := (reqs.map (fun r => pagesFor r.2)).sum
    (reqs = [] → d.request reqs = .ok d) ∧
    (reqs ≠ [] →
      (d.state = .initializing ∨ d.compaction ≠ none → d.request reqs = .error .memoryBusy) ∧
      (d.compaction = none → (d.state = .uninit ∨ d.state = .fault → d.request reqs = .error .notReady) ∧
        (d.state = .ready →
          (d.freePages < pages → d.request reqs = .error .noDelayMemory) ∧
          (pages ≤ d.freePages →
            ((¬ ∃ bases, placedAt d [] reqs bases) → d.request reqs = .error .fragmented) ∧
            (∀ bases, placedAt d [] reqs bases → (reqs.map (·.1)).Nodup → (∀ r, r ∈ reqs → d.segment r.1 = none) →
              ∃ d', d.request reqs = .ok d' ∧ requestGranted d reqs bases d')))))) ∧
  (∀ (s : State) (o : Fin 13) (z : Zone) (r : Role), o ∈ s.delay.starved → (s.out o).zone = some z →
    (s.out o).role = some r →
    ((s.zone z).power = .standby ∨ (s.zone z).power = .quieting → s.retryOne o = s) ∧
    ((s.zone z).power = .waking ∨ (s.zone z).power = .on →
      (∀ e, s.delay.request [(o, s.totalDelay z r)] = .error e → s.retryOne o = s) ∧
      (∀ d, s.delay.request [(o, s.totalDelay z r)] = .ok d →
        let t := s.retryOne o
        t.delay = { d with starved := s.delay.starved.filter (fun q => decide (q ≠ o)) } ∧
        t.out o = { state := .granted, phase := none, zone := some z, role := some r, target := none
                    segment := true, relay := decide (o.val < 11), relayOpenTimer := none } ∧
        (∀ q, q ≠ o → t.out q = s.out q) ∧
        reported t .channel { EventDetail.zero with outputs := outputBit o, reasons := 2 } ∧
        portsRaised s t ∧ onlyChanges [.zones, .outputs, .delay, .ports] s t)))

/-- Set Assignment, the tests of R40 in order, then the change: the entry takes the three values and
the output of the entry, alone, is regranted in the state it is found in (R40, R43). IDLE: a result that is a
zone is a direct grant, GRANTED with CHANNEL HANDOVER or STARVED with CHANNEL and MEMORY STARVED (R44, R53).
GRANTED: its own zone and role, or IDLE while its zone is QUIETING, changes nothing; any other result starts a
handover, raising CHANNEL HANDOVER (R45). STARVED: the same two results change nothing; any other takes it off
the starved list and through REALLOCATE, to IDLE, GRANTED or STARVED (R47, R49). HANDOVER: its own zone and role
abandons the handover, the output returning to GRANTED with its relay closed; any other is the new target (R48).
FAULT: nothing.
Two points are the model's: that the relay of a GRANTED output stays as it was in RAMP_DOWN, so that it stays
open where the relay stage of a QUIETING zone had opened it (DESIGN CHOICE, log 38; the tables of R38 and R46
say CLOSED); and that a STARVED output which gets a segment through REALLOCATE raises both HANDOVER and STARVED
(DEDUCED, log 17). -/
def Obligations.SetAssignmentRegrants : Prop :=
  ∀ (p : Port) (h : FrameHead) (a b c d : Byte) (s : State),
    takenAtOnce s p h (.setAssignment a b c d) →
    let same := fun x => exec (.setAssignment p h a b c d) s = .next (s.closed p h (.setAssignment a b c d) x)
    (a.toNat < 6 ∨ 12 ≤ a.toNat → same (Answer.badParam 0)) ∧
    (∀ k : Fin 6, a.toNat = k.val + 6 →
      (5 ≤ b.toNat → same (Answer.badParam 1)) ∧
      (b.toNat < 5 → 5 ≤ c.toNat → same (Answer.badParam 2)) ∧
      (b.toNat < 5 → c.toNat < 5 → 2 ≤ d.toNat → same (Answer.badParam 3)) ∧
      (∀ m r pr, mainRoleOf b = some m → remoteRoleOf c = some r → priorityOf d = some pr →
        let mTaken := m ≠ .none ∧ ∃ j : Fin 6, j ≠ k ∧ (s.outputs.assign[j]).mainRole = m
        let rTaken := r ≠ .none ∧ ∃ j : Fin 6, j ≠ k ∧ (s.outputs.assign[j]).remoteRole = r
        let e : AssignEntry := { mainRole := m, remoteRole := r, priority := pr }
        let u := s.setOutputs { s.outputs with assign := s.outputs.assign.set k e }
        let o : Fin 13 := assignOutput k
        (mTaken → same (Answer.badParam 1)) ∧
        (¬ mTaken → rTaken → same (Answer.badParam 2)) ∧
        (¬ mTaken → ¬ rTaken → s.delay.compaction ≠ none → same (Answer.plain .memoryBusy)) ∧
        (¬ mTaken → ¬ rTaken → s.delay.compaction = none →
          (e = s.outputs.assign[k] → same (Answer.plain .doneNoChange)) ∧
          (e ≠ s.outputs.assign[k] → ∃ t, exec (.setAssignment p h a b c d) s = .next t ∧
            t.outputs.assign = s.outputs.assign.set k e ∧
            (t.port p).response = some { status := .done, tag := h.tag, code := 0x30, slot := none, data := [] } ∧
            t.outputs.latch = s.outputs.latch ∧ t.outputs.flt = s.outputs.flt ∧
            (∀ y, (t.zone y).power = (s.zone y).power ∧ (t.zone y).live = (s.zone y).live) ∧
            let g := u.grantRule o
            let own := g ≠ none ∧ (s.out o).zone = g.map (·.1) ∧ (s.out o).role = g.map (·.2)
            let stays := own ∨ (g = none ∧ ∃ z, (s.out o).zone = some z ∧ (s.zone z).power = .quieting)
            let raised := fun n : Byte => reported t .channel { EventDetail.zero with outputs := outputBit o, reasons := n }
            let granted := fun (z : Zone) (x : Role) => t.out o =
              { state := .granted, phase := none, zone := some z, role := some x, target := none
                segment := true, relay := true, relayOpenTimer := none }
            let starved := fun (z : Zone) (x : Role) => t.out o =
              { state := .starved, phase := none, zone := some z, role := some x, target := none
                segment := false, relay := false, relayOpenTimer := none } ∧ o ∈ t.delay.starved ∧
              reported t .memory { EventDetail.zero with reasons := 4 }
            (((s.out o).state = .starved ∨ (s.out o).state = .idle → s.delay.segment o = none) →
            (∀ q, q ≠ o → t.out q = s.out q) ∧
            ((s.out o).state = .fault ∨ ((s.out o).state = .idle ∧ g = none) →
              t.out o = s.out o ∧ t.delay = s.delay) ∧
            ((s.out o).state = .granted ∨ (s.out o).state = .starved → stays →
              t.out o = s.out o ∧ t.delay = s.delay) ∧
            (∀ z x, (s.out o).state = .idle → g = some (z, x) →
              (∀ d', s.delay.request [(o, s.totalDelay z x)] = .ok d' →
                t.delay = d' ∧ granted z x ∧ raised 1) ∧
              (∀ e', s.delay.request [(o, s.totalDelay z x)] = .error e' → starved z x ∧ raised 2)) ∧
            ((s.out o).state = .starved → ¬ stays → g = none →
              t.out o = OutputRec.idle ∧ raised 1 ∧
              t.delay = { s.delay with starved := s.delay.starved.filter (fun q => decide (q ≠ o)) }) ∧
            (∀ z x, (s.out o).state = .starved → ¬ stays → g = some (z, x) →
              (∀ d', s.delay.request [(o, s.totalDelay z x)] = .ok d' → granted z x ∧ raised 3 ∧
                t.delay = { d' with starved := s.delay.starved.filter (fun q => decide (q ≠ o)) }) ∧
              (∀ e', s.delay.request [(o, s.totalDelay z x)] = .error e' → starved z x ∧ raised 3)) ∧
            ((s.out o).state = .handover →
              t.delay = s.delay ∧
              (own → raised 1 ∧ t.out o =
                { s.out o with state := .granted, phase := none, target := none, relay := true
                               relayOpenTimer := none }) ∧
              (¬ own → t.out o = { s.out o with target := some (g.map (·.1)) }))) ∧
            ((s.out o).state = .granted →
              ¬ ((s.out o).zone = (u.grantRule o).map (·.1) ∧ (s.out o).role = (u.grantRule o).map (·.2) ∧
                u.grantRule o ≠ none) →
              ¬ (u.grantRule o = none ∧ ∃ z, (s.out o).zone = some z ∧ (s.zone z).power = .quieting) →
              t.out o = { s.out o with state := .handover, phase := some .rampDown
                                       target := some ((u.grantRule o).map (·.1)) } ∧
              reported t .channel { EventDetail.zero with outputs := outputBit o, reasons := 1 }) ∧
            onlyChanges [.zones, .outputs, .delay, .slots, .ports] s t))))

/-- Set Protection Levels: a level outside 0 and 1 is refused, the settings held are DONE_NO_CHANGE;
otherwise the three settings take the new values, and every line is then active exactly when its pin is at
its active level (R54, R57). Each line that changes raises PROTECTION and is acted on (R54 to R58): an arrival on
FLTn takes On to FAULT with its lane and gain silent, its segment freed and its place on the starved list left;
a departure leaves On as it was. Every other output stays as it was, but for the retries that a freeing makes and
the relays that a trip opens. An arrival on THT with the latch clear sets it and trips the zones,
whose pending and wake slots are cancelled (R11); without one the zones keep their records. The source statuses,
the binding and the tuner follow a trip (R2, R75, R76, R141, R142). That the lines are
acted on in the order FLT1 to FLT11, THW, THT is the model's choice (log 37): a trip finds the outputs that the
fault lines left. The order of the records that a trip posts is log 33 and log 35. -/
def Obligations.ProtectionLevelsMoveTheLines : Prop :=
  ∀ (p : Port) (h : FrameHead) (a b c : Byte) (s : State), takenAtOnce s p h (.setProtectionLevels a b c) →
    let same := fun x => exec (.setProtectionLevels p h a b c) s =
      .next (s.closed p h (.setProtectionLevels a b c) x)
    (2 ≤ a.toNat → same (Answer.badParam 0)) ∧
    (a.toNat < 2 → 2 ≤ b.toNat → same (Answer.badParam 1)) ∧
    (a.toNat < 2 → b.toNat < 2 → 2 ≤ c.toNat → same (Answer.badParam 2)) ∧
    (∀ f w t', activeLevelOf a = some f → activeLevelOf b = some w → activeLevelOf c = some t' →
      (f = s.outputs.fltLevel → w = s.outputs.thwLevel → t' = s.outputs.thtLevel →
        same (Answer.plain .doneNoChange)) ∧
      (¬ (f = s.outputs.fltLevel ∧ w = s.outputs.thwLevel ∧ t' = s.outputs.thtLevel) →
        let arrives := fun n : Fin 11 => (s.fltLine n).active = false ∧ (s.fltLine n).pin = f.pin
        let departs := fun n : Fin 11 => (s.fltLine n).active = true ∧ (s.fltLine n).pin ≠ f.pin
        let falls := fun o : Fin 13 => ∃ n, lineOutput n = o ∧ arrives n ∧ (s.out o).state ≠ .fault
        let trips := s.outputs.tht.active = false ∧ s.outputs.tht.pin = t'.pin ∧ s.outputs.latch = false
        ∃ t, exec (.setProtectionLevels p h a b c) s =
            .next (t.closed p h (.setProtectionLevels a b c) (Answer.plain .done)) ∧
          t.outputs.fltLevel = f ∧ t.outputs.thwLevel = w ∧ t.outputs.thtLevel = t' ∧
          (∀ n, (t.fltLine n).pin = (s.fltLine n).pin ∧ (t.fltLine n).active = ((s.fltLine n).pin == f.pin)) ∧
          t.outputs.thw = { pin := s.outputs.thw.pin, active := s.outputs.thw.pin == w.pin } ∧
          t.outputs.tht = { pin := s.outputs.tht.pin, active := s.outputs.tht.pin == t'.pin } ∧
          t.outputs.latch = (s.outputs.latch || (!s.outputs.tht.active && s.outputs.tht.pin == t'.pin)) ∧
          t.outputs.assign = s.outputs.assign ∧
          (∀ n, arrives n ∨ departs n →
            reported t .protection { EventDetail.zero with outputs := outputBit (lineOutput n) }) ∧
          (s.outputs.thw.active ≠ (s.outputs.thw.pin == w.pin) →
            reported t .protection { EventDetail.zero with flags := 1 }) ∧
          (s.outputs.tht.active ≠ (s.outputs.tht.pin == t'.pin) →
            reported t .protection { EventDetail.zero with flags := 2 }) ∧
          (∀ o, falls o →
            t.out o = { state := .fault, phase := none, zone := none, role := none, target := none
                        segment := false, relay := false, relayOpenTimer := none } ∧
            (t.gain o).current = -161 ∧ (t.gain o).target = -161 ∧ t.mix.lanes[o] = List.replicate 48 0 ∧
            t.delay.segment o = none ∧ o ∉ t.delay.starved) ∧
          (∀ o, ¬ falls o → t.gain o = s.gain o ∧ t.mix.lanes[o] = s.mix.lanes[o]) ∧
          (∀ o, ¬ falls o → o ∉ s.delay.starved →
            (trips → opensAtTrip s t o → t.out o = { s.out o with relay := false }) ∧
            (¬ (trips ∧ opensAtTrip s t o) → t.out o = s.out o)) ∧
          t.mix = { s.mix with gains := t.mix.gains, lanes := t.mix.lanes } ∧
          (s.delay.compaction = none → s.delay.starved = [] →
            t.delay = { s.delay with segments := t.delay.segments } ∧
            ∀ g, g ∈ t.delay.segments ↔ g ∈ s.delay.segments ∧ ¬ falls g.output) ∧
          followsOn s t ∧ (trips → zonesTripped s t) ∧ (¬ trips → ∀ z, (s.zone z).sameButDerived (t.zone z)) ∧
          (s.delay.compaction = none → (trips → slotsCancelled s t s.tripCancels) ∧
            (¬ trips → slotsCancelled s t [])) ∧
          onlyChanges [.zones, .outputs, .mix, .delay, .decoder, .tuner, .slots, .ports] s t))

/-- An arrival on FLTn takes On to FAULT from whatever state it is in, silences its lane and its gain,
frees its segment, takes it off the starved list and raises PROTECTION; with On in FAULT it raises
PROTECTION alone, as a departure does (R54, R55, R56). No zone's record changes but for the no-output mark, no other
line, gain or lane changes, and no other output but in the retries that the freeing makes; where no compaction
runs, no slot and no queue changes, and with no output starved only the segment leaves the memory. That the step does nothing on a line already at
the level it brings is the model's choice (log 30). -/
def Obligations.FaultLines : Prop :=
  ∀ (n : Fin 11) (s : State),
    let o : Fin 13 := lineOutput n
    ((s.fltLine n).active = true →
      exec (.faultLineArrival n) s = .next s ∧
      exec (.faultLineDeparture n) s = .next
        ((s.setFlt n { pin := !s.outputs.fltLevel.pin, active := false }).raiseFaultLine n)) ∧
    ((s.fltLine n).active = false →
      exec (.faultLineDeparture n) s = .next s ∧
      ((s.out o).state = .fault → exec (.faultLineArrival n) s = .next
        ((s.setFlt n { pin := s.outputs.fltLevel.pin, active := true }).raiseFaultLine n)) ∧
      ((s.out o).state ≠ .fault → ∃ t, exec (.faultLineArrival n) s = .next t ∧
        t.fltLine n = { pin := s.outputs.fltLevel.pin, active := true } ∧
        t.out o = { state := .fault, phase := none, zone := none, role := none, target := none,
                    segment := false, relay := false, relayOpenTimer := none } ∧
        (t.gain o).current = -161 ∧ (t.gain o).target = -161 ∧ t.mix.lanes[o] = List.replicate 48 0 ∧
        t.delay.segment o = none ∧ o ∉ t.delay.starved ∧
        (∀ m, m ≠ n → t.fltLine m = s.fltLine m) ∧
        (∀ z, t.zone z = { s.zone z with noOutput := (t.zone z).noOutput }) ∧
        t.outputs = { s.outputs with outs := t.outputs.outs, flt := t.outputs.flt } ∧
        (∀ q, q ≠ o → q ∉ s.delay.starved → t.out q = s.out q) ∧
        t.mix = { s.mix with gains := t.mix.gains, lanes := t.mix.lanes } ∧
        (∀ q, q ≠ o → t.gain q = s.gain q ∧ t.mix.lanes[q] = s.mix.lanes[q]) ∧
        (s.delay.compaction = none → t.slots = s.slots ∧ portsRaised s t ∧
          (s.delay.starved = [] → t.delay = { s.delay with
            segments := s.delay.segments.filter (fun g => decide (g.output ≠ o)) })) ∧
        reported t .protection { EventDetail.zero with outputs := outputBit o } ∧
        onlyChanges [.zones, .outputs, .mix, .delay, .slots, .ports] s t))

/-- THW and THT (R54, R58, R11): THW latches nothing; a THT arrival sets the latch if it was clear and
trips the zones: every WAKING or ON zone is in QUIETING with no operation slot, in its relay stage, the relays of
its outputs open, if every output granted to it is at −161, and in its ramp stage otherwise; a pending command of
a WAKING or QUIETING zone is removed; the pending slot and then the wake's slot of each zone in turn end
CANCELLED, and no other slot changes (R7, R8, R11, R52, R194). Each change raises PROTECTION with its
flag, and the latch stands through a THT departure. The source statuses, the binding and the tuner follow a trip
(R2, R75, R76, R141, R142). That the zones post in the order MAIN, Z2, Z3, and a zone its
pending slot first, is the model's reading (DEDUCED, log 33 and log 35). That a step does nothing on a line already
at the level it brings is the model's choice (log 30). -/
def Obligations.ThermalLines : Prop :=
  ∀ s : State,
    (s.outputs.thw.active = false → exec .thwDeparture s = .next s ∧ exec .thwArrival s = .next
      ((s.setOutputs { s.outputs with thw := { pin := s.outputs.thwLevel.pin, active := true } }).raise
        .protection { EventDetail.zero with flags := 1 })) ∧
    (s.outputs.thw.active = true → exec .thwArrival s = .next s ∧ exec .thwDeparture s = .next
      ((s.setOutputs { s.outputs with thw := { pin := !s.outputs.thwLevel.pin, active := false } }).raise
        .protection { EventDetail.zero with flags := 1 })) ∧
    (s.outputs.tht.active = true → exec .thtArrival s = .next s ∧ exec .thtDeparture s = .next
      ((s.setOutputs { s.outputs with tht := { pin := !s.outputs.thtLevel.pin, active := false } }).raise
        .protection { EventDetail.zero with flags := 2 })) ∧
    (s.outputs.tht.active = false →
      let u := (s.setOutputs { s.outputs with tht := { pin := s.outputs.thtLevel.pin, active := true } }).raise
        .protection { EventDetail.zero with flags := 2 }
      exec .thtDeparture s = .next s ∧
      (s.outputs.latch = true → exec .thtArrival s = .next u) ∧
      (s.outputs.latch = false → ∃ t, exec .thtArrival s = .next t ∧
        t.outputs = { u.outputs with latch := true, outs := t.outputs.outs } ∧
        zonesTripped s t ∧ followsOn s t ∧
        (∀ o, (opensAtTrip s t o → t.out o = { s.out o with relay := false }) ∧
          (¬ opensAtTrip s t o → t.out o = s.out o)) ∧
        slotsCancelled s t s.tripCancels ∧
        reported t .protection { EventDetail.zero with flags := 2 } ∧
        onlyChanges [.zones, .outputs, .decoder, .tuner, .slots, .ports] s t))

/-- Clear Fault, the tests of R59 in order: BAD_PARAMETER for a name above 11, STILL_ACTIVE while the
line is active, DONE_NO_CHANGE with nothing to clear. A passed output leaves FAULT, raises PROTECTION and
is regranted; THERMAL clears the latch and raises PROTECTION with the THT flag. -/
def Obligations.ClearFaultReturnsAnOutput : Prop :=
  ∀ (p : Port) (h : FrameHead) (name : Byte) (s : State), takenAtOnce s p h (.clearFault name) →
    let same := fun x => exec (.clearFault p h name) s = .next (s.closed p h (.clearFault name) x)
    (12 ≤ name.toNat → same (Answer.badParam 0)) ∧
    (name = 0 →
      (s.outputs.tht.active = true → same (Answer.plain .stillActive)) ∧
      (s.outputs.tht.active = false → s.outputs.latch = false → same (Answer.plain .doneNoChange)) ∧
      (s.outputs.tht.active = false → s.outputs.latch = true →
        exec (.clearFault p h name) s = .next
          (((s.setOutputs { s.outputs with latch := false }).raise .protection
            { EventDetail.zero with flags := 2 }).closed p h (.clearFault name) (Answer.plain .done)))) ∧
    (∀ n : Fin 11, name.toNat = n.val + 1 →
      let o : Fin 13 := lineOutput n
      ((s.fltLine n).active = true → same (Answer.plain .stillActive)) ∧
      ((s.fltLine n).active = false → (s.out o).state ≠ .fault → same (Answer.plain .doneNoChange)) ∧
      ((s.fltLine n).active = false → (s.out o).state = .fault →
        ∃ t, exec (.clearFault p h name) s = .next t ∧
          (s.grantRule o = none → t.out o = OutputRec.idle) ∧
          (∀ z r, s.grantRule o = some (z, r) →
            ((t.out o).state = .granted ∨ (t.out o).state = .starved) ∧
            (t.out o).zone = some z ∧ (t.out o).role = some r) ∧
          (∀ q, q ≠ o → t.out q = s.out q) ∧
          reported t .protection { EventDetail.zero with outputs := outputBit o } ∧
          (t.port p).response =
            some { status := .done, tag := h.tag, code := 0x34, slot := none, data := [] } ∧
          onlyChanges [.zones, .outputs, .delay, .ports] s t))

/-- RELAY_OPEN_EXPIRY: a handover in RELAY_OPEN enters REALLOCATE, which takes no time: its segment is freed, and
under the grant rule the output becomes IDLE, or asks for a segment in its new zone, in the memory that the
freeing left, and is GRANTED with its relay closed and the segment of the answer, or STARVED where the answer is a
refusal; CHANNEL is raised (R45, R47, R125, R130). No other output changes but in the retries that the freeing
makes (R131). That the step does nothing for any other output is the model's
choice (log 30). -/
def Obligations.RelayOpenEndsInReallocate : Prop :=
  ∀ (o : Fin 13) (s : State),
    (¬ ((s.out o).state = .handover ∧ (s.out o).phase = some .relayOpen) →
      exec (.relayOpenExpiry o) s = .next s) ∧
    ((s.out o).state = .handover → (s.out o).phase = some .relayOpen →
      ∃ t, exec (.relayOpenExpiry o) s = .next t ∧
        (s.grantRule o = none → t.out o = OutputRec.idle ∧
          reported t .channel { EventDetail.zero with outputs := outputBit o, reasons := 1 }) ∧
        (∀ z r, s.grantRule o = some (z, r) →
          (t.out o = { state := .granted, phase := none, zone := some z, role := some r, target := none,
                       segment := true, relay := decide (o.val < 11), relayOpenTimer := none } ∧
            reported t .channel { EventDetail.zero with outputs := outputBit o, reasons := 1 }) ∨
          (t.out o = { state := .starved, phase := none, zone := some z, role := some r, target := none,
                       segment := false, relay := false, relayOpenTimer := none } ∧
            o ∈ t.delay.starved ∧
            reported t .channel { EventDetail.zero with outputs := outputBit o, reasons := 2 })) ∧
        (o ∉ s.delay.starved →
          let u := s.freeSegment o
          u.delay.segment o = none ∧
          ((∀ c, s.delay.compaction = some c → c.current ≠ some o) →
            (s.delay.starved = [] ∨ s.delay.compaction ≠ none) →
            u.delay = { s.delay with segments := s.delay.segments.filter (fun g => decide (g.output ≠ o)) }) ∧
          (∀ q, q ≠ o → t.out q = u.out q ∧ (q ∉ s.delay.starved → t.out q = s.out q)) ∧
          (s.grantRule o = none → t.delay = u.delay) ∧
          (∀ z r, s.grantRule o = some (z, r) →
            (∀ d, u.delay.request [(o, u.totalDelay z r)] = .ok d → (t.out o).state = .granted ∧ t.delay = d) ∧
            (∀ e, u.delay.request [(o, u.totalDelay z r)] = .error e → (t.out o).state = .starved ∧
              t.delay = { u.delay with starved := t.delay.starved } ∧
              (∀ q, q ∈ t.delay.starved ↔ q = o ∨ q ∈ u.delay.starved) ∧
              reported t .memory { EventDetail.zero with reasons := 4 }))) ∧
        (∀ z, (t.zone z).power = (s.zone z).power) ∧
        onlyChanges [.zones, .outputs, .delay, .slots, .ports] s t)

/-! ### Inputs and the Frame Decoder -/

/-- The states of a digital input (R63, R65): a signal arrival starts LOCKING with 20 ms; a loss
leaves NO_SIGNAL; a descriptor change starts LOCKING anew from a kind and is only noted while the 20 ms run;
at their end, and at a change after it, a valid descriptor gives its kind, mask and rate, and one that is
not valid leaves LOCKING without a timer. With every change of the state the source status of every zone is that of
R2, and one that changes raises ZONE (R3, R65); the binding is that of R75: the packed input of MAIN in WAKING or
ON, else of Z2, else of Z3, else none; a binding that changes starts the decoder anew, SEARCHING or IDLE, with its
counters and last frame error cleared, and raises DECODER BIND (R76). That the position of the scan starts anew from
0 and that no decoded sample waits any more is the model's choice (logs 9 and 14). That a step does nothing on an input in another state is the
model's choice (log 30). -/
def Obligations.InputsFollowTheirLinks : Prop :=
  ∀ (i : Fin 8) (d : Descriptor) (s : State),
    let r := s.input (digital i)
    let locking : InputRec := { state := .locking, mask := none, rate := none, timer := some 20, link := some d }
    let reads := fun (c : Instr) =>
      (d.rate.toNat ≤ 2 → d.kind = .twoChannel → ∃ t, exec c s = .next t ∧ inputBecomes s t i
        { state := .pcm2, mask := some 3, rate := some d.rate, timer := none, link := some d }) ∧
      (d.rate.toNat ≤ 2 → d.kind = .multichannel → d.mask &&& 3 = 3 → d.mask.toNat < 1024 →
        ∃ t, exec c s = .next t ∧ inputBecomes s t i
          { state := if d.mask = 3 then .pcm2 else .pcmn, mask := some d.mask, rate := some d.rate,
            timer := none, link := some d }) ∧
      (d.rate.toNat ≤ 2 → d.kind = .packed → ∃ t, exec c s = .next t ∧ inputBecomes s t i
        { state := .packed, mask := none, rate := some d.rate, timer := none, link := some d }) ∧
      (2 < d.rate.toNat ∨ d.kind = .unknown ∨
          (d.kind = .multichannel ∧ ¬ (d.mask &&& 3 = 3 ∧ d.mask.toNat < 1024)) →
        exec c s = .next (s.setInput (digital i) { locking with timer := none }))
    (r.state = .noSignal →
      (∃ t, exec (.signalArrival i d) s = .next t ∧ inputBecomes s t i locking) ∧
      exec (.signalLoss i) s = .next s ∧ exec (.descriptorChange i d) s = .next s ∧
      exec (.lockTimerExpiry i) s = .next s) ∧
    (r.state ≠ .noSignal →
      exec (.signalArrival i d) s = .next s ∧
      (∃ t, exec (.signalLoss i) s = .next t ∧ inputBecomes s t i
        { state := .noSignal, mask := none, rate := none, timer := none, link := none })) ∧
    (r.state = .pcm2 ∨ r.state = .pcmn ∨ r.state = .packed →
      (∃ t, exec (.descriptorChange i d) s = .next t ∧ inputBecomes s t i locking) ∧
      exec (.lockTimerExpiry i) s = .next s) ∧
    (r.state = .locking → r.timer ≠ none →
      exec (.descriptorChange i d) s = .next (s.setInput (digital i) { r with link := some d }) ∧
      (r.link = some d → reads (.lockTimerExpiry i))) ∧
    (r.state = .locking → r.timer = none →
      exec (.lockTimerExpiry i) s = .next s ∧ reads (.descriptorChange i d))

/-- A frame that passes the tests of R72 has the sync, a length of 64 to 8,192 that the walk of R70
finds again, a rate code of 0 to 2, 1 to 8 blocks, a mask with FL and FR and no bit above HR, downmix codes
of 0 to 3, a record for each present channel of each block with an even width of 4 to 24, and the CRC of
R71 as its check (R68 to R72). A frame that fails a test, its bytes being there, is bad with the first test
it fails in the order of R72, and one that passes every test is good. -/
def Obligations.GoodFramesPassEveryTest : Prop :=
  (∀ (bs : List Byte) (h : FrameHeader) (records : List ChannelRecord), judge bs = .good h records →
    byteAt bs 0 = 0xC5 ∧ byteAt bs 1 = 0x3A ∧ h.length = numAt bs 2 ∧ 64 ≤ h.length ∧ h.length ≤ 8192 ∧
    h.length ≤ bs.length ∧ h.rate = byteAt bs 4 ∧ h.rate.toNat ≤ 2 ∧
    h.blocks = (byteAt bs 5).toNat ∧ 1 ≤ h.blocks ∧ h.blocks ≤ 8 ∧
    h.mask = halfAt bs 6 ∧ h.mask &&& 3 = 3 ∧ h.mask.toNat < 1024 ∧
    h.dialogue = min (byteAt bs 8).toNat 31 ∧
    (h.downmix ≠ none ↔ (byteAt bs 9).getLsbD 0 = true) ∧
    (∀ c d, h.downmix = some (c, d) → c = (byteAt bs 10).toNat ∧ d = (byteAt bs 11).toNat ∧ c ≤ 3 ∧ d ≤ 3) ∧
    records.length = h.blocks * (channelsOf h.mask).length ∧
    (∀ r, r ∈ records → r.exponent ≤ 15 ∧ ∃ code, code ≤ 10 ∧ r.width = 4 + 2 * code) ∧
    (if h.downmix = none then 10 else 12) + (records.map (fun r => 1 + 32 * r.width)).sum + 2 = h.length ∧
    crc (bs.take (h.length - 2)) = halfAt bs (h.length - 2)) ∧
  (∀ bs : List Byte,
    let len := numAt bs 2
    let field := byteAt bs 9
    let start := if field.getLsbD 0 = true then 12 else 10
    let records := (byteAt bs 5).toNat * (channelsOf (halfAt bs 6)).length
    let lengthOk := 64 ≤ len ∧ len ≤ 8192
    let rateOk := (byteAt bs 4).toNat ≤ 2
    let blocksOk := 1 ≤ (byteAt bs 5).toNat ∧ (byteAt bs 5).toNat ≤ 8
    let maskOk := halfAt bs 6 &&& 3 = 3 ∧ (halfAt bs 6).toNat < 1024
    let downmixOk := field.getLsbD 0 = true →
      12 ≤ bs.length ∧ (byteAt bs 10).toNat ≤ 3 ∧ (byteAt bs 11).toNat ≤ 3
    (2 ≤ bs.length → ¬ (byteAt bs 0 = 0xC5 ∧ byteAt bs 1 = 0x3A) → judge bs = .bad .sync) ∧
    (10 ≤ bs.length → byteAt bs 0 = 0xC5 → byteAt bs 1 = 0x3A →
      (¬ lengthOk → judge bs = .bad .lengthRange) ∧
      (lengthOk → ¬ rateOk → judge bs = .bad .rate) ∧
      (lengthOk → rateOk → ¬ blocksOk → judge bs = .bad .blocks) ∧
      (lengthOk → rateOk → blocksOk → ¬ maskOk → judge bs = .bad .mask) ∧
      (lengthOk → rateOk → blocksOk → maskOk → field.getLsbD 0 = true → 12 ≤ bs.length →
        3 < (byteAt bs 10).toNat ∨ 3 < (byteAt bs 11).toNat → judge bs = .bad .downmix) ∧
      (lengthOk → rateOk → blocksOk → maskOk → downmixOk → ∀ codes pos, walked bs len start codes pos →
        (codes.length < records → pos < len → pos < bs.length → 10 < (byteAt bs pos).toNat % 16 →
          judge bs = .bad .width) ∧
        (codes.length < records → len ≤ pos → judge bs = .bad .lengthMismatch) ∧
        (codes.length = records → pos + 2 ≠ len → judge bs = .bad .lengthMismatch) ∧
        (codes.length = records → pos + 2 = len → len ≤ bs.length →
          (crc (bs.take pos) ≠ halfAt bs pos → judge bs = .bad .check) ∧
          (crc (bs.take pos) = halfAt bs pos → ∃ h records, judge bs = .good h records)))))

/-- The sample of a mantissa m of width w and exponent e is m × 2^(24 − w) divided by 2^e, rounded
down, and lies in the sample range (R73).
What the Mix Engine computes of samples: those of each source channel of a zone (R93, R152), the virtual channels
of each surround mode (R94 to R96), the coefficients of the fold matrix (R97, R98), the speaker sums (R99), the
downmix and its coefficients (R103), what is written for a remote output and for one in RAMP_DOWN (R104), and a
sample after gain and polarity (R110). What is written for an output GRANTED to MAIN is its position's speaker
sum; a redirected position's is that sum after its high-pass, and a subwoofer's is its own sum with the low-passed
sums of every redirected position, saturated; filters that did not run in the block before start from zero
(R101, R102). Five points are the model's: that a decoded sample of the block is that of its place in the delivery
queue (DESIGN CHOICE, log 9; R81 gives the delivery no buffer); that an input which the operand does not name
brings silence (DESIGN CHOICE, log 28); that the AM programme is the operand's `tunerLeft` (DESIGN CHOICE, log
29); that samples an ill-formed operand lacks are zeros (DESIGN CHOICE, log 31); and that a MAIN output whose
position is not in the speaker set is written silence (DEDUCED, log 26). -/
def Obligations.MantissasGiveSamples : Prop :=
  (∀ (code e m : Nat), code ≤ 10 → e ≤ 15 → m < 2 ^ (4 + 2 * code) →
    let w := 4 + 2 * code
    let signed : Int := (BitVec.ofNat w m).toInt
    (mantissaSample w e m).toInt = (signed * 2 ^ (24 - w)) / 2 ^ e ∧
    -8388608 ≤ (signed * 2 ^ (24 - w)) / 2 ^ e ∧ (signed * 2 ^ (24 - w)) / 2 ^ e ≤ 8388607) ∧
  (∀ (src : List Channel) (set : List Position) (ch : Channel),
    let two := src = [.fl, .fr]
    let speaker := ∃ p, p ∈ set ∧ p.channel = some ch
    virtualChannels .direct src set = src ∧
    (ch ∈ virtualChannels .stereo src set ↔ ch ∈ src ∧ (ch = .fl ∨ ch = .fr ∨ ch = .lfe)) ∧
    (¬ two → virtualChannels .matrix src set = src) ∧
    (two → (ch ∈ virtualChannels .matrix src set ↔
      ch = .fl ∨ ch = .fr ∨ ch = .c ∨ ch = .sl ∨ ch = .sr ∨ ((ch = .bl ∨ ch = .br) ∧ speaker))) ∧
    (ch ∈ virtualChannels .allStereo src set ↔
      ch = .fl ∨ ch = .fr ∨ (ch = .lfe ∧ Channel.lfe ∈ src) ∨ speaker)) ∧
  (∀ (k : DownmixCoef) (v : Sound) (i : Nat), i < 48 →
    let sat := fun x : Int => max (-8388608) (min x 8388607)
    let two := v.channels = [.fl, .fr]
    let x := fun ch : Channel => (v.get ch).getD i 0
    let y := fun (mode : SurroundMode) (ch : Channel) => (virtualWave mode k v ch).getD i 0
    let lo := (downmix k v).1.getD i 0
    let ro := (downmix k v).2.getD i 0
    (∀ ch, y .direct ch = x ch ∧ y .stereo ch = x ch ∧ (¬ two → y .matrix ch = x ch)) ∧
    (two → y .matrix .fl = x .fl ∧ y .matrix .fr = x .fr ∧
      y .matrix .c = sat (((x .fl + x .fr) * 2048 + 2048) / 4096) ∧
      y .matrix .sl = sat (((x .fl - x .fr) * 2896 + 2048) / 4096) ∧
      y .matrix .sr = sat (((x .fr - x .fl) * 2896 + 2048) / 4096) ∧
      y .matrix .bl = y .matrix .sl ∧ y .matrix .br = y .matrix .sr) ∧
    (∀ ch, ch = .fl ∨ ch = .sl ∨ ch = .bl ∨ ch = .hl → y .allStereo ch = lo) ∧
    (∀ ch, ch = .fr ∨ ch = .sr ∨ ch = .br ∨ ch = .hr → y .allStereo ch = ro) ∧
    y .allStereo .c = sat (((lo + ro) * 2048 + 2048) / 4096) ∧ y .allStereo .lfe = x .lfe ∧
    (two → lo = x .fl ∧ ro = x .fr) ∧
    (¬ two →
      lo = sat ((4096 * x .fl + k.c * x .c + k.s * x .sl + k.s * x .bl + 2896 * x .hl + 2048) / 4096) ∧
      ro = sat ((4096 * x .fr + k.c * x .c + k.s * x .sr + k.s * x .br + 2896 * x .hr + 2048) / 4096))) ∧
  (∀ (s : State) (z : Zone),
    (∀ i h c r, (s.zone z).live = .input i → s.boundTo i = true → s.decoder.header = some h →
      h.downmix = some (c, r) → c ≤ 3 → r ≤ 3 →
      s.downmixCoefs z = ⟨[4096, 3446, 2896, 2440].getD c 0, [4096, 2896, 2048, 0].getD r 0⟩) ∧
    ((∀ i h, (s.zone z).live = .input i → s.boundTo i = true → s.decoder.header = some h → h.downmix = none) →
      s.downmixCoefs z = ⟨2896, 2896⟩)) ∧
  (∀ (set : List Position) (p : Position) (ch : Channel), set.Nodup → p ∈ set →
    let subs := ch = .lfe ∧ (Position.sub1 ∈ set ∨ Position.sub2 ∈ set)
    (∀ q, Channel.position ch = some q → q ∈ set → foldCoef set p ch = if p = q then 4096 else 0) ∧
    (subs → foldCoef set p ch = if p = .sub1 ∨ p = .sub2 then 4096 else 0) ∧
    ((∀ q, Channel.position ch = some q → q ∉ set) → ¬ subs →
      foldCoef set p ch = (((foldEnds set ch).filter (fun e => decide (e.1 = p))).map (·.2)).sum)) ∧
  (∀ (set : List Position) (virtual : List Channel) (v : Sound) (row : FoldRow) (i : Nat), i < 48 →
    row ∈ buildMatrix set virtual → (row.sum v).getD i 0 = max (-8388608) (min
      (((virtual.map (fun ch => (foldCoef set row.position ch : Int) * (v.get ch).getD i 0)).sum + 2048) / 4096)
      8388607)) ∧
  (∀ (s : State) (audio : BlockAudio) (v : Sound) (rs : List Redirect) (o : Fin 13) (z : Zone) (role : Role),
    let lr := downmix (s.mix.downmix.get z) (s.source audio z)
    let left := role = .z2l ∨ role = .z3l
    (s.out o).zone = some z → (s.out o).role = some role →
    ((s.out o).state = .granted → z ≠ .main →
      (s.pairOf z = .both → s.writtenWave audio v rs o = some (if left then lr.1 else lr.2)) ∧
      (∀ q, s.pairOf z = .one q → ∃ w, s.writtenWave audio v rs o = some w ∧ ∀ i, i < 48 →
        w.getD i 0 = max (-8388608) (min (((lr.1.getD i 0 + lr.2.getD i 0) * 2048 + 2048) / 4096) 8388607))) ∧
    ((s.out o).state = .handover → (s.out o).phase = some .rampDown →
      (z ≠ .main → s.writtenWave audio v rs o = some (if left then lr.1 else lr.2)) ∧
      (∀ p ch, z = .main → role = .pos p → p.channel = some ch →
        s.writtenWave audio v rs o = some (v.get ch)))) ∧
  (∀ (s : State) (audio : BlockAudio) (z : Zone) (ch : Channel) (k : Nat), k < 48 →
    let r := s.zone z
    let x := (s.sourceWave audio z ch).getD k 0
    let left := (audio.tunerLeft.getD k 0).toInt
    let right := (audio.tunerRight.getD k 0).toInt
    (r.power = .standby ∨ r.status ≠ .playing → x = 0) ∧
    (r.power ≠ .standby → r.status = .playing →
      (r.live = .tuner →
        (s.tuner.state ≠ .idle → x = 0) ∧
        (s.tuner.state = .idle →
          (s.tuner.band = .am → x = left) ∧
          (s.tuner.band = .fm → s.tuner.blend = .stereo → x = if ch = .fr then right else left) ∧
          (s.tuner.band = .fm → s.tuner.blend = .mono → x = ((left + right) * 2048 + 2048) / 4096))) ∧
      (∀ i, r.live = .input i → (s.input i).state ≠ .packed →
        (∀ a, a ∈ audio.inputs → a.input = i → a.channel = ch →
          (∀ b, b ∈ audio.inputs → b.input = i → b.channel = ch → b = a) → x = (a.samples.getD k 0).toInt) ∧
        ((∀ a, a ∈ audio.inputs → ¬ (a.input = i ∧ a.channel = ch)) → x = 0)) ∧
      (∀ i, r.live = .input i → (s.input i).state = .packed →
        (s.boundTo i = false ∨ (s.decoder.state ≠ .locked ∧ s.decoder.state ≠ .concealing) → x = 0) ∧
        (∀ xs v, s.boundTo i = true → s.decoder.state = .locked ∨ s.decoder.state = .concealing →
          s.decoder.fifo[ch.index]? = some xs → xs[k]? = some v → x = v.toInt)))) ∧
  (∀ (s : State) (audio : BlockAudio) (z : Zone) (ch : Channel),
    let source := s.source audio z
    source.channels = s.mix.sourceSet.get z ∧
    (ch ∈ s.mix.sourceSet.get z → source.get ch = s.sourceWave audio z ch) ∧
    (ch ∈ s.mix.virtualSet → (s.virtualSound audio).get ch =
      virtualWave (s.zone .main).mode (s.mix.downmix.get .main) (s.source audio .main) ch) ∧
    (ch ∉ s.mix.virtualSet → (s.virtualSound audio).get ch = List.replicate 48 0)) ∧
  (∀ (s : State) (audio : BlockAudio) (o : Fin 13) (p : Position),
    s.mix.foldMatrix = some (buildMatrix s.mix.speakerSet s.mix.virtualSet) → s.mix.speakerSet.Nodup →
    (s.out o).state = .granted → (s.out o).zone = some .main → (s.out o).role = some (.pos p) →
    let sat := fun x : Int => max (-8388608) (min x 8388607)
    let v := s.virtualSound audio
    let hz := s.mix.crossover.toNat
    let high := fun (k : Fin 9) (i : Nat) => sat (runOut (Config.highPass hz) (s.filterStart k).highPass
      (s.sumAt v (mainPositions.getD k.val .fl)) i)
    let low := fun (k : Fin 9) (i : Nat) => sat (runOut (Config.lowPass hz) (s.filterStart k).lowPass
      (s.sumAt v (mainPositions.getD k.val .fl)) i)
    (p ∉ s.mix.speakerSet → s.writtenWave audio v (s.redirects v) o = some (List.replicate 48 0)) ∧
    (p ∈ s.mix.speakerSet → ∃ w, s.writtenWave audio v (s.redirects v) o = some w ∧ ∀ i, i < 48 →
      (p ≠ .sub1 → p ≠ .sub2 → ¬ s.isRedirected p → w.getD i 0 = s.sumAt v p i) ∧
      (∀ k : Fin 9, mainPositions[k.val]? = some p → s.isRedirected p → w.getD i 0 = high k i) ∧
      (∀ ks : List (Fin 9), ks.Nodup →
        (∀ k : Fin 9, k ∈ ks ↔ s.isRedirected (mainPositions.getD k.val .fl)) →
        p = .sub1 ∨ p = .sub2 →
        w.getD i 0 = sat (s.sumAt v p i + (ks.map (fun k => low k i)).sum)))) ∧
  (∀ (word : Nat) (x : Int),
    let y := max (-8388608) (min ((x * word + 524288) / 1048576) 8388607)
    (outputSample word false x).toInt = y ∧ (outputSample word true x).toInt = min (-y) 8388607)

/-- FRAME_FOUND_SEARCHING, the rows of R77: a good frame becomes the candidate, a bad one or a missing
sync drops it and the scan goes on; a second consecutive good frame of the same rate and mask locks, its
samples being delivered. Outside SEARCHING the step does nothing, the model's choice (log 30); stream
positions count from the binding (log 14), and the samples of the locking frame join the delivery queue, the
model's choice (log 9). Read Decoder with its clear flag answers the values held and clears the counters
and the last frame error (R84). -/
def Obligations.FramesFoundInSearching : Prop :=
  ∀ (bs : List Byte) (s : State),
    let d := s.decoder
    (d.state ≠ .searching → exec (.frameFoundSearching bs) s = .next s) ∧
    (d.state = .searching → d.candidate = none →
      (findSync bs 0 = none → exec (.frameFoundSearching bs) s = .next s) ∧
      (∀ k, findSync bs 0 = some k →
        (∀ h records, judgeFields (bs.drop k) = .good h records →
          exec (.frameFoundSearching bs) s = .next (s.setDecoder { d with
            good := min (d.good + 1) 65535, candidate := some (h.rate, h.mask), header := some h
            scanPos := d.scanPos + k + h.length })) ∧
        (∀ e, judgeFields (bs.drop k) = .bad e →
          exec (.frameFoundSearching bs) s = .next (s.setDecoder { d with
            lastError := e, scanPos := d.scanPos + k + 1 })))) ∧
    (d.state = .searching → ∀ rate mask, d.candidate = some (rate, mask) →
      (∀ h records, judge bs = .good h records → ¬ (h.rate = rate ∧ h.mask = mask) →
        exec (.frameFoundSearching bs) s = .next (s.setDecoder { d with
          good := min (d.good + 1) 65535, candidate := some (h.rate, h.mask), header := some h
          scanPos := d.scanPos + h.length })) ∧
      (∀ e, judge bs = .bad e →
        exec (.frameFoundSearching bs) s = .next (s.setDecoder { d with
          candidate := none, lastError := e
          scanPos := if e = .sync then d.scanPos else d.scanPos + 1 })) ∧
      (∀ h records, judge bs = .good h records → h.rate = rate → h.mask = mask →
        ∃ t, exec (.frameFoundSearching bs) s = .next t ∧ t.decoder.state = .locked ∧
          t.decoder.good = min (d.good + 1) 65535 ∧ t.decoder.candidate = none ∧
          t.decoder.consecutiveBad = 0 ∧ t.decoder.header = some h ∧
          t.decoder.repeatBuffer = some (decodeSamples h records) ∧
          t.decoder.expected = some (d.scanPos + h.length) ∧ t.decoder.binding = d.binding ∧
          (h.rate = 0 → t.decoder.fifo = queuedAfter d.fifo (decodeSamples h records).channels) ∧
          reported t .decoder { EventDetail.zero with reasons := 1 } ∧
          portsRaised s t ∧ onlyChanges [.decoder, .freeCount, .ports] s t)) ∧
    (∀ (p : Port) (h : FrameHead) (count : Half), takenAtOnce s p h (.readDecoder 1 count) →
      count.toNat ≤ 4096 → exec (.readDecoder p h 1 count) s = .next
        ((s.setDecoder { d with good := 0, bad := 0, concealed := 0, lastError := .none }).closed p h
          (.readDecoder 1 count) (readAnswer count d.bytes)))

/-- FRAME_TAKEN_LOCKED, the rows of R78 to R80: a good frame is delivered, becomes the repeat buffer
and the last good header, and raises FORMAT when its rate or mask is new; the first bad frame of a run
delivers the halved repeat, the second silence, and the third returns the decoder to SEARCHING with LOST.
That delivered samples wait in a queue, emptied at the loss, is the model's choice (log 9). -/
def Obligations.FramesTakenInLock : Prop :=
  ∀ (bs : List Byte) (old : FrameHeader) (pos : Nat) (s : State),
    let d := s.decoder
    (d.state = .locked ∨ d.state = .concealing) → d.header = some old → d.expected = some pos →
    (∀ h records, judge bs = .good h records →
      ∃ t, exec (.frameTakenLocked bs) s = .next t ∧ t.decoder.state = .locked ∧
        t.decoder.good = min (d.good + 1) 65535 ∧ t.decoder.bad = d.bad ∧ t.decoder.concealed = d.concealed ∧
        t.decoder.consecutiveBad = 0 ∧ t.decoder.header = some h ∧
        t.decoder.repeatBuffer = some (decodeSamples h records) ∧
        t.decoder.expected = some (pos + h.length) ∧
        (h.rate = 0 → t.decoder.fifo = queuedAfter d.fifo (decodeSamples h records).channels) ∧
        (h.rate ≠ old.rate ∨ h.mask ≠ old.mask → reported t .decoder { EventDetail.zero with reasons := 4 }) ∧
        (h.rate = old.rate → h.mask = old.mask → t.ports = s.ports) ∧
        portsRaised s t ∧ onlyChanges [.decoder, .freeCount, .ports] s t) ∧
    (∀ e, judge bs = .bad e → old.length ≤ bs.length →
      (d.consecutiveBad < 2 → ∃ t, exec (.frameTakenLocked bs) s = .next t ∧
        t.decoder.state = .concealing ∧ t.decoder.consecutiveBad = d.consecutiveBad + 1 ∧
        t.decoder.bad = min (d.bad + 1) 65535 ∧ t.decoder.concealed = min (d.concealed + 1) 65535 ∧
        t.decoder.good = d.good ∧ t.decoder.lastError = e ∧ t.decoder.header = d.header ∧
        t.decoder.repeatBuffer = d.repeatBuffer ∧ t.decoder.expected = some (pos + old.length) ∧
        (∀ f, old.rate = 0 → d.consecutiveBad = 0 → d.repeatBuffer = some f → t.decoder.fifo =
          queuedAfter d.fifo (f.channels.map (fun xs => xs.map (fun x => BitVec.ofInt 24 (x.toInt / 2))))) ∧
        (old.rate = 0 → d.consecutiveBad = 1 → t.decoder.fifo =
          queuedAfter d.fifo (List.replicate 10 (List.replicate (256 * old.blocks) 0))) ∧
        onlyChanges [.decoder, .freeCount] s t) ∧
      (d.consecutiveBad = 2 → ∃ t, exec (.frameTakenLocked bs) s = .next t ∧
        t.decoder = { d with
          state := .searching, consecutiveBad := 0, repeatBuffer := none, expected := none, candidate := none
          lastError := e, bad := min (d.bad + 1) 65535, scanPos := pos + 1, fifo := [] } ∧
        reported t .decoder { EventDetail.zero with reasons := 2 } ∧ portsRaised s t ∧
        onlyChanges [.decoder, .ports] s t))

/-! ### The Mix Engine -/

/-- Set Speaker (R88 to R90, R121): the tests in order; the clamped values held are DONE_NO_CHANGE; four
new values are recorded together; a new distance with MAIN in WAKING or ON asks for its delay change,
measured against the largest distance of the speaker set, and is refused with the status of a refusal. That the
pages of a pending change which the request withdraws count as free, in the test of the pages and in the
placing, is the model's reading of R126 (`withoutChanges`, `changeGranted`; DEDUCED, log 24). A granted change is
followed by the retry of the starved outputs where pages were withdrawn (R131, log 15), and a size that changes to
or from NONE by the regrant of every output in ascending order (R43, R89; the order is the model's reading, log 33):
the state after both is given. What the regrant of one output does is given for every state: in particular a
direct grant when a size goes from NONE to another, GRANTED or STARVED, and a handover when it goes to NONE. In
QUIETING R89 has that handover start and R43 leaves the output as it is: the model takes R43 (DESIGN CHOICE,
log 42). That the relay stays as it is where a handover starts is log 38, and the two reasons of a STARVED output
that gets a segment are log 17. Set Crossover takes 60, 80, 100 or 120 (R91). -/
def Obligations.SpeakersAndCrossover : Prop :=
  (∀ (p : Port) (h : FrameHead) (a b : Byte) (dist : Half) (tr pol : Byte) (s : State),
    takenAtOnce s p h (.setSpeaker a b dist tr pol) →
    let same := fun x => exec (.setSpeaker p h a b dist tr pol) s =
      .next (s.closed p h (.setSpeaker a b dist tr pol) x)
    (11 ≤ a.toNat → same (Answer.badParam 0)) ∧
    (∀ w, positionOf a = some w →
      (sizeOf w b = none → same (Answer.badParam 1)) ∧
      (∀ z, sizeOf w b = some z →
        (2 ≤ pol.toNat → same (Answer.badParam 4)) ∧
        (pol.toNat < 2 →
          let old := s.speaker w
          let r : SpeakerRec := { size := z, distance := min dist.toNat 1800
                                  trim := max (-24) (min tr.toInt 24), inverted := pol == 1 }
          let u := s.setSpeakerRec w r
          let up := (s.zone .main).power = .waking ∨ (s.zone .main).power = .on
          let regranted := fun v : State => (List.finRange 13).foldl State.regrant v
          (r = old → same (Answer.plain .doneNoChange)) ∧
          (r ≠ old → r.distance = old.distance ∨ ¬ up → (r.size = .none ↔ old.size = .none) →
            exec (.setSpeaker p h a b dist tr pol) s =
              .next (u.closed p h (.setSpeaker a b dist tr pol) (Answer.plain .done))) ∧
          (r.distance ≠ old.distance → up → ∀ m : Nat,
            (∀ q, q ∈ s.speakerSet → (u.speaker q).distance ≤ m) →
            (m = 0 ∨ ∃ q, q ∈ s.speakerSet ∧ (u.speaker q).distance = m) →
            let want := s.newDelay (u.setDelay { s.delay with dref := some m }) .main
            (s.delay.state = .initializing ∨ s.delay.compaction ≠ none → same (Answer.plain .memoryBusy)) ∧
            (s.delay.compaction = none →
              (s.delay.state = .uninit ∨ s.delay.state = .fault → same (Answer.plain .notReady)) ∧
              (s.delay.state = .ready → (s.delay.segments.map (·.output)).Nodup →
                ((s.delay.withoutChanges want).freePages < s.delay.pagesAsked want →
                  same (Answer.plain .noDelayMemory)) ∧
                (s.delay.pagesAsked want ≤ (s.delay.withoutChanges want).freePages →
                  ((¬ ∃ d, changeGranted s.delay want d) → same (Answer.plain .fragmented)) ∧
                  ((∃ d, changeGranted s.delay want d) →
                    ∃ t d v, exec (.setSpeaker p h a b dist tr pol) s = .next t ∧
                      changeGranted s.delay want d ∧
                      State.retriedAfter (u.setDelay { d with dref := some m }) s.delay want v ∧
                      t = (if r.size = .none ↔ old.size = .none then v else regranted v).closed p h
                        (.setSpeaker a b dist tr pol) (Answer.plain .done) ∧
                      (s.delay.starved = [] → (r.size = .none ↔ old.size = .none) →
                        t.delay = { d with dref := some m }) ∧
                      t.mix = u.mix ∧ t.delay.dref = some m ∧
                      (t.port p).response =
                        some { status := .done, tag := h.tag, code := 0x50, slot := none, data := [] } ∧
                      onlyChanges [.mix, .zones, .outputs, .delay, .slots, .ports] s t))))) ∧
          (r.distance = old.distance ∨ ¬ up → ¬ (r.size = .none ↔ old.size = .none) →
            ∃ t, exec (.setSpeaker p h a b dist tr pol) s = .next t ∧
              t = (regranted u).closed p h (.setSpeaker a b dist tr pol) (Answer.plain .done) ∧ t.mix = u.mix ∧
              (∀ o, (s.out o).state = .idle → u.grantRule o = some (.main, .pos w) → s.delay.segment o = none →
                (∀ q, q ≠ o → u.wellGranted q) → placedOr u t o .main (.pos w) s.delay.starved 1 2 ∧
                  ∀ q, q ≠ o → t.out q = s.out q) ∧
              t.delay.dref = s.delay.dref ∧ t.outputs.assign = s.outputs.assign ∧
              (∀ o, (s.out o).state = .granted → (s.out o).zone = some .main → (s.out o).role = some (.pos w) →
                o ∉ s.delay.starved → u.grantRule o = none → ¬ (s.zone .main).power = .quieting →
                t.out o = { s.out o with state := .handover, phase := some .rampDown, target := some none }) ∧
              (t.port p).response =
                some { status := .done, tag := h.tag, code := 0x50, slot := none, data := [] } ∧
              onlyChanges [.mix, .zones, .outputs, .delay, .slots, .ports] s t))))) ∧
  (∀ (u : State) (o : Fin 13), regrants u (u.regrant o) o) ∧
  (∀ (p : Port) (h : FrameHead) (hz : Byte) (s : State), takenAtOnce s p h (.setCrossover hz) →
    (hz ≠ 60 → hz ≠ 80 → hz ≠ 100 → hz ≠ 120 → exec (.setCrossover p h hz) s =
      .next (s.closed p h (.setCrossover hz) (Answer.badParam 0))) ∧
    (hz = 60 ∨ hz = 80 ∨ hz = 100 ∨ hz = 120 →
      (hz = s.mix.crossover → exec (.setCrossover p h hz) s =
        .next (s.closed p h (.setCrossover hz) (Answer.plain .doneNoChange))) ∧
      (hz ≠ s.mix.crossover → exec (.setCrossover p h hz) s =
        .next ((s.setMix { s.mix with crossover := hz }).closed p h (.setCrossover hz) (Answer.plain .done)))))

/-- R109: the gain word of an index from −160 to +24 is 1,048,576 × 10^(g/40) rounded to the nearest
integer, a half rounded up; that of −161 is 0; it rises at every step, and the values of the rule's table
are as given. -/
def Obligations.GainWords : Prop :=
  (∀ g : Int, -160 ≤ g → g ≤ 24 →
    (gainWord g : Int) = ⌊(1048576 : ℝ) * (10 : ℝ) ^ ((g : ℝ) / 40) + 1 / 2⌋) ∧
  gainWord (-161) = 0 ∧ gainWord (-160) ≠ 0 ∧
  (∀ g : Int, -161 ≤ g → g < 24 → gainWord g < gainWord (g + 1)) ∧
  gainWord 24 = 4174456 ∧ gainWord 12 = 2092184 ∧ gainWord 0 = 1048576 ∧ gainWord (-12) = 525533 ∧
  gainWord (-20) = 331589 ∧ gainWord (-40) = 104858 ∧ gainWord (-55) = 44218 ∧ gainWord (-80) = 10486 ∧
  gainWord (-120) = 1049 ∧ gainWord (-160) = 105

/-- At a block start every output takes its target and ramp kind from the first row of R107 that holds,
with the hold of R124, then its current index moves as R108 says: one step when normal, up to twelve when
fast, never past the target. A ramp takes the number of blocks of R108. The normal target is that of
R106. -/
def Obligations.GainsMoveAtBlockStarts : Prop :=
  (∀ (audio : BlockAudio) (s : State), s.delay.inDram = true → ∃ t, exec (.blockStart audio) s = .next t ∧
    ∀ o : Fin 13,
      let r := s.out o
      let g := s.gain o
      let g' := t.gain o
      let held := ∃ x, s.delay.segment o = some x ∧ (x.change ≠ none ∨ x.move ≠ none)
      let toward := fun (target : Int) (ramp : RampKind) =>
        g'.target = target ∧ g'.ramp = ramp ∧
        (g.current ≤ target → g'.current = min (g.current + (if ramp = .normal then 1 else 12)) target) ∧
        (target ≤ g.current → g'.current = max (g.current - (if ramp = .normal then 1 else 12)) target)
      (r.state = .fault ∨ r.state = .idle ∨ r.state = .starved ∨
          (r.state = .handover ∧ r.phase = some .relayOpen) → g'.current = -161 ∧ g'.target = -161) ∧
      (r.state = .handover → r.phase = some .rampDown → toward (-161) .fast) ∧
      (r.state = .granted → held → toward (-161) .fast) ∧
      (∀ z role, r.state = .granted → r.zone = some z → r.role = some role → ¬ held →
        ((s.zone z).power = .waking ∨ (s.zone z).power = .quieting → toward (-161) .fast) ∧
        ((s.zone z).power = .on → (s.zone z).waiting ≠ none → toward (-161) .fast) ∧
        ((s.zone z).power = .on → (s.zone z).waiting = none → (s.zone z).mute = true →
          toward (-161) .normal) ∧
        ((s.zone z).power = .on → (s.zone z).waiting = none → (s.zone z).mute = false →
          toward (s.normalTarget z role) .normal))) ∧
  (∀ (g : GainRec) (n : Nat),
    let dist := (g.current - g.target).natAbs
    let blocks := if g.ramp = .normal then dist else (dist + 11) / 12
    (n < blocks → (GainRec.step^[n] g).current ≠ g.target) ∧
    (blocks ≤ n → (GainRec.step^[n] g).current = g.target)) ∧
  (∀ (s : State) (z : Zone) (role : Role) (trim level : Int),
    (∀ w, z = .main → role = .pos w → trim = (s.speaker w).trim) →
    ((z ≠ .main ∨ ∀ w, role ≠ .pos w) → trim = 0) →
    (∀ i hd, (s.zone z).live = .input i → (∃ b, s.decoder.binding = some b ∧ b.val = i.val) →
      s.decoder.header = some hd → level = hd.dialogue) →
    (¬ (∃ i b hd, (s.zone z).live = .input i ∧ s.decoder.binding = some b ∧ b.val = i.val ∧
      s.decoder.header = some hd) → level = 0) →
    s.normalTarget z role =
      max (-160) (min ((s.zone z).volume + trim - 2 * level - (if s.outputs.thw.active then 12 else 0)) 24))

/-- What a block start leaves, and what its report causes (R8, R13, R45, R86, R105, R128, R134): the lanes
hold 48 samples, silence where the index is −161 or the output holds no line; a switching zone whose outputs
are silent takes its waiting source; a handover's ramp-down ends; a pending change of a silent output is
applied; a move in RAMP goes on to COPY. The lines of a zone whose switch-in is taken read zero, with what a
move has copied of them; what is written for an output goes into its ring at the write position, and its lane
carries the words T samples back, with gain and polarity (R105, R110, R123). The values of the block are those
held at its start, every remaining time one less and the lines of a switch-in cleared: each zone's source set, the
virtual set, the fold matrix, none while MAIN is in STANDBY, the downmix coefficients and the pair states (R51,
R86, R87, R93, R100). The filters of a redirected position have run over its speaker sum; those of any other are
kept (R101). The decoded samples of the block have left the delivery queue, 48 of each channel: the queue is the
model's choice (DESIGN CHOICE, log 9; R81 gives the delivery no buffer). Every word of the delay DRAM is as it was
but for the lines that a switch-in clears with what a move has copied of them, the 48 words that each output's
samples go to, the new line of a pending change applied, and the lines of the segments that starved outputs get
(R105, R123, R128). At the end of a zone's ramp
stage the relays of its GRANTED outputs open, and no other relay of a GRANTED output moves (R8, R52). A table that leaves the DRAM
stops the step (log 21). -/
def Obligations.BlockStartsReport : Prop :=
  ∀ (audio : BlockAudio) (s : State),
    (s.delay.inDram = false → exec (.blockStart audio) s = .fault .outsideDram ∧
      exec .pageCopy s = .fault .outsideDram) ∧
    (s.delay.inDram = true → ∃ t, exec (.blockStart audio) s = .next t ∧
      (∀ o : Fin 13, t.mix.lanes[o].length = 48 ∧
        ((t.gain o).current = -161 ∨ s.delay.segment o = none → t.mix.lanes[o] = List.replicate 48 0)) ∧
      t.mix.speakers = s.mix.speakers ∧ t.mix.crossover = s.mix.crossover ∧ t.mix.speakerSet = s.speakerSet ∧
      (∀ z,
        let r := s.zone z
        let set := t.mix.sourceSet.get z
        (r.power = .standby ∨ r.status ≠ .playing ∨ r.live = .tuner → set = [.fl, .fr]) ∧
        (∀ i, r.power ≠ .standby → r.status = .playing → r.live = .input i →
          ((s.input i).state = .pcm2 → set = [.fl, .fr]) ∧
          (∀ m, (s.input i).state = .pcmn → (s.input i).mask = some m → set = channelsOf m) ∧
          (∀ h, (s.input i).state = .packed → s.boundTo i = true → s.decoder.header = some h →
            set = channelsOf h.mask) ∧
          ((s.input i).state = .packed → s.boundTo i = false ∨ s.decoder.header = none → set = [.fl, .fr])) ∧
        t.mix.downmix.get z = s.downmixCoefs z) ∧
      ((s.zone .main).power = .standby → t.mix.virtualSet = [] ∧ t.mix.foldMatrix = none) ∧
      ((s.zone .main).power ≠ .standby →
        t.mix.virtualSet = virtualChannels (s.zone .main).mode (t.mix.sourceSet.get .main) s.speakerSet ∧
        t.mix.foldMatrix = some (buildMatrix s.speakerSet t.mix.virtualSet)) ∧
      (∀ z left right pair, (z = .z2 ∧ left = .z2l ∧ right = .z2r ∧ pair = t.mix.pair2) ∨
          (z = .z3 ∧ left = .z3l ∧ right = .z3r ∧ pair = t.mix.pair3) →
        let held := fun r : Role => ∃ o, (s.out o).grantedTo z = true ∧ (s.out o).role = some r
        (held left → held right → pair = .both) ∧ (held left → ¬ held right → pair = .one left) ∧
        (¬ held left → held right → pair = .one right) ∧ (¬ held left → ¬ held right → pair = .none)) ∧
      s.atBlock.mix = { t.mix with filters := s.mix.filters, lanes := s.mix.lanes } ∧
      (∀ z, s.atBlock.zone z = { s.zone z with
        wakeTimer := (s.zone z).wakeTimer.map (· - 1), relayTimer := (s.zone z).relayTimer.map (· - 1)
        switchIn := false }) ∧
      (∀ o, s.atBlock.out o = { s.out o with relayOpenTimer := (s.out o).relayOpenTimer.map (· - 1) }) ∧
      (∀ i, s.atBlock.input i = { s.input i with
        timer := if i.val < 8 then (s.input i).timer.map (· - 1) else (s.input i).timer }) ∧
      s.atBlock.tuner = { s.tuner with
        settle := s.tuner.settle.map (· - 1)
        seek := s.tuner.seek.map (fun k => { k with dwell := k.dwell - 1 })
        scan := s.tuner.scan.map (fun k => { k with dwell := k.dwell - 1 }) } ∧
      s.atBlock.decoder = s.decoder ∧
      (∀ (k : Fin 9) p, mainPositions[k.val]? = some p →
        let v := s.atBlock.virtualSound audio
        let hz := s.mix.crossover.toNat
        (¬ t.isRedirected p → t.mix.filters[k] = { s.mix.filters[k] with redirected := false }) ∧
        (t.isRedirected p → t.mix.filters[k] =
          { highPass := runInner (Config.highPass hz) (s.filterStart k).highPass (s.atBlock.sumAt v p) 48
            lowPass := runInner (Config.lowPass hz) (s.filterStart k).lowPass (s.atBlock.sumAt v p) 48
            redirected := true })) ∧
      ((∀ z, (s.zone z).waiting = none) →
        let rest := s.decoder.fifo.map (List.drop 48)
        t.decoder = { s.decoder with fifo := if ∀ xs, xs ∈ rest → xs = [] then [] else rest }) ∧
      (∀ z o, (s.out o).grantedTo z = true → o ∉ s.delay.starved →
        let silent := ∀ q, (s.out q).grantedTo z = true → (t.gain q).current = -161
        (t.out o).grantedTo z = true ∧
        (t.out o).relay = (if (s.zone z).power = .quieting ∧ (s.zone z).quietStage = some .ramp ∧ silent
          then false else (s.out o).relay)) ∧
      (∀ z, (t.zone z).power = (s.zone z).power ∧ (t.zone z).volume = (s.zone z).volume ∧
        (t.zone z).stack = (s.zone z).stack) ∧
      (∀ z w, (s.zone z).power = .on → (s.zone z).waiting = some w →
        ((∀ o, (s.out o).grantedTo z = true → (t.gain o).current = -161) →
          (t.zone z).live = w ∧ (t.zone z).waiting = none ∧ zoneReported t z) ∧
        (¬ (∀ o, (s.out o).grantedTo z = true → (t.gain o).current = -161) →
          (t.zone z).live = (s.zone z).live ∧ (t.zone z).waiting = some w)) ∧
      (∀ z, (s.zone z).power = .quieting → (s.zone z).quietStage = some .ramp →
        ((∀ o, (s.out o).grantedTo z = true → (t.gain o).current = -161) →
          (t.zone z).quietStage = some .relay ∧ (t.zone z).relayTimer = some 20)) ∧
      (∀ o, (s.out o).state = .handover → (s.out o).phase = some .rampDown → o ∉ s.delay.starved →
        ((t.gain o).current = -161 → t.out o = { s.out o with phase := some .relayOpen, relay := false
                                                              relayOpenTimer := some 20 }) ∧
        ((t.gain o).current ≠ -161 → (t.out o).phase = some .rampDown)) ∧
      (∀ o g c, s.delay.segment o = some g → g.change = some c → o ∉ s.delay.starved →
        ((t.gain o).current = -161 → ∃ g', t.delay.segment o = some g' ∧ g'.change = none ∧
          g'.delay = c.delay ∧ g'.base = (if c.kind = .relocate then c.base else g.base) ∧
          g'.count = (if c.kind = .retime then g.count else c.count) ∧
          (c.kind ≠ .retime → g'.writePos = g'.base * 256)) ∧
        ((t.gain o).current ≠ -161 → ∃ g', t.delay.segment o = some g' ∧ g'.change = some c)) ∧
      (∀ o g m, s.delay.segment o = some g → g.change = none → g.move = some m → o ∉ s.delay.starved →
        (t.gain o).current = -161 →
        ∃ g', t.delay.segment o = some g' ∧ g'.move = some { m with stage := .copy }) ∧
      portsRaised s t ∧
      onlyChanges [.zones, .minute, .outputs, .inputs, .decoder, .mix, .delay, .tuner, .ports, .freeCount] s t ∧
      (∀ z o g, (s.zone z).switchIn = true → (s.out o).grantedTo z = true → s.atBlock.delay.segment o = some g →
        (∀ a, 256 * g.base ≤ a → a < 256 * (g.base + g.count) → s.atBlock.delay.dram.read a = 0) ∧
        (∀ m a, g.move = some m → 256 * m.target ≤ a → a < 256 * (m.target + m.copied) →
          s.atBlock.delay.dram.read a = 0)) ∧
      (s.segmentsOk → ∀ o g, s.atBlock.delay.segment o = some g →
        (s.blockWave audio o = none ∨ (∃ m, g.move = some m ∧ m.stage = .copy) →
          t.mix.lanes[o] = List.replicate 48 0) ∧
        (∀ w, s.blockWave audio o = some w → (∀ m, g.move = some m → m.stage = .ramp) →
          t.mix.lanes[o] = (List.range 48).map (fun k =>
            outputSample (gainWord (t.gain o).current) (s.isInverted o)
              (if g.delay ≤ k then toSample (w.getD (k - g.delay) 0)
               else s.atBlock.delay.dram.read (g.ringWord g.delay k)).toInt) ∧
          ((∀ x, x ∈ s.delay.segments → x.change = none ∧ x.move = none) →
            (∀ k, k < 48 → t.delay.dram.read (g.ringWord 0 k) = toSample (w.getD k 0)) ∧
            t.delay.segment o = some { g with writePos := g.ringWord 0 48 }))) ∧
      (∀ a : Nat,
        (∀ z o g, (s.zone z).switchIn = true → (s.out o).grantedTo z = true → s.delay.segment o = some g →
          ¬ (256 * g.base ≤ a ∧ a < 256 * (g.base + g.count)) ∧
          ∀ m, g.move = some m → ¬ (256 * m.target ≤ a ∧ a < 256 * (m.target + m.copied))) →
        (∀ o g k, s.atBlock.delay.segment o = some g → s.blockWave audio o ≠ none →
          (∀ m, g.move = some m → m.stage = .ramp) → k < 48 → a ≠ g.ringWord 0 k) →
        (∀ o g c, s.delay.segment o = some g → g.change = some c → c.kind ≠ .retime →
          (t.gain o).current = -161 →
          let base := if c.kind = .relocate then c.base else g.base
          ¬ (256 * base ≤ a ∧ a < 256 * (base + c.count))) →
        (∀ o g, o ∈ s.delay.starved → t.delay.segment o = some g →
          ¬ (256 * g.base ≤ a ∧ a < 256 * (g.base + g.count))) →
        t.delay.dram.read a = s.delay.dram.read a))

/-! ### The delay memory -/

/-- Memory Start and its check (R115 to R117): the answers in each state; stage SEQUENCE gives way to stage
ROWS; a QUICK check tests every 85th row and fails at the first bad one; a FULL check tests every row, puts
the bad ones into the map and fails at the 65th; an end ends the slot with its status and result, the record being
posted or left waiting where the queue is full and a chain that holds on the slot moving (R182, R194), and raises
MEMORY. At the end of
its test the row holds the test pattern, and no other word has changed; the pattern is not given and may be any
(R116, log 6). That a
step of a check that does not run, or is at another stage, does nothing is the model's choice (log 30). -/
def Obligations.MemoryStartChecksRows : Prop :=
  (∀ (p : Port) (h : FrameHead) (level : Byte) (s : State), takenAtOnce s p h (.memoryStart level) →
    let same := fun a => exec (.memoryStart p h level) s = .next (s.closed p h (.memoryStart level) a)
    (2 ≤ level.toNat → same (Answer.badParam 0)) ∧
    (∀ l, checkLevelOf level = some l →
      (s.delay.state = .ready → same (Answer.plain .doneNoChange)) ∧
      (s.delay.state = .initializing → same (Answer.plain .memoryBusy)) ∧
      (s.delay.state = .uninit ∨ s.delay.state = .fault →
        (s.freeSlot = none → same (Answer.plain .busy)) ∧
        (∀ k, s.freeSlot = some k → exec (.memoryStart p h level) s =
          .next (((s.setSlot k (unlinkedSlot .memoryStart none p h)).setDelay { s.delay with
            state := .initializing, badRows := []
            check := some { level := l, stage := .sequence, nextRow := 0, badFound := 0, slot := k } }).closed
              p h (.memoryStart level) (Answer.acceptedIn k)))))) ∧
  (∀ s : State, s.delay.check = none → exec .checkSequenceEnd s = .next s ∧
    (∀ pass, exec (.quickRowTestEnd pass) s = .next s ∧ exec (.fullRowTestEnd pass) s = .next s)) ∧
  (∀ (s : State) (c : CheckRec), s.delay.check = some c →
    let written := fun t : State => t.freeCount = s.freeCount + 1 ∧ ∀ a, a < 262144 → t.delay.dram.read a =
      if 1024 * c.nextRow ≤ a ∧ a < 1024 * (c.nextRow + 1) then Config.testPattern s.freeCount a
      else s.delay.dram.read a
    let goesOn := fun (i : Instr) (rows : List Nat) (c' : CheckRec) => ∃ t, exec i s = .next t ∧
      t.delay = { s.delay with dram := t.delay.dram, badRows := rows, check := some c' } ∧ written t ∧
      onlyChanges [.delay, .freeCount] s t
    let ends := fun (i : Instr) (st : MemoryState) (rows : List Nat) (code : Status) (result : List Byte)
        (reason : Byte) =>
      ∃ t, exec i s = .next t ∧
        t.delay = { s.delay with dram := t.delay.dram, state := st, check := none, badRows := rows } ∧ written t ∧
        t = ({ s.complete c.slot code result with delay := t.delay, freeCount := t.freeCount } : State).raise .memory
          { EventDetail.zero with reasons := reason } ∧
        (∀ b, canPost s c.slot b → slotPosted s t c.slot b code result) ∧ reported t .memory { EventDetail.zero with reasons := reason } ∧
        onlyChanges [.delay, .slots, .ports, .freeCount] s t
    (c.stage = .sequence →
      exec .checkSequenceEnd s = .next (s.setDelay { s.delay with check := some { c with stage := .rows } }) ∧
      (∀ pass, exec (.quickRowTestEnd pass) s = .next s ∧ exec (.fullRowTestEnd pass) s = .next s)) ∧
    (c.stage = .rows → exec .checkSequenceEnd s = .next s) ∧
    (c.stage = .rows → c.level = .quick →
      (∀ pass, exec (.fullRowTestEnd pass) s = .next s) ∧
      ends (.quickRowTestEnd false) .fault s.delay.badRows .failed [0, BitVec.ofNat 8 c.nextRow] 2 ∧
      (c.nextRow < 255 →
        goesOn (.quickRowTestEnd true) s.delay.badRows { c with nextRow := c.nextRow + 85 }) ∧
      (255 ≤ c.nextRow → c.badFound = 0 → ends (.quickRowTestEnd true) .ready s.delay.badRows .done [0, 0] 1)) ∧
    (c.stage = .rows → c.level = .full →
      let rows := s.delay.badRows ++ [c.nextRow]
      (∀ pass, exec (.quickRowTestEnd pass) s = .next s) ∧
      (64 ≤ c.badFound →
        ends (.fullRowTestEnd false) .fault rows .failed [1, BitVec.ofNat 8 (c.badFound + 1)] 2) ∧
      (c.badFound < 64 → c.nextRow < 255 → goesOn (.fullRowTestEnd false) rows
        { c with nextRow := c.nextRow + 1, badFound := c.badFound + 1 }) ∧
      (c.badFound < 64 → 255 ≤ c.nextRow → ends (.fullRowTestEnd false) .ready rows .done
        (halfBytes (BitVec.ofNat 16 (4 * (c.badFound + 1)))) 1) ∧
      (c.badFound < 65 → c.nextRow < 255 → goesOn (.fullRowTestEnd true) s.delay.badRows
        { c with nextRow := c.nextRow + 1 }) ∧
      (c.badFound < 65 → 255 ≤ c.nextRow → ends (.fullRowTestEnd true) .ready s.delay.badRows .done
        (halfBytes (BitVec.ofNat 16 (4 * c.badFound))) 1)))

/-- Compact Delay Memory (R132, R133): refused with MEMORY_BUSY, NOT_READY and BUSY in this order; when
accepted, the segment of lowest base is examined at once and, with no pending change and a lower run of
good pages that are free or its own, starts its move to the lowest such run; with no segment the compaction
ends at once. Any number of examinations may pass their segments over before one starts a move; when no segment
is left to examine, the compaction ends: its record becomes absent, the starved list is retried, and the slot
posts the pages moved and the largest hole (R133, R136). PAGE_COPY (R134 to R136) copies one page; after the
last one the segment takes its new base, its write position moves with it, and the compaction ends, where an
abort was requested, or goes on with its examinations in the same way. That PAGE_COPY does nothing while no segment is in COPY is the model's choice (log 30). -/
def Obligations.CompactionMovesSegments : Prop :=
  (∀ (p : Port) (h : FrameHead) (s : State), takenAtOnce s p h .compactDelayMemory →
    let same := fun a => exec (.compactDelayMemory p h) s = .next (s.closed p h .compactDelayMemory a)
    (s.delay.state = .initializing ∨ s.delay.compaction ≠ none → same (Answer.plain .memoryBusy)) ∧
    (s.delay.compaction = none →
      (s.delay.state = .uninit ∨ s.delay.state = .fault → same (Answer.plain .notReady)) ∧
      (s.delay.state = .ready →
        (s.freeSlot = none → same (Answer.plain .busy)) ∧
        (∀ k, s.freeSlot = some k →
          let u := s.setSlot k (unlinkedSlot .compact none p h)
          (∀ (g : Segment) (rest : List Segment) (b : Nat), s.delay.segments = g :: rest → g.change = none →
            let fits := fun b : Nat => ∀ i, i < g.count →
              b + i < 1024 ∧ s.delay.pageBad (b + i) = false ∧
              (s.delay.pageFree (b + i) = true ∨ g.hasPage (b + i) = true)
            b < g.base → fits b → (∀ b', b' < b → ¬ fits b') →
            exec (.compactDelayMemory p h) s = .next ((u.setDelay
              (({ s.delay with compaction := some ⟨k, 0, [g.output], some g.output, 0, false⟩ } :
                DelayState).setSegment g.output
                  { g with move := some { target := b, stage := .ramp, copied := 0 } })).closed p h
                .compactDelayMemory (Answer.acceptedIn k))) ∧
          (s.segmentsOk → ∀ c, Relation.ReflTransGen s.delay.passesOver ⟨k, 0, [], none, 0, false⟩ c →
            (∀ g b, s.delay.nextSegment c g → g.change = none → s.delay.lowerRun c.scanStart g b →
              (∀ b', b' < b → ¬ s.delay.lowerRun c.scanStart g b') →
              exec (.compactDelayMemory p h) s = .next ((u.setDelay (s.delay.moves c g b)).closed p h
                .compactDelayMemory (Answer.acceptedIn k))) ∧
            ((∀ g, ¬ s.delay.nextSegment c g) → exec (.compactDelayMemory p h) s =
              .next ((u.compactionEnds c).closed p h .compactDelayMemory (Answer.acceptedIn k)))) ∧
          (s.delay.segments = [] → s.delay.starved = [] → (s.port p).completions.length < 8 →
            ∃ t, exec (.compactDelayMemory p h) s = .next t ∧ t.delay = s.delay ∧ t.slots = s.slots ∧
              (t.port p).completions = (s.port p).completions ++
                [{ tag := h.tag, code := 0x61, status := .done, slot := some k, mark := .none
                   result := [0, 0] ++ halfBytes (BitVec.ofNat 16 s.delay.largestHole), heldBack := false }] ∧
              (t.port p).response =
                some { status := .accepted, tag := h.tag, code := 0x61, slot := some k, data := [] } ∧
              (∀ q, q ≠ p → t.port q = s.port q) ∧ onlyChanges [.slots, .ports] s t))))) ∧
  (∀ s : State, s.delay.inDram = true →
    ((s.delay.compaction = none ∨ ∀ c o, s.delay.compaction = some c → c.current = some o →
        ∀ g m, s.delay.segment o = some g → g.move = some m → m.stage = .ramp) →
      exec .pageCopy s = .next s) ∧
    (∀ c o g m, s.delay.compaction = some c → c.current = some o → s.delay.segment o = some g →
      g.move = some m → m.stage = .copy →
      let src := (g.base + m.copied) * 256
      let dst := (m.target + m.copied) * 256
      (m.copied + 1 < g.count → ∃ t, exec .pageCopy s = .next t ∧
        t.delay.segment o = some { g with move := some { m with copied := m.copied + 1 } } ∧
        (∀ q, q ≠ o → t.delay.segment q = s.delay.segment q) ∧
        (∀ i, i < 256 → t.delay.dram.read (dst + i) = s.delay.dram.read (src + i)) ∧
        (∀ a, a < dst ∨ dst + 256 ≤ a → t.delay.dram.read a = s.delay.dram.read a) ∧
        t.delay.compaction = s.delay.compaction ∧ onlyChanges [.delay] s t) ∧
      (g.count ≤ m.copied + 1 → o ∈ c.examined → s.delay.starved = [] →
        ∃ t, exec .pageCopy s = .next t ∧
          t.delay.segment o = some { g with
            base := m.target, writePos := g.writePos + m.target * 256 - g.base * 256, move := none } ∧
          (∀ i, i < 256 → t.delay.dram.read (dst + i) = s.delay.dram.read (src + i)) ∧
          (∀ a, a < dst ∨ dst + 256 ≤ a → t.delay.dram.read a = s.delay.dram.read a) ∧
          (∀ c', t.delay.compaction = some c' → c'.moved = c.moved + g.count ∧ c'.slot = c.slot ∧
            c'.abort = false ∧ t.slots = s.slots ∧ t.ports = s.ports) ∧
          (c.abort = true ∨ (∀ x, x ∈ s.delay.segments → x.output ∈ c.examined) →
            t.delay.compaction = none) ∧
          (∀ b, t.delay.compaction = none → canPost s c.slot b →
            slotPosted s t c.slot b (if c.abort = true then .aborted else .done)
              (halfBytes (BitVec.ofNat 16 (c.moved + g.count)) ++
                halfBytes (BitVec.ofNat 16 t.delay.largestHole))) ∧
          onlyChanges [.delay, .slots, .ports] s t) ∧
      (g.count ≤ m.copied + 1 → s.segmentsOk →
        let done := (s.delay.copyPage g m).finishMove g m
        let c0 := { c with current := none, moved := c.moved + g.count, scanStart := m.target + g.count }
        (c.abort = true → exec .pageCopy s = .next ((s.setDelay done).compactionEnds c0)) ∧
        (c.abort = false → ∀ c', Relation.ReflTransGen done.passesOver c0 c' →
          (∀ g' b, done.nextSegment c' g' → g'.change = none → done.lowerRun c'.scanStart g' b →
            (∀ b', b' < b → ¬ done.lowerRun c'.scanStart g' b') →
            exec .pageCopy s = .next (s.setDelay (done.moves c' g' b))) ∧
          ((∀ g', ¬ done.nextSegment c' g') → exec .pageCopy s =
            .next ((s.setDelay done).compactionEnds c')))) ∧
      (∀ (q : Fin 13) (z : Zone) (r : Role), g.count ≤ m.copied + 1 → c.abort = true → s.delay.starved = [q] →
        (s.out q).zone = some z → (s.out q).role = some r → (s.zone z).power = .waking ∨ (s.zone z).power = .on →
        let moved : DelayState := { (s.delay.copyPage g m).finishMove g m with compaction := none }
        ∃ t, exec .pageCopy s = .next t ∧
          (∀ e, moved.request [(q, s.totalDelay z r)] = .error e → t.delay = moved ∧ t.outputs = s.outputs) ∧
          (∀ d, moved.request [(q, s.totalDelay z r)] = .ok d → t.delay = { d with starved := [] } ∧
            t.out q = { state := .granted, phase := none, zone := some z, role := some r, target := none
                        segment := true, relay := decide (q.val < 11), relayOpenTimer := none } ∧
            (∀ x, x ≠ q → t.out x = s.out x) ∧
            reported t .channel { EventDetail.zero with outputs := outputBit q, reasons := 2 }) ∧
          (∀ b, canPost s c.slot b → slotPosted s t c.slot b .aborted
            (halfBytes (BitVec.ofNat 16 (c.moved + g.count)) ++
              halfBytes (BitVec.ofNat 16 t.delay.largestHole))) ∧
          onlyChanges [.zones, .outputs, .delay, .slots, .ports] s t)))

/-! ### The tuner -/

/-- Tune, Recall Station, Recall Preset and Step Tune (R139, R144 to R147, R167, R171): the tests in order;
an accepted command takes the lowest free slot and settles on its channel; a settle of another Tune or Step
Tune is cancelled first, and a seek or scan of the same port is aborted first, its slot posting ABORTED. A
named frequency is snapped down onto the grid; a step goes to the neighbour of the frequency held (of a
seek's start when a seek is aborted), wrapping at the band's edges. The record of the ended operation is posted,
or waits where its port's completion queue is full (R194). That the new operation takes the lowest
of the slots FREE before and the slot that the ended one has left is the model's reading (DEDUCED, log 36). -/
def Obligations.TuneCommandsSettle : Prop :=
  (∀ (p : Port) (h : FrameHead) (c : Cmd) (s : State), takenAtOnce s p h c →
    let same := fun a => exec (rowOf p h c) s = .next (s.closed p h c a)
    let accepted := fun (kind : SlotKind) (op : TunerOpKind) (b : Band) (f : Nat) =>
      (s.freeSlot = none → same (Answer.plain .busy)) ∧
      (s.tuner.op = none → ∀ k, s.freeSlot = some k → exec (rowOf p h c) s =
        .next (((s.setSlot k (unlinkedSlot kind (some (BitVec.ofNat 16 f)) p h)).setTuner
          (s.tuner.tuned op b f k p)).closed p h c (Answer.acceptedIn k))) ∧
      (∀ o x, s.freeSlot ≠ none → s.tuner.op = some o → o.yieldsTo p → canPost s o.slot x →
        ∃ t, exec (rowOf p h c) s = .next t ∧ tunerTaken s t p h c.code o x
          (unlinkedSlot kind (some (BitVec.ofNat 16 f)) p h) (fun k => s.tuner.tuned op b f k p)) ∧
      (∀ o, s.freeSlot ≠ none → s.tuner.op = some o → o.yieldsTo p → ∃ u k, s.afterEnding o u k ∧
        exec (rowOf p h c) s = .next (((u.setSlot k (unlinkedSlot kind (some (BitVec.ofNat 16 f)) p h)).setTuner
          (s.tuner.tuned op b f k p)).closed p h c (Answer.acceptedIn k)))
    (∀ band frequency, c = .tune band frequency →
      (2 ≤ band.toNat → same (Answer.badParam 0)) ∧
      (∀ b, bandOf band = some b →
        (frequency.toNat < gridLow b s.tuner.region ∨ gridHigh b < frequency.toNat →
          same (Answer.badParam 1)))) ∧
    (∀ index, c = .recallStation index → s.tuner.stations.length ≤ index.toNat → same (Answer.badParam 0)) ∧
    (∀ preset, c = .recallPreset preset →
      (preset = 0 ∨ 40 < preset.toNat ∨ ∀ n : Fin 40, n.val + 1 = preset.toNat → s.tuner.presets[n] = none) →
      same (Answer.badParam 0)) ∧
    (∀ kind b f, s.tunesTo c = some (kind, b, f) →
      (s.heldByOther p → same (Answer.plain .tunerBusy)) ∧
      (¬ s.heldByOther p →
        (s.tuner.state = .idle → s.tuner.band = b → s.tuner.frequency = f →
          same (Answer.plain .doneNoChange)) ∧
        (¬ (s.tuner.state = .idle ∧ s.tuner.band = b ∧ s.tuner.frequency = f) → accepted kind .tune b f))) ∧
    (∀ direction, c = .stepTune direction →
      (2 ≤ direction.toNat → same (Answer.badParam 0)) ∧
      (∀ d, directionOf direction = some d →
        (s.heldByOther p → same (Answer.plain .tunerBusy)) ∧
        (¬ s.heldByOther p → accepted .stepTune .stepTune s.tuner.band
          (nextChannel s.tuner.band s.tuner.region d s.heldFrequency))))) ∧
  (∀ (b : Band) (r : Region) (f : Nat), gridLow b r ≤ f → f ≤ gridHigh b →
    onGrid b r (snapDown b r f) = true ∧ snapDown b r f ≤ f ∧ f < snapDown b r f + gridStep b r) ∧
  (∀ (b : Band) (r : Region) (f : Nat), onGrid b r f = true →
    nextChannel b r .up f = (if f = gridHigh b then gridLow b r else f + gridStep b r) ∧
    nextChannel b r .down f = (if f = gridLow b r then gridHigh b else f - gridStep b r))

/-- Seek (R146 to R149): accepted from the frequency held, one channel on; a running seek or scan of the same
port is aborted first, its slot posting ABORTED, and a settle of a Tune or Step Tune is cancelled, its record
posted or left waiting (R194). That the new operation takes the lowest of the slots FREE before and the slot that
the ended one has left is the model's reading (DEDUCED, log 36). At a dwell expiry the quality is taken as a report; at the
threshold the seek has found its station and comes to rest on it; below it the seek goes on to the next
channel, or ends NOT_FOUND where that is the start. At its end the slot's record is posted, or waits where the queue
is full, and a chain that holds on the slot moves (R182, R194); the tuner, with no operation, parks where no zone
listens (R142, R149). Outside SEEKING the step does nothing, the model's
choice (log 30). -/
def Obligations.SeeksTestEveryChannel : Prop :=
  (∀ (p : Port) (h : FrameHead) (direction : Byte) (s : State), takenAtOnce s p h (.seek direction) →
    let same := fun a => exec (.seek p h direction) s = .next (s.closed p h (.seek direction) a)
    (2 ≤ direction.toNat → same (Answer.badParam 0)) ∧
    (∀ d, directionOf direction = some d →
      (s.heldByOther p → same (Answer.plain .tunerBusy)) ∧
      (¬ s.heldByOther p → s.freeSlot = none → same (Answer.plain .busy)) ∧
      (s.tuner.op = none → ∀ k, s.freeSlot = some k → exec (.seek p h direction) s =
        .next (((s.setSlot k (unlinkedSlot .seek none p h)).setTuner (s.tuner.seeking d k p)).closed p h
          (.seek direction) (Answer.acceptedIn k))) ∧
      (∀ o x, s.freeSlot ≠ none → s.tuner.op = some o → o.yieldsTo p → canPost s o.slot x →
        ∃ t, exec (.seek p h direction) s = .next t ∧ tunerTaken s t p h 0x72 o x (unlinkedSlot .seek none p h)
          (fun k => ({ s.tuner with frequency := s.heldFrequency } : TunerRec).seeking d k p)) ∧
      (∀ o, s.freeSlot ≠ none → s.tuner.op = some o → o.yieldsTo p → ∃ u k, s.afterEnding o u k ∧
        exec (.seek p h direction) s = .next (((u.setSlot k (unlinkedSlot .seek none p h)).setTuner
          (({ s.tuner with frequency := s.heldFrequency } : TunerRec).seeking d k p)).closed p h
            (.seek direction) (Answer.acceptedIn k))))) ∧
  (∀ (q : Fin 101) (s : State),
    (s.tuner.state ≠ .seeking → exec (.seekDwellExpiry q) s = .next s) ∧
    (∀ k o, s.tuner.state = .seeking → s.tuner.seek = some k → s.tuner.op = some o →
      let m := s.tuner.measured q.val
      let next := nextChannel s.tuner.band s.tuner.region k.direction s.tuner.frequency
      (s.tuner.threshold ≤ q.val → ∃ t, exec (.seekDwellExpiry q) s = .next t ∧
        t.tuner = { m with op := none, seek := none, scan := none, settle := none, state := t.tuner.state } ∧
        comesToRest s t ∧ reported t .tuner { EventDetail.zero with reasons := 1 } ∧
        (let result := [s.tuner.band.code] ++ halfBytes (BitVec.ofNat 16 s.tuner.frequency) ++ [BitVec.ofNat 8 q.val]
         t = ({ s.complete o.slot .done result with tuner := t.tuner } : State).raise .tuner
           { EventDetail.zero with reasons := 1 } ∧
         ∀ b, canPost s o.slot b → slotPosted s t o.slot b .done result) ∧
        onlyChanges [.tuner, .slots, .ports] s t) ∧
      (q.val < s.tuner.threshold → next ≠ k.start → exec (.seekDwellExpiry q) s =
        .next (s.setTuner { m with
          frequency := next
          seek := some { k with dwell := if s.tuner.band = .fm then 25 else 60 } })) ∧
      (q.val < s.tuner.threshold → next = k.start →
        ∃ t, exec (.seekDwellExpiry q) s = .next t ∧
          t.tuner = { m with
            op := none, seek := none, scan := none, frequency := k.start, state := t.tuner.state
            settle := t.tuner.settle, label := t.tuner.label } ∧
          settlesOrParks s t s.tuner.band ∧
          (let result := [s.tuner.band.code] ++ halfBytes (BitVec.ofNat 16 k.start) ++ [0]
           t = { s.complete o.slot .notFound result with tuner := t.tuner } ∧
           ∀ b, canPost s o.slot b → slotPosted s t o.slot b .notFound result) ∧
          onlyChanges [.tuner, .slots, .ports] s t)))

/-- Scan (R161 to R164): accepted from the lowest channel of its band, whose entries leave the list; a running
seek or scan of the same port is aborted first and a settle of a Tune or Step Tune is cancelled, its record posted
or left waiting (R146, R147, R194). That the new operation takes the lowest of the slots FREE before and the slot
that the ended one has left is the model's reading (DEDUCED, log 36), and that the two-byte target of the slot has
the band's code in its low byte is its choice (log 25). At a
dwell expiry a channel whose quality reaches the threshold is found and offered: a list of fewer than 40
takes it; a full one takes it for the worst entry of its band if it is better; else it is dropped. Below
the highest channel the scan goes on one step up; at it the scan ends and its slot ends DONE with its six bytes: the
record is posted, or waits where the queue is full, and a chain that holds on the slot moves (R182, R194); the tuner,
with no operation, settles while a zone listens and parks otherwise (R142). Outside
SCANNING the step does nothing, the model's choice (log 30). -/
def Obligations.ScansBuildTheStationList : Prop :=
  (∀ (p : Port) (h : FrameHead) (band : Byte) (s : State), takenAtOnce s p h (.scan band) →
    let same := fun a => exec (.scan p h band) s = .next (s.closed p h (.scan band) a)
    (2 ≤ band.toNat → same (Answer.badParam 0)) ∧
    (∀ b, bandOf band = some b →
      (s.heldByOther p → same (Answer.plain .tunerBusy)) ∧
      (¬ s.heldByOther p → s.freeSlot = none → same (Answer.plain .busy)) ∧
      (s.tuner.op = none → ∀ k, s.freeSlot = some k → exec (.scan p h band) s =
        .next (((s.setSlot k (unlinkedSlot .scan (some (b.code.zeroExtend 16)) p h)).setTuner
          (s.tuner.scanning b k p)).closed p h (.scan band) (Answer.acceptedIn k))) ∧
      (∀ o x, s.freeSlot ≠ none → s.tuner.op = some o → o.yieldsTo p → canPost s o.slot x →
        ∃ t, exec (.scan p h band) s = .next t ∧ tunerTaken s t p h 0x73 o x
          (unlinkedSlot .scan (some (b.code.zeroExtend 16)) p h)
          (fun k => ({ s.tuner with frequency := s.heldFrequency } : TunerRec).scanning b k p)) ∧
      (∀ o, s.freeSlot ≠ none → s.tuner.op = some o → o.yieldsTo p → ∃ u k, s.afterEnding o u k ∧
        exec (.scan p h band) s =
          .next (((u.setSlot k (unlinkedSlot .scan (some (b.code.zeroExtend 16)) p h)).setTuner
            (({ s.tuner with frequency := s.heldFrequency } : TunerRec).scanning b k p)).closed p h
              (.scan band) (Answer.acceptedIn k))))) ∧
  (∀ (q : Fin 101) (s : State),
    (s.tuner.state ≠ .scanning → exec (.scanDwellExpiry q) s = .next s) ∧
    (∀ k o, s.tuner.state = .scanning → s.tuner.scan = some k → s.tuner.op = some o →
      s.tuner.stations.Pairwise (fun a b => a.before b = true) →
      let m := s.tuner.measured q.val
      let e : StationEntry := { band := o.scanBand, frequency := k.channel, quality := q.val, label := none }
      let finds := s.tuner.threshold ≤ q.val
      let full := 40 ≤ s.tuner.stations.length
      let goesOn := fun (o' : TunerOp) (list : List StationEntry → Prop) =>
        (k.channel < gridHigh o.scanBand → ∃ t, exec (.scanDwellExpiry q) s = .next t ∧
          t.tuner = { m with
            stations := t.tuner.stations, op := some o'
            scan := some { channel := k.channel + gridStep o.scanBand s.tuner.region
                           dwell := if o.scanBand = .fm then 25 else 60 } } ∧
          list t.tuner.stations ∧ onlyChanges [.tuner] s t) ∧
        (gridHigh o.scanBand ≤ k.channel →
          ∃ t, exec (.scanDwellExpiry q) s = .next t ∧
            t.tuner = { m with
              stations := t.tuner.stations, op := none, scan := none, seek := none
              state := t.tuner.state, settle := t.tuner.settle, label := t.tuner.label } ∧
            list t.tuner.stations ∧ settlesOrParks s t s.tuner.band ∧
            (let result := [o.scanBand.code] ++ halfBytes (BitVec.ofNat 16 o'.found) ++
               halfBytes (BitVec.ofNat 16 o'.dropped) ++ [BitVec.ofNat 8 t.tuner.stations.length]
             t = { s.complete o.slot .done result with tuner := t.tuner } ∧
             ∀ b, canPost s o.slot b → slotPosted s t o.slot b .done result) ∧
            onlyChanges [.tuner, .slots, .ports] s t)
      let found := { o with found := o.found + 1 }
      let dropped := { o with found := o.found + 1, dropped := o.dropped + 1 }
      (¬ finds → goesOn o (fun l => l = s.tuner.stations)) ∧
      (finds → ¬ full → goesOn found (fun l => l.Perm (e :: s.tuner.stations) ∧
        ((∀ x, x ∈ s.tuner.stations → x.before e = true ∨ e.before x = true) →
          l.Pairwise (fun a b => a.before b = true)))) ∧
      (finds → full → (∀ x, x ∈ s.tuner.stations → x.band ≠ o.scanBand) →
        goesOn dropped (fun l => l = s.tuner.stations)) ∧
      (∀ w, finds → full → s.tuner.worstOf w → w.band = o.scanBand →
        (q.val ≤ w.quality → goesOn dropped (fun l => l = s.tuner.stations)) ∧
        (w.quality < q.val →
          goesOn dropped (fun l => l.Perm (e :: s.tuner.stations.filter (fun x => decide (x ≠ w))))))))

/-- SETTLE_EXPIRY takes the quality, completes the Tune or Step Tune of the settle with band, frequency and
quality, its record posted, or waiting where the queue is full, and a chain that holds on the slot moving (R182,
R194), comes to rest, IDLE while a zone listens and PARKED otherwise, and raises DONE_TUNE (R142, R143); QUALITY_REPORT is taken in IDLE (R151); the blend is
STEREO on FM at a quality of 40 or more (R152). LABEL_SEGMENT is taken in IDLE on FM at a quality of 20 or
more: R153's rows, the raising of LABEL, and the copy into the station list (R165). R153 has a segment at any
other time ignored; that SETTLE_EXPIRY outside SETTLING, and QUALITY_REPORT outside IDLE, do nothing is the model's
choice (log 30). -/
def Obligations.SettlesQualityAndLabels : Prop :=
  (∀ (q : Fin 101) (s : State),
    (s.tuner.state ≠ .settling → exec (.settleExpiry q) s = .next s) ∧
    (s.tuner.state = .settling →
      let rested := fun t : State =>
        t.tuner = { (s.tuner.measured q.val) with
          op := none, seek := none, scan := none, settle := none, state := t.tuner.state } ∧
        comesToRest s t ∧ reported t .tuner { EventDetail.zero with reasons := 1 } ∧
        onlyChanges [.tuner, .slots, .ports] s t
      (s.tuner.op = none → ∃ t, exec (.settleExpiry q) s = .next t ∧ rested t ∧ portsRaised s t ∧
        t.slots = s.slots) ∧
      (∀ o, s.tuner.op = some o → o.kind = .tune ∨ o.kind = .stepTune →
        let result := [s.tuner.band.code] ++ halfBytes (BitVec.ofNat 16 s.tuner.frequency) ++ [BitVec.ofNat 8 q.val]
        ∃ t, exec (.settleExpiry q) s = .next t ∧ rested t ∧
          t = ({ s.complete o.slot .done result with tuner := t.tuner } : State).raise .tuner
            { EventDetail.zero with reasons := 1 } ∧
          ∀ b, canPost s o.slot b → slotPosted s t o.slot b .done result)) ∧
    (s.tuner.state = .idle → exec (.qualityReport q) s = .next (s.setTuner (s.tuner.measured q.val))) ∧
    (s.tuner.state ≠ .idle → exec (.qualityReport q) s = .next s)) ∧
  (∀ (i : Fin 4) (v : Bool) (a b : Byte) (s : State),
    let t0 := s.tuner
    let taken := t0.state = .idle ∧ t0.band = .fm ∧ 20 ≤ t0.quality
    let char := fun x : Byte => if x.toNat < 0x20 ∨ 0x7E < x.toNat then 0x20 else x
    let goesOn := t0.label.state ≠ .none ∧ t0.label.version = some v
    (¬ taken → exec (.labelSegment i v a b) s = .next s) ∧
    (taken → ∃ t, exec (.labelSegment i v a b) s = .next t ∧
      t.tuner = { t0 with label := t.tuner.label, stations := t.tuner.stations } ∧
      t.tuner.label.version = some v ∧ t.tuner.label.pair i = some (char a, char b) ∧
      (∀ j, j ≠ i → goesOn → t.tuner.label.pair j = t0.label.pair j) ∧
      (∀ j, j ≠ i → ¬ goesOn → t.tuner.label.pair j = none) ∧
      (t.tuner.label.state = .complete ↔ ∀ j, t.tuner.label.pair j ≠ none) ∧ t.tuner.label.state ≠ .none ∧
      (t.tuner.label.state = .complete → t.tuner.label ≠ t0.label →
        reported t .tuner { EventDetail.zero with reasons := 2 } ∧
        t.tuner.stations = t0.stations.map (fun e =>
          if e.band = .fm ∧ e.frequency = t0.frequency then { e with label := some t.tuner.label.chars }
          else e)) ∧
      (t.tuner.label.state ≠ .complete ∨ t.tuner.label = t0.label →
        t.tuner.stations = t0.stations ∧ t.ports = s.ports) ∧
      portsRaised s t ∧ onlyChanges [.tuner, .ports] s t))

/-- Set Seek Threshold clamps to 10 to 90 (R155). Set Region snaps an AM frequency down onto the new grid
(one below the new lowest channel takes that channel: 522 becomes 530) and settles on it where it changed, a running seek or scan of the same port being aborted first, its record posted or left waiting (R147, R194), and purges the AM stations and the AM presets off the new grid (R156,
R170). Store Preset keeps the station the tuner is on, with its label while COMPLETE (R169); Clear Preset
empties (R171); a number outside 1 to 40 is refused (R168). -/
def Obligations.TunerSettingsAndPresets : Prop :=
  (∀ (p : Port) (h : FrameHead) (x : Byte) (s : State), takenAtOnce s p h (.setSeekThreshold x) →
    let v := max 10 (min x.toNat 90)
    (v = s.tuner.threshold → exec (.setSeekThreshold p h x) s =
      .next (s.closed p h (.setSeekThreshold x) (Answer.plain .doneNoChange))) ∧
    (v ≠ s.tuner.threshold → exec (.setSeekThreshold p h x) s =
      .next ((s.setTuner { s.tuner with threshold := v }).closed p h (.setSeekThreshold x)
        (Answer.plain .done)))) ∧
  (∀ (p : Port) (h : FrameHead) (x : Byte) (s : State), takenAtOnce s p h (.setRegion x) →
    let same := fun a => exec (.setRegion p h x) s = .next (s.closed p h (.setRegion x) a)
    (2 ≤ x.toNat → same (Answer.badParam 0)) ∧
    (∀ r, regionOf x = some r →
      (s.heldByOther p → same (Answer.plain .tunerBusy)) ∧
      (¬ s.heldByOther p → r = s.tuner.region → same (Answer.plain .doneNoChange)) ∧
      (r ≠ s.tuner.region → (∀ o, s.tuner.op = some o → o.kind = .tune ∨ o.kind = .stepTune) →
        let f := if s.tuner.band = .am then snapDown .am r s.tuner.frequency else s.tuner.frequency
        ∃ t, exec (.setRegion p h x) s = .next t ∧ t.tuner.region = r ∧ t.tuner.frequency = f ∧
          t.tuner.band = s.tuner.band ∧ t.tuner.op = s.tuner.op ∧ t.tuner.threshold = s.tuner.threshold ∧
          (f = s.tuner.frequency ∨ s.tuner.state = .parked →
            t.tuner.state = s.tuner.state ∧ t.tuner.settle = s.tuner.settle ∧
            t.tuner.label = s.tuner.label) ∧
          (f ≠ s.tuner.frequency → s.tuner.state ≠ .parked →
            t.tuner.state = .settling ∧ t.tuner.settle = some 50 ∧ t.tuner.label = LabelRec.cleared) ∧
          t.tuner.stations = s.tuner.stations.filter (fun e => decide (e.band = .fm)) ∧
          (∀ n : Fin 40, (∀ e, s.tuner.presets[n] = some e → e.band = .fm ∨ onGrid .am r e.frequency = true) →
            t.tuner.presets[n] = s.tuner.presets[n]) ∧
          (∀ (n : Fin 40) e, s.tuner.presets[n] = some e → e.band = .am → onGrid .am r e.frequency = false →
            t.tuner.presets[n] = none) ∧
          (∀ q, q ≠ p → t.port q = s.port q) ∧
          (t.port p).response =
            some { status := .done, tag := h.tag, code := 0x75, slot := none, data := [] } ∧
          onlyChanges [.tuner, .ports] s t) ∧
      (r ≠ s.tuner.region → ∀ o, s.tuner.op = some o → o.kind = .seek ∨ o.kind = .scan → o.port = p →
        ∃ t, exec (.setRegion p h x) s = .next t ∧ t.tuner.region = r ∧
          t.tuner.frequency =
            (if s.tuner.band = .am then snapDown .am r s.heldFrequency else s.heldFrequency) ∧
          t.tuner.band = s.tuner.band ∧ t.tuner.op = none ∧ t.tuner.seek = none ∧ t.tuner.scan = none ∧
          settlesOrParks s t s.tuner.band ∧
          t.tuner.stations = s.tuner.stations.filter (fun e => decide (e.band = .fm)) ∧
          (∀ n : Fin 40, (∀ e, s.tuner.presets[n] = some e → e.band = .fm ∨ onGrid .am r e.frequency = true) →
            t.tuner.presets[n] = s.tuner.presets[n]) ∧
          (∀ (n : Fin 40) e, s.tuner.presets[n] = some e → e.band = .am → onGrid .am r e.frequency = false →
            t.tuner.presets[n] = none) ∧
          t = ({ s.complete o.slot (s.endedWith o).1 (s.endedWith o).2 with tuner := t.tuner } : State).closed p h
            (.setRegion x) (Answer.plain .done) ∧
          (∀ b, canPost s o.slot b → slotPosted s t o.slot b (s.endedWith o).1 (s.endedWith o).2) ∧
          (t.port p).response =
            some { status := .done, tag := h.tag, code := 0x75, slot := none, data := [] } ∧
          onlyChanges [.tuner, .slots, .ports] s t))) ∧
  (∀ (r : Region) (f : Nat),
    let low := if r = .nine then 522 else 530
    let step := if r = .nine then 9 else 10
    (f < low → snapDown .am r f = low) ∧
    (low ≤ f → snapDown .am r f ≤ f ∧ f < snapDown .am r f + step ∧ low ≤ snapDown .am r f ∧
      (snapDown .am r f - low) % step = 0)) ∧
  (∀ (p : Port) (h : FrameHead) (x : Byte) (s : State),
    (takenAtOnce s p h (.storePreset x) →
      (x = 0 ∨ 40 < x.toNat → exec (.storePreset p h x) s =
        .next (s.closed p h (.storePreset x) (Answer.badParam 0))) ∧
      (∀ n : Fin 40, x.toNat = n.val + 1 →
        let e : PresetRec :=
          { band := s.tuner.band, frequency := (s.tuner.seek.map (·.start)).getD s.tuner.frequency
            label := if s.tuner.label.state = .complete then some s.tuner.label.chars else none }
        (s.tuner.presets[n] = some e → exec (.storePreset p h x) s =
          .next (s.closed p h (.storePreset x) (Answer.plain .doneNoChange))) ∧
        (s.tuner.presets[n] ≠ some e → exec (.storePreset p h x) s =
          .next ((s.setTuner { s.tuner with presets := s.tuner.presets.set n (some e) }).closed p h
            (.storePreset x) (Answer.plain .done))))) ∧
    (takenAtOnce s p h (.clearPreset x) →
      (x = 0 ∨ 40 < x.toNat → exec (.clearPreset p h x) s =
        .next (s.closed p h (.clearPreset x) (Answer.badParam 0))) ∧
      (∀ n : Fin 40, x.toNat = n.val + 1 →
        (s.tuner.presets[n] = none → exec (.clearPreset p h x) s =
          .next (s.closed p h (.clearPreset x) (Answer.plain .doneNoChange))) ∧
        (s.tuner.presets[n] ≠ none → exec (.clearPreset p h x) s =
          .next ((s.setTuner { s.tuner with presets := s.tuner.presets.set n none }).closed p h
            (.clearPreset x) (Answer.plain .done))))))

/-! ### Invariants -/

/-- POWER-ON leaves a state in which every invariant holds: queues within their depths, the decoder IDLE
exactly when unbound, the DRAM's list in its form, the segment table in order, every gain in range, the tuner
on its grids, the source statuses, the binding and the tuner's activity those of R2, R75 and R141, no zone ON without
an output unmarked (R51, R122, R173, R191, R205). A segment table in order stays within the DRAM, so that no block start
and no page copy stops on it (log 21). -/
def Obligations.ResetKeepsInvariants : Prop :=
  State.reset.queuesOk ∧ State.reset.bindingOk ∧ State.reset.dramOk ∧ State.reset.segmentsOk ∧
  State.reset.gainsOk ∧ State.reset.tunerOk ∧ State.reset.followed ∧ State.reset.noOutputMarked ∧
  State.reset.pending = [] ∧
  (∀ s : State, s.segmentsOk → s.delay.inDram = true)

/-- No step lets an inbound queue pass 4 commands or a completion queue 8 records (R175, R195), and every
step keeps the decoder IDLE exactly when it is bound to no input (R74). After every step the source status of every
zone is the one that R2 computes from its live source, the input and the binding, the binding is that of R75, and
the tuner is PARKED exactly when no zone listens and no operation is present (R141), if they were so before. A step
that changes the binding starts the decoder anew (R76), and raises DECODER BIND but in a full reset, which leaves
every zone in STANDBY and every kind but PROTECTION and INPUT not pending (R85, R205). -/
def Obligations.StepsKeepQueuesAndBinding : Prop :=
  ∀ s t : State, step s = .next t → (s.queuesOk → t.queuesOk) ∧ (s.bindingOk → t.bindingOk) ∧
    (s.followed → t.followed ∧ (t.decoder.binding ≠ s.decoder.binding →
      t.decoder = decoderAnew t.decoder.binding ∧
      ((∃ z, (t.zone z).power ≠ .standby) → reported t .decoder { EventDetail.zero with reasons := 8 })))

/-- Every step keeps the delay DRAM's list in its canonical form, within the 262,144 words of R113, and
every current and target index within −161 to +24 (R87). Every step keeps the segment table in order: one
segment for an output at most, in base order, each within the DRAM on good pages and long enough for its total
delay, and no page in the runs and claims of two segments (R113, R122, R123). -/
def Obligations.StepsKeepDramAndGains : Prop :=
  ∀ s t : State, step s = .next t →
    (s.dramOk → t.dramOk) ∧ (s.gainsOk → t.gainsOk) ∧ (s.segmentsOk → t.segmentsOk)

/-- Every step keeps the tuner on its grids: the frequency, the start of a seek, the channel of a scan, the
stations and the presets (R139, R168), and keeps the station list at 40 entries at most, in the order of
R160, with labels of eight printable characters. From a state whose derived state is in order: a step in which a
zone comes to listen to a PARKED tuner, and that starts no operation, takes it to SETTLING on the frequency held for
the settle time of the band, the label cleared; a step in which the last zone ceases to listen, no operation being
present, parks it, keeping band, frequency, quality, blend and label (R141, R142; but in a full reset, which leaves
every zone in STANDBY); and a step that ends the operation, or the listening, leaves the tuner PARKED exactly when no
zone listens and no operation is present, and then with no settle, seek or scan (R140 to R142). -/
def Obligations.StepsKeepTheTunerInOrder : Prop :=
  ∀ s t : State, step s = .next t → (s.tunerOk → t.tunerOk) ∧
    (s.followed →
      (s.tuner.state = .parked → t.listened → t.tuner.op = none → t.tuner = s.tuner.unparked) ∧
      (s.tuner.op = none → s.tuner.state ≠ .parked → t.tuner.state = .parked →
        (∃ z, (t.zone z).power ≠ .standby) → t.tuner = s.tuner.parkedNow) ∧
      (¬ t.listened → t.tuner.op = none → t.tuner.state = .parked ∧ t.tuner.settle = none ∧ t.tuner.seek = none ∧
        t.tuner.scan = none) ∧
      (t.listened ∨ t.tuner.op ≠ none → t.tuner.state ≠ .parked))
end

