-- ==== Sys2Proof/Laws/State.lean ====
section
/-! SUPPORT. One lemma for each field of State under each update, and reads after updates. -/

namespace Sys2Proof.Machine

set_option Elab.async false

variable (s : State)

/-! ### setZone -/

@[simp] theorem State.setZone_zones (z : Zone) (r : ZoneRec) : (s.setZone z r).zones = s.zones.set z r := rfl
@[simp] theorem State.setZone_minute (z : Zone) (r : ZoneRec) : (s.setZone z r).minute = s.minute := rfl
@[simp] theorem State.setZone_outputs (z : Zone) (r : ZoneRec) : (s.setZone z r).outputs = s.outputs := rfl
@[simp] theorem State.setZone_inputs (z : Zone) (r : ZoneRec) : (s.setZone z r).inputs = s.inputs := rfl
@[simp] theorem State.setZone_decoder (z : Zone) (r : ZoneRec) : (s.setZone z r).decoder = s.decoder := rfl
@[simp] theorem State.setZone_mix (z : Zone) (r : ZoneRec) : (s.setZone z r).mix = s.mix := rfl
@[simp] theorem State.setZone_delay (z : Zone) (r : ZoneRec) : (s.setZone z r).delay = s.delay := rfl
@[simp] theorem State.setZone_tuner (z : Zone) (r : ZoneRec) : (s.setZone z r).tuner = s.tuner := rfl
@[simp] theorem State.setZone_slots (z : Zone) (r : ZoneRec) : (s.setZone z r).slots = s.slots := rfl
@[simp] theorem State.setZone_ports (z : Zone) (r : ZoneRec) : (s.setZone z r).ports = s.ports := rfl
@[simp] theorem State.setZone_freeCount (z : Zone) (r : ZoneRec) : (s.setZone z r).freeCount = s.freeCount := rfl
@[simp] theorem State.setZone_pending (z : Zone) (r : ZoneRec) : (s.setZone z r).pending = s.pending := rfl

/-! ### setPort -/

@[simp] theorem State.setPort_zones (p : Port) (r : PortRec) : (s.setPort p r).zones = s.zones := rfl
@[simp] theorem State.setPort_minute (p : Port) (r : PortRec) : (s.setPort p r).minute = s.minute := rfl
@[simp] theorem State.setPort_outputs (p : Port) (r : PortRec) : (s.setPort p r).outputs = s.outputs := rfl
@[simp] theorem State.setPort_inputs (p : Port) (r : PortRec) : (s.setPort p r).inputs = s.inputs := rfl
@[simp] theorem State.setPort_decoder (p : Port) (r : PortRec) : (s.setPort p r).decoder = s.decoder := rfl
@[simp] theorem State.setPort_mix (p : Port) (r : PortRec) : (s.setPort p r).mix = s.mix := rfl
@[simp] theorem State.setPort_delay (p : Port) (r : PortRec) : (s.setPort p r).delay = s.delay := rfl
@[simp] theorem State.setPort_tuner (p : Port) (r : PortRec) : (s.setPort p r).tuner = s.tuner := rfl
@[simp] theorem State.setPort_slots (p : Port) (r : PortRec) : (s.setPort p r).slots = s.slots := rfl
@[simp] theorem State.setPort_ports (p : Port) (r : PortRec) : (s.setPort p r).ports = s.ports.set p r := rfl
@[simp] theorem State.setPort_freeCount (p : Port) (r : PortRec) : (s.setPort p r).freeCount = s.freeCount := rfl
@[simp] theorem State.setPort_pending (p : Port) (r : PortRec) : (s.setPort p r).pending = s.pending := rfl

/-! ### setOut -/

@[simp] theorem State.setOut_zones (o : Fin 13) (r : OutputRec) : (s.setOut o r).zones = s.zones := rfl
@[simp] theorem State.setOut_minute (o : Fin 13) (r : OutputRec) : (s.setOut o r).minute = s.minute := rfl
@[simp] theorem State.setOut_outputs (o : Fin 13) (r : OutputRec) : (s.setOut o r).outputs = { s.outputs with outs := s.outputs.outs.set o r } := rfl
@[simp] theorem State.setOut_inputs (o : Fin 13) (r : OutputRec) : (s.setOut o r).inputs = s.inputs := rfl
@[simp] theorem State.setOut_decoder (o : Fin 13) (r : OutputRec) : (s.setOut o r).decoder = s.decoder := rfl
@[simp] theorem State.setOut_mix (o : Fin 13) (r : OutputRec) : (s.setOut o r).mix = s.mix := rfl
@[simp] theorem State.setOut_delay (o : Fin 13) (r : OutputRec) : (s.setOut o r).delay = s.delay := rfl
@[simp] theorem State.setOut_tuner (o : Fin 13) (r : OutputRec) : (s.setOut o r).tuner = s.tuner := rfl
@[simp] theorem State.setOut_slots (o : Fin 13) (r : OutputRec) : (s.setOut o r).slots = s.slots := rfl
@[simp] theorem State.setOut_ports (o : Fin 13) (r : OutputRec) : (s.setOut o r).ports = s.ports := rfl
@[simp] theorem State.setOut_freeCount (o : Fin 13) (r : OutputRec) : (s.setOut o r).freeCount = s.freeCount := rfl
@[simp] theorem State.setOut_pending (o : Fin 13) (r : OutputRec) : (s.setOut o r).pending = s.pending := rfl

/-! ### setInput -/

@[simp] theorem State.setInput_zones (i : Fin 12) (r : InputRec) : (s.setInput i r).zones = s.zones := rfl
@[simp] theorem State.setInput_minute (i : Fin 12) (r : InputRec) : (s.setInput i r).minute = s.minute := rfl
@[simp] theorem State.setInput_outputs (i : Fin 12) (r : InputRec) : (s.setInput i r).outputs = s.outputs := rfl
@[simp] theorem State.setInput_inputs (i : Fin 12) (r : InputRec) : (s.setInput i r).inputs = s.inputs.set i r := rfl
@[simp] theorem State.setInput_decoder (i : Fin 12) (r : InputRec) : (s.setInput i r).decoder = s.decoder := rfl
@[simp] theorem State.setInput_mix (i : Fin 12) (r : InputRec) : (s.setInput i r).mix = s.mix := rfl
@[simp] theorem State.setInput_delay (i : Fin 12) (r : InputRec) : (s.setInput i r).delay = s.delay := rfl
@[simp] theorem State.setInput_tuner (i : Fin 12) (r : InputRec) : (s.setInput i r).tuner = s.tuner := rfl
@[simp] theorem State.setInput_slots (i : Fin 12) (r : InputRec) : (s.setInput i r).slots = s.slots := rfl
@[simp] theorem State.setInput_ports (i : Fin 12) (r : InputRec) : (s.setInput i r).ports = s.ports := rfl
@[simp] theorem State.setInput_freeCount (i : Fin 12) (r : InputRec) : (s.setInput i r).freeCount = s.freeCount := rfl
@[simp] theorem State.setInput_pending (i : Fin 12) (r : InputRec) : (s.setInput i r).pending = s.pending := rfl

/-! ### setSlot -/

@[simp] theorem State.setSlot_zones (k : Fin 8) (b : Slot) : (s.setSlot k b).zones = s.zones := rfl
@[simp] theorem State.setSlot_minute (k : Fin 8) (b : Slot) : (s.setSlot k b).minute = s.minute := rfl
@[simp] theorem State.setSlot_outputs (k : Fin 8) (b : Slot) : (s.setSlot k b).outputs = s.outputs := rfl
@[simp] theorem State.setSlot_inputs (k : Fin 8) (b : Slot) : (s.setSlot k b).inputs = s.inputs := rfl
@[simp] theorem State.setSlot_decoder (k : Fin 8) (b : Slot) : (s.setSlot k b).decoder = s.decoder := rfl
@[simp] theorem State.setSlot_mix (k : Fin 8) (b : Slot) : (s.setSlot k b).mix = s.mix := rfl
@[simp] theorem State.setSlot_delay (k : Fin 8) (b : Slot) : (s.setSlot k b).delay = s.delay := rfl
@[simp] theorem State.setSlot_tuner (k : Fin 8) (b : Slot) : (s.setSlot k b).tuner = s.tuner := rfl
@[simp] theorem State.setSlot_slots (k : Fin 8) (b : Slot) : (s.setSlot k b).slots = s.slots.set k b := rfl
@[simp] theorem State.setSlot_ports (k : Fin 8) (b : Slot) : (s.setSlot k b).ports = s.ports := rfl
@[simp] theorem State.setSlot_freeCount (k : Fin 8) (b : Slot) : (s.setSlot k b).freeCount = s.freeCount := rfl
@[simp] theorem State.setSlot_pending (k : Fin 8) (b : Slot) : (s.setSlot k b).pending = s.pending := rfl

/-! ### setGain -/

@[simp] theorem State.setGain_zones (o : Fin 13) (g : GainRec) : (s.setGain o g).zones = s.zones := rfl
@[simp] theorem State.setGain_minute (o : Fin 13) (g : GainRec) : (s.setGain o g).minute = s.minute := rfl
@[simp] theorem State.setGain_outputs (o : Fin 13) (g : GainRec) : (s.setGain o g).outputs = s.outputs := rfl
@[simp] theorem State.setGain_inputs (o : Fin 13) (g : GainRec) : (s.setGain o g).inputs = s.inputs := rfl
@[simp] theorem State.setGain_decoder (o : Fin 13) (g : GainRec) : (s.setGain o g).decoder = s.decoder := rfl
@[simp] theorem State.setGain_mix (o : Fin 13) (g : GainRec) : (s.setGain o g).mix = { s.mix with gains := s.mix.gains.set o g } := rfl
@[simp] theorem State.setGain_delay (o : Fin 13) (g : GainRec) : (s.setGain o g).delay = s.delay := rfl
@[simp] theorem State.setGain_tuner (o : Fin 13) (g : GainRec) : (s.setGain o g).tuner = s.tuner := rfl
@[simp] theorem State.setGain_slots (o : Fin 13) (g : GainRec) : (s.setGain o g).slots = s.slots := rfl
@[simp] theorem State.setGain_ports (o : Fin 13) (g : GainRec) : (s.setGain o g).ports = s.ports := rfl
@[simp] theorem State.setGain_freeCount (o : Fin 13) (g : GainRec) : (s.setGain o g).freeCount = s.freeCount := rfl
@[simp] theorem State.setGain_pending (o : Fin 13) (g : GainRec) : (s.setGain o g).pending = s.pending := rfl

/-! ### setSpeakerRec -/

@[simp] theorem State.setSpeakerRec_zones (q : Position) (r : SpeakerRec) : (s.setSpeakerRec q r).zones = s.zones := rfl
@[simp] theorem State.setSpeakerRec_minute (q : Position) (r : SpeakerRec) : (s.setSpeakerRec q r).minute = s.minute := rfl
@[simp] theorem State.setSpeakerRec_outputs (q : Position) (r : SpeakerRec) : (s.setSpeakerRec q r).outputs = s.outputs := rfl
@[simp] theorem State.setSpeakerRec_inputs (q : Position) (r : SpeakerRec) : (s.setSpeakerRec q r).inputs = s.inputs := rfl
@[simp] theorem State.setSpeakerRec_decoder (q : Position) (r : SpeakerRec) : (s.setSpeakerRec q r).decoder = s.decoder := rfl
@[simp] theorem State.setSpeakerRec_mix (q : Position) (r : SpeakerRec) : (s.setSpeakerRec q r).mix = { s.mix with speakers := s.mix.speakers.set q.index r } := rfl
@[simp] theorem State.setSpeakerRec_delay (q : Position) (r : SpeakerRec) : (s.setSpeakerRec q r).delay = s.delay := rfl
@[simp] theorem State.setSpeakerRec_tuner (q : Position) (r : SpeakerRec) : (s.setSpeakerRec q r).tuner = s.tuner := rfl
@[simp] theorem State.setSpeakerRec_slots (q : Position) (r : SpeakerRec) : (s.setSpeakerRec q r).slots = s.slots := rfl
@[simp] theorem State.setSpeakerRec_ports (q : Position) (r : SpeakerRec) : (s.setSpeakerRec q r).ports = s.ports := rfl
@[simp] theorem State.setSpeakerRec_freeCount (q : Position) (r : SpeakerRec) : (s.setSpeakerRec q r).freeCount = s.freeCount := rfl
@[simp] theorem State.setSpeakerRec_pending (q : Position) (r : SpeakerRec) : (s.setSpeakerRec q r).pending = s.pending := rfl

/-! ### setOutputs -/

@[simp] theorem State.setOutputs_zones (u : OutputUnit) : (s.setOutputs u).zones = s.zones := rfl
@[simp] theorem State.setOutputs_minute (u : OutputUnit) : (s.setOutputs u).minute = s.minute := rfl
@[simp] theorem State.setOutputs_outputs (u : OutputUnit) : (s.setOutputs u).outputs = u := rfl
@[simp] theorem State.setOutputs_inputs (u : OutputUnit) : (s.setOutputs u).inputs = s.inputs := rfl
@[simp] theorem State.setOutputs_decoder (u : OutputUnit) : (s.setOutputs u).decoder = s.decoder := rfl
@[simp] theorem State.setOutputs_mix (u : OutputUnit) : (s.setOutputs u).mix = s.mix := rfl
@[simp] theorem State.setOutputs_delay (u : OutputUnit) : (s.setOutputs u).delay = s.delay := rfl
@[simp] theorem State.setOutputs_tuner (u : OutputUnit) : (s.setOutputs u).tuner = s.tuner := rfl
@[simp] theorem State.setOutputs_slots (u : OutputUnit) : (s.setOutputs u).slots = s.slots := rfl
@[simp] theorem State.setOutputs_ports (u : OutputUnit) : (s.setOutputs u).ports = s.ports := rfl
@[simp] theorem State.setOutputs_freeCount (u : OutputUnit) : (s.setOutputs u).freeCount = s.freeCount := rfl
@[simp] theorem State.setOutputs_pending (u : OutputUnit) : (s.setOutputs u).pending = s.pending := rfl

/-! ### setDelay -/

@[simp] theorem State.setDelay_zones (d : DelayState) : (s.setDelay d).zones = s.zones := rfl
@[simp] theorem State.setDelay_minute (d : DelayState) : (s.setDelay d).minute = s.minute := rfl
@[simp] theorem State.setDelay_outputs (d : DelayState) : (s.setDelay d).outputs = s.outputs := rfl
@[simp] theorem State.setDelay_inputs (d : DelayState) : (s.setDelay d).inputs = s.inputs := rfl
@[simp] theorem State.setDelay_decoder (d : DelayState) : (s.setDelay d).decoder = s.decoder := rfl
@[simp] theorem State.setDelay_mix (d : DelayState) : (s.setDelay d).mix = s.mix := rfl
@[simp] theorem State.setDelay_delay (d : DelayState) : (s.setDelay d).delay = d := rfl
@[simp] theorem State.setDelay_tuner (d : DelayState) : (s.setDelay d).tuner = s.tuner := rfl
@[simp] theorem State.setDelay_slots (d : DelayState) : (s.setDelay d).slots = s.slots := rfl
@[simp] theorem State.setDelay_ports (d : DelayState) : (s.setDelay d).ports = s.ports := rfl
@[simp] theorem State.setDelay_freeCount (d : DelayState) : (s.setDelay d).freeCount = s.freeCount := rfl
@[simp] theorem State.setDelay_pending (d : DelayState) : (s.setDelay d).pending = s.pending := rfl

/-! ### setDecoder -/

@[simp] theorem State.setDecoder_zones (d : DecoderRec) : (s.setDecoder d).zones = s.zones := rfl
@[simp] theorem State.setDecoder_minute (d : DecoderRec) : (s.setDecoder d).minute = s.minute := rfl
@[simp] theorem State.setDecoder_outputs (d : DecoderRec) : (s.setDecoder d).outputs = s.outputs := rfl
@[simp] theorem State.setDecoder_inputs (d : DecoderRec) : (s.setDecoder d).inputs = s.inputs := rfl
@[simp] theorem State.setDecoder_decoder (d : DecoderRec) : (s.setDecoder d).decoder = d := rfl
@[simp] theorem State.setDecoder_mix (d : DecoderRec) : (s.setDecoder d).mix = s.mix := rfl
@[simp] theorem State.setDecoder_delay (d : DecoderRec) : (s.setDecoder d).delay = s.delay := rfl
@[simp] theorem State.setDecoder_tuner (d : DecoderRec) : (s.setDecoder d).tuner = s.tuner := rfl
@[simp] theorem State.setDecoder_slots (d : DecoderRec) : (s.setDecoder d).slots = s.slots := rfl
@[simp] theorem State.setDecoder_ports (d : DecoderRec) : (s.setDecoder d).ports = s.ports := rfl
@[simp] theorem State.setDecoder_freeCount (d : DecoderRec) : (s.setDecoder d).freeCount = s.freeCount := rfl
@[simp] theorem State.setDecoder_pending (d : DecoderRec) : (s.setDecoder d).pending = s.pending := rfl

/-! ### setTuner -/

@[simp] theorem State.setTuner_zones (u : TunerRec) : (s.setTuner u).zones = s.zones := rfl
@[simp] theorem State.setTuner_minute (u : TunerRec) : (s.setTuner u).minute = s.minute := rfl
@[simp] theorem State.setTuner_outputs (u : TunerRec) : (s.setTuner u).outputs = s.outputs := rfl
@[simp] theorem State.setTuner_inputs (u : TunerRec) : (s.setTuner u).inputs = s.inputs := rfl
@[simp] theorem State.setTuner_decoder (u : TunerRec) : (s.setTuner u).decoder = s.decoder := rfl
@[simp] theorem State.setTuner_mix (u : TunerRec) : (s.setTuner u).mix = s.mix := rfl
@[simp] theorem State.setTuner_delay (u : TunerRec) : (s.setTuner u).delay = s.delay := rfl
@[simp] theorem State.setTuner_tuner (u : TunerRec) : (s.setTuner u).tuner = u := rfl
@[simp] theorem State.setTuner_slots (u : TunerRec) : (s.setTuner u).slots = s.slots := rfl
@[simp] theorem State.setTuner_ports (u : TunerRec) : (s.setTuner u).ports = s.ports := rfl
@[simp] theorem State.setTuner_freeCount (u : TunerRec) : (s.setTuner u).freeCount = s.freeCount := rfl
@[simp] theorem State.setTuner_pending (u : TunerRec) : (s.setTuner u).pending = s.pending := rfl

/-! ### setMix -/

@[simp] theorem State.setMix_zones (m : MixState) : (s.setMix m).zones = s.zones := rfl
@[simp] theorem State.setMix_minute (m : MixState) : (s.setMix m).minute = s.minute := rfl
@[simp] theorem State.setMix_outputs (m : MixState) : (s.setMix m).outputs = s.outputs := rfl
@[simp] theorem State.setMix_inputs (m : MixState) : (s.setMix m).inputs = s.inputs := rfl
@[simp] theorem State.setMix_decoder (m : MixState) : (s.setMix m).decoder = s.decoder := rfl
@[simp] theorem State.setMix_mix (m : MixState) : (s.setMix m).mix = m := rfl
@[simp] theorem State.setMix_delay (m : MixState) : (s.setMix m).delay = s.delay := rfl
@[simp] theorem State.setMix_tuner (m : MixState) : (s.setMix m).tuner = s.tuner := rfl
@[simp] theorem State.setMix_slots (m : MixState) : (s.setMix m).slots = s.slots := rfl
@[simp] theorem State.setMix_ports (m : MixState) : (s.setMix m).ports = s.ports := rfl
@[simp] theorem State.setMix_freeCount (m : MixState) : (s.setMix m).freeCount = s.freeCount := rfl
@[simp] theorem State.setMix_pending (m : MixState) : (s.setMix m).pending = s.pending := rfl

/-! ### Reads after updates -/

variable {α : Type}

@[simp] theorem PerPort.get_set_self (t : PerPort α) (p : Port) (x : α) : (t.set p x).get p = x := by
  cases p <;> rfl

theorem PerPort.get_set_ne (t : PerPort α) {p q : Port} (x : α) (h : q ≠ p) :
    (t.set p x).get q = t.get q := by
  cases p <;> cases q <;> first | rfl | exact absurd rfl h

@[simp] theorem PerZone.get_set_self (t : PerZone α) (z : Zone) (x : α) : (t.set z x).get z = x := by
  cases z <;> rfl

theorem PerZone.get_set_ne (t : PerZone α) {z y : Zone} (x : α) (h : y ≠ z) :
    (t.set z x).get y = t.get y := by
  cases z <;> cases y <;> first | rfl | exact absurd rfl h

@[simp] theorem PerPort.set_set (t : PerPort α) (p : Port) (x y : α) : (t.set p x).set p y = t.set p y := by
  cases p <;> rfl

@[simp] theorem PerZone.set_set (t : PerZone α) (z : Zone) (x y : α) : (t.set z x).set z y = t.set z y := by
  cases z <;> rfl

@[simp] theorem PerPort.set_get (t : PerPort α) (p : Port) : t.set p (t.get p) = t := by
  cases p <;> rfl

@[simp] theorem PerZone.set_get (t : PerZone α) (z : Zone) : t.set z (t.get z) = t := by
  cases z <;> rfl

@[simp] theorem State.zone_setZone_self (z : Zone) (r : ZoneRec) : (s.setZone z r).zone z = r := by
  simp [State.zone]

theorem State.zone_setZone_ne {z y : Zone} (r : ZoneRec) (h : y ≠ z) : (s.setZone z r).zone y = s.zone y := by
  simp [State.zone, PerZone.get_set_ne _ _ h]

@[simp] theorem State.setPort_setPort (p : Port) (r u : PortRec) : (s.setPort p r).setPort p u = s.setPort p u := by
  cases p <;> rfl
@[simp] theorem State.setPort_port (p : Port) : s.setPort p (s.port p) = s := by cases p <;> rfl
@[simp] theorem State.setZone_setZone (z : Zone) (r u : ZoneRec) : (s.setZone z r).setZone z u = s.setZone z u := by
  cases z <;> rfl
@[simp] theorem State.setZone_zone (z : Zone) : s.setZone z (s.zone z) = s := by cases z <;> rfl
@[simp] theorem State.port_setPort_self (p : Port) (r : PortRec) : (s.setPort p r).port p = r := by
  simp [State.port]

theorem State.port_setPort_ne {p q : Port} (r : PortRec) (h : q ≠ p) : (s.setPort p r).port q = s.port q := by
  simp [State.port, PerPort.get_set_ne _ _ h]

@[simp] theorem State.out_setOut_self (o : Fin 13) (r : OutputRec) : (s.setOut o r).out o = r := by
  simp [State.out]

theorem State.out_setOut_ne {o q : Fin 13} (r : OutputRec) (h : q ≠ o) : (s.setOut o r).out q = s.out q := by
  have h' : o.val ≠ q.val := fun e => h (Fin.ext e.symm)
  simp [State.out, Vector.getElem_set_ne, h']

@[simp] theorem State.input_setInput_self (i : Fin 12) (r : InputRec) : (s.setInput i r).input i = r := by
  simp [State.input]

theorem State.input_setInput_ne {i j : Fin 12} (r : InputRec) (h : j ≠ i) :
    (s.setInput i r).input j = s.input j := by
  have h' : i.val ≠ j.val := fun e => h (Fin.ext e.symm)
  simp [State.input, Vector.getElem_set_ne, h']

@[simp] theorem State.slot_setSlot_self (k : Fin 8) (b : Slot) : (s.setSlot k b).slot k = b := by
  simp [State.slot]

theorem State.slot_setSlot_ne {k j : Fin 8} (b : Slot) (h : j ≠ k) : (s.setSlot k b).slot j = s.slot j := by
  have h' : k.val ≠ j.val := fun e => h (Fin.ext e.symm)
  simp [State.slot, Vector.getElem_set_ne, h']

@[simp] theorem State.gain_setGain_self (o : Fin 13) (g : GainRec) : (s.setGain o g).gain o = g := by
  simp [State.gain]

theorem State.gain_setGain_ne {o q : Fin 13} (g : GainRec) (h : q ≠ o) : (s.setGain o g).gain q = s.gain q := by
  have h' : o.val ≠ q.val := fun e => h (Fin.ext e.symm)
  simp [State.gain, Vector.getElem_set_ne, h']

/-! ### Records that another update leaves alone -/

@[simp] theorem State.setZone_port (z : Zone) (r : ZoneRec) (q : Port) : (s.setZone z r).port q = s.port q := rfl
@[simp] theorem State.setZone_out (z : Zone) (r : ZoneRec) (q : Fin 13) : (s.setZone z r).out q = s.out q := rfl
@[simp] theorem State.setZone_input (z : Zone) (r : ZoneRec) (j : Fin 12) : (s.setZone z r).input j = s.input j := rfl
@[simp] theorem State.setZone_slot (z : Zone) (r : ZoneRec) (j : Fin 8) : (s.setZone z r).slot j = s.slot j := rfl
@[simp] theorem State.setZone_gain (z : Zone) (r : ZoneRec) (q : Fin 13) : (s.setZone z r).gain q = s.gain q := rfl
@[simp] theorem State.setZone_speaker (z : Zone) (r : ZoneRec) (w : Position) : (s.setZone z r).speaker w = s.speaker w := rfl
@[simp] theorem State.setPort_zone (p : Port) (r : PortRec) (y : Zone) : (s.setPort p r).zone y = s.zone y := rfl
@[simp] theorem State.setPort_out (p : Port) (r : PortRec) (q : Fin 13) : (s.setPort p r).out q = s.out q := rfl
@[simp] theorem State.setPort_input (p : Port) (r : PortRec) (j : Fin 12) : (s.setPort p r).input j = s.input j := rfl
@[simp] theorem State.setPort_slot (p : Port) (r : PortRec) (j : Fin 8) : (s.setPort p r).slot j = s.slot j := rfl
@[simp] theorem State.setPort_gain (p : Port) (r : PortRec) (q : Fin 13) : (s.setPort p r).gain q = s.gain q := rfl
@[simp] theorem State.setPort_speaker (p : Port) (r : PortRec) (w : Position) : (s.setPort p r).speaker w = s.speaker w := rfl
@[simp] theorem State.setOut_zone (o : Fin 13) (r : OutputRec) (y : Zone) : (s.setOut o r).zone y = s.zone y := rfl
@[simp] theorem State.setOut_port (o : Fin 13) (r : OutputRec) (q : Port) : (s.setOut o r).port q = s.port q := rfl
@[simp] theorem State.setOut_input (o : Fin 13) (r : OutputRec) (j : Fin 12) : (s.setOut o r).input j = s.input j := rfl
@[simp] theorem State.setOut_slot (o : Fin 13) (r : OutputRec) (j : Fin 8) : (s.setOut o r).slot j = s.slot j := rfl
@[simp] theorem State.setOut_gain (o : Fin 13) (r : OutputRec) (q : Fin 13) : (s.setOut o r).gain q = s.gain q := rfl
@[simp] theorem State.setOut_speaker (o : Fin 13) (r : OutputRec) (w : Position) : (s.setOut o r).speaker w = s.speaker w := rfl
@[simp] theorem State.setInput_zone (i : Fin 12) (r : InputRec) (y : Zone) : (s.setInput i r).zone y = s.zone y := rfl
@[simp] theorem State.setInput_port (i : Fin 12) (r : InputRec) (q : Port) : (s.setInput i r).port q = s.port q := rfl
@[simp] theorem State.setInput_out (i : Fin 12) (r : InputRec) (q : Fin 13) : (s.setInput i r).out q = s.out q := rfl
@[simp] theorem State.setInput_slot (i : Fin 12) (r : InputRec) (j : Fin 8) : (s.setInput i r).slot j = s.slot j := rfl
@[simp] theorem State.setInput_gain (i : Fin 12) (r : InputRec) (q : Fin 13) : (s.setInput i r).gain q = s.gain q := rfl
@[simp] theorem State.setInput_speaker (i : Fin 12) (r : InputRec) (w : Position) : (s.setInput i r).speaker w = s.speaker w := rfl
@[simp] theorem State.setSlot_zone (k : Fin 8) (b : Slot) (y : Zone) : (s.setSlot k b).zone y = s.zone y := rfl
@[simp] theorem State.setSlot_port (k : Fin 8) (b : Slot) (q : Port) : (s.setSlot k b).port q = s.port q := rfl
@[simp] theorem State.setSlot_out (k : Fin 8) (b : Slot) (q : Fin 13) : (s.setSlot k b).out q = s.out q := rfl
@[simp] theorem State.setSlot_input (k : Fin 8) (b : Slot) (j : Fin 12) : (s.setSlot k b).input j = s.input j := rfl
@[simp] theorem State.setSlot_gain (k : Fin 8) (b : Slot) (q : Fin 13) : (s.setSlot k b).gain q = s.gain q := rfl
@[simp] theorem State.setSlot_speaker (k : Fin 8) (b : Slot) (w : Position) : (s.setSlot k b).speaker w = s.speaker w := rfl
@[simp] theorem State.setGain_zone (o : Fin 13) (g : GainRec) (y : Zone) : (s.setGain o g).zone y = s.zone y := rfl
@[simp] theorem State.setGain_port (o : Fin 13) (g : GainRec) (q : Port) : (s.setGain o g).port q = s.port q := rfl
@[simp] theorem State.setGain_out (o : Fin 13) (g : GainRec) (q : Fin 13) : (s.setGain o g).out q = s.out q := rfl
@[simp] theorem State.setGain_input (o : Fin 13) (g : GainRec) (j : Fin 12) : (s.setGain o g).input j = s.input j := rfl
@[simp] theorem State.setGain_slot (o : Fin 13) (g : GainRec) (j : Fin 8) : (s.setGain o g).slot j = s.slot j := rfl
@[simp] theorem State.setSpeakerRec_zone (x : Position) (r : SpeakerRec) (y : Zone) : (s.setSpeakerRec x r).zone y = s.zone y := rfl
@[simp] theorem State.setSpeakerRec_port (x : Position) (r : SpeakerRec) (q : Port) : (s.setSpeakerRec x r).port q = s.port q := rfl
@[simp] theorem State.setSpeakerRec_out (x : Position) (r : SpeakerRec) (q : Fin 13) : (s.setSpeakerRec x r).out q = s.out q := rfl
@[simp] theorem State.setSpeakerRec_input (x : Position) (r : SpeakerRec) (j : Fin 12) : (s.setSpeakerRec x r).input j = s.input j := rfl
@[simp] theorem State.setSpeakerRec_slot (x : Position) (r : SpeakerRec) (j : Fin 8) : (s.setSpeakerRec x r).slot j = s.slot j := rfl
@[simp] theorem State.setOutputs_zone (u : OutputUnit) (y : Zone) : (s.setOutputs u).zone y = s.zone y := rfl
@[simp] theorem State.setOutputs_port (u : OutputUnit) (q : Port) : (s.setOutputs u).port q = s.port q := rfl
@[simp] theorem State.setOutputs_input (u : OutputUnit) (j : Fin 12) : (s.setOutputs u).input j = s.input j := rfl
@[simp] theorem State.setOutputs_slot (u : OutputUnit) (j : Fin 8) : (s.setOutputs u).slot j = s.slot j := rfl
@[simp] theorem State.setOutputs_gain (u : OutputUnit) (q : Fin 13) : (s.setOutputs u).gain q = s.gain q := rfl
@[simp] theorem State.setOutputs_speaker (u : OutputUnit) (w : Position) : (s.setOutputs u).speaker w = s.speaker w := rfl
@[simp] theorem State.setDelay_zone (d : DelayState) (y : Zone) : (s.setDelay d).zone y = s.zone y := rfl
@[simp] theorem State.setDelay_port (d : DelayState) (q : Port) : (s.setDelay d).port q = s.port q := rfl
@[simp] theorem State.setDelay_out (d : DelayState) (q : Fin 13) : (s.setDelay d).out q = s.out q := rfl
@[simp] theorem State.setDelay_input (d : DelayState) (j : Fin 12) : (s.setDelay d).input j = s.input j := rfl
@[simp] theorem State.setDelay_slot (d : DelayState) (j : Fin 8) : (s.setDelay d).slot j = s.slot j := rfl
@[simp] theorem State.setDelay_gain (d : DelayState) (q : Fin 13) : (s.setDelay d).gain q = s.gain q := rfl
@[simp] theorem State.setDelay_speaker (d : DelayState) (w : Position) : (s.setDelay d).speaker w = s.speaker w := rfl
@[simp] theorem State.setDecoder_zone (d : DecoderRec) (y : Zone) : (s.setDecoder d).zone y = s.zone y := rfl
@[simp] theorem State.setDecoder_port (d : DecoderRec) (q : Port) : (s.setDecoder d).port q = s.port q := rfl
@[simp] theorem State.setDecoder_out (d : DecoderRec) (q : Fin 13) : (s.setDecoder d).out q = s.out q := rfl
@[simp] theorem State.setDecoder_input (d : DecoderRec) (j : Fin 12) : (s.setDecoder d).input j = s.input j := rfl
@[simp] theorem State.setDecoder_slot (d : DecoderRec) (j : Fin 8) : (s.setDecoder d).slot j = s.slot j := rfl
@[simp] theorem State.setDecoder_gain (d : DecoderRec) (q : Fin 13) : (s.setDecoder d).gain q = s.gain q := rfl
@[simp] theorem State.setDecoder_speaker (d : DecoderRec) (w : Position) : (s.setDecoder d).speaker w = s.speaker w := rfl
@[simp] theorem State.setTuner_zone (u : TunerRec) (y : Zone) : (s.setTuner u).zone y = s.zone y := rfl
@[simp] theorem State.setTuner_port (u : TunerRec) (q : Port) : (s.setTuner u).port q = s.port q := rfl
@[simp] theorem State.setTuner_out (u : TunerRec) (q : Fin 13) : (s.setTuner u).out q = s.out q := rfl
@[simp] theorem State.setTuner_input (u : TunerRec) (j : Fin 12) : (s.setTuner u).input j = s.input j := rfl
@[simp] theorem State.setTuner_slot (u : TunerRec) (j : Fin 8) : (s.setTuner u).slot j = s.slot j := rfl
@[simp] theorem State.setTuner_gain (u : TunerRec) (q : Fin 13) : (s.setTuner u).gain q = s.gain q := rfl
@[simp] theorem State.setTuner_speaker (u : TunerRec) (w : Position) : (s.setTuner u).speaker w = s.speaker w := rfl
@[simp] theorem State.setMix_zone (m : MixState) (y : Zone) : (s.setMix m).zone y = s.zone y := rfl
@[simp] theorem State.setMix_port (m : MixState) (q : Port) : (s.setMix m).port q = s.port q := rfl
@[simp] theorem State.setMix_out (m : MixState) (q : Fin 13) : (s.setMix m).out q = s.out q := rfl
@[simp] theorem State.setMix_input (m : MixState) (j : Fin 12) : (s.setMix m).input j = s.input j := rfl
@[simp] theorem State.setMix_slot (m : MixState) (j : Fin 8) : (s.setMix m).slot j = s.slot j := rfl

@[simp] theorem State.setGain_speaker (o : Fin 13) (g : GainRec) (w : Position) :
    (s.setGain o g).speaker w = s.speaker w := rfl
@[simp] theorem State.setSpeakerRec_gain (q : Position) (r : SpeakerRec) (o : Fin 13) :
    (s.setSpeakerRec q r).gain o = s.gain o := rfl

end Sys2Proof.Machine
end

