-- ==== Sys2Proof/Laws/Frames.lean ====
section
/-! SUPPORT. What each shared operation can do: the parts of State it may change, and the fields of a port it always keeps. -/

namespace Sys2Proof.Machine

set_option Elab.async false

/-- What every block's operation keeps of a port: all but its completion queue, chain and event kinds;
and the queue stays within its eight places. -/
def PortRec.kept (r u : PortRec) : Prop :=
  u.inbound = r.inbound ∧ u.attention = r.attention ∧ u.detail = r.detail ∧ u.response = r.response ∧
  u.prst = r.prst ∧ u.dataOut = r.dataOut ∧ u.events.enable = r.events.enable ∧
  u.events.notifyEnable = r.events.notifyEnable ∧ u.events.notifyOnPending = r.events.notifyOnPending ∧
  (r.completions.length ≤ 8 → u.completions.length ≤ 8)

/-- Every port is kept. -/
def portsKept (s t : State) : Prop := ∀ p, (s.port p).kept (t.port p)

/-- An operation from `s` to `t` changes nothing but the listed parts, and keeps the ports. -/
def Frame (ps : List Part) (s t : State) : Prop := onlyChanges ps s t ∧ portsKept s t

/-! ### Algebra of frames -/

theorem PortRec.kept_refl (r : PortRec) : r.kept r := by simp [PortRec.kept]

theorem PortRec.kept_trans {r u v : PortRec} (h1 : r.kept u) (h2 : u.kept v) : r.kept v := by
  simp only [PortRec.kept] at *
  grind

theorem onlyChanges_refl (ps : List Part) (s : State) : onlyChanges ps s s := by
  intro q _; cases q <;> rfl

theorem Part.same_trans {s t u : State} {q : Part} (h1 : q.same s t) (h2 : q.same t u) : q.same s u := by
  cases q <;> exact Eq.trans h2 h1

theorem Frame.refl (ps : List Part) (s : State) : Frame ps s s :=
  ⟨onlyChanges_refl ps s, fun _ => PortRec.kept_refl _⟩

theorem Frame.trans {ps : List Part} {s t u : State} (h1 : Frame ps s t) (h2 : Frame ps t u) : Frame ps s u :=
  ⟨fun q hq => Part.same_trans (h1.1 q hq) (h2.1 q hq), fun p => PortRec.kept_trans (h1.2 p) (h2.2 p)⟩

theorem Frame.mono {ps qs : List Part} {s t : State} (h : Frame ps s t)
    (hs : ps.all (fun q => qs.contains q) = true := by decide) : Frame qs s t :=
  ⟨fun q hq => h.1 q (fun hp => hq (by
    have := List.all_eq_true.mp hs q hp
    simpa using this)), h.2⟩

theorem Frame.comp {ps qs : List Part} {s t u : State} (h1 : Frame ps s t) (h2 : Frame qs t u) :
    Frame (ps ++ qs) s u :=
  ⟨fun q hq => Part.same_trans (h1.1 q (fun h => hq (List.mem_append_left _ h)))
    (h2.1 q (fun h => hq (List.mem_append_right _ h))), fun p => PortRec.kept_trans (h1.2 p) (h2.2 p)⟩

theorem Frame.foldl {β : Type} {ps : List Part} (f : State → β → State) (h : ∀ s b, Frame ps s (f s b))
    (l : List β) (s : State) : Frame ps s (l.foldl f s) := by
  induction l generalizing s with
  | nil => exact Frame.refl ps s
  | cons b l ih => exact (h s b).trans (ih (f s b))

theorem portsKept_of_eq {s t : State} (h : t.ports = s.ports) : portsKept s t := by
  intro p; simp only [State.port, h]; exact PortRec.kept_refl _

/-! ### Updates -/

variable (s : State)

theorem State.setZone_frame (z : Zone) (r : ZoneRec) : Frame [.zones] s (s.setZone z r) :=
  ⟨by intro q hq; cases q <;> first | exact absurd (by decide) hq | rfl, portsKept_of_eq rfl⟩
theorem State.setOut_frame (o : Fin 13) (r : OutputRec) : Frame [.outputs] s (s.setOut o r) :=
  ⟨by intro q hq; cases q <;> first | exact absurd (by decide) hq | rfl, portsKept_of_eq rfl⟩
theorem State.setInput_frame (i : Fin 12) (r : InputRec) : Frame [.inputs] s (s.setInput i r) :=
  ⟨by intro q hq; cases q <;> first | exact absurd (by decide) hq | rfl, portsKept_of_eq rfl⟩
theorem State.setSlot_frame (k : Fin 8) (b : Slot) : Frame [.slots] s (s.setSlot k b) :=
  ⟨by intro q hq; cases q <;> first | exact absurd (by decide) hq | rfl, portsKept_of_eq rfl⟩
theorem State.setGain_frame (o : Fin 13) (g : GainRec) : Frame [.mix] s (s.setGain o g) :=
  ⟨by intro q hq; cases q <;> first | exact absurd (by decide) hq | rfl, portsKept_of_eq rfl⟩
theorem State.setSpeakerRec_frame (w : Position) (r : SpeakerRec) : Frame [.mix] s (s.setSpeakerRec w r) :=
  ⟨by intro q hq; cases q <;> first | exact absurd (by decide) hq | rfl, portsKept_of_eq rfl⟩
theorem State.setOutputs_frame (u : OutputUnit) : Frame [.outputs] s (s.setOutputs u) :=
  ⟨by intro q hq; cases q <;> first | exact absurd (by decide) hq | rfl, portsKept_of_eq rfl⟩
theorem State.setDelay_frame (d : DelayState) : Frame [.delay] s (s.setDelay d) :=
  ⟨by intro q hq; cases q <;> first | exact absurd (by decide) hq | rfl, portsKept_of_eq rfl⟩
theorem State.setDecoder_frame (d : DecoderRec) : Frame [.decoder] s (s.setDecoder d) :=
  ⟨by intro q hq; cases q <;> first | exact absurd (by decide) hq | rfl, portsKept_of_eq rfl⟩
theorem State.setTuner_frame (t : TunerRec) : Frame [.tuner] s (s.setTuner t) :=
  ⟨by intro q hq; cases q <;> first | exact absurd (by decide) hq | rfl, portsKept_of_eq rfl⟩
theorem State.setMix_frame (m : MixState) : Frame [.mix] s (s.setMix m) :=
  ⟨by intro q hq; cases q <;> first | exact absurd (by decide) hq | rfl, portsKept_of_eq rfl⟩

theorem State.setPort_frame (p : Port) (r : PortRec) (h : (s.port p).kept r) : Frame [.ports] s (s.setPort p r) := by
  refine ⟨by intro q hq; cases q <;> first | exact absurd (by decide) hq | rfl, ?_⟩
  intro q
  by_cases e : q = p
  · subst e; simpa using h
  · rw [State.port_setPort_ne s r e]; exact PortRec.kept_refl _

/-! ### Events (Flags.lean) -/

theorem EventState.setKind_settings (e : EventState) (k : EventKind) (x : KindState) :
    (e.setKind k x).enable = e.enable ∧ (e.setKind k x).notifyEnable = e.notifyEnable ∧
    (e.setKind k x).notifyOnPending = e.notifyOnPending := by
  cases k <;> simp [EventState.setKind]

theorem State.raiseOn_frame (p : Port) (k : EventKind) (d : EventDetail) :
    Frame [.ports] s (s.raiseOn p k d) := by
  apply State.setPort_frame
  have h := EventState.setKind_settings (s.port p).events k
    { pending := true, detail := ((s.port p).events.kind k).detail.merge d }
  simp [PortRec.kept, EventState.raise, h]

theorem State.raise_frame (k : EventKind) (d : EventDetail) : Frame [.ports] s (s.raise k d) :=
  ((State.raiseOn_frame s .a k d).trans (State.raiseOn_frame _ .b k d)).trans (State.raiseOn_frame _ .c k d)

theorem State.raiseZone_frame (z : Zone) : Frame [.ports] s (s.raiseZone z) := State.raise_frame ..
theorem State.raiseChannel_frame (o : Fin 13) (r : Byte) : Frame [.ports] s (s.raiseChannel o r) :=
  State.raise_frame ..
theorem State.raiseNoOutput_frame (z : Zone) : Frame [.ports] s (s.raiseNoOutput z) := State.raise_frame ..
theorem State.raiseFaultLine_frame (n : Fin 11) : Frame [.ports] s (s.raiseFaultLine n) := State.raise_frame ..
theorem State.raiseThw_frame : Frame [.ports] s s.raiseThw := State.raise_frame ..
theorem State.raiseTht_frame : Frame [.ports] s s.raiseTht := State.raise_frame ..
theorem State.raiseInput_frame (i : Fin 12) : Frame [.ports] s (s.raiseInput i) := State.raise_frame ..
theorem State.raiseDecoder_frame (r : Byte) : Frame [.ports] s (s.raiseDecoder r) := State.raise_frame ..
theorem State.raiseTuner_frame (r : Byte) : Frame [.ports] s (s.raiseTuner r) := State.raise_frame ..
theorem State.raiseStackLost_frame (z : Zone) : Frame [.ports] s (s.raiseStackLost z) := State.raise_frame ..
theorem State.raiseMemory_frame (r : Byte) : Frame [.ports] s (s.raiseMemory r) := State.raise_frame ..
theorem State.raiseCancelled_frame (p : Port) (z : Zone) : Frame [.ports] s (s.raiseCancelled p z) :=
  State.raiseOn_frame ..

/-! ### Slots, completions and chains (Ops.lean) -/

theorem State.endSlotChains_frame (p : Port) : Frame [.slots] s (s.endSlotChains p) := by
  apply Frame.foldl
  intro s k
  split
  · split
    · exact State.setSlot_frame ..
    · exact Frame.refl ..
  · exact Frame.refl ..

theorem State.endChain_frame (p : Port) : Frame [.slots, .ports] s (s.endChain p) := by
  refine ((State.setPort_frame s p _ ?_).comp (State.endSlotChains_frame _ p)).mono
  simp [PortRec.kept]

theorem State.takeSlot_frame (k : Fin 8) (kind : SlotKind) (t : SlotTarget) (x : Ctx) :
    Frame [.slots, .ports] s (s.takeSlot k kind t x) := by
  unfold State.takeSlot
  dsimp only
  split
  · exact (State.setSlot_frame ..).mono
  · refine ((State.setSlot_frame s k _).comp (State.setPort_frame _ _ _ ?_)).mono
    simp [PortRec.kept]

theorem State.post_frame (p : Port) (r : Completion) (h : s.hasRoom p = true) :
    Frame [.ports] s (s.post p r) := by
  apply State.setPort_frame
  have h' : (s.port p).completions.length < 8 := of_decide_eq_true h
  refine ⟨rfl, rfl, rfl, rfl, rfl, rfl, rfl, rfl, rfl, fun _ => ?_⟩
  simp only [List.length_append, List.length_cons, List.length_nil]
  omega

theorem State.offer_frame (k : Fin 8) (b : SlotBody) (r : Completion) :
    Frame [.slots, .ports] s (s.offer k b r) := by
  unfold State.offer
  split
  · next h => exact ((State.post_frame s _ r h).comp (State.setSlot_frame ..)).mono
  · exact (State.setSlot_frame ..).mono

theorem State.endHold_frame (p : Port) (k : Fin 8) (st : Status) :
    Frame [.slots, .ports] s (s.endHold p k st) := by
  unfold State.endHold
  split
  · split
    · split
      · refine (State.setPort_frame s p _ ?_).mono
        simp [PortRec.kept]
      · exact State.endChain_frame ..
    · exact Frame.refl ..
  · exact Frame.refl ..

theorem State.complete_frame (k : Fin 8) (st : Status) (r : List Byte) :
    Frame [.slots, .ports] s (s.complete k st r) := by
  unfold State.complete
  split
  · exact Frame.refl ..
  · exact (State.offer_frame ..).trans (State.endHold_frame ..)

theorem State.completeOpt_frame (k : Option (Fin 8)) (st : Status) (r : List Byte) :
    Frame [.slots, .ports] s (s.completeOpt k st r) := by
  unfold State.completeOpt
  split
  · exact Frame.refl ..
  · exact State.complete_frame ..

theorem State.postWaiting_frame (p : Port) : Frame [.slots, .ports] s (s.postWaiting p) := by
  unfold State.postWaiting
  split
  · next h =>
    split
    · exact ((State.post_frame s p _ h).comp (State.setSlot_frame ..)).mono
    · exact Frame.refl ..
  · exact Frame.refl ..

theorem State.postAllWaiting_frame (p : Port) : Frame [.slots, .ports] s (s.postAllWaiting p) :=
  Frame.foldl _ (fun s _ => State.postWaiting_frame s p) _ _

/-! ### Outputs (Outputs.lean) -/

theorem State.noteZone_frame (z : Zone) : Frame [.zones, .ports] s (s.noteZone z) := by
  unfold State.noteZone
  dsimp only
  refine Frame.trans (t := if ((s.zone z).power == .on && (s.grantedOutputs z).isEmpty) && !(s.zone z).noOutput
    then s.raiseNoOutput z else s) ?_ (State.setZone_frame ..).mono
  split
  · exact (State.raiseNoOutput_frame ..).mono
  · exact Frame.refl ..

theorem State.noteOutputs_frame : Frame [.zones, .ports] s s.noteOutputs :=
  (State.noteZone_frame s .z2).trans (State.noteZone_frame _ .z3)

theorem State.updateOut_frame (o : Fin 13) (r : OutputRec) :
    Frame [.outputs, .zones, .ports] s (s.updateOut o r) :=
  ((State.setOut_frame s o r).comp (State.noteOutputs_frame _)).mono

/-- The parts that operations of the Output Channel Unit and its freeings change. -/
def outputParts : List Part := [.outputs, .zones, .ports, .delay, .slots]

theorem State.requestOne_frame (o : Fin 13) (z : Zone) (r : Role) (t : State) (h : s.requestOne o z r = .ok t) :
    Frame [.delay] s t := by
  unfold State.requestOne at h
  cases hd : s.delay.request [(o, s.totalDelay z r)] with
  | error e => rw [hd] at h; exact absurd h (by simp [Except.map])
  | ok d =>
    rw [hd] at h
    simp only [Except.map, Except.ok.injEq] at h
    subst h
    exact State.setDelay_frame ..

theorem State.addStarved_frame (o : Fin 13) : Frame outputParts s (s.addStarved o) :=
  ((State.setDelay_frame s _).comp (State.raiseMemory_frame _ _)).mono

theorem State.leaveStarved_frame (o : Fin 13) : Frame outputParts s (s.leaveStarved o) :=
  (State.setDelay_frame s _).mono

theorem State.becomeGranted_frame (o : Fin 13) (z : Zone) (r : Role) :
    Frame outputParts s (s.becomeGranted o z r) := (State.updateOut_frame s _ _).mono

theorem State.becomeStarved_frame (o : Fin 13) (z : Zone) (r : Role) :
    Frame outputParts s (s.becomeStarved o z r) :=
  (((State.updateOut_frame s _ _).mono : Frame outputParts _ _).trans (State.addStarved_frame _ _)).trans
    (State.raiseChannel_frame _ _ _).mono

theorem State.becomeIdle_frame (o : Fin 13) : Frame outputParts s (s.becomeIdle o) :=
  (State.updateOut_frame s _ _).mono

theorem State.retryOne_frame (o : Fin 13) : Frame outputParts s (s.retryOne o) := by
  unfold State.retryOne
  split
  · split
    · split
      · next h =>
        exact ((((State.requestOne_frame s _ _ _ _ h).mono : Frame outputParts _ _).trans
          (State.leaveStarved_frame _ _)).trans (State.becomeGranted_frame ..)).trans
          (State.raiseChannel_frame _ _ _).mono
      · exact Frame.refl ..
    · exact Frame.refl ..
  · exact Frame.refl ..

theorem State.retryPass_frame : Frame outputParts s s.retryPass :=
  Frame.foldl _ (fun s o => State.retryOne_frame s o) _ _

theorem State.endCompaction_frame (c : CompactionRec) : Frame outputParts s (s.endCompaction c) :=
  (((State.setDelay_frame s _).mono : Frame outputParts _ _).trans (State.retryPass_frame _)).trans
    (State.complete_frame _ _ _ _).mono

theorem State.continueCompaction_frame (c : CompactionRec) : Frame outputParts s (s.continueCompaction c) := by
  unfold State.continueCompaction
  split
  · exact State.endCompaction_frame ..
  · have h := (State.setDelay_frame s (DelayState.examine (examineFuel s.delay) s.delay c).1).mono (qs := outputParts)
    dsimp only
    split
    · exact h.trans (State.endCompaction_frame ..)
    · exact h

theorem State.freeSegment_frame (o : Fin 13) : Frame outputParts s (s.freeSegment o) := by
  unfold State.freeSegment
  split
  · exact Frame.refl ..
  · have h := (State.setDelay_frame s (s.delay.removeSegment o)).mono (qs := outputParts)
    dsimp only
    split
    · exact h.trans (State.retryPass_frame _)
    · split
      · exact h.trans (State.continueCompaction_frame ..)
      · exact h

theorem State.placeInZone_frame (o : Fin 13) (z : Zone) (r : Role) :
    Frame outputParts s (s.placeInZone o z r).1 := by
  unfold State.placeInZone
  split
  · next h =>
    exact ((State.requestOne_frame s _ _ _ _ h).mono : Frame outputParts _ _).trans (State.becomeGranted_frame ..)
  · exact State.becomeStarved_frame ..

theorem State.directGrant_frame (o : Fin 13) (z : Zone) (r : Role) :
    Frame outputParts s (s.directGrant o z r) := by
  unfold State.directGrant
  split
  · exact (State.becomeGranted_frame s o z r).trans (State.raiseChannel_frame _ _ _).mono
  · have h := State.placeInZone_frame s o z r
    dsimp only
    split
    · exact h.trans (State.raiseChannel_frame _ _ _).mono
    · exact h

theorem State.startHandover_frame (o : Fin 13) (g : Option (Zone × Role)) :
    Frame outputParts s (s.startHandover o g) :=
  ((State.updateOut_frame s _ _).mono : Frame outputParts _ _).trans (State.raiseChannel_frame _ _ _).mono

theorem State.enterReallocate_frame (o : Fin 13) (b : Bool) :
    Frame outputParts s (s.enterReallocate o b) := by
  have h := fun r => (State.setOut_frame s o r).mono (qs := outputParts)
  unfold State.enterReallocate
  cases b
  · exact h _
  · exact (h _).trans (State.raiseChannel_frame _ _ _).mono

theorem State.reallocate_frame (o : Fin 13) (b : Bool) : Frame outputParts s (s.reallocate o b) := by
  unfold State.reallocate
  have h1 := (State.enterReallocate_frame s o b).trans (State.freeSegment_frame _ o)
  dsimp only
  generalize (s.enterReallocate o b).freeSegment o = v at h1 ⊢
  have h2 := fun r => h1.trans ((State.setOut_frame v o r).mono (qs := outputParts))
  split
  · exact ((h2 _).trans (State.becomeIdle_frame _ o)).trans (State.raiseChannel_frame _ _ _).mono
  · have h3 := fun r z q => (h2 r).trans (State.placeInZone_frame (v.setOut o r) o z q)
    split
    · split
      · exact ((h3 _ _ _).trans (State.raiseChannel_frame _ _ _).mono).trans (State.raiseChannel_frame _ _ _).mono
      · exact (h3 _ _ _).trans (State.raiseChannel_frame _ _ _).mono
    · exact h3 _ _ _

theorem State.abandonHandover_frame (o : Fin 13) : Frame outputParts s (s.abandonHandover o) :=
  ((State.updateOut_frame s _ _).mono : Frame outputParts _ _).trans (State.raiseChannel_frame _ _ _).mono

theorem State.regrant_frame (o : Fin 13) : Frame outputParts s (s.regrant o) := by
  unfold State.regrant
  dsimp only
  split
  · exact Frame.refl ..
  · split
    · exact Frame.refl ..
    · exact State.directGrant_frame ..
  · split
    · exact Frame.refl ..
    · split
      · exact Frame.refl ..
      · exact State.startHandover_frame ..
  · split
    · exact Frame.refl ..
    · split
      · exact Frame.refl ..
      · exact (State.leaveStarved_frame s o).trans (State.reallocate_frame ..)
  · split
    · exact State.abandonHandover_frame ..
    · exact (State.setOut_frame ..).mono

theorem State.regrantAll_frame : Frame outputParts s s.regrantAll :=
  Frame.foldl _ (fun s o => State.regrant_frame s o) _ _

theorem State.releaseZone_frame (z : Zone) : Frame outputParts s (s.releaseZone z) := by
  apply Frame.foldl
  intro s o
  split
  · exact ((State.leaveStarved_frame s o).trans (State.becomeIdle_frame _ o)).trans
      (State.raiseChannel_frame _ _ _).mono
  · exact Frame.refl ..

theorem State.freeZone_frame (z : Zone) : Frame outputParts s (s.freeZone z) := by
  apply Frame.foldl
  intro s o
  split
  · exact State.freeSegment_frame ..
  · exact Frame.refl ..

theorem State.openRelays_frame (z : Zone) : Frame [.outputs] s (s.openRelays z) := by
  apply Frame.foldl
  intro s o
  split
  · exact State.setOut_frame ..
  · exact Frame.refl ..

theorem State.silenceLane_frame (o : Fin 13) : Frame [.mix] s (s.silenceLane o) := State.setMix_frame ..

theorem State.faultOutput_frame (n : Fin 11) : Frame (.mix :: outputParts) s (s.faultOutput n) := by
  unfold State.faultOutput
  dsimp only
  split
  · exact (State.raiseFaultLine_frame s n).mono
  · exact (((((State.leaveStarved_frame s _).mono : Frame (.mix :: outputParts) _ _).trans
      (State.setGain_frame _ _ _).mono).trans (State.silenceLane_frame _ _).mono).trans
      (State.updateOut_frame _ _ _).mono).trans ((State.freeSegment_frame _ _).mono.trans
      (State.raiseFaultLine_frame _ _).mono)

/-! ### What follows a zone's change (Binding.lean) -/

theorem State.refreshStatus_frame (z : Zone) : Frame [.zones, .ports] s (s.refreshStatus z) := by
  unfold State.refreshStatus
  dsimp only
  split
  · exact Frame.refl ..
  · exact ((State.setZone_frame s _ _).comp (State.raiseZone_frame _ _)).mono

theorem State.refreshStatuses_frame : Frame [.zones, .ports] s s.refreshStatuses :=
  ((State.refreshStatus_frame s .main).trans (State.refreshStatus_frame _ .z2)).trans
    (State.refreshStatus_frame _ .z3)

/-- The parts that the reports of a zone's change reach. -/
def reportParts : List Part := [.zones, .ports, .decoder, .tuner]

theorem State.refreshBinding_frame : Frame reportParts s s.refreshBinding := by
  unfold State.refreshBinding
  split
  · exact Frame.refl ..
  · exact (((State.setDecoder_frame s _).mono : Frame reportParts _ _).trans
      (State.raiseDecoder_frame _ _).mono).trans (State.refreshStatuses_frame _).mono

theorem State.refreshTuner_frame : Frame [.tuner] s s.refreshTuner := by
  unfold State.refreshTuner
  split
  · split
    · exact State.setTuner_frame ..
    · exact Frame.refl ..
  · split
    · exact State.setTuner_frame ..
    · exact State.setTuner_frame ..
    · exact Frame.refl ..

theorem State.reportZones_frame : Frame reportParts s s.reportZones :=
  (State.refreshBinding_frame s).trans (State.refreshTuner_frame _).mono

/-! ### Zones (ZoneOps.lean) -/

/-- The parts that the zone operations reach. -/
def zoneParts : List Part := [.zones, .ports, .decoder, .tuner, .outputs, .delay, .slots]

theorem State.setPower_frame (z : Zone) (w : Power) : Frame [.zones, .ports] s (s.setPower z w) :=
  (((State.setZone_frame s _ _).mono : Frame [.zones, .ports] _ _).trans (State.noteOutputs_frame _)).trans
    (State.raiseZone_frame _ _).mono

theorem State.startRelayStage_frame (z : Zone) : Frame zoneParts s (s.startRelayStage z) :=
  ((State.setZone_frame s _ _).mono : Frame zoneParts _ _).trans (State.openRelays_frame _ _).mono

theorem State.quietZone_frame (z : Zone) (k : Option (Fin 8)) : Frame [.zones, .ports] s (s.quietZone z k) :=
  (((State.setZone_frame s _ _).mono : Frame [.zones, .ports] _ _).trans (State.setPower_frame _ _ _)).trans
    (State.refreshStatus_frame _ _)

theorem State.endSilentRamp_frame (z : Zone) : Frame zoneParts s (s.endSilentRamp z) := by
  unfold State.endSilentRamp
  split
  · exact State.startRelayStage_frame ..
  · exact Frame.refl ..

theorem State.reportQuieting_frame (before : State) : Frame zoneParts s (State.reportQuieting before s) :=
  ((State.reportZones_frame s).mono : Frame zoneParts _ _).trans
    (Frame.foldl _ (fun s z => State.endSilentRamp_frame s z) _ _)

theorem State.enterQuieting_frame (z : Zone) (k : Option (Fin 8)) : Frame zoneParts s (s.enterQuieting z k) :=
  ((State.quietZone_frame s z k).mono : Frame zoneParts _ _).trans (State.reportQuieting_frame _ _)

theorem State.removePending_frame (z : Zone) : Frame zoneParts s (s.removePending z) :=
  (((State.setZone_frame s _ _).mono : Frame zoneParts _ _).trans (State.raiseZone_frame _ _).mono).trans
    (State.completeOpt_frame _ _ _ _).mono

theorem State.setPending_frame (z : Zone) (w : PendingPower) (k : Option (Fin 8)) :
    Frame [.zones, .ports] s (s.setPending z w k) :=
  ((State.setZone_frame s _ _).comp (State.raiseZone_frame _ _)).mono

theorem State.withReference_frame (z : Zone) : Frame [.delay] s (s.withReference z) := by
  unfold State.withReference
  split
  · exact State.setDelay_frame ..
  · exact Frame.refl ..

theorem State.wakeRequest_frame (z : Zone) (t : State) (h : s.wakeRequest z = .ok t) : Frame [.delay] s t := by
  unfold State.wakeRequest at h
  dsimp only at h
  revert h
  generalize hd : DelayState.request _ _ = d
  cases d with
  | error e => intro h; exact absurd h (by simp [Except.map])
  | ok d =>
    intro h
    simp only [Except.map, Except.ok.injEq] at h
    subst h
    exact (State.withReference_frame s z).trans (State.setDelay_frame _ _)

theorem State.enterWaking_frame (z : Zone) (k : Option (Fin 8)) : Frame zoneParts s (s.enterWaking z k) :=
  ((((State.setZone_frame s _ _).mono : Frame zoneParts _ _).trans (State.setPower_frame _ _ _).mono).trans
    (State.regrantAll_frame _).mono).trans (State.reportZones_frame _).mono

theorem State.cancelStack_frame (z : Zone) : Frame [.zones, .ports] s (s.cancelStack z) :=
  (((Frame.foldl _ (fun s (e : OverrideEntry) => State.raiseCancelled_frame s e.port z) _ s).mono :
    Frame [.zones, .ports] _ _)).trans (State.setZone_frame _ _ _).mono

theorem State.dropReference_frame (z : Zone) : Frame [.delay] s (s.dropReference z) := by
  unfold State.dropReference
  split
  · exact State.setDelay_frame ..
  · exact Frame.refl ..

theorem State.runPendingOn_frame (z : Zone) : Frame zoneParts s (s.runPendingOn z) := by
  unfold State.runPendingOn
  split
  · dsimp only
    have h1 : Frame zoneParts s ((s.setZone z
        { s.zone z with pendingPower := none, pendingSlot := none }).raiseZone z) :=
      ((State.setZone_frame s _ _).comp (State.raiseZone_frame _ _)).mono
    split
    · exact h1.trans (State.completeOpt_frame _ _ _ _).mono
    · split
      · exact h1.trans (State.completeOpt_frame _ _ _ _).mono
      · next h => exact (h1.trans (State.wakeRequest_frame _ _ _ h).mono).trans (State.enterWaking_frame ..)
  · exact Frame.refl ..

theorem State.toStandby_frame (z : Zone) : Frame zoneParts s (s.toStandby z) := by
  unfold State.toStandby
  dsimp only
  have h1 := fun r => (State.setZone_frame s z r).mono (qs := zoneParts)
  have h2 := fun s : State => (State.setPower_frame s z .standby).mono (qs := zoneParts)
  have h3 := fun s : State => (State.cancelStack_frame s z).mono (qs := zoneParts)
  have h4 := fun s : State => (State.dropReference_frame s z).mono (qs := zoneParts)
  have h5 := fun s : State => (State.freeZone_frame s z).mono (qs := zoneParts)
  have h6 := fun s : State => (State.releaseZone_frame s z).mono (qs := zoneParts)
  have h7 := fun s : State => (State.regrantAll_frame s).mono (qs := zoneParts)
  have h8 := fun s : State => (State.reportZones_frame s).mono (qs := zoneParts)
  exact ((((((((h1 _).trans (h2 _)).trans (h3 _)).trans (h4 _)).trans (h5 _)).trans (h6 _)).trans (h7 _)).trans
    (h8 _)).trans (State.completeOpt_frame _ _ _ _).mono

theorem State.enterStandby_frame (z : Zone) : Frame zoneParts s (s.enterStandby z) :=
  (State.toStandby_frame s z).trans (State.runPendingOn_frame _ _)

theorem State.changeEntry_frame (z : Zone) (k : Nat) (f : OverrideEntry → OverrideEntry) :
    Frame [.zones] s (s.changeEntry z k f) := State.setZone_frame ..

theorem State.applySource_frame (z : Zone) (src : Source) : Frame reportParts s (s.applySource z src).2 := by
  unfold State.applySource
  dsimp only
  have hz := fun r => (State.setZone_frame s z r).mono (qs := reportParts)
  split
  · split
    · split
      · exact Frame.refl ..
      · exact hz _
    · split
      · exact hz _
      · split
        · exact Frame.refl ..
        · exact hz _
  · split
    · exact Frame.refl ..
    · exact (((hz _).trans (State.raiseZone_frame _ _).mono).trans (State.refreshStatus_frame _ _).mono).trans
        (State.reportZones_frame _)

theorem State.applyVolume_frame (z : Zone) (v : Int) : Frame [.zones, .ports] s (s.applyVolume z v).2 := by
  unfold State.applyVolume
  dsimp only
  split
  · exact Frame.refl ..
  · exact ((State.setZone_frame s _ _).comp (State.raiseZone_frame _ _)).mono

/-! ### Inputs (Inputs.lean) -/

theorem State.changeInput_frame (i : Fin 8) (r : InputRec) :
    Frame [.inputs, .zones, .ports, .decoder, .tuner] s (s.changeInput i r) :=
  ((((State.setInput_frame s _ _).mono : Frame [.inputs, .zones, .ports, .decoder, .tuner] _ _).trans
    (State.raiseInput_frame _ _).mono).trans (State.refreshStatuses_frame _).mono).trans
    (State.refreshBinding_frame _).mono

/-! ### The tuner (Tuning.lean) -/

/-- The parts that tuner operations reach. -/
def tunerParts : List Part := [.tuner, .slots, .ports]

theorem State.settleOrPark_frame : Frame [.tuner] s s.settleOrPark := by
  unfold State.settleOrPark
  split <;> exact State.setTuner_frame ..

theorem State.restTuner_frame : Frame [.tuner] s s.restTuner := by
  unfold State.restTuner
  split <;> exact State.setTuner_frame ..

theorem State.endTunerOp_frame (o : TunerOp) (st : Status) (r : List Byte) :
    Frame tunerParts s (s.endTunerOp o st r) :=
  ((State.setTuner_frame s _).mono : Frame tunerParts _ _).trans (State.complete_frame _ _ _ _).mono

theorem State.abortTuner_frame : Frame tunerParts s s.abortTuner := by
  unfold State.abortTuner
  split
  · exact Frame.refl ..
  · split
    · exact (((State.setTuner_frame s _).mono : Frame tunerParts _ _).trans (State.endTunerOp_frame ..)).trans
        (State.settleOrPark_frame _).mono
    · exact (((State.setTuner_frame s _).mono : Frame tunerParts _ _).trans (State.endTunerOp_frame ..)).trans
        (State.settleOrPark_frame _).mono
    · exact Frame.refl ..

theorem State.cancelTune_frame : Frame tunerParts s s.cancelTune := by
  unfold State.cancelTune
  split
  · exact Frame.refl ..
  · split
    · exact Frame.refl ..
    · exact State.endTunerOp_frame ..

theorem State.takeTuner_frame : Frame tunerParts s s.takeTuner :=
  (State.abortTuner_frame s).trans (State.cancelTune_frame _)

theorem State.acceptTune_frame (x : Ctx) (k : SlotKind) (op : TunerOpKind) (b : Band) (f : Nat) (n : Fin 8) :
    Frame tunerParts s (s.acceptTune x k op b f n) :=
  ((State.takeSlot_frame s _ _ _ _).mono : Frame tunerParts _ _).trans (State.setTuner_frame _ _).mono

/-- A row test changes the delay memory and takes one free number (R116). -/
theorem State.testRow_frame (c : CheckRec) : Frame [.delay, .freeCount] s (s.testRow c) :=
  ⟨by intro q hq; cases q <;> first | exact absurd (by decide) hq | rfl, portsKept_of_eq rfl⟩

end Sys2Proof.Machine
end

