-- ==== Sys2Proof/Laws/Derived.lean ====
section
/-! SUPPORT. The derived state, said once: what the model computes for a source status, the binding and the tuner's activity is what R2, R75 and R141 say of them. -/

namespace Sys2Proof.Machine
set_option Elab.async false

/-! ### The binding (R75, R76) -/

/-- The input that a zone lends the decoder is the packed one it plays. -/
theorem State.packedSource_eq_some (s : State) (z : Zone) (i : Fin 8) :
    s.packedSource z = some i ↔ s.playsPacked z i := by
  have hup : (s.zone z).isUp = true ↔ ((s.zone z).power = .waking ∨ (s.zone z).power = .on) := by
    simp [ZoneRec.isUp]
  unfold State.packedSource State.playsPacked
  rw [← hup]
  by_cases h : (s.zone z).isUp = true
  · simp only [h, if_true, true_and]
    cases hl : (s.zone z).live with
    | tuner => simp
    | input j =>
      by_cases hj : j.val < 8
      · simp only [hj, dif_pos, digital, Source.input.injEq, Fin.ext_iff]
        by_cases hs : (s.input j).state = .packed
        · simp only [hs, if_true, Option.some.injEq, Fin.ext_iff]
          refine ⟨fun e => ⟨e, ?_⟩, fun e => e.1⟩
          have : (⟨i.val, by omega⟩ : Fin 12) = j := Fin.ext e.symm
          rw [this, hs]
        · simp only [hs, if_false, reduceCtorEq, false_iff, not_and]
          intro e
          have : (⟨i.val, by omega⟩ : Fin 12) = j := Fin.ext e.symm
          rw [this]; exact hs
      · simp only [hj, dif_neg, not_false_eq_true, reduceCtorEq, false_iff, digital, Source.input.injEq,
          Fin.ext_iff, not_and]
        intro e; omega
  · simp [h]

/-- The binding that the model computes is the one R75 names, and no other is. -/
theorem State.bindingIs_iff (s : State) (b : Option (Fin 8)) : s.bindingIs b ↔ b = s.computedBinding := by
  unfold State.bindingIs State.computedBinding
  simp only [← State.packedSource_eq_some]
  cases s.packedSource .main <;> cases s.packedSource .z2 <;> cases s.packedSource .z3 <;> simp

/-- The record that the model gives a decoder whose binding changes is that of R76. -/
theorem DecoderRec.bound_eq (b : Option (Fin 8)) : DecoderRec.bound b = decoderAnew b := by
  cases b <;> rfl

/-- The decoder after the binding is computed anew: as it was where the binding is the one held, and started anew
otherwise. -/
theorem State.refreshBinding_decoder (s : State) : s.refreshBinding.decoder =
    if s.computedBinding = s.decoder.binding then s.decoder else decoderAnew s.computedBinding := by
  unfold State.refreshBinding
  split
  · rfl
  · rw [(State.refreshStatuses_frame _).1 .decoder (by decide), (State.raiseDecoder_frame _ _).1 .decoder (by decide),
      State.setDecoder_decoder, DecoderRec.bound_eq]

/-! ### Source statuses (R2) -/

/-- The source status that the model computes is the one R2 names, and no other is. -/
theorem State.statusIs_iff (s : State) (src : Source) (st : SourceStatus) :
    s.statusIs src st ↔ st = s.statusOf src := by
  cases src with
  | tuner => simp [State.statusIs, State.statusOf]
  | input i =>
    have hb : s.boundTo i = true ↔ ∃ b, s.decoder.binding = some b ∧ digital b = i := by
      unfold State.boundTo
      cases s.decoder.binding with
      | none => simp
      | some b =>
        simp only [beq_iff_eq, Option.some.injEq, digital, Fin.ext_iff]
        exact ⟨fun h => ⟨b, rfl, h⟩, fun ⟨_, h1, h2⟩ => h1.trans h2⟩
    unfold State.statusIs State.statusOf
    simp only [reduceCtorEq, false_implies, true_and, Source.input.injEq, forall_eq', ← hb]
    cases (s.input i).state <;> simp
    cases s.boundTo i <;> simp

/-! ### The tuner's activity (R141) -/

/-- The tuner is heard exactly when some zone listens to it. -/
theorem State.listened_iff (s : State) : s.listened ↔ s.tunerHeard = true := by
  unfold State.listened State.tunerHeard Zone.all ZoneRec.isUp
  simp only [List.any_cons, List.any_nil, Bool.or_false, Bool.or_eq_true, Bool.and_eq_true, beq_iff_eq]
  constructor
  · rintro ⟨z, h⟩
    cases z
    · exact .inl h
    · exact .inr (.inl h)
    · exact .inr (.inr h)
  · rintro (h | h | h)
    · exact ⟨_, h⟩
    · exact ⟨_, h⟩
    · exact ⟨_, h⟩

/-- The model's two tuner records at a beginning and an end of the activity are those of R142. -/
theorem TunerRec.settleNow_eq (t : TunerRec) : t.settleNow = t.unparked := by
  unfold TunerRec.settleNow TunerRec.unparked settleTime
  cases t.band <;> rfl

theorem TunerRec.parkNow_eq (t : TunerRec) : t.parkNow = t.parkedNow := rfl

/-- The reports of the zones settle the tuner where its activity has begun, park it where it has ended, and leave it
as it was otherwise. -/
theorem State.refreshTuner_retunes (s : State) : retunes s s.refreshTuner := by
  have hz : s.refreshTuner.listened ↔ s.tunerHeard = true := by
    rw [← s.listened_iff]
    unfold State.listened State.zone
    rw [s.refreshTuner_frame.1 .zones (by decide)]
  have ha : (s.refreshTuner.listened ∨ s.tuner.op ≠ none) ↔ s.tunerActive = true := by
    rw [hz]; simp [State.tunerActive, Option.isSome_iff_ne_none]
  unfold retunes
  simp only [ha]
  unfold State.refreshTuner
  cases s.tunerActive <;> cases s.tuner.state <;> simp [TunerRec.settleNow_eq, TunerRec.parkNow_eq]

/-! ### Derived state in order -/

/-- The derived state is in order when the model would compute it as it is. -/
theorem State.followed_of (s : State) (hb : s.decoder.binding = s.computedBinding)
    (hs : ∀ z, z ∈ Zone.all → (s.zone z).status = s.statusOf (s.zone z).live)
    (ht : (s.tuner.state = .parked ↔ s.tunerActive = false))
    (hp : s.tuner.state = .parked → s.tuner.settle = none ∧ s.tuner.seek = none ∧ s.tuner.scan = none)
    (ho : s.tuner.state = .seeking ∨ s.tuner.state = .scanning → s.tuner.op ≠ none) : s.followed := by
  refine ⟨(s.bindingIs_iff _).2 hb, fun z => (s.statusIs_iff _ _).2 (hs z (by cases z <;> decide)), ?_, hp, ho⟩
  rw [ht, s.listened_iff, ← Bool.not_eq_true]
  unfold State.tunerActive
  simp [Option.isSome_iff_ne_none]

end Sys2Proof.Machine
end

