-- ==== Sys2Proof/Laws/Dram.lean ====
section
/-! SUPPORT. The laws of the delay DRAM: a read after a write, and that every operation keeps the canonical form (R113, R123). -/

namespace Sys2Proof.Machine
set_option Elab.async false

/-! ### A read after a write -/

@[simp] theorem Dram.read_nil (a : Nat) : Dram.read [] a = unlistedWord := rfl

theorem Dram.read_cons (b : Nat) (x : Sample) (m : Dram) (a : Nat) :
    Dram.read ((b, x) :: m) a = if b = a then x else Dram.read m a := rfl

theorem Dram.read_erase_same (m : Dram) (a : Nat) : (m.erase a).read a = unlistedWord := by
  induction m with
  | nil => rfl
  | cons w m ih =>
    obtain ⟨b, x⟩ := w
    by_cases h : b = a
    · subst h
      have he : Dram.erase ((b, x) :: m) b = Dram.erase m b := by simp [Dram.erase]
      rw [he, ih]
    · have he : Dram.erase ((b, x) :: m) a = (b, x) :: Dram.erase m a := by simp [Dram.erase, h]
      rw [he, Dram.read_cons, if_neg h, ih]

theorem Dram.read_erase_other (m : Dram) {a c : Nat} (h : c ≠ a) : (m.erase a).read c = m.read c := by
  induction m with
  | nil => rfl
  | cons w m ih =>
    obtain ⟨b, x⟩ := w
    by_cases hb : b = a
    · subst hb
      have he : Dram.erase ((b, x) :: m) b = Dram.erase m b := by simp [Dram.erase]
      rw [he, ih, Dram.read_cons, if_neg (Ne.symm h)]
    · have he : Dram.erase ((b, x) :: m) a = (b, x) :: Dram.erase m a := by simp [Dram.erase, hb]
      rw [he, Dram.read_cons, Dram.read_cons, ih]

theorem Dram.read_insert (m : Dram) (a c : Nat) (x : Sample) :
    (m.insert a x).read c = if c = a then x else m.read c := by
  induction m with
  | nil => simp [Dram.insert, Dram.read_cons, eq_comm]
  | cons w m ih =>
    obtain ⟨b, y⟩ := w
    unfold Dram.insert
    by_cases h1 : a < b
    · rw [if_pos h1, Dram.read_cons]
      by_cases hc : c = a
      · simp [hc]
      · rw [if_neg (Ne.symm hc), if_neg hc]
    · rw [if_neg h1]
      by_cases h2 : a = b
      · rw [if_pos h2, Dram.read_cons, Dram.read_cons]
        by_cases hc : c = a
        · simp [hc]
        · rw [if_neg (Ne.symm hc), if_neg hc, if_neg (fun e => hc (e.symm.trans h2.symm))]
      · rw [if_neg h2, Dram.read_cons, Dram.read_cons, ih]
        by_cases hb : b = c
        · rw [if_pos hb, if_pos hb, if_neg (fun e => h2 (e.symm.trans hb.symm))]
        · rw [if_neg hb, if_neg hb]

/-- What a word reads as after a write: the value written at that address, what it read as elsewhere. -/
theorem Dram.read_write (m : Dram) (a c : Nat) (x : Sample) :
    (m.write a x).read c = if c = a then x else m.read c := by
  unfold Dram.write
  by_cases hx : x = unlistedWord
  · rw [if_pos hx]
    by_cases hc : c = a
    · rw [if_pos hc, hc, Dram.read_erase_same, hx]
    · rw [if_neg hc, Dram.read_erase_other m hc]
  · rw [if_neg hx, Dram.read_insert]

/-- What a word reads as after a clearing (R123). -/
theorem Dram.read_clear (m : Dram) (lo n a : Nat) :
    (m.clear lo n).read a = if lo ≤ a ∧ a < lo + n then unlistedWord else m.read a := by
  induction m with
  | nil => simp [Dram.clear]
  | cons w m ih =>
    obtain ⟨b, x⟩ := w
    by_cases hb : lo ≤ b ∧ b < lo + n
    · have he : Dram.clear ((b, x) :: m) lo n = Dram.clear m lo n := by simp [Dram.clear, hb]
      rw [he, ih, Dram.read_cons]
      by_cases hba : b = a
      · rw [← hba, if_pos hb, if_pos hb]
      · rw [if_neg hba]
    · have hk : (!(decide (lo ≤ b) && decide (b < lo + n))) = true := by
        simp only [Bool.not_eq_true', Bool.and_eq_false_iff, decide_eq_false_iff_not]
        by_cases h1 : lo ≤ b
        · exact .inr (fun h2 => hb ⟨h1, h2⟩)
        · exact .inl h1
      have he : Dram.clear ((b, x) :: m) lo n = (b, x) :: Dram.clear m lo n := by
        exact List.filter_cons_of_pos hk
      rw [he, Dram.read_cons, Dram.read_cons, ih]
      by_cases hba : b = a
      · rw [if_pos hba, if_pos hba, ← hba, if_neg hb]
      · rw [if_neg hba, if_neg hba]

/-- A list that does not name an address says nothing of it. -/
theorem Dram.read_append_right {m n : Dram} {a : Nat} (h : ∀ w, w ∈ m → w.1 ≠ a) :
    Dram.read (m ++ n) a = Dram.read n a := by
  induction m with
  | nil => rfl
  | cons w m ih =>
    rw [List.cons_append, Dram.read_cons, if_neg (h w List.mem_cons_self)]
    exact ih (fun v hv => h v (List.mem_cons_of_mem _ hv))

theorem Dram.read_append_left {m n : Dram} {a : Nat} (h : ∀ w, w ∈ n → w.1 ≠ a) :
    Dram.read (m ++ n) a = Dram.read m a := by
  induction m with
  | nil =>
    have := Dram.read_append_right (n := []) h
    rw [List.append_nil] at this
    rw [List.nil_append, this]
  | cons w m ih => rw [List.cons_append, Dram.read_cons, Dram.read_cons, ih]

/-- A part of a list that keeps an address reads there as the list does. -/
theorem Dram.read_filter {m : Dram} {f : Nat × Sample → Bool} {a : Nat} (h : ∀ x, f (a, x) = true) :
    Dram.read (m.filter f) a = Dram.read m a := by
  induction m with
  | nil => rfl
  | cons w m ih =>
    obtain ⟨b, x⟩ := w
    by_cases hf : f (b, x) = true
    · rw [List.filter_cons_of_pos hf, Dram.read_cons, Dram.read_cons, ih]
    · rw [List.filter_cons_of_neg hf, Dram.read_cons, ih, if_neg]
      rintro rfl
      exact hf (h x)

/-- A list of addresses, each with what `f` gives and those that give nothing left out, reads as `f`. -/
theorem Dram.read_map (f : Nat → Sample) (p : Nat → Bool) (l : List Nat) (a : Nat) :
    Dram.read ((l.filter (fun a => p a && (f a != unlistedWord))).map (fun a => (a, f a))) a =
      if a ∈ l ∧ p a = true then f a else unlistedWord := by
  induction l with
  | nil => simp
  | cons b l ih =>
    by_cases hb : (p b && (f b != unlistedWord)) = true
    · rw [List.filter_cons, if_pos hb, List.map_cons, Dram.read_cons, ih]
      by_cases e : b = a
      · subst e
        simp_all
      · simp [e, Ne.symm e]
    · rw [List.filter_cons, if_neg hb, ih]
      by_cases e : b = a
      · subst e
        by_cases hp : p b = true
        · have : f b = unlistedWord := by simpa [hp] using hb
          simp [this]
        · simp [hp]
      · simp [Ne.symm e]

/-- What a word reads as after a filling (R116). -/
theorem Dram.read_fill (m : Dram) (lo n : Nat) (f : Nat → Sample) (a : Nat) (ha : a < dramWords) :
    (m.fill lo n f).read a = if lo ≤ a ∧ a < lo + n then f a else m.read a := by
  unfold Dram.fill
  have hm : ∀ w, w ∈ ((List.range' lo n).filter
      (fun a => decide (a < dramWords) && (f a != unlistedWord))).map (fun a => (a, f a)) →
      lo ≤ w.1 ∧ w.1 < lo + n := by
    intro w hw
    obtain ⟨b, hb, rfl⟩ := List.mem_map.1 hw
    exact List.mem_range'_1.1 (List.mem_filter.1 hb).1
  by_cases h1 : a < lo
  · rw [Dram.read_append_left (fun w hw => by have := (List.mem_filter.1 hw).2; simp at this; omega),
      Dram.read_append_left (fun w hw => by have := hm w hw; omega),
      Dram.read_filter (fun x => by simpa using h1), if_neg (by omega)]
  · by_cases h2 : a < lo + n
    · rw [Dram.read_append_left (fun w hw => by have := (List.mem_filter.1 hw).2; simp at this; omega),
        Dram.read_append_right (fun w hw => by have := (List.mem_filter.1 hw).2; simp at this; omega),
        Dram.read_map f (fun a => decide (a < dramWords)),
        if_pos ⟨List.mem_range'_1.2 ⟨by omega, h2⟩, by simpa using ha⟩, if_pos ⟨by omega, h2⟩]
    · rw [List.append_assoc,
        Dram.read_append_right (fun w hw => by have := (List.mem_filter.1 hw).2; simp at this; omega),
        Dram.read_append_right (fun w hw => by have := hm w hw; omega),
        Dram.read_filter (fun x => by simp; omega), if_neg (by omega)]

/-! ### The canonical form -/

theorem Dram.wf_cons (a : Nat) (x : Sample) (m : Dram) :
    Dram.wf ((a, x) :: m) = true ↔
      a < dramWords ∧ x ≠ unlistedWord ∧ (∀ w, w ∈ m → a < w.1) ∧ Dram.wf m = true := by
  simp [Dram.wf, and_assoc]

/-- A part of a list in the form is in the form. -/
theorem Dram.wf_filter (m : Dram) (f : Nat × Sample → Bool) (h : Dram.wf m = true) :
    Dram.wf (m.filter f) = true := by
  induction m with
  | nil => rfl
  | cons w m ih =>
    obtain ⟨b, x⟩ := w
    obtain ⟨h1, h2, h3, h4⟩ := (Dram.wf_cons b x m).1 h
    by_cases hf : f (b, x) = true
    · rw [List.filter_cons_of_pos hf, Dram.wf_cons]
      exact ⟨h1, h2, fun w hw => h3 w (List.mem_filter.1 hw).1, ih h4⟩
    · rw [List.filter_cons_of_neg hf]
      exact ih h4

theorem Dram.erase_wf {m : Dram} (h : Dram.wf m = true) (a : Nat) : (m.erase a).wf = true :=
  Dram.wf_filter m _ h

theorem Dram.clear_wf {m : Dram} (h : Dram.wf m = true) (lo n : Nat) : (m.clear lo n).wf = true :=
  Dram.wf_filter m _ h

theorem Dram.mem_insert {m : Dram} {a : Nat} {x : Sample} {w : Nat × Sample} (h : w ∈ m.insert a x) :
    w = (a, x) ∨ w ∈ m := by
  induction m with
  | nil => simpa [Dram.insert] using h
  | cons v m ih =>
    obtain ⟨b, y⟩ := v
    unfold Dram.insert at h
    by_cases h1 : a < b
    · rw [if_pos h1] at h
      rcases List.mem_cons.1 h with h | h
      · exact .inl h
      · exact .inr h
    · rw [if_neg h1] at h
      by_cases h2 : a = b
      · rw [if_pos h2] at h
        rcases List.mem_cons.1 h with h | h
        · exact .inl h
        · exact .inr (List.mem_cons_of_mem _ h)
      · rw [if_neg h2] at h
        rcases List.mem_cons.1 h with h | h
        · exact .inr (by rw [h]; exact List.mem_cons_self)
        · rcases ih h with h | h
          · exact .inl h
          · exact .inr (List.mem_cons_of_mem _ h)

theorem Dram.insert_wf {m : Dram} (h : Dram.wf m = true) {a : Nat} (ha : a < dramWords) {x : Sample}
    (hx : x ≠ unlistedWord) : (m.insert a x).wf = true := by
  induction m with
  | nil => exact (Dram.wf_cons a x []).2 ⟨ha, hx, fun w hw => (List.not_mem_nil hw).elim, rfl⟩
  | cons v m ih =>
    obtain ⟨b, y⟩ := v
    obtain ⟨h1, h2, h3, h4⟩ := (Dram.wf_cons b y m).1 h
    unfold Dram.insert
    by_cases hab : a < b
    · rw [if_pos hab, Dram.wf_cons]
      refine ⟨ha, hx, fun w hw => ?_, h⟩
      rcases List.mem_cons.1 hw with hw | hw
      · rw [hw]; exact hab
      · exact Nat.lt_trans hab (h3 w hw)
    · rw [if_neg hab]
      by_cases hb : a = b
      · rw [if_pos hb, Dram.wf_cons]
        exact ⟨ha, hx, fun w hw => by rw [hb]; exact h3 w hw, h4⟩
      · rw [if_neg hb, Dram.wf_cons]
        refine ⟨h1, h2, fun w hw => ?_, ih h4⟩
        rcases Dram.mem_insert hw with hw | hw
        · rw [hw]; exact Nat.lt_of_le_of_ne (Nat.le_of_not_lt hab) (Ne.symm hb)
        · exact h3 w hw

/-- A write within the DRAM keeps the form. -/
theorem Dram.write_wf {m : Dram} (h : Dram.wf m = true) {a : Nat} (ha : a < dramWords) (x : Sample) :
    (m.write a x).wf = true := by
  unfold Dram.write
  split
  · exact Dram.erase_wf h a
  · next hx => exact Dram.insert_wf h ha hx

/-- A copy within the DRAM keeps the form (R134). -/
theorem Dram.copy_wf {m : Dram} (h : Dram.wf m = true) (src : Nat) {dst n : Nat} (hd : dst + n ≤ dramWords) :
    (m.copy src dst n).wf = true := by
  unfold Dram.copy
  have key : ∀ (l : List Nat) (m : Dram), Dram.wf m = true → (∀ i, i ∈ l → i < n) →
      Dram.wf (l.foldl (fun m i => Dram.write m (dst + i) (Dram.read m (src + i))) m) = true := by
    intro l
    induction l with
    | nil => intro m hm _; exact hm
    | cons i l ih =>
      intro m hm hl
      have hi : i < n := hl i List.mem_cons_self
      exact ih _ (Dram.write_wf hm (by omega) _) (fun j hj => hl j (List.mem_cons_of_mem _ hj))
  exact key _ m h (fun i hi => List.mem_range.1 hi)

/-- Writing around a ring within the DRAM keeps the form (R123). -/
theorem Dram.writeRing_wf {base len : Nat} (hl : 0 < len) (hd : base + len ≤ dramWords) (xs : List Sample) :
    ∀ {m : Dram} (i : Nat), Dram.wf m = true → (m.writeRing base len i xs).wf = true := by
  induction xs with
  | nil => intro m i h; exact h
  | cons x xs ih =>
    intro m i h
    have : i % len < len := Nat.mod_lt _ hl
    exact ih (i + 1) (Dram.write_wf h (by omega) x)

/-- The form, as a property of the words and of their order. -/
theorem Dram.wf_iff (m : Dram) : Dram.wf m = true ↔
    (∀ w, w ∈ m → w.1 < dramWords ∧ w.2 ≠ unlistedWord) ∧ m.Pairwise (fun v w => v.1 < w.1) := by
  induction m with
  | nil => simp [Dram.wf]
  | cons w m ih =>
    obtain ⟨b, x⟩ := w
    rw [Dram.wf_cons, ih, List.pairwise_cons, List.forall_mem_cons]
    tauto

/-- A filling keeps the form (R116). -/
theorem Dram.fill_wf {m : Dram} (h : Dram.wf m = true) (lo n : Nat) (f : Nat → Sample) :
    (m.fill lo n f).wf = true := by
  rw [Dram.wf_iff] at h ⊢
  obtain ⟨h1, h2⟩ := h
  have hk : ∀ w, w ∈ ((List.range' lo n).filter
      (fun a => decide (a < dramWords) && (f a != unlistedWord))).map (fun a => (a, f a)) →
      lo ≤ w.1 ∧ w.1 < lo + n ∧ w.1 < dramWords ∧ w.2 ≠ unlistedWord := by
    intro w hw
    obtain ⟨b, hb, rfl⟩ := List.mem_map.1 hw
    obtain ⟨hb1, hb2⟩ := List.mem_filter.1 hb
    have := List.mem_range'_1.1 hb1
    simp only [Bool.and_eq_true, decide_eq_true_eq, bne_iff_ne] at hb2
    exact ⟨this.1, this.2, hb2⟩
  have hl : ∀ w, w ∈ m.filter (fun w => decide (w.1 < lo)) → w.1 < lo := fun w hw => by
    simpa using (List.mem_filter.1 hw).2
  have hr : ∀ w, w ∈ m.filter (fun w => decide (lo + n ≤ w.1)) → lo + n ≤ w.1 := fun w hw => by
    simpa using (List.mem_filter.1 hw).2
  unfold Dram.fill
  refine ⟨fun w hw => ?_, ?_⟩
  · rcases List.mem_append.1 hw with hw | hw
    · rcases List.mem_append.1 hw with hw | hw
      · exact h1 w (List.mem_filter.1 hw).1
      · exact (hk w hw).2.2
    · exact h1 w (List.mem_filter.1 hw).1
  · rw [List.pairwise_append, List.pairwise_append]
    refine ⟨⟨h2.filter _, ?_, fun v hv w hw => ?_⟩, h2.filter _, fun v hv w hw => ?_⟩
    · rw [List.pairwise_map]
      exact (List.pairwise_lt_range' (step := 1)).filter _
    · have := hl v hv
      have := (hk w hw).1
      omega
    · have := hr w hw
      rcases List.mem_append.1 hv with hv | hv
      · have := hl v hv
        omega
      · have := (hk v hv).2.1
        omega

/-- POWER-ON lists no word. -/
theorem Dram.reset_wf : Dram.wf DelayState.reset.dram = true := rfl

end Sys2Proof.Machine
end

