-- ==== Sys2Proof/Laws/Ops.lean ====
section
/-! SUPPORT. What the shared operations do, said once: raising, completing, taking a slot, and the segment table. -/

namespace Sys2Proof.Machine
set_option Elab.async false

/-! ### Raising (R200) -/

/-- A raising on all ports raises the kind on each. -/
theorem State.raise_port (s : State) (k : EventKind) (d : EventDetail) (q : Port) :
    (s.raise k d).port q = { s.port q with events := (s.port q).events.raise k d } := by
  cases q <;> simp [State.raise, State.raiseOn, State.port_setPort_ne]

/-- A kind other than COMPLETION is pending after its raising. -/
theorem EventState.raise_pending (e : EventState) (k : EventKind) (d : EventDetail) (h : k ≠ .completion) :
    ((e.raise k d).kind k).pending = true := by
  cases k <;> first | rfl | exact absurd rfl h

/-- The detail of a raised kind has the bits raised. -/
theorem EventState.raise_detail (e : EventState) (k : EventKind) (d : EventDetail) (h : k ≠ .completion) :
    ((e.raise k d).kind k).detail = (e.kind k).detail.merge d := by
  cases k <;> first | rfl | exact absurd rfl h

/-! ### Slots and completions (R193, R194) -/

/-- The free slot is FREE, and every slot below it is not. -/
theorem State.freeSlot_some {s : State} {k : Fin 8} (h : s.freeSlot = some k) : s.slot k = none := by
  have := List.find?_some h
  simpa using this

/-- Without a free slot no slot is FREE. -/
theorem State.freeSlot_none {s : State} (h : s.freeSlot = none) (k : Fin 8) : s.slot k ≠ none := by
  have hk : k ∈ allSlots := by revert k; decide
  have := List.find?_eq_none.1 h k hk
  intro e
  simp [e] at this

/-- An operation that ends with room in its port's queue, no chain holding, posts its record and frees
its slot. -/
theorem State.complete_posts {s : State} {k : Fin 8} {b : SlotBody} (h : canPost s k b) (st : Status)
    (result : List Byte) :
    s.complete k st result =
      (s.setPort b.port { s.port b.port with
        completions := (s.port b.port).completions ++ [slotRecord k b st result] }).setSlot k none := by
  obtain ⟨h1, h2, h3⟩ := h
  have hr : s.hasRoom b.port = true := decide_eq_true h2
  unfold State.complete
  rw [h1]
  simp only [State.offer, hr, if_true, State.post]
  unfold State.endHold
  split
  · next hc _ => exact absurd (by simpa using hc) h3
  · rfl

/-! ### The segment table (R122) -/

theorem insertSegment_find (o : Fin 13) (g : Segment) (l : List Segment) (h : g.output ≠ o) :
    (insertSegment g l).find? (fun x => x.output == o) = l.find? (fun x => x.output == o) := by
  induction l with
  | nil => simp [insertSegment, h]
  | cons a l ih =>
    unfold insertSegment
    split
    · simp [List.find?_cons, h]
    · simp only [List.find?_cons, ih]

theorem insertSegment_find_self (g : Segment) (l : List Segment) (h : ∀ x, x ∈ l → x.output ≠ g.output) :
    (insertSegment g l).find? (fun x => x.output == g.output) = some g := by
  induction l with
  | nil => simp [insertSegment]
  | cons a l ih =>
    have ha : a.output ≠ g.output := h a List.mem_cons_self
    unfold insertSegment
    split
    · simp
    · simp only [List.find?_cons, beq_eq_false_iff_ne.2 ha]
      exact ih (fun x hx => h x (List.mem_cons_of_mem _ hx))

/-- The segment of an output after the segment of that output has been replaced. -/
theorem DelayState.segment_setSegment_self (d : DelayState) (g : Segment) :
    (d.setSegment g.output g).segment g.output = some g := by
  refine insertSegment_find_self g _ (fun x hx => ?_)
  simpa using (List.mem_filter.1 hx).2

/-- The segment of another output after the segment of an output has been replaced. -/
theorem DelayState.segment_setSegment_ne (d : DelayState) {o : Fin 13} (g : Segment) (h : o ≠ g.output) :
    (d.setSegment g.output g).segment o = d.segment o := by
  unfold DelayState.segment DelayState.setSegment
  simp only
  rw [insertSegment_find o g _ (Ne.symm h), List.find?_filter]
  congr 1
  funext x
  by_cases hx : x.output = o
  · simp [hx, h]
  · simp [hx]

/-- The segment of an output is that output's. -/
theorem DelayState.segment_output {d : DelayState} {o : Fin 13} {g : Segment} (h : d.segment o = some g) :
    g.output = o := by simpa using List.find?_some h

/-! ### The crossover filters (R102) -/

/-- A filter that runs over the first samples of a signal: its internal values after them, and each of its
outputs saturated. -/
theorem runFilter_signal (f : FilterStep) (start : FilterState) (x : Nat → Int) (n : Nat) :
    runFilter f start ((List.range n).map x) =
      (runInner f start x n, (List.range n).map (fun k => saturate (runOut f start x k))) := by
  unfold runFilter
  have h : (((List.range n).map x).foldl
      (fun (a : FilterState × Wave) y => ((f a.1 y).1, saturate (f a.1 y).2 :: a.2)) (start, [])) =
      (runInner f start x n, ((List.range n).map (fun k => saturate (runOut f start x k))).reverse) := by
    induction n with
    | zero => rfl
    | succ n ih =>
      simp only [List.range_succ, List.map_append, List.foldl_append, ih, List.reverse_append]
      rfl
  rw [h]
  simp

/-! ### Row tests (R116) -/

/-- After a row test the words of the row hold the test pattern, and every other word is as it was. -/
theorem State.testRow_read (s : State) (c : CheckRec) (a : Nat) (ha : a < dramWords) :
    (s.testRow c).delay.dram.read a =
      if rowWords * c.nextRow ≤ a ∧ a < rowWords * c.nextRow + rowWords
      then Config.testPattern s.freeCount a else s.delay.dram.read a :=
  Dram.read_fill _ _ _ _ _ ha

end Sys2Proof.Machine
end

