-- ==== Sys2Proof/Laws/Ports.lean ====
section
/-! SUPPORT. What the ports do with a command: a command taken at once is executed, answered, and nothing more. -/

namespace Sys2Proof.Machine

set_option Elab.async false

/-- Every command's own length passes the first test of R178. -/
theorem Cmd.ownLength_range (c : Cmd) : 4 ≤ c.ownLength ∧ c.ownLength ≤ 64 := by
  cases c <;> simp [Cmd.ownLength, Cmd.params]

theorem lengthOk_own (c : Cmd) : lengthOk c.ownLength c.ownLength = true := by
  have h := Cmd.ownLength_range c
  simp [lengthOk, h.1, h.2]

/-- A COMMAND transaction is the arrival of the bytes after its kind byte (R174, R206). -/
@[simp] theorem State.transact_command (s : State) (p : Port) (bytes : List Byte) :
    s.transact p (kindCommand :: bytes) = s.arriveBytes p bytes := rfl

/-- A RESPONSE transaction clocks the bytes of the last response out (R174, R206). -/
@[simp] theorem State.transact_response (s : State) (p : Port) (bytes : List Byte) :
    s.transact p (kindResponse :: bytes) = s.respond p bytes.length := rfl

/-- A transaction of neither kind changes nothing (R174). -/
theorem State.transact_other (s : State) (p : Port) (kind : Byte) (bytes : List Byte)
    (h1 : kind ≠ kindCommand) (h2 : kind ≠ kindResponse) : s.transact p (kind :: bytes) = s := by
  simp [State.transact, h1, h2]

/-- Every row of a command arrives at its port. -/
theorem exec_rowOf (p : Port) (h : FrameHead) (c : Cmd) (s : State) :
    exec (rowOf p h c) s = .next (s.arrive p h c) := by
  cases c <;> rfl

/-- The end of a frame: what `arm` and `drive` make of an answer. -/
theorem State.arm_drive_closed (s u : State) (p : Port) (h : FrameHead) (c : Cmd) (a : Answer)
    (hn : (u.port p).events.notifyOnPending = (s.port p).events.notifyOnPending)
    (ha : (s.port p).attention = none → (u.port p).attention = none) :
    (State.arm (u.reply p h c a) s p).drive p (List.replicate h.length 0xFF) = u.closed p h c a := by
  have e1 : ((u.reply p h c a).port p).attention = (u.port p).attention := by
    simp [State.reply, State.answer]
  have hr : ((s.port p).attention.isNone && ((u.reply p h c a).port p).attention.isSome) = false := by
    rw [e1]
    cases hs : (s.port p).attention with
    | none => simp [ha hs]
    | some w => simp
  unfold State.arm
  simp only [hr, Bool.not_false, Bool.and_true]
  cases hp : (s.port p).events.notifyOnPending <;> rw [hp] at hn
  · have he : { (u.port p).events with
        notifyEnable := (u.port p).events.notifyEnable || (u.port p).events.notifyOnPending,
        notifyOnPending := false } = (u.port p).events := by rw [hn, Bool.or_false, ← hn]
    simp only [State.drive, State.closed, PortRec.answered, State.reply, State.answer, he]
    simp
  · simp [State.drive, State.closed, PortRec.answered, State.reply, State.answer, State.setEvents, hn]

/-- A command taken at once, as no chain member: the block that owns it executes it, and the port
answers (R178, R179, R180). -/
theorem exec_taken {s u : State} {p : Port} {h : FrameHead} {c : Cmd} {a : Answer}
    (ht : taken s p h c) (hr : runCmd (unlinked p h) c s = (a, u))
    (hn : (u.port p).events.notifyOnPending = (s.port p).events.notifyOnPending)
    (ha : (u.port p).attention = none) : exec (rowOf p h c) s = .next (u.closed p h c a) := by
  rw [exec_rowOf]
  unfold taken at ht
  cases hsv : c.isService with
  | true =>
    rw [hsv, if_pos rfl] at ht
    obtain ⟨h1, h2, h3, h4⟩ := ht
    simp only [State.arrive, State.frame, h1, h3, lengthOk_own, State.admitAttention, h2, State.admitFrame, h4, hsv,
      linkSet, State.takeService, execute]
    have hx : ({ port := p, tag := h.tag, mark := .none } : Ctx) = unlinked p h := rfl
    simp only [hx, hr, ← h3]
    simpa using State.arm_drive_closed s u p h c a hn (fun _ => ha)
  | false =>
    rw [hsv] at ht
    obtain ⟨h1, h2, h3, h4, h5, h6⟩ := ht
    have hl : linkSet h = false := by simp [linkSet, h6]
    have hx : s.ctx p h = unlinked p h := by simp [State.ctx, unlinked, markOf, h3, hl]
    have hm : ∀ (v : State) st, v.moveChain p (unlinked p h).mark st = v := by
      intro v st; simp [State.moveChain, unlinked]
    simp only [State.arrive, State.frame, h1, h5, lengthOk_own, State.admitAttention, h2, State.admitFrame, h6, hsv,
      State.place, h4, h3, State.takeNow, hx, execute, hr, hm]
    simpa [← h5] using State.arm_drive_closed s u p h c a hn (fun _ => ha)

end Sys2Proof.Machine
end

