-- ==== Sys2Proof/Tests/Slice0.lean ====
section
/-! SUPPORT. The writer's own tests: ill-formed terms, frames and numbers worked out in the spec, one step each on small states, and a witness for the hypotheses of every statement. -/

open Sys2Proof Sys2Proof.Machine

namespace Sys2Proof.Tests

set_option Elab.async false
set_option synthInstance.maxSize 4096
set_option maxRecDepth 4096

/-! ### States to start from -/

/-- The part after POWER-ON with every port's attention acknowledged and the delay memory READY. -/
def quiet : State :=
  let f := fun r : PortRec => { r with attention := none, detail := none }
  let s := State.reset
  { s with ports := ⟨f s.ports.a, f s.ports.b, f s.ports.c⟩, delay := { s.delay with state := .ready } }

/-- A frame head of a given length with LINK clear, and one with LINK set. -/
def hd (n : Nat) : FrameHead := { length := n, tag := 0x2C, flags := 0 }
def hdLink (n : Nat) : FrameHead := { length := n, tag := 0x2C, flags := 1 }

def withZone (z : Zone) (f : ZoneRec → ZoneRec) (s : State) : State := s.setZone z (f (s.zone z))
def withPort (f : PortRec → PortRec) (s : State) : State := s.setPort .a (f (s.port .a))
def withOut (o : Fin 13) (f : OutputRec → OutputRec) (s : State) : State := s.setOut o (f (s.out o))
def withDelay (f : DelayState → DelayState) (s : State) : State := s.setDelay (f s.delay)
def withTuner (f : TunerRec → TunerRec) (s : State) : State := s.setTuner (f s.tuner)
def withDecoder (f : DecoderRec → DecoderRec) (s : State) : State := s.setDecoder (f s.decoder)

/-- A running slot of port A, and one that waits with a record. -/
def body (k : SlotKind) : SlotBody :=
  { kind := k, port := .a, tag := 5, target := none, mark := .none, inChain := false, waiting := none }
def record (n : Nat) : Completion :=
  { tag := BitVec.ofNat 8 n, code := 0x10, status := .done, slot := none, mark := .none, result := [],
    heldBack := false }
def waitingBody (n : Nat) : SlotBody := { body .zoneOn with waiting := some (record n, n) }
def withSlot (j : Nat) (b : SlotBody) (s : State) : State := s.setSlot (Fin.ofNat 8 j) (some b)
/-- Every slot is taken. -/
def slotsFull (s : State) : State := { s with slots := Vector.replicate 8 (some (body .zoneOn)) }

/-- Eight records, a full completion queue. -/
def eight : List Completion := [record 0, record 1, record 2, record 3, record 4, record 5, record 6, record 7]
def queued (c : Cmd) (flags : Byte) : QueuedCmd :=
  { head := { length := c.ownLength, tag := 9, flags := flags }, cmd := c }

/-- A test of the next state; false for a fault and a refusal. -/
def next (i : Instr) (s : State) (f : State → Bool) : Bool :=
  match exec i s with
  | .next t => f t
  | _ => false
/-- The status of the last response of port A. -/
def answer (t : State) : Option Status := (t.port .a).response.map (·.status)
def zoneOn (s : State) : State := withZone .main (fun r => { r with power := .on }) s
/-- A segment of one page at a page of its choice. -/
def seg (o : Nat) (b : Nat) : Segment :=
  { output := Fin.ofNat 13 o, base := b, count := 1, delay := 0, writePos := b * 256, change := none, move := none }
/-- A zone that is ON with its output O1 granted and its line held. -/
def playing : State :=
  withDelay (fun d => { d with segments := [seg 0 0] })
    (withOut 0 (fun r => { r with state := .granted, zone := some .main, role := some (.pos .fl) }) (zoneOn quiet))
/-- O1 and O3 play FL and C. -/
def duet : State :=
  withDelay (fun d => { d with segments := [seg 0 0, seg 2 8] })
    (withOut 2 (fun r => { r with state := .granted, zone := some .main, role := some (.pos .c) }) playing)
/-- Pages 0, 1 and all from `n` on are held, and row 1 is bad: with `n` at 14, pages 2, 3 and 8 to 13 are free. -/
def crowd (n : Nat) (s : State) : State :=
  withDelay (fun d => { d with
    badRows := [1], segments := [seg 0 0, seg 2 1, { seg 12 n with count := 1024 - n }] }) s
/-- A segment of four pages at page 60, two of which its move to page 0 has copied. -/
def copying : Segment := { seg 0 60 with count := 4, move := some ⟨0, .copy, 2⟩ }
/-- A silent block. -/
def silence : BlockAudio :=
  { inputs := [], tunerLeft := List.replicate 48 0, tunerRight := List.replicate 48 0 }

/-! ### Well-formedness: each check refuses an ill-formed term -/

theorem test_wf_short_frame : (Instr.zoneOn .a (hd 3) 0).wf = false := by decide
theorem test_wf_long_frame : (Instr.zoneOn .a (hd 65) 0).wf = false := by decide
theorem test_wf_bounds : (Instr.zoneOn .a (hd 4) 0).wf = true ∧ (Instr.zoneOn .a (hd 64) 0).wf = true := by decide
theorem test_wf_silent_block : (Instr.blockStart silence).wf = true := by decide
theorem test_wf_short_left :
    (Instr.blockStart { silence with tunerLeft := List.replicate 47 0 }).wf = false := by decide
theorem test_wf_long_right :
    (Instr.blockStart { silence with tunerRight := List.replicate 49 0 }).wf = false := by decide
theorem test_wf_short_channel :
    (Instr.blockStart { silence with inputs := [⟨0, .fl, [1, 2]⟩] }).wf = false := by decide
theorem test_wf_channel_twice :
    (Instr.blockStart { silence with
      inputs := [⟨0, .fl, List.replicate 48 1⟩, ⟨0, .fl, List.replicate 48 2⟩] }).wf = false := by decide
theorem test_wf_frame_own_length : frameWf (hd 5) (.zoneOn 0) = true ∧ frameWf (hd 6) (.zoneOn 0) = false := by decide
theorem test_wf_frame_reserved_flag :
    frameWf { length := 5, tag := 0, flags := 2 } (.zoneOn 0) = false := by decide

/-! ### Frames (section 11): bytes worked out from the spec -/

/-- The worked example of section 11: Set Volume for Z2 to −40, tag 0x2C. -/
theorem test_frame_set_volume :
    decodeFrame [0x07, 0x2C, 0x13, 0x00, 0x01, 0xFF, 0xD8] = some (hd 7, .setVolume 1 0xFFD8) := by decide
/-- Its answer: volume −50 becomes −40 with DONE. -/
theorem test_set_volume_answer :
    next (.commandFrameRefused .a [0x07, 0x2C, 0x13, 0x00, 0x01, 0xFF, 0xD8])
      (withZone .z2 (fun r => { r with power := .on, volume := -50 }) quiet)
      (fun t => (t.zone .z2).volume == -40 &&
        next (.responseTransaction .a 6) t (fun u => (u.port .a).dataOut == [0x00, 0x2C, 0x13, 0xFF, 0x00, 0x00])) =
      true := by decide +kernel
theorem test_frame_no_operation : decodeFrame [4, 1, 0x01, 0] = some (⟨4, 1, 0⟩, .noOperation) := by decide
theorem test_frame_push_override :
    decodeFrame [8, 2, 0x20, 1, 0x00, 0x0A, 0xFF, 0xE2] = some (⟨8, 2, 1⟩, .pushOverride 0 10 0xFFE2) := by decide
theorem test_frame_set_assignment :
    decodeFrame [8, 3, 0x30, 0, 0x06, 0x01, 0x01, 0x01] = some (⟨8, 3, 0⟩, .setAssignment 6 1 1 1) := by decide
theorem test_frame_clear_fault : decodeFrame [5, 4, 0x34, 0, 0x03] = some (⟨5, 4, 0⟩, .clearFault 3) := by decide
theorem test_frame_read_decoder :
    decodeFrame [7, 5, 0x41, 0, 0x01, 0x00, 0x13] = some (⟨7, 5, 0⟩, .readDecoder 1 19) := by decide
theorem test_frame_set_speaker :
    decodeFrame [10, 6, 0x50, 0, 0x02, 0x00, 0x01, 0x18, 0xFD, 0x01] =
      some (⟨10, 6, 0⟩, .setSpeaker 2 0 280 0xFD 1) := by decide
theorem test_frame_memory_start : decodeFrame [5, 7, 0x60, 0, 0x01] = some (⟨5, 7, 0⟩, .memoryStart 1) := by decide
theorem test_frame_tune :
    decodeFrame [7, 8, 0x70, 0, 0x00, 0x26, 0x48] = some (⟨7, 8, 0⟩, .tune 0 9800) := by decide
theorem test_frame_recall_station : decodeFrame [5, 9, 0x85, 0, 0x24] = some (⟨5, 9, 0⟩, .recallStation 36) := by decide
theorem test_frame_set_event_enable :
    decodeFrame [6, 10, 0x92, 0, 0x00, 0x0F] = some (⟨6, 10, 0⟩, .setEventEnable 15) := by decide
theorem test_frame_unknown : decodeFrame [4, 0, 0x05, 0] = none := by decide
theorem test_table_words_spell_nothing : decodeTableWord 8 0x10 = none := rfl

/-! ### Numbers worked out in the spec -/

/-- R71: the check of the nine bytes 0x31 to 0x39 is 0x29B1. -/
theorem test_crc : crc [0x31, 0x32, 0x33, 0x34, 0x35, 0x36, 0x37, 0x38, 0x39] = 0x29B1 := by decide +kernel
/-- The last row of R73's table: width 8, exponent 15, mantissa −128. -/
theorem test_mantissa : (mantissaSample 8 15 0x80).toInt = -256 := by decide +kernel
/-- R109 at −55, and the worked cases of Gain with dialogue level. -/
theorem test_gain_word : gainWord (-55) = 44218 := by decide +kernel
theorem test_output_sample :
    (outputSample 44218 false 1000000).toInt = 42170 ∧ (outputSample 44218 false (-1000000)).toInt = -42170 ∧
    (outputSample 4174456 true 8388607).toInt = -8388607 ∧
    (outputSample 1048576 true (-8388608)).toInt = 8388607 := by decide +kernel
/-- Fold with the centre absent, and the saturation of its sum. -/
theorem test_fold_sum :
    ((weighted [(4096, [2000000]), (2896, [1000000])]).headD 0) = 2707031 ∧
    ((weighted [(4096, [8000000]), (2896, [8000000])]).headD 0) = 8388607 := by decide +kernel
/-- A chain of folds: FL in FAULT, C and both subwoofers NONE. -/
theorem test_fold_chain :
    (foldCoef [.fr, .sl, .sr] .fr .fr, foldCoef [.fr, .sl, .sr] .fr .fl, foldCoef [.fr, .sl, .sr] .fr .c,
      foldCoef [.fr, .sl, .sr] .fr .lfe, foldCoef [.fr, .sr] .fr .sl) = (4096, 2048, 2896, 4344, 1448) := by
  decide +kernel
/-- Remote downmix: centre code 1 and surround code 2. -/
theorem test_downmix_coefficients : (centreCoef 1, surroundCoef 2) = (3446, 2048) := by decide
/-- The delays of the worked example of section 6.6. -/
theorem test_distance_delay :
    (distanceDelay 420 300, distanceDelay 420 280, distanceDelay 420 200, distanceDelay 420 220,
      distanceDelay 420 420) = (168, 196, 308, 280, 0) := by decide
theorem test_pages : (pagesFor 2088, pagesFor 1920, pagesFor 3048, pagesFor 0) = (9, 8, 13, 1) := by decide
/-- The grids of R139: the neighbours at the edges, and snapping down. -/
theorem test_grid_edges :
    (nextChannel .fm .nine .up 10800, nextChannel .fm .nine .down 8750, nextChannel .am .nine .up 522,
      snapDown .am .nine 530, snapDown .am .ten 537) = (8750, 10800, 531, 522, 530) := by decide

/-! ### One step of a command -/

theorem test_reset_refuses_with_attention :
    next (.noOperation .a (hd 4)) State.reset (fun t => answer t == some .attention) = true := by decide +kernel
theorem test_idle_queue : step quiet = .next quiet := rfl
theorem test_front_command :
    (match step { quiet with pending := [.minuteEvent, .powerOn] } with
      | .next t => t.minute.count == 1 && t.pending == [.powerOn]
      | _ => false) = true := by decide +kernel
theorem test_identify :
    next (.identify .a (hd 6) 24) quiet (fun t => (t.port .a).response.map (fun r => (r.status, r.data.length)) ==
      some (.done, 24)) = true := by decide +kernel
theorem test_zone_on :
    next (.zoneOn .a (hd 5) 1) quiet (fun t => (t.zone .z2).power == .waking && (t.zone .z2).opSlot == some 0 &&
      answer t == some .accepted && (t.out 5).zone == some .z2) = true := by decide +kernel
theorem test_wake_completion :
    next (.zoneOn .a (hd 5) 1) quiet (fun t => next (.wakeCompletion .z2) t (fun u => (u.zone .z2).power == .on &&
      (u.port .a).completions.length == 1 && u.slot 0 == none)) = true := by decide +kernel
theorem test_zone_standby_off :
    next (.zoneStandby .a (hd 5) 0) quiet (fun t => answer t == some .doneNoChange) = true := by decide +kernel
theorem test_step_volume_reads_signed :
    next (.stepVolume .a (hd 6) 0 0xEC) quiet (fun t => (t.zone .main).volume == -100) = true := by decide +kernel
theorem test_volume_clamps_to_max :
    next (.setVolume .a (hd 7) 0 0x0018) (withZone .main (fun r => { r with maxVolume := -20 }) quiet)
      (fun t => (t.zone .main).volume == -20) = true := by decide +kernel
theorem test_max_volume_lowers :
    next (.setMaxVolume .a (hd 7) 0 (BitVec.ofInt 16 (-100))) quiet
      (fun t => (t.zone .main).volume == -100 && (t.zone .main).maxVolume == -100) = true := by decide +kernel
theorem test_surround_for_remote_zone :
    next (.setSurroundMode .a (hd 6) 1 1) quiet (fun t => answer t == some .badParameter) = true := by decide +kernel
theorem test_push_override :
    next (.pushOverride .a (hd 8) 0 10 (BitVec.ofInt 16 (-30))) (zoneOn quiet)
      (fun t => (t.zone .main).volume == -30 && (t.zone .main).waiting == some (.input 10) &&
        (t.zone .main).stack.map (fun e => (e.source, e.volume, e.tag)) == [(.input 0, -80, 0x2C)]) = true := by
  decide +kernel
theorem test_pop_not_owner :
    next (.popOverride .a (hd 5) 0)
      (withZone .main (fun r => { r with power := .on, stack := [⟨.tuner, -40, true, .matrix, .b, 9⟩] }) quiet)
      (fun t => answer t == some .notOwner) = true := by decide +kernel
theorem test_assignment_taken_role :
    next (.setAssignment .a (hd 8) 10 1 0 0) quiet (fun t => answer t == some .badParameter &&
      ((t.port .a).detail.map (·.param)) == some 1) = true := by decide +kernel
theorem test_fault_line :
    next (.faultLineArrival 2) quiet (fun t => (t.out 2).state == .fault && (t.fltLine 2).active &&
      (t.port .b).events.protection.pending) = true := by decide +kernel
theorem test_clear_fault_still_active :
    next (.faultLineArrival 2) quiet (fun t => next (.clearFault .a (hd 5) 3) t
      (fun u => answer u == some .stillActive)) = true := by decide +kernel
theorem test_thermal_trip_quiets :
    next .thtArrival (zoneOn quiet) (fun t => t.outputs.latch && (t.zone .main).power == .quieting) = true := by
  decide +kernel
theorem test_lock_packed :
    next (.signalArrival 3 ⟨.packed, 0, 0⟩) quiet (fun t => next (.lockTimerExpiry 3) t
      (fun u => (u.input 3).state == .packed)) = true := by decide +kernel
theorem test_speaker_sub_size :
    next (.setSpeaker .a (hd 10) 10 1 300 0 0) quiet (fun t => answer t == some .badParameter) = true := by
  decide +kernel
theorem test_crossover : next (.setCrossover .a (hd 5) 100) quiet (fun t => t.mix.crossover == 100) = true := by
  decide +kernel
theorem test_memory_start :
    next (.memoryStart .a (hd 5) 1) (withDelay (fun d => { d with state := .uninit }) quiet)
      (fun t => t.delay.state == .initializing && answer t == some .accepted) = true := by decide +kernel
theorem test_full_check_counts_bad_rows :
    next (.fullRowTestEnd false) (withDelay (fun d => { d with
        state := .initializing, check := some ⟨.full, .rows, 17, 0, 0⟩ }) quiet)
      (fun t => t.delay.badRows == [17] && t.delay.check.map (·.nextRow) == some 18) = true := by decide +kernel
theorem test_seek :
    next (.seek .a (hd 5) 0) (withTuner (fun t => { t with frequency := 9800, state := .idle }) quiet)
      (fun t => t.tuner.frequency == 9805 && t.tuner.seek.map (·.start) == some 9800) = true := by decide +kernel
theorem test_region_snaps :
    next (.setRegion .a (hd 5) 1) (withTuner (fun t => { t with band := .am, frequency := 531, state := .idle }) quiet)
      (fun t => t.tuner.frequency == 530 && t.tuner.state == .settling) = true := by decide +kernel
theorem test_preset_out_of_range :
    next (.recallPreset .a (hd 5) 41) quiet (fun t => answer t == some .badParameter) = true := by decide +kernel
theorem test_notify_on :
    next (.notifyOn .a (hd 4)) quiet (fun t => (t.port .a).events.notifyOnPending &&
      !(t.port .a).events.notifyEnable) = true := by decide +kernel
theorem test_label_space :
    next (.labelSegment 2 true 0x39 0x07) (withTuner (fun t => { t with state := .idle, quality := 20 }) quiet)
      (fun t => t.tuner.label.pair2 == some (0x39, 0x20)) = true := by decide +kernel
theorem test_queue_head :
    next (.queueHeadTaken .a) (withPort (fun r => { r with inbound := [queued (.setMute 0 1) 0] }) quiet)
      (fun t => (t.zone .main).mute && (t.port .a).completions.map (fun c => (c.status, c.result)) ==
        [(.done, [0])]) = true := by decide +kernel
theorem test_chain_discards :
    next (.chainMemberDiscarded .a)
      (withPort (fun r => { r with chain := .broken, inbound := [queued (.setMute 0 1) 0] }) quiet)
      (fun t => (t.port .a).chain == .none && (t.port .a).completions.map (·.mark) == [.last]) = true := by
  decide +kernel
theorem test_port_reset_spares_others :
    next (.portReset .a) quiet (fun t => (t.port .a).prst && (t.port .b) == quiet.port .b &&
      (t.port .a).attention == some .portReset) = true := by decide +kernel

/-- R206: an absent mark is 0xFF; a FREE slot of Read Slots shows it. -/
theorem test_read_slots_free_mark :
    slotBytes 3 none = [3, 0, 0xFF, 0xFF, 0, 0xFF, 0xFF, 0xFF, 0xFF] := by decide
/-- R53: a starved output whose channel becomes idle enters HANDOVER on its way, and raises it. -/
theorem test_starved_reallocates_with_handover :
    next (.setSpeaker .a (hd 10) 2 2 300 0 0)
      (withOut 2 (fun r => { r with state := .starved, zone := some .main, role := some (.pos .c) })
        (withDelay (fun d => { d with starved := [2] }) (zoneOn quiet)))
      (fun t => (t.out 2).state == .idle &&
        ((t.port .b).events.kind .channel).detail.reasons &&& 1 == 1) = true := by decide +kernel
/-- R105: a switch-in clears what a move in COPY has copied. -/
theorem test_switch_in_clears_copied :
    next (.blockStart silence)
      (withDelay (fun d => { d with segments := [copying], dram := [(5, 7), (60 * 256 + 9, 8)] })
        (withZone .main (fun r => { r with switchIn := true }) playing))
      (fun t => t.delay.dram == []) = true := by decide +kernel

/-! ### Witnesses: for every statement, states and operands that meet its hypotheses -/

def okB {ε α : Type} : Except ε α → Bool
  | .ok _ => true
  | .error _ => false

/-- In a crowd no run of eight pages is free. -/
theorem crowd_breaks_runs (d : DelayState) (hr : d.badRows = [1])
    (hs : ∃ g, g ∈ d.segments ∧ g.base = 14 ∧ g.count = 1010) (b n : Nat) (hn : 8 ≤ n) :
    ∃ i, i < n ∧ d.pageFree (b + i) = false := by
  have bad : ∀ p, p / 4 = 1 → d.pageFree p = false := by
    intro p hp; simp [DelayState.pageFree, DelayState.pageBad, hr, hp]
  have high : ∀ p, 14 ≤ p → d.pageFree p = false := by
    intro p hp
    obtain ⟨g, hg, hb, hc⟩ := hs
    by_cases hlt : p < 1024
    · have : d.pageAllocated p = true := by
        simp only [DelayState.pageAllocated, List.any_eq_true]
        exact ⟨g, hg, by simp [Segment.hasPage, inPages, hb, hc, hp]; omega⟩
      simp [DelayState.pageFree, this]
    · simp [DelayState.pageFree, pageTotal, hlt]
  by_cases h4 : b ≤ 4
  · exact ⟨4 - b, by omega, bad _ (by omega)⟩
  · by_cases h8 : b < 8
    · exact ⟨0, by omega, bad _ (by omega)⟩
    · exact ⟨14 - b, by omega, high _ (by omega)⟩

/-- In a crowd a segment that needs eight pages more cannot be placed. -/
theorem crowd_refuses_changes (d : DelayState) (want : Fin 13 → Option Nat) (hr : d.badRows = [1])
    (hs : ∃ g, g ∈ d.segments ∧ g.base = 14 ∧ g.count = 1010)
    (g : Segment) (hg : g ∈ d.segments) (t : Nat) (hw : want g.output = some t) (ht : t ≠ g.delay)
    (hn : g.count + 8 ≤ pagesFor t) : ¬ ∃ d', changeGranted d want d' := by
  rintro ⟨d', -, hd⟩
  have pick : ∀ {R : Segment → Segment → Prop} {l l' : List Segment}, List.Forall₂ R l l' → g ∈ l → ∃ g', R g g' := by
    intro R l l' hr hm
    induction hr with
    | nil => cases hm
    | cons h1 _ ih => rcases List.mem_cons.1 hm with rfl | hm
                      · exact ⟨_, h1⟩
                      · exact ih hm
  obtain ⟨g', hg'⟩ := pick hd hg
  simp only [hw, if_neg ht] at hg'
  obtain ⟨c, -, hc⟩ := hg'
  have hmore := hc.2.2.2.2 (by omega)
  have broken : ∀ b n, 8 ≤ n → ¬ ∀ i, i < n → d.mayClaim d' want g.output (b + i) := by
    intro b n hn hrun
    obtain ⟨i, hi, hf⟩ := crowd_breaks_runs (d.withoutChanges want) hr (by
      obtain ⟨x, hx, hb, hc⟩ := hs
      refine ⟨_, List.mem_map.2 ⟨x, hx, rfl⟩, ?_, ?_⟩ <;> (split <;> assumption)) b n hn
    exact absurd (hrun i hi).1 (by simp [hf])
  by_cases hrun : ∀ i, i < pagesFor t - g.count → d.mayClaim d' want g.output (g.base + g.count + i)
  · exact broken _ _ (by omega) hrun
  · exact broken _ _ (by omega) (hmore.2 hrun).2.1

/-- What a wake asks for, as a list, in every state (O19). -/
theorem asks_for_list (s : State) (z : Zone) (dref : Option Nat) : ∃ reqs, s.asksFor z dref reqs := by
  let w := s.setZone z { s.zone z with power := .waking }
  let f : Fin 13 → Option (Fin 13 × Nat) := fun o =>
    if (s.out o).state = .idle then
      (w.grantRule o).bind (fun yr =>
        if yr.1 = z then some (o, (s.setDelay { s.delay with dref := dref }).totalDelay z yr.2) else none)
    else none
  have hf : ∀ o b, f o = some b → b.1 = o := by
    intro o b h
    simp only [f] at h
    split at h
    · obtain ⟨yr, -, h⟩ := Option.bind_eq_some_iff.1 h
      split at h
      · cases h; rfl
      · cases h
    · cases h
  refine ⟨(List.finRange 13).filterMap f, ?_, fun o n => ?_⟩
  · rw [List.pairwise_map, List.pairwise_filterMap]
    refine (by decide : (List.finRange 13).Pairwise (· < ·)).imp (fun {a b} hab x hx y hy => ?_)
    rw [hf _ _ hx, hf _ _ hy]
    exact hab
  · rw [List.mem_filterMap]
    constructor
    · rintro ⟨q, -, h⟩
      obtain rfl := hf _ _ h
      simp only [f] at h
      split at h
      · next hi =>
        obtain ⟨⟨y, r⟩, hg, h⟩ := Option.bind_eq_some_iff.1 h
        split at h
        · next hy =>
          dsimp only at hy
          subst hy
          cases h
          exact ⟨hi, r, hg, rfl⟩
        · cases h
      · cases h
    · rintro ⟨hi, r, hg, rfl⟩
      exact ⟨o, List.mem_finRange o, by simp [f, hi, w, hg]⟩

/-- Two segments that lie in order and apart, within the DRAM and with nothing pending, are in order. -/
theorem segments_ok_two (s : State) (a b : Segment) (hs : s.delay.segments = [a, b]) (ho : a.output ≠ b.output)
    (hb : s.delay.badRows = []) (hr : s.delay.state = .ready) (hc : s.delay.check = none)
    (h : ∀ g, g ∈ [a, b] → pagesFor g.delay ≤ g.count ∧ g.base + g.count ≤ 1024 ∧ 256 * g.base ≤ g.writePos ∧
      g.writePos < 256 * (g.base + g.count) ∧ g.change = none)
    (hm : b.move = none) (hma : ∀ m, a.move = some m → m.target + a.count ≤ a.base ∧ m.copied < a.count ∧
      ∃ c, s.delay.compaction = some c ∧ c.current = some a.output)
    (hab : a.base + a.count ≤ b.base) (hn : 0 < a.count) : s.segmentsOk := by
  obtain ⟨-, -, -, -, hca⟩ := h a (by simp)
  obtain ⟨-, -, -, -, hcb⟩ := h b (by simp)
  have hcl : ∀ p, a.claims p = true → p < a.base := by
    intro p hp
    cases e : a.move with
    | none => simp [Segment.claims, hca, e] at hp
    | some m =>
      have := hma m e
      simp [Segment.claims, hca, e, inPages] at hp
      omega
  refine ⟨by rw [hs]; simpa using ho, by rw [hs]; simp; omega, ?_, ?_, fun _ => hr, fun k => absurd hc k⟩
  · rw [hs]
    intro g hg
    obtain ⟨h1, h2, h3, h4, h5⟩ := h g hg
    refine ⟨h1, h2, h3, h4, fun p _ _ => by simp [DelayState.pageBad, hb], fun c hc => ?_, fun m hgm => ?_⟩
    · rw [h5] at hc; cases hc
    · rcases List.mem_cons.1 hg with rfl | hg
      · obtain ⟨e1, e2, e3⟩ := hma m hgm
        exact ⟨by omega, e2, e3⟩
      · obtain rfl := List.mem_singleton.1 hg
        rw [hm] at hgm; cases hgm
  · rw [hs]
    simp only [List.pairwise_cons, List.mem_singleton, forall_eq, List.not_mem_nil, false_implies, implies_true,
      List.Pairwise.nil, and_true]
    rintro p - ⟨h1, h2⟩
    have e2 : b.base ≤ p := by
      rcases h2 with h2 | h2
      · simp [Segment.hasPage, inPages] at h2; omega
      · simp [Segment.claims, hcb, hm] at h2
    rcases h1 with h1 | h1
    · simp [Segment.hasPage, inPages] at h1; omega
    · have := hcl p h1; omega

/-- MAIN plays D1, which is packed, and the decoder is bound to it. -/
def lent : State :=
  (withDecoder (fun d => { d with binding := some 0, state := .searching })
    (withZone .main (fun r => { r with power := .on, live := .input 0, status := .playing }) quiet)).setInput (digital 0)
      ⟨.packed, none, some 0, none, some ⟨.packed, 0, 0⟩⟩
/-- Z2 is in a power state and listens to the tuner, which is IDLE on its channel. -/
def heard (w : Power) : State :=
  withTuner (fun t => { t with state := .idle })
    (withZone .z2 (fun r => { r with power := w, live := .tuner, status := .playing }) quiet)
/-- Z2 plays through O6 alone. -/
def single : State :=
  withOut 5 (fun x => { x with state := .granted, zone := some .z2, role := some .z2l })
    (withZone .z2 (fun r => { r with power := .on }) quiet)
/-- A zone wakes, with its operation slot and perhaps a pending command. -/
def waking (z : Zone) (w : Option PendingPower) (s : State) : State := withSlot 0 (body .zoneOn)
  (withZone z (fun r => { r with power := .waking, opSlot := some 0, pendingPower := w }) s)
/-- A zone is in its relay stage, with its operation slot and perhaps a pending ON. -/
def relayStage (z : Zone) (w : Option PendingPower) (s : State) : State := withSlot 0 (body .zoneStandby)
  (withZone z (fun r => { r with
    power := .quieting, quietStage := some .relay, opSlot := some 0, pendingPower := w }) s)

/-- The derived state is as the model computes it. -/
def inOrder (s : State) : Bool :=
  s.decoder.binding == s.computedBinding && Zone.all.all (fun z => (s.zone z).status == s.statusOf (s.zone z).live) &&
  ((s.tuner.state == .parked) == !s.tunerActive) &&
  (s.tuner.state != .parked || (s.tuner.settle == none && s.tuner.seek == none && s.tuner.scan == none)) &&
  (s.tuner.op != none || (s.tuner.state != .seeking && s.tuner.state != .scanning))

theorem followed_of_inOrder {s : State} (h : inOrder s = true) : s.followed := by
  simp only [inOrder, Bool.and_eq_true, beq_iff_eq, List.all_eq_true] at h
  obtain ⟨⟨⟨⟨h1, h2⟩, h3⟩, h4⟩, h5⟩ := h
  refine s.followed_of h1 h2 ?_ (fun hp => ?_) (fun ho => ?_)
  · cases ha : s.tunerActive <;> simp [ha] at h3 <;> simp [h3]
  · simpa [hp, and_assoc] using h4
  · rcases ho with ho | ho <;> simpa [ho] using h5

/-- The no-output marks say what R51 has them say. -/
theorem noOutputMarked_of {s : State}
    (h : ∀ z, z ∈ ([.z2, .z3] : List Zone) → ((s.zone z).noOutput = true ↔
      ((s.zone z).power = .on ∧ ∀ o, (s.out o).grantedTo z = false))) : s.noOutputMarked := by
  intro z hz
  exact h z (by cases z <;> simp_all)

/-- States whose derived state is in order, for the clauses that start from one: at reset, in every power state, with
the decoder bound, with the tuner heard, and at each kind of step that such a clause is about. -/
theorem witness_followed : ∀ s, s ∈ [State.reset, quiet, zoneOn quiet, playing, lent, heard .on, heard .waking, single,
      waking .z2 none quiet, waking .z2 (some .standby) quiet, waking .main (some .standby) lent,
      waking .z2 none (heard .waking), relayStage .main none quiet, relayStage .main (some .on) quiet,
      withZone .z2 (fun r => { r with sleepTimer := 1 }) (heard .on),
      withZone .z2 (fun r => { r with sleepTimer := 1 }) (waking .z2 none (heard .waking)),
      withZone .main (fun r => { r with power := .quieting, stack := [⟨.tuner, -40, false, .direct, .a, 0⟩] }) quiet] →
    s.followed :=
  fun s hs => followed_of_inOrder (by revert s; decide +kernel)

/-- The steps from them that move the derived state: MAIN goes to QUIETING and loses the decoder; the tuner parks when
Z2 quiets, and settles when a zone that has it as its source wakes; D1 turns packed and binds. -/
theorem witness_followed_steps :
    takenAtOnce lent .a (hd 5) (.zoneStandby 0) ∧ (lent.zone .main).power = .on ∧ lent.freeSlot = some 0 ∧
    next (.zoneStandby .a (hd 5) 0) lent (fun t => t.decoder == decoderAnew none &&
      (t.zone .main).status == .unavailable && t.decoder.binding != lent.decoder.binding) = true ∧
    takenAtOnce (heard .on) .a (hd 5) (.zoneStandby 1) ∧
    next (.zoneStandby .a (hd 5) 1) (heard .on) (fun t => t.tuner == (heard .on).tuner.parkedNow &&
      t.tuner.state == .parked) = true ∧
    takenAtOnce quiet .a (hd 6) (.selectSource 2 12) ∧ quiet.tuner.state = .parked ∧
    next (.selectSource .a (hd 6) 2 12) (withZone .z3 (fun r => { r with power := .waking }) quiet) (fun t =>
      t.tunerHeard && t.tuner == quiet.tuner.unparked && t.tuner.settle == some 30) = true ∧
    (let locking := (zoneOn quiet).setInput (digital 0) ⟨.locking, none, none, some 20, some ⟨.packed, 0, 0⟩⟩;
      next (.lockTimerExpiry 0) locking (fun t => t.decoder == decoderAnew (some 0) &&
        t.decoder.state == .searching && (t.zone .main).status == .playing &&
        (t.port .c).events.decoder.detail.reasons == 8) = true) ∧
    next (.signalLoss 0) lent (fun t => t.decoder == decoderAnew none && t.decoder.state == .idle) = true := by
  unfold takenAtOnce; decide +kernel

/-- The precedence of R75: MAIN before Z2 before Z3, in WAKING and ON alone, and packed inputs alone. -/
theorem test_binding_precedence :
    let packed := fun (i : Fin 8) (s : State) => s.setInput (digital i) ⟨.packed, none, some 0, none, none⟩
    let plays := fun (z : Zone) (w : Power) (i : Fin 12) => withZone z (fun r => { r with power := w, live := .input i })
    let s := fun w => packed 1 (packed 2 (plays .main w 1 (plays .z2 .on 2 quiet)))
    (s .waking).bindingIs (some 1) ∧ (s .quieting).bindingIs (some 2) ∧
    (plays .main .on 0 (s .on)).bindingIs (some 2) ∧ (plays .z2 .standby 2 (s .standby)).bindingIs none ∧
    (plays .z3 .on 2 (plays .z2 .on 9 (s .standby))).bindingIs (some 2) := by
  simp only [State.bindingIs_iff]; decide +kernel

theorem witness_StepRunsFrontCommand :
    ({ quiet with pending := [.minuteEvent, .powerOn] } : State).pending = .minuteEvent :: [.powerOn] ∧
    quiet.pending = [] := ⟨rfl, rfl⟩

theorem witness_FrameDecodeEncode :
    (hd 7).length = (Cmd.setVolume 1 0xFFD8).ownLength ∧ (hd 4).length = Cmd.noOperation.ownLength ∧
    (hd 10).length = (Cmd.setSpeaker 2 0 280 0xFD 1).ownLength := by decide

theorem witness_FrameBytesAreTheCommand :
    (hd 4).length = Cmd.readDetail.ownLength ∧ (hd 6).length = (Cmd.setEventEnable 511).ownLength := by decide

theorem witness_FramesRefusedInOrder :
    ((withPort (fun r => { r with prst := true }) quiet).port .a).prst = true ∧ (quiet.port .a).prst = false ∧
    ¬ frameLengthOk [4, 0, 1] ∧ ¬ frameLengthOk [5, 0, 1, 0] ∧ frameLengthOk [4, 0, 1, 0] ∧
    (State.reset.port .a).attention = some .powerOn ∧ (quiet.port .a).attention = none ∧
    decodeCmd 5 [] = none ∧ frameLengthOk [4, 0, 1, 2] ∧ decodeCmd 1 [] = some .noOperation ∧
    frameLengthOk [4, 0, 0x96, 1] ∧ decodeCmd 0x96 [] = some .readCompletion ∧
    Cmd.readCompletion.isService = true ∧ frameLengthOk [4, 0, 3, 2] ∧ decodeCmd 3 [] = some .readDetail ∧
    (quiet.port .a).chain = .none ∧ (quiet.port .a).inbound = [] ∧ (hd 64).length ≠ Cmd.noOperation.ownLength ∧
    (hd 4).length ≠ (Cmd.zoneOn 0).ownLength := by
  unfold frameLengthOk; decide +kernel

theorem witness_CommandsArePlaced :
    let c := Cmd.zoneOn 0
    let q := queued .noOperation 0
    let s := fun (ch : ChainState) (qs : List QueuedCmd) (cs : List Completion) =>
      withPort (fun r => { r with chain := ch, inbound := qs, completions := cs }) quiet
    admitted (s .none [q, q, q, q] []) .a (hd 5) c ∧ ((s .none [q, q, q, q] []).port .a).inbound.length = 4 ∧
    admitted (s .open [q] []) .a (hdLink 5) c ∧ ((s .open [q] []).port .a).inbound = [q] ∧
    admitted (s .holding [] []) .a (hd 5) c ∧ ((s .holding [] []).port .a).chain = .holding ∧
    admitted (s .broken [q, q, q] []) .a (hd 5) c ∧ ((s .broken [q, q, q] []).port .a).inbound.length = 3 ∧
    admitted (s .broken [] eight) .a (hd 5) c ∧ 8 ≤ ((s .broken [] eight).port .a).completions.length ∧
    admitted (s .broken [] [record 1]) .a (hdLink 5) c ∧ admitted (s .broken [] [record 1]) .a (hd 5) c ∧
    ((s .broken [] [record 1]).port .a).chain = .broken := by
  unfold admitted; decide +kernel

theorem witness_ChainMovesWithMembers :
    let s := fun ch : ChainState => withPort (fun r => { r with chain := ch }) quiet
    admitted (s .open) .a (hdLink 4) .noOperation ∧ ((s .open).port .a).chain = .open ∧
    admitted (s .open) .a (hd 4) .noOperation ∧ admitted (s .none) .a (hdLink 5) (.zoneOn 3) ∧
    ((s .none).port .a).chain = .none ∧ ((s .none).port .a).inbound = [] ∧
    (runCmd { port := .a, tag := 0x2C, mark := .last } .noOperation (s .open)).1.status = .done ∧
    (runCmd { port := .a, tag := 0x2C, mark := .member } (.zoneOn 3) (s .none)).1.status = .badParameter ∧
    (let r := runCmd { port := .a, tag := 0x2C, mark := .last } (.zoneOn 1) (s .open);
      admitted (s .open) .a (hd 5) (.zoneOn 1) ∧ r.1.status = .accepted ∧ r.1.slot = some 0 ∧
      (r.2.slot 0).any (fun b => b.waiting == none) = true) ∧
    (let r := runCmd { port := .a, tag := 0x2C, mark := .member } (.zoneOn 1) (s .none);
      admitted (s .none) .a (hdLink 5) (.zoneOn 1) ∧ r.1.status = .accepted ∧ r.1.slot = some 0 ∧
      (r.2.slot 0).any (fun b => b.waiting == none) = true) := by
  unfold admitted; decide +kernel

/-- Members whose length is not their own, as the first and the last of a chain; and members whose operation ends at
once, its record posted or left waiting. -/
theorem witness_ChainMovesWithMembers_ends :
    let s := fun (ch : ChainState) (cs : List Completion) => withPort (fun r => { r with
      chain := ch, completions := cs }) quiet
    let ran := fun (m : ChainMark) (s : State) => runCmd { port := .a, tag := 0x2C, mark := m } .compactDelayMemory s
    admitted (s .none []) .a (hdLink 5) .noOperation ∧ (hdLink 5).length ≠ Cmd.noOperation.ownLength ∧
    admitted (s .open []) .a (hd 64) .noOperation ∧ (hd 64).length ≠ Cmd.noOperation.ownLength ∧
    ((s .open []).port .a).inbound = [] ∧
    admitted (s .none []) .a (hdLink 4) .compactDelayMemory ∧ admitted (s .open eight) .a (hd 4) .compactDelayMemory ∧
    (hd 4).length = Cmd.compactDelayMemory.ownLength ∧
    (ran .member (s .none [])).1.status = .accepted ∧ (ran .member (s .none [])).1.slot = some 0 ∧
    (ran .member (s .none [])).2.slot 0 = none ∧
    (ran .last (s .open eight)).1.slot = some 0 ∧
    ((ran .last (s .open eight)).2.slot 0).any (fun b => b.waiting.isSome) = true ∧
    next (.noOperation .a (hdLink 5)) (s .none []) (fun t => (t.port .a).chain == .broken &&
      (t.port .a).response.map (·.status) == some .badLength) = true ∧
    next (.compactDelayMemory .a (hdLink 4)) (s .none []) (fun t => (t.port .a).chain == .open) = true ∧
    next (.compactDelayMemory .a (hd 4)) (s .open eight) (fun t => (t.port .a).chain == .none) = true := by
  unfold admitted; decide +kernel

theorem witness_CompletionsMoveTheChain :
    let s := fun (ch : ChainState) (h : Option HoldRec) (cs : List Completion) =>
      withSlot 3 (body .zoneOn) (withPort (fun r => { r with chain := ch, hold := h, completions := cs }) quiet)
    (s .none none []).slot 3 = some (body .zoneOn) ∧ ((s .none none []).port .a).completions.length < 8 ∧
    (s .none none eight).slot 3 = some (body .zoneOn) ∧ 8 ≤ ((s .none none eight).port .a).completions.length ∧
    ((s .none none []).port .a).chain ≠ .holding ∧
    ((s .holding (some ⟨3, true⟩) []).port .a).hold = some ⟨3, true⟩ ∧
    ((s .holding (some ⟨3, false⟩) []).port .a).hold = some ⟨3, false⟩ ∧
    ((s .holding (some ⟨3, false⟩) []).port .a).chain = .holding ∧
    ((s .holding (some ⟨2, true⟩) eight).port .a).hold = some ⟨2, true⟩ ∧
    ((s .holding (some ⟨3, true⟩) eight).port .a).hold = some ⟨3, true⟩ ∧
    ((s .holding (some ⟨3, false⟩) eight).port .a).hold = some ⟨3, false⟩ ∧
    ¬ ((s .holding (some ⟨2, true⟩) []).port .a).hold = some ⟨3, true⟩ ∧
    (withSlot 5 (waitingBody 6) (s .none none eight)).slot 5 = some (waitingBody 6) ∧
    ((withSlot 5 (waitingBody 6) (s .none none eight)).complete 3 .done []).slot 3 =
      some { body .zoneOn with waiting := some (slotRecord 3 (body .zoneOn) .done [], 7) } ∧
    ((s .holding (some ⟨2, true⟩) []).complete 3 .done []).port .a =
      { (s .holding (some ⟨2, true⟩) []).port .a with completions := [slotRecord 3 (body .zoneOn) .done []] } := by
  decide +kernel

theorem witness_QueueHeadsTakenAndDiscarded :
    let q := queued (.setMute 0 1) 0
    let member := queued (.setMute 0 1) 1
    let long := queued (.zoneOn 1) 1
    let s := fun (ch : ChainState) (qs : List QueuedCmd) (cs : List Completion) =>
      withPort (fun r => { r with chain := ch, inbound := qs, completions := cs }) quiet
    let ran := fun (ch : ChainState) (m : ChainMark) (q : QueuedCmd) =>
      runCmd { port := .a, tag := 9, mark := m } q.cmd (s ch [] [])
    ((s .none [q] []).port .a).inbound = q :: [] ∧ q.head.flags.toNat < 2 ∧ q.head.length = q.cmd.ownLength ∧
    ((s .open [member, q] []).port .a).inbound = member :: [q] ∧ member.head.flags = 1 ∧
    member.head.flags.toNat < 2 ∧ member.head.length = member.cmd.ownLength ∧
    ((s .open [q] []).port .a).chain = .open ∧ ((s .none [q] []).port .a).completions.length < 8 ∧
    (ran .none .none q).1.status ≠ .accepted ∧ ((ran .none .none q).2.port .a).completions.length < 8 ∧
    (ran .open .member member).1.status ≠ .accepted ∧ ((ran .open .member member).2.port .a).completions.length < 8 ∧
    (ran .open .last q).1.status ≠ .accepted ∧ ((ran .open .last q).2.port .a).completions.length < 8 ∧
    long.head.flags = 1 ∧ long.head.length = long.cmd.ownLength ∧ (ran .none .member long).1.status = .accepted ∧
    ((s .none [] []).port .a).inbound = [] ∧ 8 ≤ ((s .none [q] eight).port .a).completions.length ∧
    ((s .broken [q] []).port .a).chain = .broken ∧ q.head.flags = 0 ∧
    ((s .holding [q] []).port .a).chain = .holding ∧ ((s .open [q] []).port .a).chain ≠ .broken := by decide +kernel

/-- Queue heads with a length not their own: an unlinked one, a member and a last member; and a head whose own
records fill the queue, as Zone On does with a pending slot's. -/
theorem witness_QueueHeadsTakenAndDiscarded_forms :
    let bad := fun flags : Byte => ({ head := { length := 9, tag := 9, flags := flags }, cmd := .setMute 0 1 } : QueuedCmd)
    let s := fun (ch : ChainState) (q : QueuedCmd) => withPort (fun r => { r with chain := ch, inbound := [q] }) quiet
    let on := queued (.zoneOn 1) 0
    let full := withPort (fun r => { r with inbound := [on], completions := eight.take 7 })
      (withSlot 3 (body .zoneStandby) (withZone .z2 (fun r => { r with
        power := .waking, pendingPower := some .standby, pendingSlot := some 3 }) quiet))
    let left := full.setPort .a { full.port .a with inbound := [] }
    let placed := left.setPort .a { left.port .a with completions := eight.take 7 ++ [record 9] }
    (bad 0).head.length ≠ (bad 0).cmd.ownLength ∧ (bad 1).head.flags = 1 ∧ (bad 0).head.flags.toNat < 2 ∧
    ((s .none (bad 0)).port .a).inbound = [bad 0] ∧ ((s .none (bad 0)).port .a).completions.length < 8 ∧
    next (.queueHeadTaken .a) (s .none (bad 0)) (fun t => !(t.zone .main).mute &&
      (t.port .a).completions.map (fun c => (c.status, c.result)) == [(.failed, [Status.badLength.code])]) = true ∧
    next (.queueHeadTaken .a) (s .open (bad 1)) (fun t => (t.port .a).chain == .broken) = true ∧
    next (.queueHeadTaken .a) (s .open (bad 0)) (fun t => (t.port .a).chain == .none) = true ∧
    (full.port .a).inbound = [on] ∧ (full.port .a).completions.length < 8 ∧ (full.port .a).chain = .none ∧
    (runCmd { port := .a, tag := 9, mark := .none } on.cmd left).1.status ≠ .accepted ∧
    8 ≤ ((runCmd { port := .a, tag := 9, mark := .none } on.cmd left).2.port .a).completions.length ∧
    (runCmd { port := .a, tag := 9, mark := .none } on.cmd placed).1.status ≠ .accepted := by decide +kernel

theorem witness_ResponseTransactions :
    ((withPort (fun r => { r with prst := true }) quiet).port .a).prst = true ∧ (quiet.port .a).prst = false ∧
    (quiet.port .a).response = none ∧
    ((withPort (fun r => { r with response := some ⟨.done, 1, 1, none, [7]⟩ }) quiet).port .a).response =
      some ⟨.done, 1, 1, none, [7]⟩ := by decide +kernel

theorem witness_NoOperationAndReadDetail :
    takenAtOnce quiet .a (hd 4) .noOperation ∧
    (State.reset.port .a).detail = some ⟨.attention, 0, 0, 0xFF, 0, .powerOn⟩ ∧
    (State.reset.port .a).prst = false ∧ (quiet.port .a).detail = none := by
  unfold takenAtOnce; decide +kernel

theorem witness_ReadCommandsAnswerAPrefix :
    taken quiet .a (hd 6) (.identify 4096) ∧ (readOf quiet .a (.identify 4096)).isSome = true ∧
    taken quiet .a (hd 6) (.readSlots 4097) ∧ (readOf quiet .a (.readSlots 4097)).isSome = true ∧
    (readOf quiet .a (.readZone 2 16)).isSome = true ∧ (readOf quiet .a (.readOverrideStack 0 3)).isSome = true ∧
    (readOf quiet .a (.readAssignment 102)).isSome = true ∧ (readOf quiet .a (.readProtection 10)).isSome = true ∧
    (readOf quiet .a (.readInput 0x80 60)).isSome = true ∧ (readOf quiet .a (.readDecoder 0 19)).isSome = true ∧
    (readOf quiet .a (.readSpeakers 69)).isSome = true ∧ (readOf quiet .a (.readSegmentTable 13)).isSome = true ∧
    (readOf quiet .a (.readTuner 26)).isSome = true ∧ (readOf quiet .a (.readPresets 40 13)).isSome = true ∧
    (readOf quiet .a (.readStationList 0 2)).isSome = true := by
  unfold taken serviceTaken takenAtOnce; decide +kernel

/-- Bytes worked out from sections 2, 6, 10 and 11: Z2 of the worked example at −40 (121), the stack from the top
down, a segment with a write position of three bytes and no hold, the input D1 among ALL, a waiting slot. -/
theorem test_read_fields :
    let z2 := withZone .z2 (fun r => { r with power := .on, volume := -40, status := .playing, stack :=
      [⟨.tuner, 24, true, .matrix, .b, 9⟩, ⟨.input 3, -161, false, .direct, .a, 7⟩] }) quiet
    (readOf z2 .a (.readZone 1 16)).map (·.1) =
      some [1, 2, 8, 0xFF, 0, 121, 185, 0, 0, 0, 0, 0xFF, 0, 2, 0xFF, 0xFF] ∧
    (readOf z2 .b (.readOverrideStack 1 17)).map (·.1) =
      some [1, 2, 1, 1, 3, 0, 0, 0, 0, 7, 0, 12, 185, 1, 2, 1, 9] ∧
    (readOf (withDelay (fun d => { d with segments := [{ seg 4 1000 with count := 2, delay := 300 }] }) quiet) .a
      (.readSegmentTable 28)).map (fun x => x.1.drop 12) =
      some [1, 5, 3, 0xE8, 2, 1, 0x2C, 3, 0xE8, 0, 0, 3, 0xE8, 2, 1, 0x2C] ∧
    (readOf lent .a (.readInput 0x80 60)).map (fun x => x.1.take 6) = some [0, 4, 0, 0, 0, 1] ∧
    slotBytes 7 (some (waitingBody 1)) = [7, 2, 0, 0, 5, 0xFF, 0xFF, 0, 0] := by decide +kernel

/-- Port A with a running slot and two that wait, the later in the lower slot. -/
def twoWaiting : State := withSlot 2 (waitingBody 1) (withSlot 1 (waitingBody 3) (withSlot 0 (body .seek) quiet))

theorem witness_PortResetReachesItsPortAlone :
    let l : List (Fin 8 × Completion × Nat) := [(2, record 1, 1), (1, record 3, 3)]
    (∀ x, x ∈ l ↔ ∃ b, twoWaiting.slot x.1 = some b ∧ b.port = .a ∧ b.waiting = some x.2) ∧
    l.Pairwise (fun x y => x.2.2 < y.2.2) ∧
    twoWaiting.slot 0 = some (body .seek) ∧ (body .seek).waiting = none ∧
    twoWaiting.slot 1 = some (waitingBody 3) ∧ (waitingBody 3).waiting ≠ none ∧ (body .seek).port = .a ∧
    (let other := { body .seek with port := Port.b }; (withSlot 7 other twoWaiting).slot 7 = some other) := by
  have all : ∀ k : Fin 8, twoWaiting.slot k =
      if k = 0 then some (body .seek) else if k = 1 then some (waitingBody 3)
      else if k = 2 then some (waitingBody 1) else none := by decide +kernel
  refine ⟨fun ⟨k, w⟩ => ?_, by decide, by decide +kernel⟩
  rw [all k]
  fin_cases k <;> simp [body, waitingBody, eq_comm]

theorem witness_ResetsReachEveryBlock :
    serviceTaken quiet .a (hd 4) .resetPart ∧
    ((quiet.setInput (digital 2) { quiet.input 2 with link := some ⟨.packed, 0, 0⟩ }).input (digital 2)).link =
      some ⟨.packed, 0, 0⟩ ∧ (quiet.input (digital 0)).link = none := by
  unfold serviceTaken; decide +kernel

theorem witness_CompletionsAreRead :
    let s := withSlot 1 (waitingBody 0) quiet
    (s.port .a).completions.length < 8 ∧ s.slot 1 = some (waitingBody 0) ∧ (waitingBody 0).waiting = some (record 0, 0) ∧
    (∀ j : Fin 8, j ≠ 1 → s.slot j = none) ∧ serviceTaken s .a (hd 4) .readCompletion ∧
    (s.port .a).completions = [] ∧
    serviceTaken (withPort (fun r => { r with completions := eight }) s) .a (hd 4) .readCompletion ∧
    ((withPort (fun r => { r with completions := eight }) s).port .a).completions = record 0 :: eight.drop 1 ∧
    (eight.drop 1).length = 7 ∧ (∀ k : Fin 8, quiet.slot k = none) := by
  unfold serviceTaken; decide +kernel

theorem witness_AbortOperationTests :
    let held := fun k : SlotKind => withSlot 7 (body k) quiet
    serviceTaken quiet .a (hd 5) (.abortOperation 8) ∧ serviceTaken quiet .a (hd 5) (.abortOperation 7) ∧
    quiet.slot 7 = none ∧ (held .seek).slot 7 = some (body .seek) ∧
    serviceTaken (held .seek) .b (hd 5) (.abortOperation 7) ∧
    (withSlot 7 (waitingBody 1) quiet).slot 7 = some (waitingBody 1) ∧
    serviceTaken (withSlot 7 (waitingBody 1) quiet) .a (hd 5) (.abortOperation 7) ∧
    (held .zoneOn).slot 7 = some (body .zoneOn) ∧
    (let s := withDelay (fun d => { d with compaction := some ⟨7, 0, [], none, 0, false⟩ }) (held .compact);
      s.delay.compaction = some ⟨7, 0, [], none, 0, false⟩ ∧ s.slot 7 = some (body .compact)) ∧
    (let s := withDelay (fun d => { d with compaction := some ⟨7, 0, [], none, 0, true⟩ }) (held .compact);
      s.delay.compaction = some ⟨7, 0, [], none, 0, true⟩) ∧
    (let s := withDelay (fun d => { d with check := some ⟨.full, .rows, 3, 0, 7⟩ }) (held .memoryStart);
      s.delay.check = some ⟨.full, .rows, 3, 0, 7⟩ ∧ canPost s 7 (body .memoryStart)) ∧
    (let s := withTuner (fun t => { t with op := some ⟨.seek, 7, .a, .fm, 0, 0⟩, seek := some ⟨.up, 8750, 25⟩ })
        (held .seek);
      s.tuner.op = some ⟨.seek, 7, .a, .fm, 0, 0⟩ ∧ s.tuner.seek = some ⟨.up, 8750, 25⟩ ∧
      canPost s 7 (body .seek)) ∧
    (let s := withTuner (fun t => { t with op := some ⟨.scan, 7, .a, .am, 2, 1⟩ }) (held .scan);
      s.tuner.op = some ⟨.scan, 7, .a, .am, 2, 1⟩ ∧ canPost s 7 (body .scan)) := by
  unfold serviceTaken canPost; decide +kernel

theorem witness_EventEnablesAndNotify :
    let armed := withPort (fun r => { r with events := { r.events with notifyEnable := true } }) quiet
    let flagged := withPort (fun r => { r with events := { r.events with notifyOnPending := true } }) quiet
    serviceTaken quiet .a (hd 6) (.setEventEnable 512) ∧ serviceTaken quiet .a (hd 6) (.setEventEnable 0) ∧
    (0 : Half) = (quiet.port .a).events.enable ∧ serviceTaken quiet .a (hd 6) (.setEventEnable 511) ∧
    (511 : Half) ≠ (quiet.port .a).events.enable ∧ serviceTaken quiet .a (hd 4) .notifyOff ∧
    (quiet.port .a).events.notifyOnPending = false ∧ serviceTaken armed .a (hd 4) .notifyOn ∧
    (armed.port .a).events.notifyEnable = true ∧ (armed.port .a).events.notifyOnPending = false ∧
    serviceTaken quiet .a (hd 4) .notifyOn ∧ (quiet.port .a).events.notifyEnable = false ∧
    serviceTaken flagged .a (hd 4) .notifyOn ∧ (flagged.port .a).events.notifyOnPending = true := by
  unfold serviceTaken; decide +kernel

theorem witness_FetchEventTakesTheFirst :
    let s := quiet.raise .zone { EventDetail.zero with zones := 2 }
    serviceTaken quiet .a (hd 5) (.fetchEvent 2) ∧ serviceTaken quiet .a (hd 5) (.fetchEvent 1) ∧
    (quiet.port .a).pendingSet = 0 ∧ serviceTaken s .a (hd 5) (.fetchEvent 1) ∧
    (s.port .a).isPending .zone = true ∧ (s.port .a).isPending .protection = false ∧
    (s.port .a).isPending .completion = false := by
  unfold serviceTaken; decide +kernel

theorem witness_PeekAndRaiseEvents :
    serviceTaken quiet .a (hd 4) .peekEvents ∧ serviceTaken quiet .a (hd 5) (.raiseEvent 10) ∧
    serviceTaken quiet .a (hd 5) (.raiseEvent 0) ∧ serviceTaken quiet .a (hd 5) (.raiseEvent 2) ∧
    serviceTaken quiet .a (hd 5) (.raiseEvent 9) ∧ EventKind.memory.priority = (9 : Byte).toNat ∧
    serviceTaken quiet .a (hd 5) (.raiseEvent 1) ∧ EventKind.protection.priority = (1 : Byte).toNat := by
  unfold serviceTaken; decide +kernel

theorem witness_ZoneOnTestsAndWakes :
    takenAtOnce quiet .a (hd 5) (.zoneOn 2) ∧ zoneOf 2 = some .z3 ∧ (quiet.zone .z3).power = .standby ∧
    quiet.outputs.latch = false ∧ quiet.delay.state = .ready ∧ quiet.delay.compaction = none ∧
    quiet.freeSlot = some 0 ∧ okB (quiet.wakeRequest .z3) = true ∧ takenAtOnce quiet .a (hd 5) (.zoneOn 3) ∧
    ({ quiet with outputs := { quiet.outputs with latch := true } } : State).outputs.latch = true ∧
    (withDelay (fun d => { d with state := .initializing }) quiet).delay.state = .initializing ∧
    (withDelay (fun d => { d with state := .fault }) quiet).delay.state = .fault ∧
    (slotsFull quiet).freeSlot = none ∧
    okB ((crowd 2 quiet).wakeRequest .z2) = false := by
  unfold takenAtOnce; decide +kernel

/-- An IDLE output and one GRANTED elsewhere, both given to a zone that wakes. -/
theorem witness_ZoneOnTestsAndWakes_grants :
    let lent := withOut 5 (fun r => { r with state := .granted, zone := some .z2, role := some (.z2l) })
      (withZone .z2 (fun r => { r with power := .on }) quiet)
    let w := lent.setZone .main { lent.zone .main with power := .waking }
    takenAtOnce lent .a (hd 5) (.zoneOn 0) ∧ okB (lent.wakeRequest .main) = true ∧
    (∀ o, (lent.out o).state = .starved → lent.delay.segment o = none) ∧
    w.grantRule 0 = some (.main, .pos .fl) ∧ (lent.out 0).state = .idle ∧
    w.grantRule 5 = some (.main, .pos .bl) ∧ (lent.out 5).state = .granted ∧ (lent.out 5).zone ≠ some .main := by
  unfold takenAtOnce; decide +kernel

theorem witness_ZoneOnTestsAndWakes_request :
    (∃ reqs, quiet.asksFor .main (some 300) reqs) ∧ quiet.wakeDref .main (some 300) ∧
    quiet.wakeDref .z2 none := by
  refine ⟨asks_for_list _ _ _, ⟨fun h => absurd rfl h, fun _ => ⟨300, rfl, fun p _ => ?_, .inr ⟨.fl, ⟨0, ?_, ?_⟩, ?_⟩⟩⟩,
    ⟨fun _ => rfl, fun h => by cases h⟩⟩
  · cases p <;> decide +kernel
  all_goals decide +kernel

theorem witness_PowerCommandsInTransition :
    let z := fun (p : Power) (w : Option PendingPower) =>
      withZone .main (fun r => { r with power := p, pendingPower := w }) quiet
    takenAtOnce (z .on none) .a (hd 5) (.zoneOn 0) ∧ zoneOf 0 = some .main ∧ ((z .on none).zone .main).power = .on ∧
    ((z .waking none).zone .main).power = .waking ∧ ((z .waking none).zone .main).pendingPower = none ∧
    ((z .quieting (some .on)).zone .main).pendingPower = some .on ∧
    ((z .quieting none).zone .main).power = .quieting ∧ (z .quieting none).outputs.latch = false ∧
    (z .quieting none).freeSlot = some 0 ∧ (slotsFull (z .quieting none)).freeSlot = none ∧
    takenAtOnce (z .waking (some .standby)) .a (hd 5) (.zoneStandby 0) ∧
    ((z .waking (some .standby)).zone .main).pendingPower = some .standby ∧
    takenAtOnce (slotsFull (z .on none)) .a (hd 5) (.zoneStandby 0) := by
  unfold takenAtOnce; decide +kernel

theorem witness_PendingCommandsAreRemoved :
    let z := fun (p : Power) (w : PendingPower) (k : Option (Fin 8)) => withSlot 1 (body .zoneStandby)
      (withZone .main (fun r => { r with power := p, pendingPower := some w, pendingSlot := k }) quiet)
    zoneOf 0 = some .main ∧ takenAtOnce (z .waking .standby none) .a (hd 5) (.zoneOn 0) ∧
    ((z .waking .standby none).zone .main).pendingPower = some .standby ∧
    ((z .waking .standby none).zone .main).pendingSlot = none ∧
    takenAtOnce (z .quieting .on (some 1)) .a (hd 5) (.zoneStandby 0) ∧
    ((z .quieting .on (some 1)).zone .main).power = .quieting ∧
    ((z .quieting .on (some 1)).zone .main).pendingSlot = some 1 ∧
    (z .quieting .on (some 1)).slot 1 = some (body .zoneStandby) ∧
    ((z .quieting .on (some 1)).port .a).completions.length < 8 ∧
    ((z .quieting .on (some 1)).port .a).chain ≠ .holding := by
  unfold takenAtOnce; decide +kernel

theorem witness_ZoneStandbyQuiets :
    takenAtOnce (zoneOn quiet) .a (hd 5) (.zoneStandby 0) ∧ ((zoneOn quiet).zone .main).power = .on ∧
    (zoneOn quiet).freeSlot = some 0 ∧ takenAtOnce playing .a (hd 5) (.zoneStandby 0) ∧
    (playing.out 0).grantedTo .main = true ∧ (∀ o, (playing.out o).grantedTo .main = true → (playing.gain o).current = -161) ∧
    ((playing.setGain 0 { playing.gain 0 with current := 24 }).gain 0).current ≠ -161 := by
  unfold takenAtOnce; decide +kernel

theorem witness_WakesComplete :
    let z := fun w : Option PendingPower => withSlot 0 (body .zoneOn)
      (withZone .z2 (fun r => { r with power := .waking, opSlot := some 0, pendingPower := w }) quiet)
    (quiet.zone .z2).power ≠ .waking ∧ ((z none).zone .z2).power = .waking ∧
    ((z none).zone .z2).pendingPower ≠ some .standby ∧ ((z none).zone .z2).opSlot = some 0 ∧
    canPost (z none) 0 (body .zoneOn) ∧ canPost (z (some .standby)) 0 (body .zoneOn) ∧
    ((z (some .standby)).zone .z2).pendingPower = some .standby ∧ (z (some .standby)).allSilent .z2 ∧
    (let up := withZone .main (fun r => { r with power := .waking, pendingPower := some .standby })
        (playing.setGain 0 { playing.gain 0 with current := -160 });
      (up.zone .main).power = .waking ∧ (up.zone .main).opSlot = none ∧ ¬ up.allSilent .main ∧
      (up.out 0).grantedTo .main = true) := by
  unfold canPost; decide +kernel

/-- A remote zone that enters ON with no output, one that loses its last, and one that wakes into a pending STANDBY;
the marks are in order before each step. -/
theorem witness_WakesComplete_noOutput :
    (∀ s, s ∈ [quiet, waking .z2 none quiet, waking .z2 (some .standby) quiet, single] → s.noOutputMarked) ∧
    ((waking .z2 none quiet).zone .z2).noOutput = false ∧
    (∀ o, ((waking .z2 none quiet).out o).grantedTo .z2 = false) ∧
    (∀ o, ((waking .z2 (some .standby) quiet).out o).grantedTo .z2 = false) ∧
    ¬ (waking .z2 none quiet).noOutputIs .z2 ∧ ¬ single.noOutputIs .z2 ∧
    next (.wakeCompletion .z2) (waking .z2 none quiet) (fun t => decide (t.noOutputIs .z2) &&
      (t.zone .z2).noOutput && (t.port .b).events.channel.detail.reasons == 4) = true ∧
    next (.wakeCompletion .z2) (waking .z2 (some .standby) quiet) (fun t => !(t.zone .z2).noOutput &&
      (t.port .b).events.channel.detail.reasons == 4) = true ∧
    next (.faultLineArrival 5) single (fun t => decide (t.noOutputIs .z2) && (t.zone .z2).noOutput &&
      (t.port .c).events.channel.detail.reasons == 4 && (t.port .c).events.channel.detail.zones == 2) = true := by
  refine ⟨fun s hs => noOutputMarked_of ?_, ?_⟩
  · revert s; decide +kernel
  · unfold State.noOutputIs; decide +kernel

theorem witness_RelayStagesEndInStandby :
    let z := fun w : Option PendingPower => withSlot 1 (body .zoneOn)
      (withOut 0 (fun r => { r with state := .granted, zone := some .main, role := some (.pos .fl) })
        (withZone .main (fun r => { r with power := .quieting, quietStage := some .relay, pendingPower := w,
                                           pendingSlot := w.map (fun _ => 1)
                                           stack := [⟨.tuner, -40, true, .matrix, .b, 9⟩] }) quiet))
    let latched := let s := z (some .on); s.setOutputs { s.outputs with latch := true }
    let memory := fun (m : MemoryState) => withDelay (fun d => { d with state := m }) (crowd 2 (z (some .on)))
    ((z none).zone .main).power = .quieting ∧ ((z none).zone .main).quietStage = some .relay ∧
    ((z none).zone .main).pendingPower ≠ some .on ∧ ((z none).out 0).heldBy .main = true ∧
    ⟨.tuner, -40, true, .matrix, .b, 9⟩ ∈ ((z none).zone .main).stack ∧
    ((z (some .on)).zone .main).pendingPower = some .on ∧
    ((z (some .on)).zone .main).pendingSlot = some 1 ∧ canPost ((z (some .on)).toStandby .main) 1 (body .zoneOn) ∧
    (latched.toStandby .main).outputs.latch = true ∧ ((z (some .on)).toStandby .main).outputs.latch = false ∧
    ((memory .initializing).toStandby .main).delay.state = .initializing ∧
    ((z (some .on)).toStandby .main).delay.compaction = none ∧
    ((memory .uninit).toStandby .main).delay.state = .uninit ∧
    ((z (some .on)).toStandby .main).delay.state = .ready ∧
    okB (((memory .ready).toStandby .main).wakeRequest .main) = false ∧
    okB (((z (some .on)).toStandby .main).wakeRequest .main) = true ∧
    ¬ ((quiet.zone .main).power = .quieting ∧ (quiet.zone .main).quietStage = some .relay) ∧
    (let op := withSlot 0 (body .zoneStandby) (withZone .main (fun r => { r with opSlot := some 0 }) (z none));
      let compacting := withDelay (fun d => { d with compaction := some ⟨3, 0, [], none, 0, false⟩ }) op;
      op.delay.compaction = none ∧ canPost op 0 (body .zoneStandby) ∧ (op.zone .main).opSlot = some 0 ∧
      (compacting.delay.compaction.map (·.slot)) = some 3 ∧ compacting.slot 0 = some (body .zoneStandby)) := by
  unfold canPost; decide +kernel

theorem witness_MinuteEventsCountDown :
    let z := fun (p : Power) (n : Nat) => withZone .z3 (fun r => { r with power := p, sleepTimer := n }) quiet
    ((z .on 1).zone .z3).sleepTimer = 1 ∧ ((z .on 1).zone .z3).power = .on ∧
    ((z .waking 1).zone .z3).power = .waking ∧ ((z .waking 1).zone .z3).pendingPower = none ∧
    ((z .on 120).zone .z3).sleepTimer ≠ 1 ∧ ((z .on 0).zone .z3).sleepTimer = 0 := by decide +kernel

theorem witness_LayersOfPorts :
    let e := fun p : Port => (⟨.tuner, -40, false, .direct, p, 0⟩ : OverrideEntry)
    [e .b, e .a].getLast? = some (e .a) ∧ (e .a).port = .a ∧ [e .a, e .b][0]? = some (e .a) ∧
    0 + 1 < [e .a, e .b].length ∧ (∀ j : Fin 2, 0 < j.val → ([e .a, e .b][j]).port ≠ .a) ∧
    [e .b] ≠ [] ∧ (e .b).port ≠ .a := by decide +kernel

theorem witness_LayeredChangesAreDeferred :
    let s := withZone .main (fun r => { r with stack := [⟨.tuner, -40, false, .direct, .b, 0⟩] }) quiet
    zoneOf 0 = some .main ∧ layerOf (s.zone .main).stack .a = some 0 ∧
    takenAtOnce s .a (hd 6) (.selectSource 0 12) ∧ sourceOf 12 = some .tuner ∧
    takenAtOnce s .a (hd 7) (.setVolume 0 0xFF60) ∧ takenAtOnce s .a (hd 6) (.stepVolume 0 20) ∧
    takenAtOnce s .a (hd 6) (.setMute 0 1) ∧ takenAtOnce s .a (hd 6) (.setSurroundMode 0 3) ∧
    surroundOf 3 = some .allStereo ∧ (20 : Byte) ≠ 0 ∧ (20 : Byte).toInt ≤ 20 ∧ (1 : Byte).toNat < 2 := by
  unfold takenAtOnce; decide +kernel

theorem witness_LiveSettings :
    layerOf (quiet.zone .main).stack .a = none ∧ takenAtOnce quiet .a (hd 7) (.setVolume 0 24) ∧
    takenAtOnce quiet .a (hd 6) (.stepVolume 0 0xEC) ∧ (0xEC : Byte).toInt = -20 ∧
    takenAtOnce quiet .a (hd 6) (.setMute 0 0) ∧ takenAtOnce quiet .a (hd 6) (.setSurroundMode 0 0) ∧
    surroundOf 0 = some .direct ∧ takenAtOnce (zoneOn quiet) .a (hd 6) (.selectSource 0 0) ∧
    sourceOf 0 = some (.input 0) ∧ ((zoneOn quiet).zone .main).power = .on ∧
    layerOf ((zoneOn quiet).zone .main).stack .a = none ∧ takenAtOnce quiet .a (hd 6) (.selectSource 0 12) ∧
    (quiet.zone .main).power ≠ .on ∧ sourceOf 12 = some .tuner ∧ (quiet.zone .main).live ≠ .tuner := by
  unfold takenAtOnce; decide +kernel

theorem witness_SettingsRefuseBadParameters :
    3 ≤ (3 : Byte).toNat ∧ takenAtOnce quiet .a (hd 6) (.selectSource 3 0) ∧
    takenAtOnce quiet .a (hd 7) (.setVolume 3 0) ∧ takenAtOnce quiet .a (hd 8) (.pushOverride 3 0 0) ∧
    takenAtOnce quiet .a (hd 5) (.popOverride 3) ∧ takenAtOnce quiet .a (hd 7) (.readZone 3 16) ∧
    (2 : Byte).toNat < 3 ∧ 13 ≤ (13 : Byte).toNat ∧ takenAtOnce quiet .a (hd 6) (.selectSource 2 13) ∧
    takenAtOnce quiet .a (hd 8) (.pushOverride 2 13 0) ∧ takenAtOnce quiet .a (hd 6) (.stepVolume 2 21) ∧
    20 < (21 : Byte).toInt ∧ (0xEB : Byte).toInt < -20 ∧ takenAtOnce quiet .a (hd 6) (.setMute 2 2) ∧
    takenAtOnce quiet .a (hd 6) (.setSurroundMode 1 0) ∧ takenAtOnce quiet .a (hd 6) (.setSurroundMode 0 4) := by
  unfold takenAtOnce; decide +kernel

theorem witness_SetMaxVolumeLowersVolumes :
    takenAtOnce quiet .a (hd 7) (.setMaxVolume 0 24) ∧ zoneOf 0 = some .main ∧
    max (-160) (min (24 : Half).toInt 24) = (quiet.zone .main).maxVolume ∧
    takenAtOnce quiet .a (hd 7) (.setMaxVolume 0 0xFF60) ∧
    max (-160) (min (0xFF60 : Half).toInt 24) = -160 := by
  unfold takenAtOnce; decide +kernel

/-- The total delays of `s` with another lip sync in MAIN. -/
def lipDelays (s : State) (ms : Nat) : Fin 13 → Option Nat :=
  s.newDelay (s.setZone .main { s.zone .main with lipSync := ms }) .main

theorem witness_LipSyncAndSleepTimer :
    (takenAtOnce quiet .a (hd 7) (.setLipSync 0 0) ∧ min (0 : Half).toNat 500 = (quiet.zone .main).lipSync ∧
    takenAtOnce quiet .a (hd 7) (.setLipSync 0 501) ∧ min (501 : Half).toNat 500 = 500 ∧
    500 ≠ (quiet.zone .main).lipSync ∧ (quiet.zone .main).power = .standby ∧
    takenAtOnce playing .a (hd 7) (.setLipSync 0 500) ∧ takenAtOnce playing .a (hd 7) (.setLipSync 0 1) ∧
    (playing.zone .main).power = .on ∧ playing.delay.state = .ready ∧ playing.delay.compaction = none ∧
    playing.delay.starved = [] ∧ (playing.delay.segments.map (·.output)).Nodup ∧
    (withDelay (fun d => { d with state := .initializing }) playing).delay.state = .initializing ∧
    (withDelay (fun d => { d with state := .fault }) playing).delay.state = .fault ∧
    (let s := crowd 14 playing;
      (s.delay.segments.map (·.output)).Nodup ∧ takenAtOnce s .a (hd 7) (.setLipSync 0 44) ∧
      (s.delay.withoutChanges (lipDelays s 500)).freePages < s.delay.pagesAsked (lipDelays s 500) ∧
      s.delay.pagesAsked (lipDelays s 44) ≤ (s.delay.withoutChanges (lipDelays s 44)).freePages) ∧
    playing.delay.pagesAsked (lipDelays playing 1) ≤
      (playing.delay.withoutChanges (lipDelays playing 1)).freePages ∧
    takenAtOnce quiet .a (hd 6) (.setSleepTimer 0 120) ∧
    takenAtOnce (zoneOn quiet) .a (hd 6) (.setSleepTimer 0 121) ∧ ((zoneOn quiet).zone .main).power = .on) ∧
    (¬ ∃ d, changeGranted (crowd 14 playing).delay (lipDelays (crowd 14 playing) 44) d) ∧
    ∃ d, changeGranted playing.delay (lipDelays playing 1) d := by
  refine ⟨by unfold takenAtOnce; decide +kernel, ?_, ?_⟩
  · exact crowd_refuses_changes _ _ rfl ⟨{ seg 12 14 with count := 1010 }, by decide, rfl, rfl⟩ (seg 0 0) (by decide)
      2112 (by decide +kernel) (by decide) (by decide)
  · refine ⟨{ playing.delay with segments := [{ seg 0 0 with change := some ⟨.retime, 48, 0, 1⟩ }] }, rfl,
      .cons ⟨⟨.retime, 48, 0, 1⟩, rfl, ?_⟩ .nil⟩
    exact ⟨rfl, rfl, fun _ => ⟨rfl, rfl⟩, fun h => absurd h (by decide), fun h => absurd h (by decide)⟩

theorem witness_PushOverrideSavesTheZone :
    let e : OverrideEntry := ⟨.tuner, -40, false, .direct, .b, 0⟩
    takenAtOnce quiet .a (hd 8) (.pushOverride 0 10 0) ∧ zoneOf 0 = some .main ∧ sourceOf 10 = some (.input 10) ∧
    (quiet.zone .main).power ≠ .on ∧ takenAtOnce (zoneOn quiet) .a (hd 8) (.pushOverride 0 10 0) ∧
    ((zoneOn quiet).zone .main).stack.length < 4 ∧
    takenAtOnce (withZone .main (fun r => { r with stack := [e, e, e, e] }) (zoneOn quiet)) .a (hd 8)
      (.pushOverride 0 10 0) := by
  unfold takenAtOnce; decide +kernel

theorem witness_PopOverrideRestoresTheZone :
    let e : OverrideEntry := ⟨.tuner, -40, false, .direct, .a, 0⟩
    let s := fun p : Power => withZone .main (fun r => { r with power := p, stack := [e] }) quiet
    takenAtOnce quiet .a (hd 5) (.popOverride 0) ∧ zoneOf 0 = some .main ∧ (quiet.zone .main).stack = [] ∧
    ((s .on).zone .main).stack = [] ++ [e] ∧ takenAtOnce (s .on) .b (hd 5) (.popOverride 0) ∧ e.port ≠ .b ∧
    takenAtOnce (s .on) .a (hd 5) (.popOverride 0) ∧ ((s .on).zone .main).power = .on ∧
    takenAtOnce (s .quieting) .a (hd 5) (.popOverride 0) ∧ ((s .quieting).zone .main).power = .quieting := by
  unfold takenAtOnce; decide +kernel

theorem witness_GrantRule :
    let memory := fun (m : MemoryState) => (withDelay (fun d => { d with state := m }) quiet).delay
    let hungry := fun (p : Power) => withZone .main (fun r => { r with power := p })
      (withOut 0 (fun r => { r with state := .starved, zone := some .main, role := some (.pos .fl) })
        (withDelay (fun d => { d with starved := [0] }) quiet))
    let asks := fun (s : State) => s.delay.request [(0, s.totalDelay .main (.pos .fl))]
    (fixedPosition 0 = some .fl ∧ fixedPosition 12 = some .sub2 ∧ (quiet.speaker .sub2).size = .none ∧
    ((zoneOn quiet).zone .main).power = .on ∧ ((zoneOn quiet).speaker .fl).size ≠ .none ∧
    (5 : Fin 13).val = (0 : Fin 6).val + 5 ∧ (10 : Fin 13).val = (5 : Fin 6).val + 5 ∧
    (quiet.outputs.assign[(0 : Fin 6)]).mainRole.position = some .bl ∧
    (quiet.outputs.assign[(0 : Fin 6)]).remoteRole.zone = some (.z2, .z2l) ∧
    (quiet.outputs.assign[(0 : Fin 6)]).priority = .mainFirst ∧ (quiet.zone .z2).power = .standby ∧
    (withDelay (fun d => { d with dref := some 300 }) quiet).delay.dref = some 300 ∧
    (quiet.speaker .fl).distance ≤ 300 ∧ 299 < (quiet.speaker .fl).distance ∧
    (memory .initializing).state = .initializing ∧ (memory .uninit).state = .uninit ∧
    (memory .ready).state = .ready ∧ quiet.delay.compaction = none ∧
    (crowd 14 quiet).delay.freePages < pagesFor 24000 ∧ pagesFor 1920 ≤ (crowd 14 quiet).delay.freePages ∧
    pagesFor 0 + pagesFor 300 ≤ quiet.delay.freePages ∧ quiet.delay.segment 0 = none ∧
    quiet.delay.segment 12 = none ∧
    0 ∈ (hungry .on).delay.starved ∧ ((hungry .on).out 0).zone = some .main ∧
    ((hungry .on).out 0).role = some (.pos .fl) ∧ ((hungry .on).zone .main).power = .on ∧
    okB (asks (hungry .on)) = true ∧ okB (asks (withDelay (fun d => { d with state := .uninit }) (hungry .waking))) = false ∧
    ((hungry .quieting).zone .main).power = .quieting) ∧
    (¬ ∃ bases, placedAt (crowd 14 quiet).delay [] [(1, 1920)] bases) ∧
    placedAt quiet.delay [] [(0, 0), (12, 300)] [0, 1] := by
  refine ⟨by decide +kernel, ?_, ?_⟩
  · rintro ⟨bases, hb⟩
    cases bases with
    | nil => exact hb
    | cons b l =>
      obtain ⟨i, hi, hf⟩ := crowd_breaks_runs (crowd 14 quiet).delay rfl
        ⟨{ seg 12 14 with count := 1010 }, by decide, rfl, rfl⟩ b (pagesFor 1920) (by decide)
      exact absurd (hb.1 i hi).1 (by simp [hf])
  · simp only [placedAt, freeRun]; decide +kernel

theorem witness_SetAssignmentRegrants :
    let busy := withDelay (fun d => { d with compaction := some ⟨0, 0, [], none, 0, false⟩ }) quiet
    let granted := withOut 5 (fun r => { r with state := .granted, zone := some .main, role := some (.pos .bl) })
      (zoneOn quiet)
    takenAtOnce quiet .a (hd 8) (.setAssignment 5 0 0 0) ∧ takenAtOnce quiet .a (hd 8) (.setAssignment 12 0 0 0) ∧
    takenAtOnce quiet .a (hd 8) (.setAssignment 6 5 0 0) ∧ (6 : Byte).toNat = (0 : Fin 6).val + 6 ∧
    takenAtOnce quiet .a (hd 8) (.setAssignment 11 4 5 0) ∧ (11 : Byte).toNat = (5 : Fin 6).val + 6 ∧
    takenAtOnce quiet .a (hd 8) (.setAssignment 6 4 4 2) ∧ mainRoleOf 2 = some .br ∧ remoteRoleOf 1 = some .z2l ∧
    priorityOf 1 = some .remoteFirst ∧ (quiet.outputs.assign[(1 : Fin 6)]).mainRole = .br ∧
    (quiet.outputs.assign[(1 : Fin 6)]).remoteRole = .z2r ∧
    takenAtOnce busy .a (hd 8) (.setAssignment 6 1 1 1) ∧ busy.delay.compaction ≠ none ∧
    quiet.delay.compaction = none ∧ takenAtOnce quiet .a (hd 8) (.setAssignment 6 1 1 0) ∧
    quiet.outputs.assign[(0 : Fin 6)] = ⟨.bl, .z2l, .mainFirst⟩ ∧ (quiet.out 5).state = .idle ∧
    quiet.grantRule 5 = none ∧ takenAtOnce granted .a (hd 8) (.setAssignment 6 0 1 0) ∧
    (granted.out 5).state = .granted ∧
    (granted.setOutputs { granted.outputs with
      assign := granted.outputs.assign.set 0 ⟨.none, .z2l, .mainFirst⟩ }).grantRule 5 = none ∧
    (granted.zone .main).power ≠ .quieting := by
  unfold takenAtOnce; decide +kernel

/-- The rows of the regrant: O6, whose entry becomes BL and Z2L with REMOTE_FIRST, in every state. -/
theorem witness_SetAssignmentRegrants_rows :
    let on := withZone .z2 (fun r => { r with power := .on }) quiet
    let o := fun (st : OutputState) (r : Role) => withOut 5 (fun x => { x with
      state := st, zone := some .z2, role := some r }) on
    let u := fun s : State => s.setOutputs { s.outputs with
      assign := s.outputs.assign.set 0 ⟨.bl, .z2l, .remoteFirst⟩ }
    let off := withOut 5 (fun x => { x with state := .starved, zone := some .z3, role := some .z3l }) quiet
    (∀ s, s ∈ [on, o .starved .z2r, o .starved .z2l, o .granted .z2l, o .handover .z2l, o .handover .z2r, off] →
      takenAtOnce s .a (hd 8) (.setAssignment 6 1 1 1) ∧ s.delay.compaction = none ∧ s.delay.segment 5 = none) ∧
    (on.out 5).state = .idle ∧ (u on).grantRule 5 = some (.z2, .z2l) ∧
    okB (on.delay.request [(5, on.totalDelay .z2 .z2l)]) = true ∧
    okB ((crowd 2 on).delay.request [(5, on.totalDelay .z2 .z2l)]) = false ∧ (crowd 2 on).delay.segment 5 = none ∧
    (u (o .starved .z2r)).grantRule 5 = some (.z2, .z2l) ∧ ((o .starved .z2r).out 5).role = some .z2r ∧
    ((o .starved .z2l).out 5).role = some .z2l ∧ ((o .handover .z2l).out 5).zone = some .z2 ∧
    (u off).grantRule 5 = none ∧ (off.out 5).state = .starved ∧ (off.zone .z3).power ≠ .quieting ∧
    ((withOut 5 (fun x => { x with state := .fault }) on).out 5).state = .fault ∧
    ((withZone .z3 (fun r => { r with power := .quieting }) off).zone .z3).power = .quieting := by
  unfold takenAtOnce; decide +kernel

theorem witness_ProtectionLevelsMoveTheLines :
    takenAtOnce quiet .a (hd 7) (.setProtectionLevels 2 0 0) ∧
    takenAtOnce quiet .a (hd 7) (.setProtectionLevels 1 2 0) ∧
    takenAtOnce quiet .a (hd 7) (.setProtectionLevels 1 1 2) ∧
    takenAtOnce quiet .a (hd 7) (.setProtectionLevels 0 0 0) ∧ activeLevelOf 0 = some .low ∧
    quiet.outputs.fltLevel = .low ∧ quiet.outputs.thwLevel = .low ∧ quiet.outputs.thtLevel = .low ∧
    takenAtOnce quiet .a (hd 7) (.setProtectionLevels 1 1 1) ∧ activeLevelOf 1 = some .high := by
  unfold takenAtOnce; decide +kernel

/-- O1 of a playing MAIN: FLT1 and THT are at the level that becomes active, FLT2 is at the one that was. -/
theorem witness_ProtectionLevelsMoveTheLines_lines :
    let s := withOut 1 (fun r => { r with state := .fault }) ((playing.setFlt 1 ⟨false, true⟩))
    takenAtOnce s .a (hd 7) (.setProtectionLevels 1 0 1) ∧ activeLevelOf 0 = some s.outputs.thwLevel ∧
    (s.fltLine 0).active = false ∧ (s.fltLine 0).pin = ActiveLevel.high.pin ∧
    (s.out (lineOutput 0)).state ≠ .fault ∧ (s.fltLine 1).active = true ∧
    (s.fltLine 1).pin ≠ ActiveLevel.high.pin ∧ s.outputs.tht.active = false ∧
    s.outputs.tht.pin = ActiveLevel.high.pin ∧ s.outputs.latch = false ∧ s.delay.compaction = none ∧
    s.delay.starved = [] ∧ s.delay.segment 0 = some (seg 0 0) ∧
    next (.setProtectionLevels .a (hd 7) 1 0 1) s (fun t => (t.out 0).state == .fault &&
      t.delay.segments.isEmpty && (t.zone .main).quietStage == some .relay && (t.out 1).state == .fault) = true := by
  unfold takenAtOnce; decide +kernel

theorem witness_FaultLines :
    (quiet.fltLine 10).active = false ∧ (quiet.out (lineOutput 10)).state ≠ .fault ∧
    ((quiet.setFlt 10 ⟨false, true⟩).fltLine 10).active = true ∧
    ((withOut 0 (fun r => { r with state := .fault }) quiet).out (lineOutput 0)).state = .fault ∧
    ((withOut 0 (fun r => { r with state := .fault }) quiet).fltLine 0).active = false := by decide +kernel

theorem witness_ThermalLines :
    let w := quiet.setOutputs { quiet.outputs with thw := ⟨false, true⟩, tht := ⟨false, true⟩ }
    let l := quiet.setOutputs { quiet.outputs with latch := true }
    quiet.outputs.thw.active = false ∧ quiet.outputs.tht.active = false ∧ quiet.outputs.latch = false ∧
    w.outputs.thw.active = true ∧ w.outputs.tht.active = true ∧ l.outputs.tht.active = false ∧
    l.outputs.latch = true ∧ ((zoneOn quiet).zone .main).power = .on ∧ (quiet.zone .z2).power = .standby := by
  decide +kernel

/-- MAIN is WAKING with a pending STANDBY, Z2 QUIETING with a pending ON; a trip cancels slots 1, 0 and 2. -/
theorem witness_ThermalLines_trip :
    let s := withZone .z2 (fun r => { r with power := .quieting, pendingPower := some .on, pendingSlot := some 2 })
      (withZone .main (fun r => { r with power := .waking, opSlot := some 0, pendingPower := some .standby
                                         pendingSlot := some 1 })
        (withSlot 2 (body .zoneOn) (withSlot 1 (body .zoneStandby) (withSlot 0 (body .zoneOn) playing))))
    s.outputs.tht.active = false ∧ s.outputs.latch = false ∧ s.tripCancels = [1, 0, 2] ∧ s.tripCancels.Nodup ∧
    (∀ q, q ∈ ([.a, .b, .c] : List Port) → (s.port q).chain ≠ .holding ∧ (s.port q).completions = []) ∧
    (s.out 0).grantedTo .main = true ∧
    next .thtArrival s (fun t => decide (t.allSilent .main) && (t.out 0).relay == false &&
      ((t.port .a).completions.map (·.slot)) == [some 1, some 0, some 2]) = true ∧
    next .thtArrival (playing.setGain 0 { playing.gain 0 with current := 24 }) (fun t =>
      decide (¬ t.allSilent .main) && (t.zone .main).quietStage == some .ramp) = true := by
  decide +kernel

theorem witness_ClearFaultReturnsAnOutput :
    let tht := quiet.setOutputs { quiet.outputs with tht := ⟨false, true⟩ }
    let latch := quiet.setOutputs { quiet.outputs with latch := true }
    let flt := quiet.setFlt 10 ⟨false, true⟩
    let off := fun s : State => withOut 10 (fun r => { r with state := .fault }) s
    takenAtOnce quiet .a (hd 5) (.clearFault 12) ∧ takenAtOnce tht .a (hd 5) (.clearFault 0) ∧
    tht.outputs.tht.active = true ∧ quiet.outputs.latch = false ∧ quiet.outputs.tht.active = false ∧
    takenAtOnce latch .a (hd 5) (.clearFault 0) ∧ latch.outputs.latch = true ∧
    (11 : Byte).toNat = (10 : Fin 11).val + 1 ∧ (1 : Byte).toNat = (0 : Fin 11).val + 1 ∧
    takenAtOnce flt .a (hd 5) (.clearFault 11) ∧ (flt.fltLine 10).active = true ∧
    (quiet.fltLine 10).active = false ∧ (quiet.out (lineOutput 10)).state ≠ .fault ∧
    takenAtOnce (off quiet) .a (hd 5) (.clearFault 11) ∧ ((off quiet).out (lineOutput 10)).state = .fault ∧
    (off quiet).grantRule (lineOutput 10) = none ∧
    (off (withZone .z3 (fun r => { r with power := .on }) quiet)).grantRule (lineOutput 10) = some (.z3, .z3r) := by
  unfold takenAtOnce; decide +kernel

theorem witness_RelayOpenEndsInReallocate :
    let s := withOut 12 (fun r => { r with state := .handover, phase := some .relayOpen })
    let t := withOut 0 (fun r => { r with state := .handover, phase := some .relayOpen })
    ((s quiet).out 12).state = .handover ∧ ((s quiet).out 12).phase = some .relayOpen ∧
    (s quiet).grantRule 12 = none ∧ (t (zoneOn quiet)).grantRule 0 = some (.main, .pos .fl) ∧
    ¬ ((quiet.out 0).state = .handover ∧ (quiet.out 0).phase = some .relayOpen) ∧
    (let held := withOut 0 (fun r => { r with state := .handover, phase := some .relayOpen }) (playing);
      0 ∉ held.delay.starved ∧ held.delay.starved = [] ∧ held.delay.compaction = none ∧
      held.grantRule 0 = some (.main, .pos .fl) ∧ (held.delay.segment 0).isSome = true ∧
      okB ((held.freeSegment 0).delay.request [(0, (held.freeSegment 0).totalDelay .main (.pos .fl))]) = true ∧
      (let off := withDelay (fun d => { d with state := .uninit }) held;
        okB ((off.freeSegment 0).delay.request [(0, (off.freeSegment 0).totalDelay .main (.pos .fl))]) = false) ∧
      (let busy := withDelay (fun d => { d with compaction := some ⟨3, 0, [], some 2, 0, false⟩ }) held;
        (busy.delay.compaction.bind (·.current)) ≠ some 0)) := by decide +kernel

theorem witness_InputsFollowTheirLinks :
    let d : Descriptor := ⟨.multichannel, 2, 0x3FF⟩
    let s := fun (st : InputState) (t : Option Nat) =>
      quiet.setInput (digital 7) ⟨st, none, none, t, some d⟩
    (quiet.input (digital 7)).state = .noSignal ∧ ((s .pcm2 none).input (digital 7)).state = .pcm2 ∧
    ((s .packed none).input (digital 7)).state = .packed ∧ ((s .locking (some 20)).input (digital 7)).timer ≠ none ∧
    ((s .locking (some 20)).input (digital 7)).link = some d ∧ ((s .locking none).input (digital 7)).timer = none ∧
    d.rate.toNat ≤ 2 ∧ d.mask &&& 3 = 3 ∧ d.mask.toNat < 1024 ∧ 2 < (3 : Byte).toNat ∧
    ¬ ((0x400 : Half) &&& 3 = 3 ∧ (0x400 : Half).toNat < 1024) := by decide +kernel

/-- A frame of 270 bytes: rate code 0, one block, FL and FR, both of width 4 and exponent 0. -/
def frameBody : List Byte :=
  [0xC5, 0x3A, 0x01, 0x0E, 0, 1, 0x00, 0x03, 4, 0] ++ (0 : Byte) :: List.replicate 128 0x12 ++
    (0 : Byte) :: List.replicate 128 0xF4
def frame : List Byte := frameBody ++ halfBytes (crc frameBody)
def spoiled : List Byte := frame.set 20 0x13

def isGood : Judged → Bool
  | .good _ _ => true
  | _ => false
def isBad (e : FrameError) : Judged → Bool
  | .bad f => f == e
  | _ => false

/-- The first frame byte at which a channel record starts is 10; these variants fail there or after it. -/
theorem witness_GoodFramesPassEveryTest :
    isGood (judge frame) = true ∧ numAt frame 2 = 270 ∧ frame.length = 270 ∧
    (byteAt frame 5).toNat * (channelsOf (halfAt frame 6)).length = 2 ∧
    walked frame 270 10 [0, 0] 268 ∧ crc (frame.take 268) = halfAt frame 268 ∧
    walked spoiled 270 10 [0, 0] 268 ∧ crc (spoiled.take 268) ≠ halfAt spoiled 268 ∧
    walked (frame.set 10 11) 270 10 [] 10 ∧ 10 < (byteAt (frame.set 10 11) 10).toNat % 16 ∧
    walked (frame.set 10 10) 270 10 [10] 779 ∧
    numAt (frame.set 3 0x0F) 2 = 271 ∧ walked (frame.set 3 0x0F) 271 10 [0, 0] 268 ∧
    isBad .sync (judge [0, 0]) = true ∧ isBad .lengthRange (judge (frame.set 2 0)) = true ∧
    isBad .rate (judge (frame.set 4 3)) = true ∧ isBad .blocks (judge (frame.set 5 9)) = true ∧
    isBad .mask (judge (frame.set 7 1)) = true ∧
    isBad .downmix (judge ((frame.set 9 1).set 10 4)) = true ∧ isBad .width (judge (frame.set 10 11)) = true ∧
    isBad .lengthMismatch (judge (frame.set 10 10)) = true ∧
    isBad .lengthMismatch (judge (frame.set 3 0x0F)) = true ∧ isBad .check (judge spoiled) = true := by
  simp only [walked]; decide +kernel

/-- Z2L and Z2R play the tuner, or the decoder's stream from D1. -/
def remote : State :=
  let o := fun (i : Fin 13) (r : Role) (s : State) =>
    withOut i (fun x => { x with state := .granted, zone := some .z2, role := some r }) s
  o 5 .z2l (o 6 .z2r (withZone .z2 (fun r => { r with power := .on, live := .input 0 }) quiet))
def downmixed (m : Option (Nat × Nat)) : State :=
  withDecoder (fun d => { d with state := .locked, binding := some 0, header := some ⟨270, 0, 1, 3, 4, m⟩ }) remote

theorem witness_MantissasGiveSamples :
    let ramp := fun z r => withOut 5 (fun x => { x with
      state := .handover, phase := some .rampDown, zone := some z, role := some r }) quiet
    (2 : Nat) ≤ 10 ∧ (15 : Nat) ≤ 15 ∧ (128 : Nat) < 2 ^ (4 + 2 * 2) ∧ (2 ^ 24 - 1 : Nat) < 2 ^ (4 + 2 * 10) ∧
    (47 : Nat) < 48 ∧ (quiet.zone .z2).live ≠ .tuner ∧
    ((downmixed (some (3, 3))).zone .z2).live = .input 0 ∧ (downmixed (some (3, 3))).boundTo 0 = true ∧
    (downmixed (some (3, 3))).decoder.header.bind (·.downmix) = some (3, 3) ∧
    (downmixed none).boundTo 0 = true ∧ (downmixed none).decoder.header.map (·.downmix) = some none ∧
    [Position.fl, .fr, .sub1].Nodup ∧ Channel.position .fl = some .fl ∧ Channel.position .lfe = none ∧
    Position.sub1 ∈ [Position.fl, .fr, .sub1] ∧ Channel.position .c = some .c ∧ Position.c ∉ [Position.fl, .fr] ∧
    buildMatrix [.fl, .fr] [.fl, .fr, .c] ≠ [] ∧
    (remote.stepGains.countDown.takeChanges.pairOf .z2) = .both ∧
    ((withOut 6 (fun _ => OutputRec.idle) remote).takeChanges.pairOf .z2) = .one .z2l ∧
    (remote.out 5).state = .granted ∧ (remote.out 5).zone = some .z2 ∧ (remote.out 5).role = some .z2l ∧
    ((ramp .z2 .z2l).out 5).state = .handover ∧ ((ramp .z2 .z2l).out 5).phase = some .rampDown ∧
    ((ramp .main (.pos .bl)).out 5).role = some (.pos .bl) ∧ Position.channel .bl = some .bl := by
  decide +kernel

/-- MAIN plays FL, which is SMALL, and SUB1, and has taken its routing. -/
def bass : State :=
  (withOut 11 (fun r => { r with state := .granted, zone := some .main, role := some (.pos .sub1) })
    ((playing.setSpeakerRec .fl { playing.speaker .fl with size := .small }).setSpeakerRec .sub1
      { playing.speaker .sub1 with size := .large })).takeRouting

theorem witness_MantissasGiveSamples_main :
    let far := withOut 0 (fun r => { r with role := some (.pos .c) }) bass
    bass.mix.foldMatrix = some (buildMatrix bass.mix.speakerSet bass.mix.virtualSet) ∧
    bass.mix.speakerSet = [.fl, .sub1] ∧ bass.mix.speakerSet.Nodup ∧ (bass.out 0).state = .granted ∧
    (bass.out 0).zone = some .main ∧ (bass.out 0).role = some (.pos .fl) ∧ (bass.speaker .fl).size = .small ∧
    mainPositions[(0 : Fin 9).val]? = some .fl ∧ (bass.out 11).role = some (.pos .sub1) ∧
    (far.out 0).role = some (.pos .c) ∧ Position.c ∉ far.mix.speakerSet ∧
    (playing.takeRouting.out 0).role = some (.pos .fl) ∧ playing.takeRouting.mix.speakerSet = [.fl] ∧
    playing.takeRouting.mix.foldMatrix = some (buildMatrix [.fl] [.fl, .fr]) := by decide +kernel

theorem witness_MantissasGiveSamples_sources :
    let tuner := fun (b : Band) (m : Blend) (st : TunerState) => withTuner (fun t => { t with
      band := b, blend := m, state := st }) (withZone .z2 (fun r => { r with power := .on, status := .playing, live := .tuner }) quiet)
    let input := fun (st : InputState) => (withZone .z2 (fun r => { r with
      power := .on, status := .playing, live := .input 0 }) (downmixed none)).setInput 0 { (downmixed none).input 0 with state := st }
    ((tuner .fm .stereo .idle).zone .z2).live = .tuner ∧ (tuner .am .mono .idle).tuner.state = .idle ∧
    (tuner .fm .mono .idle).tuner.blend = .mono ∧ (tuner .fm .mono .parked).tuner.state ≠ .idle ∧
    ((input .pcm2).zone .z2).live = .input 0 ∧ ((input .pcm2).input 0).state ≠ .packed ∧
    ((input .packed).input 0).state = .packed ∧ (input .packed).boundTo 0 = true ∧
    (input .packed).decoder.state = .locked ∧
    ((withDecoder (fun d => { d with fifo := [[7], [8]] }) (input .packed)).decoder.fifo[Channel.fr.index]?) = some [8] ∧
    ((withDecoder (fun d => { d with binding := none }) (input .packed)).boundTo 0) = false := by decide +kernel

theorem witness_FramesFoundInSearching :
    let s := fun c : Option (Byte × Half) => withDecoder (fun d => { d with
      state := .searching, binding := some 3, candidate := c }) quiet
    quiet.decoder.state ≠ .searching ∧ (s none).decoder.state = .searching ∧ (s none).decoder.candidate = none ∧
    findSync [1, 2, 3] 0 = none ∧ findSync (7 :: frame) 0 = some 1 ∧
    isGood (judgeFields ((7 :: frame).drop 1)) = true ∧ isBad .check (judgeFields spoiled) = true ∧
    (s (some (0, 3))).decoder.candidate = some (0, 3) ∧ isGood (judge frame) = true ∧
    isBad .check (judge spoiled) = true ∧ takenAtOnce quiet .a (hd 7) (.readDecoder 1 19) := by
  unfold takenAtOnce; decide +kernel

theorem witness_FramesTakenInLock :
    let old : FrameHeader := ⟨270, 0, 1, 3, 4, none⟩
    let s := fun n : Nat => withDecoder (fun d => { d with
      state := if n = 0 then .locked else .concealing, binding := some 3, consecutiveBad := n
      header := some old, expected := some 500 }) quiet
    (s 0).decoder.state = .locked ∧ (s 2).decoder.state = .concealing ∧ (s 0).decoder.header = some old ∧
    (s 0).decoder.expected = some 500 ∧ isGood (judge frame) = true ∧ isBad .check (judge spoiled) = true ∧
    old.length ≤ spoiled.length ∧ (s 1).decoder.consecutiveBad < 2 ∧ (s 2).decoder.consecutiveBad = 2 := by
  decide +kernel

/-- The total delays of `s` with FL at 1,800 cm, the farthest of the speaker set. -/
def farDelays (s : State) : Fin 13 → Option Nat :=
  s.newDelay ((s.setSpeakerRec .fl ⟨.large, 1800, 0, false⟩).setDelay { s.delay with dref := some 1800 }) .main

theorem witness_SpeakersAndCrossover :
    let set := withOut 2 (fun r => { r with state := .granted, zone := some .main, role := some (.pos .c) })
      (zoneOn quiet)
    (takenAtOnce quiet .a (hd 10) (.setSpeaker 11 0 300 0 0) ∧ positionOf 10 = some .sub2 ∧
    takenAtOnce quiet .a (hd 10) (.setSpeaker 10 1 300 0 0) ∧ sizeOf .sub2 1 = none ∧
    sizeOf .c 2 = some .none ∧ takenAtOnce quiet .a (hd 10) (.setSpeaker 2 0 300 0 2) ∧
    takenAtOnce quiet .a (hd 10) (.setSpeaker 2 0 300 0 0) ∧ positionOf 2 = some .c ∧ sizeOf .c 0 = some .large ∧
    quiet.speaker .c = ⟨.large, 300, 0, false⟩ ∧ takenAtOnce quiet .a (hd 10) (.setSpeaker 2 1 1801 24 1) ∧
    takenAtOnce duet .a (hd 10) (.setSpeaker 0 0 1800 0 0) ∧ positionOf 0 = some .fl ∧
    duet.speaker .fl = ⟨.large, 300, 0, false⟩ ∧ (duet.zone .main).power = .on ∧ duet.speakerSet = [.fl, .c] ∧
    ((duet.setSpeakerRec .fl ⟨.large, 1800, 0, false⟩).speaker .fl).distance = 1800 ∧
    ((duet.setSpeakerRec .fl ⟨.large, 1800, 0, false⟩).speaker .c).distance ≤ 1800 ∧
    duet.delay.state = .ready ∧ duet.delay.compaction = none ∧ (duet.delay.segments.map (·.output)).Nodup ∧
    (withDelay (fun d => { d with state := .initializing }) duet).delay.state = .initializing ∧
    (withDelay (fun d => { d with state := .uninit }) duet).delay.state = .uninit ∧
    (let s := crowd 13 duet;
      (s.delay.withoutChanges (farDelays s)).freePages < s.delay.pagesAsked (farDelays s)) ∧
    (let s := crowd 14 duet;
      (s.delay.segments.map (·.output)).Nodup ∧
      s.delay.pagesAsked (farDelays s) ≤ (s.delay.withoutChanges (farDelays s)).freePages) ∧
    playing.delay.pagesAsked (farDelays playing) ≤
      (playing.delay.withoutChanges (farDelays playing)).freePages ∧
    takenAtOnce set .a (hd 10) (.setSpeaker 2 2 300 0 0) ∧ (set.out 2).role = some (.pos .c) ∧
    (set.setSpeakerRec .c ⟨.none, 300, 0, false⟩).grantRule 2 = none ∧
    takenAtOnce quiet .a (hd 5) (.setCrossover 61) ∧ takenAtOnce quiet .a (hd 5) (.setCrossover 80) ∧
    quiet.mix.crossover = 80 ∧ takenAtOnce quiet .a (hd 5) (.setCrossover 120)) ∧
    (¬ ∃ d, changeGranted (crowd 14 duet).delay (farDelays (crowd 14 duet)) d) ∧
    ∃ d, changeGranted playing.delay (farDelays playing) d := by
  refine ⟨by unfold takenAtOnce; decide +kernel, ?_, ?_⟩
  · exact crowd_refuses_changes _ _ rfl ⟨{ seg 12 14 with count := 1010 }, by decide, rfl, rfl⟩ (seg 2 1) (by decide)
      2099 (by decide +kernel) (by decide) (by decide)
  · refine ⟨playing.delay, rfl, .cons ?_ .nil⟩
    have h : farDelays playing 0 = some 0 := by decide +kernel
    have e : (seg 0 0).output = 0 := rfl
    simp only [e, h]; rfl

/-- MAIN is in a power state, O13 (SUB2) is IDLE or as given, and every other output is in FAULT. -/
def lone (w : Power) (r : OutputRec) : State :=
  (List.finRange 13).foldl (fun s o => withOut o (fun x => if o = 12 then r else { x with state := .fault }) s)
    (withZone .main (fun r => { r with power := w }) quiet)

/-- SUB2, NONE at reset, becomes LARGE: O13 alone is granted, or STARVED where the memory refuses. FL becomes NONE in
MAIN's quieting: R43 leaves O1 as it was (log 42). A request that withdraws a GROW is followed by a retry pass. -/
theorem witness_SpeakersAndCrossover_regrants :
    let idle := lone .on OutputRec.idle
    let off := withDelay (fun d => { d with state := .fault }) idle
    let r : SpeakerRec := ⟨.large, 300, 0, false⟩
    let u := fun s : State => s.setSpeakerRec .sub2 r
    let none' := fun s : State => s.setSpeakerRec .fl ⟨.none, 300, 0, false⟩
    let quieting := withZone .main (fun r => { r with power := .quieting }) playing
    let growing := withDelay (fun d => { d with
      starved := [1], segments := [{ seg 0 0 with change := some ⟨.grow, 300, 0, 2⟩ }] })
        (withOut 1 (fun x => { x with state := .starved, zone := some .main, role := some (.pos .fr) }) playing)
    takenAtOnce idle .a (hd 10) (.setSpeaker 10 0 300 0 0) ∧ takenAtOnce off .a (hd 10) (.setSpeaker 10 0 300 0 0) ∧
    positionOf 10 = some .sub2 ∧ sizeOf .sub2 0 = some .large ∧ idle.speaker .sub2 = ⟨.none, 300, 0, false⟩ ∧
    (idle.out 12).state = .idle ∧ (u idle).grantRule 12 = some (.main, .pos .sub2) ∧ idle.delay.segment 12 = none ∧
    (u off).grantRule 12 = some (.main, .pos .sub2) ∧
    (∀ q, q ≠ 12 → (u idle).wellGranted q) ∧ (∀ q, q ≠ 12 → (u off).wellGranted q) ∧
    next (.setSpeaker .a (hd 10) 10 0 300 0 0) idle (fun t => t.out 12 == grantedRec 12 .main (.pos .sub2)) = true ∧
    next (.setSpeaker .a (hd 10) 10 0 300 0 0) off (fun t => t.out 12 == starvedRec .main (.pos .sub2) &&
      t.delay.starved == [12]) = true ∧
    (none' quieting).grantRule 0 = none ∧ (quieting.out 0).state = .granted ∧ (quieting.out 0).zone = some .main ∧
    next (.setSpeaker .a (hd 10) 0 2 300 0 0) quieting (fun t => t.out 0 == quieting.out 0) = true ∧
    (none' playing).grantRule 0 = none ∧ (playing.zone .main).power ≠ .quieting ∧
    takenAtOnce growing .a (hd 7) (.setLipSync 0 1) ∧ (lipDelays growing 1 0) ≠ none ∧
    growing.delay.segments = [{ seg 0 0 with change := some ⟨.grow, 300, 0, 2⟩ }] ∧ growing.delay.starved = [1] ∧
    next (.setLipSync .a (hd 7) 0 1) growing (fun t => t.delay.starved == [] && (t.out 1).state == .granted) = true := by
  refine ⟨by unfold takenAtOnce; decide +kernel, by unfold takenAtOnce; decide +kernel, by decide, by decide,
    by decide +kernel, by decide +kernel, by decide +kernel, by decide +kernel, by decide +kernel,
    fun q hq => .inl ?_, fun q hq => .inl ?_, by unfold takenAtOnce; decide +kernel⟩
  all_goals revert q; decide +kernel

/-- One output in each state that a regrant can find it in (`regrants`), for a rule that gives it FL, and one for a
rule that gives it nothing. -/
theorem witness_SpeakersAndCrossover_states :
    let o := fun (st : OutputState) (w : Zone) (x : Role) => withOut 0 (fun r => { r with
      state := st, phase := if st = .handover then some .rampDown else none, zone := some w, role := some x }) (zoneOn quiet)
    let r := fun (s : State) => s.regrant 0
    ((zoneOn quiet).grantRule 0 = some (.main, .pos .fl) ∧ quiet.grantRule 0 = none) ∧
    ((r (zoneOn quiet)).out 0 = grantedRec 0 .main (.pos .fl) ∧ r quiet = quiet) ∧
    ((r (o .granted .z2 .z2l)).out 0).target = some (some .main) ∧
    r (o .granted .main (.pos .fl)) = o .granted .main (.pos .fl) ∧
    ((r (o .starved .z2 .z2l)).out 0).state = .granted ∧
    r (o .starved .main (.pos .fl)) = o .starved .main (.pos .fl) ∧
    ((r (o .handover .main (.pos .fl))).out 0).state = .granted ∧
    ((r (o .handover .z2 .z2l)).out 0).target = some (some .main) ∧
    (o .starved .z2 .z2l).delay.segment 0 = none ∧
    r (o .fault .main (.pos .fl)) = o .fault .main (.pos .fl) := by decide +kernel

theorem witness_GainWords : (-160 : Int) ≤ -160 ∧ (-160 : Int) ≤ 24 ∧ (24 : Int) ≤ 24 ∧ (-161 : Int) < 24 := by
  decide

theorem witness_GainsMoveAtBlockStarts :
    let change := withDelay (fun d => { d with segments := [{ seg 0 0 with change := some ⟨.retime, 100, 0, 1⟩ }] })
      playing
    quiet.delay.inDram = true ∧ playing.delay.inDram = true ∧ (quiet.out 0).state = .idle ∧
    ((withOut 0 (fun r => { r with state := .handover, phase := some .rampDown }) quiet).out 0).phase =
      some .rampDown ∧
    (change.out 0).state = .granted ∧ (change.delay.segment 0).bind (·.change) = some ⟨.retime, 100, 0, 1⟩ ∧
    (playing.out 0).zone = some .main ∧ (playing.out 0).role = some (.pos .fl) ∧
    ((playing.delay.segment 0).bind (·.change) = none ∧ (playing.delay.segment 0).bind (·.move) = none) ∧
    (playing.zone .main).power = .on ∧ (playing.zone .main).waiting = none ∧ (playing.zone .main).mute = false ∧
    ((withZone .main (fun r => { r with waiting := some .tuner }) playing).zone .main).waiting ≠ none ∧
    ((withZone .main (fun r => { r with mute := true }) playing).zone .main).mute = true ∧
    ((withZone .main (fun r => { r with power := .waking }) playing).zone .main).power = .waking ∧
    (playing.speaker .fl).trim = 0 ∧ playing.decoder.binding = none := by decide +kernel

theorem witness_BlockStartsReport :
    let s := withZone .main (fun r => { r with waiting := some .tuner }) playing
    (withDelay (fun d => { d with segments := [seg 0 1024] }) quiet).delay.inDram = false ∧
    s.delay.inDram = true ∧ (s.zone .main).power = .on ∧ (s.zone .main).waiting = some .tuner ∧
    ((withZone .z2 (fun r => { r with power := .quieting, quietStage := some .ramp }) s).zone .z2).quietStage =
      some .ramp ∧
    (let h := withOut 3 (fun r => { r with state := .handover, phase := some .rampDown }) quiet;
      (h.out 3).state = .handover ∧ (h.out 3).phase = some .rampDown ∧ 3 ∉ h.delay.starved) ∧
    (let c := withDelay (fun d => { d with segments := [{ seg 0 0 with change := some ⟨.relocate, 300, 9, 2⟩ }] }) s;
      (c.delay.segment 0).bind (·.change) = some ⟨.relocate, 300, 9, 2⟩ ∧ 0 ∉ c.delay.starved) ∧
    (let m := withDelay (fun d => { d with segments := [{ seg 0 60 with move := some ⟨0, .ramp, 0⟩ }] }) s;
      m.delay.inDram = true ∧ (m.delay.segment 0).bind (·.move) = some ⟨0, .ramp, 0⟩ ∧
      (m.gain 0).current = -161) ∧
    (let w := withDelay (fun d => { d with segments := [copying] })
        (withZone .main (fun r => { r with switchIn := true }) playing);
      w.delay.inDram = true ∧ (w.zone .main).switchIn = true ∧ (w.out 0).grantedTo .main = true ∧
      w.atBlock.delay.segment 0 = some copying ∧ copying.move = some ⟨0, .copy, 2⟩) ∧
    (playing.blockWave silence 0).isSome = true ∧ (quiet.blockWave silence 0).isNone = true ∧
    playing.atBlock.delay.segment 0 = some (seg 0 0) ∧ (seg 0 0).move = none ∧
    (∀ x, x ∈ playing.delay.segments → x.change = none ∧ x.move = none) ∧
    (let q := withZone .main (fun r => { r with power := .quieting, quietStage := some .ramp }) playing;
      (q.out 0).grantedTo .main = true ∧ 0 ∉ q.delay.starved ∧ (q.zone .main).quietStage = some .ramp) ∧
    (quiet.zone .main).power = .standby ∧ (∀ z, z ∈ Zone.all → (quiet.zone z).waiting = none) ∧
    (remote.out 5).grantedTo .z2 = true ∧ (remote.out 5).role = some .z2l ∧ (remote.out 6).role = some .z2r ∧
    (bass.atBlock.mix.speakerSet = [.fl, .sub1]) ∧ mainPositions[(0 : Fin 9).val]? = some .fl ∧
    ((downmixed none).zone .z2).live = .input 0 ∧ ((downmixed none).zone .z2).power = .on := by decide +kernel

/-- Page 0 holds O1's line, whose words 0 to 47 the block writes; word 48 and page 1 keep theirs. -/
theorem witness_BlockStartsReport_words :
    let g := seg 0 0
    playing.atBlock.delay.segment 0 = some g ∧ playing.blockWave silence 0 ≠ none ∧ g.move = none ∧
    (∀ k, k < 48 → g.ringWord 0 k < 48) ∧ (playing.zone .main).switchIn = false ∧ playing.delay.starved = [] ∧
    playing.delay.segments.map (·.change) = [none] := by decide +kernel

theorem segments_ok_playing : playing.segmentsOk := by
  have h : playing.delay.segments = [seg 0 0] := rfl
  have r : playing.delay.state = .ready := by decide +kernel
  have c : playing.delay.check = none := by decide +kernel
  refine ⟨by rw [h]; decide, by rw [h]; simp, ?_, by rw [h]; simp, fun _ => r, fun k => absurd c k⟩
  rw [h]
  intro g hg
  obtain rfl := List.mem_singleton.1 hg
  refine ⟨by decide, by decide, by decide, by decide, fun p _ _ => ?_, fun c hc => ?_, fun m hm => ?_⟩
  · have b : playing.delay.badRows = [] := by decide +kernel
    simp [DelayState.pageBad, b]
  · cases hc
  · cases hm

theorem witness_MemoryStartChecksRows :
    let st := fun m : MemoryState => withDelay (fun d => { d with state := m }) quiet
    let chk := fun (l : CheckLevel) (g : CheckStage) (row bad : Nat) => withSlot 0 (body .memoryStart)
      (withDelay (fun d => { d with state := .initializing, check := some ⟨l, g, row, bad, 0⟩ }) quiet)
    takenAtOnce quiet .a (hd 5) (.memoryStart 2) ∧ checkLevelOf 1 = some .full ∧ quiet.delay.state = .ready ∧
    takenAtOnce (st .initializing) .a (hd 5) (.memoryStart 1) ∧ takenAtOnce (st .fault) .a (hd 5) (.memoryStart 1) ∧
    (st .fault).freeSlot = some 0 ∧ (slotsFull (st .uninit)).freeSlot = none ∧ quiet.delay.check = none ∧
    (chk .quick .sequence 0 0).delay.check = some ⟨.quick, .sequence, 0, 0, 0⟩ ∧
    (chk .quick .rows 255 0).delay.check = some ⟨.quick, .rows, 255, 0, 0⟩ ∧
    canPost (chk .quick .rows 255 0) 0 (body .memoryStart) ∧ canPost (chk .quick .rows 85 0) 0 (body .memoryStart) ∧
    (chk .quick .rows 170 0).delay.check = some ⟨.quick, .rows, 170, 0, 0⟩ ∧
    canPost (chk .full .rows 254 64) 0 (body .memoryStart) ∧
    (chk .full .rows 254 63).delay.check = some ⟨.full, .rows, 254, 63, 0⟩ ∧
    canPost (chk .full .rows 255 63) 0 (body .memoryStart) ∧ canPost (chk .full .rows 255 64) 0 (body .memoryStart) ∧
    (chk .full .rows 0 64).delay.check = some ⟨.full, .rows, 0, 64, 0⟩ := by
  unfold takenAtOnce canPost; decide +kernel

theorem witness_CompactionMovesSegments :
    let st := fun m : MemoryState => withDelay (fun d => { d with state := m }) quiet
    let held := withDelay (fun d => { d with segments := [seg 0 60] }) quiet
    let moving := fun (n cop : Nat) (ex : List (Fin 13)) => withSlot 0 (body .compact) (withDelay (fun d => { d with
      segments := [{ seg 0 60 with count := n, move := some ⟨0, .copy, cop⟩ }]
      compaction := some ⟨0, 0, ex, some 0, 0, false⟩ }) quiet)
    takenAtOnce (st .initializing) .a (hd 4) .compactDelayMemory ∧
    takenAtOnce (st .fault) .a (hd 4) .compactDelayMemory ∧ takenAtOnce (slotsFull quiet) .a (hd 4) .compactDelayMemory ∧
    (slotsFull quiet).freeSlot = none ∧ takenAtOnce held .a (hd 4) .compactDelayMemory ∧ held.freeSlot = some 0 ∧
    held.delay.segments = seg 0 60 :: [] ∧ (seg 0 60).change = none ∧ (0 : Nat) < (seg 0 60).base ∧
    (seg 0 60).count = 1 ∧ held.delay.pageBad 0 = false ∧ held.delay.pageFree 0 = true ∧
    quiet.delay.segments = [] ∧ quiet.delay.starved = [] ∧ quiet.delay.inDram = true ∧
    quiet.delay.compaction = none ∧ (moving 3 1 [0]).delay.inDram = true ∧
    (moving 3 1 [0]).delay.compaction = some ⟨0, 0, [0], some 0, 0, false⟩ ∧
    ((moving 3 1 [0]).delay.segment 0).bind (·.move) = some ⟨0, .copy, 1⟩ ∧
    ((moving 3 2 [0]).delay.segment 0).bind (·.move) = some ⟨0, .copy, 2⟩ ∧ (0 : Fin 13) ∈ ([0] : List (Fin 13)) ∧
    (moving 3 2 [0]).delay.starved = [] ∧ canPost (moving 3 2 [0]) 0 (body .compact) ∧
    (let starved := fun (p : Power) => withZone .main (fun r => { r with power := p })
        (withOut 1 (fun r => { r with state := .starved, zone := some .main, role := some (.pos .fr) })
          (withDelay (fun d => { d with starved := [1], compaction := some ⟨0, 0, [0], some 0, 0, true⟩ })
            (moving 3 2 [0])));
      let moved := fun (s : State) (g : Segment) (m : MoveRec) =>
        ({ (s.delay.copyPage g m).finishMove g m with compaction := none } : DelayState);
      let g := { seg 0 60 with count := 3, move := some ⟨0, .copy, 2⟩ };
      (starved .on).delay.inDram = true ∧ (starved .on).delay.starved = [1] ∧
      (starved .on).delay.segment 0 = some g ∧ ((starved .on).out 1).zone = some .main ∧
      ((starved .on).out 1).role = some (.pos .fr) ∧ ((starved .waking).zone .main).power = .waking ∧
      canPost (starved .on) 0 (body .compact) ∧
      okB ((moved (starved .on) g ⟨0, .copy, 2⟩).request [(1, 0)]) = true ∧
      okB ((moved (withDelay (fun d => { d with state := .fault }) (starved .on)) g ⟨0, .copy, 2⟩).request
        [(1, 0)]) = false) := by
  unfold takenAtOnce canPost; decide +kernel

/-- O1 at page 0 is passed over, and O3 at page 8 moves to page 1. -/
theorem witness_CompactionMovesSegments_examinations :
    duet.segmentsOk ∧
    Relation.ReflTransGen duet.delay.passesOver ⟨0, 0, [], none, 0, false⟩ ⟨0, 1, [0], none, 0, false⟩ ∧
    duet.delay.nextSegment ⟨0, 1, [0], none, 0, false⟩ (seg 2 8) ∧ (seg 2 8).change = none ∧
    duet.delay.lowerRun 1 (seg 2 8) 1 ∧ (∀ b, b < 1 → ¬ duet.delay.lowerRun 1 (seg 2 8) b) ∧
    (∀ g, ¬ duet.delay.nextSegment ⟨0, 9, [0, 2], none, 0, false⟩ g) := by
  have hs : duet.delay.segments = [seg 0 0, seg 2 8] := by decide +kernel
  refine ⟨segments_ok_two _ _ _ hs (by decide) (by decide +kernel) (by decide +kernel) (by decide +kernel)
    (by decide) rfl (fun m hm => by cases hm) (by decide) (by decide), .single ⟨seg 0 0, ?_, .inr ?_, rfl⟩, ?_, rfl,
    ?_, ?_, ?_⟩
  · unfold DelayState.nextSegment; rw [hs]; decide
  · rintro b ⟨-, h, -⟩; exact absurd h (Nat.not_lt_zero b)
  · unfold DelayState.nextSegment; rw [hs]; decide
  · unfold DelayState.lowerRun; decide +kernel
  · rintro b hb ⟨h, -⟩; omega
  · rintro g ⟨hg, -, hx, -⟩
    rw [hs] at hg
    rcases List.mem_cons.1 hg with rfl | hg
    · exact hx (by decide)
    · obtain rfl := List.mem_singleton.1 hg
      exact hx (by decide)

/-- O1 ends its move to page 0, and O3 at page 70 moves to page 3; with O3 examined, nothing is left. -/
theorem witness_CompactionMovesSegments_copies :
    let g : Segment := { seg 0 60 with count := 3, move := some ⟨0, .copy, 2⟩ }
    let s := fun (ex : List (Fin 13)) (ab : Bool) => withDelay (fun d => { d with
      segments := [g, seg 2 70], compaction := some ⟨0, 0, ex, some 0, 0, ab⟩ }) quiet
    let done := fun ex ab => ((s ex ab).delay.copyPage g ⟨0, .copy, 2⟩).finishMove g ⟨0, .copy, 2⟩
    (∀ ex ab, (s ex ab).segmentsOk ∧ (s ex ab).delay.segment 0 = some g) ∧
    (done [0] false).nextSegment ⟨0, 3, [0], none, 3, false⟩ (seg 2 70) ∧
    (done [0] false).lowerRun 3 (seg 2 70) 3 ∧ (∀ b, b < 3 → ¬ (done [0] false).lowerRun 3 (seg 2 70) b) ∧
    (∀ h, ¬ (done [0, 2] false).nextSegment ⟨0, 3, [0, 2], none, 3, false⟩ h) := by
  intro g s done
  have hd : ∀ ex, ex ∈ [[0], [0, 2]] → (done ex false).segments =
      [{ seg 0 0 with count := 3, writePos := 0 }, seg 2 70] := by decide +kernel
  refine ⟨fun ex ab => ⟨segments_ok_two (s ex ab) g (seg 2 70) rfl (by decide) rfl rfl rfl (by decide) rfl
    (fun m hm => ?_) (by decide) (by decide), rfl⟩, ?_, ?_, ?_, ?_⟩
  · obtain rfl : (⟨0, .copy, 2⟩ : MoveRec) = m := Option.some.inj hm
    exact ⟨by decide, by decide, _, rfl, rfl⟩
  · unfold DelayState.nextSegment; rw [hd _ (by decide)]; decide
  · unfold DelayState.lowerRun; decide +kernel
  · rintro b hb ⟨h, -⟩; omega
  · rintro h ⟨hg, -, hx, -⟩
    rw [hd _ (by decide)] at hg
    rcases List.mem_cons.1 hg with rfl | hg
    · exact hx (by decide)
    · obtain rfl := List.mem_singleton.1 hg
      exact hx (by decide)

/-- The tuner holds an operation of port A in slot 0. -/
def busyTuner (k : TunerOpKind) (sk : SlotKind) (st : TunerState) : State :=
  withSlot 0 (body sk) (withTuner (fun t => { t with state := st, op := some ⟨k, 0, .a, .fm, 0, 0⟩ }) quiet)

theorem witness_TuneCommandsSettle :
    let listed := withTuner (fun t => { t with stations := [⟨.am, 999, 50, none⟩]
                                               presets := t.presets.set 39 (some ⟨.fm, 10800, none⟩) }) quiet
    takenAtOnce quiet .a (hd 7) (.tune 2 9800) ∧ takenAtOnce quiet .a (hd 7) (.tune 0 8749) ∧ bandOf 0 = some .fm ∧
    (8749 : Half).toNat < gridLow .fm .nine ∧ gridHigh .am < (1711 : Half).toNat ∧
    takenAtOnce quiet .a (hd 7) (.tune 1 1711) ∧ takenAtOnce quiet .a (hd 5) (.recallStation 0) ∧
    takenAtOnce quiet .a (hd 5) (.recallPreset 41) ∧ takenAtOnce quiet .a (hd 5) (.recallPreset 40) ∧
    quiet.tunesTo (.tune 0 10800) = some (.tune, .fm, 10800) ∧ takenAtOnce quiet .a (hd 7) (.tune 0 10800) ∧
    listed.tunesTo (.recallStation 0) = some (.recallStation, .am, 999) ∧
    takenAtOnce listed .a (hd 5) (.recallStation 0) ∧
    listed.tunesTo (.recallPreset 40) = some (.recallPreset, .fm, 10800) ∧
    takenAtOnce listed .a (hd 5) (.recallPreset 40) ∧
    (busyTuner .seek .seek .seeking).tuner.op = some ⟨.seek, 0, .a, .fm, 0, 0⟩ ∧
    takenAtOnce (busyTuner .seek .seek .seeking) .b (hd 7) (.tune 0 10800) ∧
    (withTuner (fun t => { t with state := .idle }) quiet).tuner.state = .idle ∧ quiet.tuner.frequency = 8750 ∧
    quiet.tuner.op = none ∧ quiet.freeSlot = some 0 ∧ (slotsFull quiet).freeSlot = none ∧
    canPost (busyTuner .stepTune .stepTune .settling) 0 (body .stepTune) ∧
    takenAtOnce (busyTuner .stepTune .stepTune .settling) .a (hd 5) (.stepTune 1) ∧
    takenAtOnce quiet .a (hd 5) (.stepTune 2) ∧ directionOf 1 = some .down ∧
    TunerOp.yieldsTo ⟨.stepTune, 0, .a, .fm, 0, 0⟩ .b ∧ TunerOp.yieldsTo ⟨.seek, 0, .a, .fm, 0, 0⟩ .a ∧
    takenAtOnce (busyTuner .stepTune .stepTune .settling) .b (hd 7) (.tune 0 10800) ∧
    canPost (busyTuner .seek .seek .seeking) 0 (body .seek) ∧
    (busyTuner .seek .seek .seeking).freeSlot = some 1 ∧
    takenAtOnce (busyTuner .seek .seek .seeking) .a (hd 7) (.tune 0 10800) ∧
    takenAtOnce (busyTuner .seek .seek .seeking) .a (hd 5) (.stepTune 1) ∧
    takenAtOnce (withPort (fun r => { r with completions := eight }) (busyTuner .seek .seek .seeking)) .a (hd 5)
      (.stepTune 1) ∧
    gridLow .am .ten ≤ 1709 ∧ 1709 ≤ gridHigh .am ∧ onGrid .am .nine 522 = true ∧ onGrid .am .nine 1710 = true := by
  unfold takenAtOnce canPost TunerOp.yieldsTo; decide +kernel

theorem witness_SeeksTestEveryChannel :
    let run := fun (start : Nat) => withTuner (fun t => { t with frequency := 9805, seek := some ⟨.up, start, 25⟩ })
      (busyTuner .seek .seek .seeking)
    takenAtOnce quiet .a (hd 5) (.seek 2) ∧ directionOf 0 = some .up ∧ takenAtOnce quiet .a (hd 5) (.seek 0) ∧
    takenAtOnce (run 9800) .b (hd 5) (.seek 0) ∧ (run 9800).tuner.op = some ⟨.seek, 0, .a, .fm, 0, 0⟩ ∧
    (slotsFull quiet).freeSlot = none ∧ quiet.tuner.op = none ∧ quiet.freeSlot = some 0 ∧
    takenAtOnce (run 9800) .a (hd 5) (.seek 1) ∧ (run 9800).freeSlot ≠ none ∧
    (run 9800).tuner.seek = some ⟨.up, 9800, 25⟩ ∧ canPost (run 9800) 0 (body .seek) ∧
    quiet.tuner.state ≠ .seeking ∧ (run 9800).tuner.state = .seeking ∧
    (run 9800).tuner.threshold ≤ (30 : Fin 101).val ∧ (29 : Fin 101).val < (run 9800).tuner.threshold ∧
    TunerOp.yieldsTo ⟨.seek, 0, .a, .fm, 0, 0⟩ .a ∧ TunerOp.yieldsTo ⟨.tune, 0, .a, .fm, 0, 0⟩ .c ∧
    takenAtOnce (busyTuner .tune .tune .settling) .c (hd 5) (.seek 1) ∧
    canPost (busyTuner .tune .tune .settling) 0 (body .tune) ∧
    (busyTuner .scan .scan .scanning).tuner.op = some ⟨.scan, 0, .a, .fm, 0, 0⟩ ∧
    takenAtOnce (busyTuner .scan .scan .scanning) .a (hd 5) (.seek 1) ∧
    takenAtOnce (withPort (fun r => { r with completions := eight }) (busyTuner .scan .scan .scanning)) .a (hd 5)
      (.seek 1) ∧
    canPost (busyTuner .scan .scan .scanning) 0 (body .scan) ∧
    nextChannel .fm .nine .up 9805 ≠ 9800 ∧ nextChannel .fm .nine .up 9805 = 9810 ∧
    canPost (run 9810) 0 (body .seek) := by
  unfold takenAtOnce canPost TunerOp.yieldsTo; decide +kernel

theorem witness_ScansBuildTheStationList :
    let fm := (List.range 40).map (fun k => (⟨.fm, 8750 + 5 * k, 50, none⟩ : StationEntry))
    let am := (List.range 40).map (fun k => (⟨.am, 522 + 9 * k, 50, none⟩ : StationEntry))
    let run := fun (ch : Nat) (l : List StationEntry) => withTuner (fun t => { t with
      stations := l, scan := some ⟨ch, 25⟩ }) (busyTuner .scan .scan .scanning)
    takenAtOnce quiet .a (hd 5) (.scan 2) ∧ bandOf 1 = some .am ∧ takenAtOnce quiet .a (hd 5) (.scan 1) ∧
    quiet.tuner.op = none ∧ quiet.freeSlot = some 0 ∧ (slotsFull quiet).freeSlot = none ∧
    TunerOp.yieldsTo ⟨.stepTune, 0, .a, .fm, 0, 0⟩ .b ∧ TunerOp.yieldsTo ⟨.scan, 0, .a, .fm, 0, 0⟩ .a ∧
    takenAtOnce (busyTuner .stepTune .stepTune .settling) .b (hd 5) (.scan 1) ∧
    canPost (busyTuner .stepTune .stepTune .settling) 0 (body .stepTune) ∧
    takenAtOnce (busyTuner .scan .scan .scanning) .a (hd 5) (.scan 0) ∧
    canPost (busyTuner .scan .scan .scanning) 0 (body .scan) ∧
    (busyTuner .scan .scan .scanning).freeSlot = some 1 ∧
    quiet.tuner.state ≠ .scanning ∧ (run 9800 []).tuner.state = .scanning ∧
    (run 9800 []).tuner.scan = some ⟨9800, 25⟩ ∧ (run 9800 []).tuner.op = some ⟨.scan, 0, .a, .fm, 0, 0⟩ ∧
    (run 9800 []).tuner.threshold ≤ (30 : Fin 101).val ∧ ¬ (run 9800 []).tuner.threshold ≤ (29 : Fin 101).val ∧
    (9800 : Nat) < gridHigh .fm ∧ gridHigh .fm ≤ 10800 ∧ canPost (run 10800 fm) 0 (body .scan) ∧
    fm.Pairwise (fun a b => a.before b = true) ∧ am.Pairwise (fun a b => a.before b = true) ∧
    40 ≤ (run 9800 fm).tuner.stations.length ∧ 40 ≤ (run 9800 am).tuner.stations.length ∧
    (∀ x, x ∈ (run 9800 am).tuner.stations → x.band ≠ .fm) ∧
    (⟨.fm, 8945, 50, none⟩ : StationEntry) ∈ (run 9800 fm).tuner.stations ∧
    (∀ x, x ∈ (run 9800 fm).tuner.stations → x.band = .fm → 50 < x.quality ∨ (50 = x.quality ∧ x.frequency ≤ 8945)) ∧
    (50 : Fin 101).val ≤ 50 ∧ 50 < (51 : Fin 101).val := by
  unfold takenAtOnce canPost TunerOp.yieldsTo; decide +kernel

theorem witness_SettlesQualityAndLabels :
    let label : LabelRec := ⟨.partly, some true, some (0x52, 0x4F), some (0x43, 0x4B), none, some (0x46, 0x4D)⟩
    let s := withTuner (fun t => { t with state := .idle, quality := 20, label := label }) quiet
    quiet.tuner.state ≠ .settling ∧
    (withTuner (fun t => { t with state := .settling }) quiet).tuner.state = .settling ∧
    (withTuner (fun t => { t with state := .settling }) quiet).tuner.op = none ∧
    (busyTuner .tune .tune .settling).tuner.op = some ⟨.tune, 0, .a, .fm, 0, 0⟩ ∧
    canPost (busyTuner .tune .tune .settling) 0 (body .tune) ∧ s.tuner.state = .idle ∧ s.tuner.band = .fm ∧
    20 ≤ s.tuner.quality ∧ s.tuner.label.state ≠ .none ∧ s.tuner.label.version = some true ∧
    ¬ (quiet.tuner.state = .idle ∧ quiet.tuner.band = .fm ∧ 20 ≤ quiet.tuner.quality) ∧
    next (.labelSegment 2 true 0x39 0x07) s (fun t => t.tuner.label.state == .complete) = true ∧
    next (.labelSegment 2 false 0x39 0x07) s (fun t => t.tuner.label.state == .partly) = true := by
  unfold canPost; decide +kernel

/-- Ends of operations where the queue of the port is full and its chain holds on the slot: the record waits in the
slot, and the chain moves (AbortOperationTests, MemoryStartChecksRows, SeeksTestEveryChannel, ScansBuildTheStationList,
SettlesQualityAndLabels). -/
theorem witness_ends_that_wait :
    let held := withPort (fun r => { r with completions := eight, chain := .holding, hold := some ⟨0, true⟩ })
    let seeks := held (withTuner (fun t => { t with frequency := 9805, seek := some ⟨.up, 9800, 25⟩ })
      (busyTuner .seek .seek .seeking))
    let scans := held (withTuner (fun t => { t with scan := some ⟨10800, 25⟩ }) (busyTuner .scan .scan .scanning))
    let checks := held (withSlot 0 (body .memoryStart) (withDelay (fun d => { d with
      state := .initializing, check := some ⟨.quick, .rows, 255, 0, 0⟩ }) quiet))
    let waits := fun (st : Status) (ch : ChainState) (t : State) => (t.slot 0).any (fun b =>
      b.waiting.any (fun w => w.1.status == st)) && (t.port .a).chain == ch && (t.port .a).completions == eight
    (∀ b, ¬ canPost seeks 0 b) ∧ (∀ b, ¬ canPost scans 0 b) ∧ (∀ b, ¬ canPost checks 0 b) ∧
    next (.seekDwellExpiry 30) seeks (waits .done .open) = true ∧
    next (.abortOperation .a (hd 5) 0) seeks (waits .aborted .broken) = true ∧
    next (.scanDwellExpiry 0) scans (waits .done .open) = true ∧
    next (.quickRowTestEnd false) checks (waits .failed .broken) = true ∧
    next (.settleExpiry 40) (held (busyTuner .tune .tune .settling)) (waits .done .open) = true := by
  refine ⟨fun b h => ?_, fun b h => ?_, fun b h => ?_, by decide +kernel⟩
  all_goals
    obtain ⟨h1, h2, -⟩ := h
    obtain rfl := Option.some.inj h1
    exact absurd h2 (by decide +kernel)

theorem witness_TunerSettingsAndPresets :
    let am := withTuner (fun t => { t with band := .am, frequency := 531, state := .idle
                                           presets := t.presets.set 0 (some ⟨.am, 531, none⟩) }) quiet
    let stored := withTuner (fun t => { t with presets := t.presets.set 39 (some ⟨.fm, 8750, none⟩) }) quiet
    takenAtOnce quiet .a (hd 5) (.setSeekThreshold 30) ∧ max 10 (min (30 : Byte).toNat 90) = quiet.tuner.threshold ∧
    takenAtOnce quiet .a (hd 5) (.setSeekThreshold 9) ∧ max 10 (min (9 : Byte).toNat 90) = 10 ∧
    takenAtOnce quiet .a (hd 5) (.setSeekThreshold 91) ∧ max 10 (min (91 : Byte).toNat 90) = 90 ∧
    takenAtOnce quiet .a (hd 5) (.setRegion 2) ∧ takenAtOnce quiet .a (hd 5) (.setRegion 0) ∧
    regionOf 0 = some .nine ∧ takenAtOnce (busyTuner .scan .scan .scanning) .b (hd 5) (.setRegion 1) ∧
    takenAtOnce (busyTuner .scan .scan .scanning) .a (hd 5) (.setRegion 1) ∧
    (busyTuner .scan .scan .scanning).tuner.op = some ⟨.scan, 0, .a, .fm, 0, 0⟩ ∧
    canPost (busyTuner .scan .scan .scanning) 0 (body .scan) ∧
    canPost (busyTuner .seek .seek .seeking) 0 (body .seek) ∧
    takenAtOnce am .a (hd 5) (.setRegion 1) ∧ regionOf 1 = some .ten ∧ snapDown .am .ten am.tuner.frequency = 530 ∧
    am.tuner.op = none ∧ am.tuner.state ≠ .parked ∧ quiet.tuner.state = .parked ∧
    am.tuner.presets[(0 : Fin 40)] = some ⟨.am, 531, none⟩ ∧ onGrid .am .ten 531 = false ∧
    takenAtOnce quiet .a (hd 5) (.storePreset 0) ∧ takenAtOnce quiet .a (hd 5) (.storePreset 41) ∧
    takenAtOnce quiet .a (hd 5) (.storePreset 40) ∧ (40 : Byte).toNat = (39 : Fin 40).val + 1 ∧
    quiet.tuner.presets[(39 : Fin 40)] = none ∧ takenAtOnce stored .a (hd 5) (.storePreset 40) ∧
    stored.tuner.presets[(39 : Fin 40)] = some ⟨.fm, 8750, none⟩ ∧
    takenAtOnce quiet .a (hd 5) (.clearPreset 41) ∧ takenAtOnce quiet .a (hd 5) (.clearPreset 1) ∧
    takenAtOnce stored .a (hd 5) (.clearPreset 40) ∧ snapDown .am .ten 522 = 530 ∧ snapDown .am .nine 521 = 522 ∧
    snapDown .am .nine 530 = 522 ∧ snapDown .am .ten 539 = 530 ∧ snapDown .am .ten 1710 = 1710 := by
  unfold takenAtOnce canPost; decide +kernel

/-- A state that can step, and whose queues, binding, gains, DRAM and tuner are in order; and one whose step takes the
binding away while MAIN stays ON. -/
theorem witness_StepsKeepQueuesAndBinding :
    let s := ({ lent with pending := [.signalLoss 0] } : State)
    (match step { quiet with pending := [.minuteEvent] } with | .next _ => true | _ => false) = true ∧
    (∀ p, (quiet.port p).queuesOk) ∧ quiet.bindingOk ∧ s.followed ∧
    (match step s with
      | .next t => t.decoder.binding != s.decoder.binding && (t.zone .main).power == .on
      | _ => false) = true := by
  refine ⟨by decide +kernel, ?_, ?_, followed_of_inOrder (by decide +kernel), by decide +kernel⟩
  · intro p; cases p <;> (unfold PortRec.queuesOk; decide +kernel)
  · unfold State.bindingOk; decide +kernel

theorem witness_StepsKeepDramAndGains :
    (playing.dramOk ∧ (∀ o, (playing.gain o).ok) ∧
      (match step { playing with pending := [.blockStart silence] } with | .next _ => true | _ => false) = true) ∧
    playing.segmentsOk := by
  refine ⟨?_, segments_ok_playing⟩
  unfold State.dramOk GainRec.ok; decide +kernel

theorem witness_ResetKeepsInvariants : playing.segmentsOk := segments_ok_playing

/-- Z3 takes the tuner in WAKING and ends its parking; Z2 quiets and parks it; and an aborted scan parks it. -/
theorem witness_StepsKeepTheTunerInOrder_activity :
    let s := { withZone .z3 (fun r => { r with power := .waking }) quiet with pending := [.selectSource .a (hd 6) 2 12] }
    let u := { heard .on with pending := [.zoneStandby .a (hd 5) 1] }
    let v := { withTuner (fun t => { t with scan := some ⟨9800, 25⟩ }) (busyTuner .scan .scan .scanning) with
      pending := [.abortOperation .a (hd 5) 0] }
    (∀ x, x ∈ [s, u, v] → x.followed) ∧
    s.tuner.state = .parked ∧ (match step s with
      | .next t => t.tunerHeard && t.tuner.op == none && t.tuner.state == .settling
      | _ => false) = true ∧
    u.tuner.op = none ∧ u.tuner.state ≠ .parked ∧ (match step u with
      | .next t => t.tuner.state == .parked && (t.zone .z2).power == .quieting
      | _ => false) = true ∧
    v.tuner.op ≠ none ∧ (match step v with
      | .next t => !t.tunerHeard && t.tuner.op == none && t.tuner.state == .parked
      | _ => false) = true := by
  refine ⟨fun x hx => followed_of_inOrder ?_, by decide +kernel⟩
  revert x; decide +kernel

theorem witness_StepsKeepTheTunerInOrder :
    let t := quiet.tuner
    onGrid t.band t.region t.frequency = true ∧ t.seek = none ∧ t.scan = none ∧ t.stations = [] ∧
    (∀ n : Fin 40, t.presets[n] = none) ∧ t.label.chars.length = 8 := by decide +kernel

end Sys2Proof.Tests
end

section
/-! PROOFS. The gain words of R109: what the bit search of the model finds is the rounded power of ten, and it rises
at every step. -/

open Sys2Proof Sys2Proof.Machine

namespace Sys2Proof.Machine

/-! ### The search for the gain word (R109) -/

/-- Setting bits from the highest down, each kept while a threshold is not passed, ends at the threshold. -/
theorem foldl_bits_eq_threshold {p : Nat → Bool} {m : Nat} (hp : ∀ w, w ≠ 0 → (p w = true ↔ w ≤ m)) (n : Nat) :
    ∀ a, a ≤ m → m < a + 2 ^ n →
      (List.range n).reverse.foldl (fun w b => if p (w + 2 ^ b) then w + 2 ^ b else w) a = m := by
  induction n with
  | zero =>
    intro a h1 h2
    simp only [List.range_zero, List.reverse_nil, List.foldl_nil]
    omega
  | succ n ih =>
    intro a h1 h2
    have hpos := Nat.two_pow_pos n
    rw [List.range_succ, List.reverse_append, List.reverse_singleton, List.singleton_append, List.foldl_cons]
    by_cases hb : a + 2 ^ n ≤ m
    · rw [if_pos ((hp _ (by omega)).2 hb)]
      exact ih _ hb (by omega)
    · rw [if_neg (fun h => hb ((hp _ (by omega)).1 h))]
      exact ih _ h1 (by omega)

/-- The gain word before it is rounded (R109). -/
noncomputable def gainExact (g : Int) : ℝ := (1048576 : ℝ) * (10 : ℝ) ^ ((g : ℝ) / 40)

theorem gainExact_pos (g : Int) : 0 < gainExact g := by
  unfold gainExact; positivity

theorem gainExact_mono {g h : Int} (hg : g ≤ h) : gainExact g ≤ gainExact h := by
  have : (g : ℝ) ≤ h := by exact_mod_cast hg
  unfold gainExact
  gcongr
  norm_num

theorem gainExact_succ (g : Int) : gainExact (g + 1) = gainExact g * (10 : ℝ) ^ ((40 : ℝ)⁻¹) := by
  unfold gainExact
  rw [mul_assoc, ← Real.rpow_add (by norm_num)]
  push_cast
  ring_nf

/-- The 40th power of twice the exact gain word, which the model compares in whole numbers. -/
theorem two_mul_gainExact_pow (g : Int) :
    (2 * gainExact g) ^ 40 * 10 ^ (-g).toNat = 2 ^ 840 * 10 ^ g.toNat := by
  have hroot : ((10 : ℝ) ^ ((g : ℝ) / 40)) ^ 40 = (10 : ℝ) ^ g := by
    rw [← Real.rpow_natCast, ← Real.rpow_mul (by norm_num), ← Real.rpow_intCast]
    norm_num
  have hsplit : (10 : ℝ) ^ g * 10 ^ (-g).toNat = 10 ^ g.toNat := by
    rw [← zpow_natCast, ← zpow_natCast, ← zpow_add₀ (by norm_num)]
    congr 1
    omega
  have hscale : 2 * gainExact g = 2 ^ 21 * (10 : ℝ) ^ ((g : ℝ) / 40) := by unfold gainExact; ring
  rw [hscale, mul_pow, ← pow_mul, hroot, mul_assoc, hsplit]

/-- The model's test of a word: it is at most the exact gain word and a half. -/
theorem gainReaches_iff (g : Int) {w : Nat} (hw : w ≠ 0) :
    gainReaches g w = true ↔ (w : ℝ) ≤ gainExact g + 1 / 2 := by
  have hodd : ((2 * w - 1 : Nat) : ℝ) = 2 * w - 1 := by
    rw [Nat.cast_sub (by omega)]; push_cast; ring
  have hg := gainExact_pos g
  unfold gainReaches
  rw [decide_eq_true_iff]
  calc (2 * w - 1) ^ 40 * 10 ^ (-g).toNat ≤ 2 ^ 840 * 10 ^ g.toNat
      ↔ ((2 * w - 1 : Nat) : ℝ) ^ 40 * 10 ^ (-g).toNat ≤ (2 * gainExact g) ^ 40 * 10 ^ (-g).toNat := by
        rw [two_mul_gainExact_pow]; exact_mod_cast Iff.rfl
    _ ↔ ((2 * w - 1 : Nat) : ℝ) ≤ 2 * gainExact g := by
        rw [mul_le_mul_iff_left₀ (by positivity), pow_le_pow_iff_left₀ (by positivity) (by positivity) (by norm_num)]
    _ ↔ (w : ℝ) ≤ gainExact g + 1 / 2 := by
        rw [hodd]; constructor <;> intro h <;> linarith

/-- Up to index +24 the gain word has 23 bits. -/
theorem gainExact_lt_two_pow {g : Int} (hg : g ≤ 24) : gainExact g + 1 / 2 < 2 ^ 23 := by
  have hmax : gainReaches 24 (2 ^ 23) = false := by decide +kernel
  have h24 : gainExact 24 + 1 / 2 < 2 ^ 23 := by
    rw [← Bool.not_eq_true, gainReaches_iff 24 (by norm_num), not_le] at hmax
    exact_mod_cast hmax
  linarith [gainExact_mono hg]

/-- The gain word is the exact one rounded to the nearest integer, a half up (R109). -/
theorem gainWord_eq_floor {g : Int} (hlo : -160 ≤ g) (hhi : g ≤ 24) :
    gainWord g = ⌊gainExact g + 1 / 2⌋₊ := by
  have hg := gainExact_pos g
  unfold gainWord
  rw [if_neg (by omega)]
  refine foldl_bits_eq_threshold (fun w hw => ?_) 23 0 (Nat.zero_le _) ?_
  · rw [gainReaches_iff g hw, Nat.le_floor_iff' hw]
  · rw [Nat.zero_add, Nat.floor_lt (by positivity)]
    exact_mod_cast gainExact_lt_two_pow hhi

/-! ### The words rise (R109) -/

/-- One step of the index raises the exact gain word by at least a twentieth. -/
theorem gainExact_mul_le_succ (g : Int) : gainExact g * (21 / 20) ≤ gainExact (g + 1) := by
  have hroot : (21 / 20 : ℝ) ≤ (10 : ℝ) ^ ((40 : ℝ)⁻¹) := by
    rw [Real.le_rpow_inv_iff_of_pos (by norm_num) (by norm_num) (by norm_num)]
    norm_num
  rw [gainExact_succ]
  exact mul_le_mul_of_nonneg_left hroot (gainExact_pos g).le

/-- From index −160 on a step is wider than the rounding, so no two words are the same. -/
theorem gainWord_lt_succ {g : Int} (hlo : -160 ≤ g) (hhi : g < 24) : gainWord g < gainWord (g + 1) := by
  have hfirst : (20 : ℝ) ≤ gainExact (-160) := by
    unfold gainExact
    rw [show (((-160 : Int) : ℝ) / 40) = ((-4 : Int) : ℝ) by norm_num, Real.rpow_intCast]
    norm_num
  have hwide : gainExact g + 1 / 2 + 1 ≤ gainExact (g + 1) + 1 / 2 := by
    linarith [gainExact_mul_le_succ g, gainExact_mono hlo]
  have hg := gainExact_pos g
  rw [gainWord_eq_floor hlo (by omega), gainWord_eq_floor (g := g + 1) (by omega) (by omega), Nat.lt_iff_add_one_le,
    ← Nat.floor_add_one (by positivity)]
  exact Nat.floor_le_floor hwide

/-- Settles O47: the bit search of the model gives the rounded power, whose steps are wider than the rounding; the
words of R109's table are evaluated. -/
theorem gainWords : Obligations.GainWords := by
  have hmute : gainWord (-161) = 0 := rfl
  have hfirst : gainWord (-160) = 105 := by decide +kernel
  refine ⟨fun g hlo hhi => ?_, hmute, by rw [hfirst]; decide, fun g hlo hhi => ?_, by decide +kernel⟩
  · rw [gainWord_eq_floor hlo hhi]
    exact Int.natCast_floor_eq_floor (by linarith [gainExact_pos g])
  · rcases Int.lt_or_eq_of_le hlo with h | h
    · exact gainWord_lt_succ (by omega) hhi
    · subst h
      rw [hmute, show (-161 : Int) + 1 = -160 by norm_num, hfirst]
      norm_num

end Sys2Proof.Machine
end

section
/-! PROOFS. The gains at a block start (R106 to R108, R124): what the targets are set from survives the changes that a
block start takes, every gain is aimed and moved once, and the rest of the block leaves the gains alone. -/

open Sys2Proof Sys2Proof.Machine

namespace Sys2Proof.Machine

/-! ### One move and a ramp (R108) -/

/-- A gain moves from `g` to `g'`: one step of a ramp kind toward a target, never past it (R108). -/
def GainRec.movedToward (g g' : GainRec) (target : Int) (ramp : RampKind) : Prop :=
  g'.target = target ∧ g'.ramp = ramp ∧
  (g.current ≤ target → g'.current = min (g.current + (if ramp = .normal then 1 else 12)) target) ∧
  (target ≤ g.current → g'.current = max (g.current - (if ramp = .normal then 1 else 12)) target)

theorem RampKind.steps_eq (r : RampKind) : r.steps = if r = .normal then 1 else 12 := by
  cases r <;> rfl

theorem RampKind.steps_pos (r : RampKind) : 0 < r.steps := by
  cases r <;> decide

theorem GainRec.step_movedToward (g : GainRec) (target : Int) (ramp : RampKind) :
    g.movedToward ({ g with target := target, ramp := ramp } : GainRec).step target ramp := by
  have hpos := ramp.steps_pos
  unfold GainRec.movedToward
  rw [← RampKind.steps_eq]
  refine ⟨rfl, rfl, fun h => ?_, fun h => ?_⟩ <;> simp only [GainRec.step]
  · rw [if_pos h]
  · split <;> omega

/-- How far a gain is from its target. -/
def GainRec.distance (g : GainRec) : Nat := (g.current - g.target).natAbs

theorem GainRec.distance_eq_zero (g : GainRec) : g.distance = 0 ↔ g.current = g.target := by
  unfold GainRec.distance; omega

@[simp] theorem GainRec.step_target (g : GainRec) : g.step.target = g.target := rfl
@[simp] theorem GainRec.step_ramp (g : GainRec) : g.step.ramp = g.ramp := rfl

theorem GainRec.step_distance (g : GainRec) : g.step.distance = g.distance - g.ramp.steps.toNat := by
  have hpos := g.ramp.steps_pos
  unfold GainRec.distance GainRec.step
  dsimp only
  split <;> omega

theorem GainRec.iterate_step (n : Nat) : ∀ g : GainRec,
    (GainRec.step^[n] g).target = g.target ∧
    (GainRec.step^[n] g).distance = g.distance - n * g.ramp.steps.toNat := by
  induction n with
  | zero => intro g; simp
  | succ n ih =>
    intro g
    obtain ⟨htarget, hdist⟩ := ih g.step
    rw [Function.iterate_succ_apply, htarget, hdist, GainRec.step_distance, GainRec.step_target, GainRec.step_ramp,
      Nat.add_one_mul]
    exact ⟨rfl, by omega⟩

/-- After `n` blocks a gain is at its target exactly when `n` moves cover the distance. -/
theorem GainRec.iterate_step_arrived (g : GainRec) (n : Nat) :
    (GainRec.step^[n] g).current = g.target ↔ g.distance ≤ n * g.ramp.steps.toNat := by
  obtain ⟨htarget, hdist⟩ := GainRec.iterate_step n g
  rw [← htarget, ← GainRec.distance_eq_zero, hdist, Nat.sub_eq_zero_iff_le]

/-- The blocks that a ramp takes (R108). -/
def GainRec.blocks (g : GainRec) : Nat :=
  if g.ramp = .normal then g.distance else (g.distance + 11) / 12

theorem GainRec.distance_le_iff_blocks_le (g : GainRec) (n : Nat) :
    g.distance ≤ n * g.ramp.steps.toNat ↔ g.blocks ≤ n := by
  unfold GainRec.blocks
  cases g.ramp with
  | normal => simp [RampKind.steps]
  | fast =>
    change g.distance ≤ n * 12 ↔ (g.distance + 11) / 12 ≤ n
    omega

theorem GainRec.ramp_takes_blocks (g : GainRec) (n : Nat) :
    (n < g.blocks → (GainRec.step^[n] g).current ≠ g.target) ∧
    (g.blocks ≤ n → (GainRec.step^[n] g).current = g.target) := by
  rw [Ne, GainRec.iterate_step_arrived, GainRec.distance_le_iff_blocks_le]
  exact ⟨fun h => Nat.not_le.2 h, id⟩

section
variable (s : State)

/-! ### The targets, case by case (R106, R107, R124) -/

theorem State.heldSilent_iff (o : Fin 13) : s.heldSilent o = true ↔
    ∃ x, s.delay.segment o = some x ∧ (x.change ≠ none ∨ x.move ≠ none) := by
  unfold State.heldSilent Segment.held
  cases s.delay.segment o <;> simp [Option.isSome_iff_ne_none]

/-- The states that R107 silences at once. -/
def OutputRec.silencedAtOnce (r : OutputRec) : Prop :=
  r.state = .fault ∨ r.state = .idle ∨ r.state = .starved ∨ (r.state = .handover ∧ r.phase = some .relayOpen)

theorem State.aim_of_silencedAtOnce {o : Fin 13} (h : (s.out o).silencedAtOnce) :
    s.aim o = { s.gain o with current := -161, target := -161 } := by
  unfold State.aim
  rcases h with h | h | h | ⟨h, hp⟩
  · simp only [h]
  · simp only [h]
  · simp only [h]
  · simp only [h, hp]

theorem State.aim_of_rampDown {o : Fin 13} (h : (s.out o).state = .handover)
    (hp : (s.out o).phase = some .rampDown) : s.aim o = { s.gain o with target := -161, ramp := .fast } := by
  unfold State.aim
  simp only [h, hp]

theorem State.aim_of_held {o : Fin 13} (h : (s.out o).state = .granted) (hs : s.heldSilent o = true) :
    s.aim o = { s.gain o with target := -161, ramp := .fast } := by
  unfold State.aim
  simp only [h, hs, if_true]

theorem State.aim_of_granted {o : Fin 13} {z : Zone} {r : Role} (h : (s.out o).state = .granted)
    (hs : ¬ s.heldSilent o = true) (hz : (s.out o).zone = some z) (hr : (s.out o).role = some r) :
    s.aim o = { s.gain o with target := (s.grantedTarget z r).1, ramp := (s.grantedTarget z r).2 } := by
  unfold State.aim
  simp only [h, if_neg hs, hz, hr]

theorem State.grantedTarget_of_not_on {z : Zone} (r : Role) (h : (s.zone z).power ≠ .on) :
    s.grantedTarget z r = (-161, .fast) := by
  unfold State.grantedTarget
  split
  · next hp => exact absurd hp h
  · rfl

theorem State.grantedTarget_of_on {z : Zone} (r : Role) (h : (s.zone z).power = .on) :
    s.grantedTarget z r =
      if (s.zone z).waiting.isSome then (-161, .fast)
      else if (s.zone z).mute then (-161, .normal)
      else (s.normalTarget z r, .normal) := by
  unfold State.grantedTarget
  simp only [h]

theorem State.grantedTarget_of_waiting {z : Zone} (r : Role) (h : (s.zone z).power = .on)
    (hw : (s.zone z).waiting ≠ none) : s.grantedTarget z r = (-161, .fast) := by
  rw [s.grantedTarget_of_on r h, if_pos (Option.isSome_iff_ne_none.2 hw)]

theorem State.grantedTarget_of_mute {z : Zone} (r : Role) (h : (s.zone z).power = .on)
    (hw : (s.zone z).waiting = none) (hm : (s.zone z).mute = true) : s.grantedTarget z r = (-161, .normal) := by
  rw [s.grantedTarget_of_on r h, hw, hm]; rfl

theorem State.grantedTarget_of_sounding {z : Zone} (r : Role) (h : (s.zone z).power = .on)
    (hw : (s.zone z).waiting = none) (hm : (s.zone z).mute = false) :
    s.grantedTarget z r = (s.normalTarget z r, .normal) := by
  rw [s.grantedTarget_of_on r h, hw, hm]; rfl

/-- The last good header is handed to a zone that plays the bound input, and to no other (R81). -/
theorem State.headerFor_eq_some (z : Zone) (hd : FrameHeader) : s.headerFor z = some hd ↔
    ∃ i b, (s.zone z).live = .input i ∧ s.decoder.binding = some b ∧ b.val = i.val ∧ s.decoder.header = some hd := by
  unfold State.headerFor State.playsBound State.boundTo
  cases (s.zone z).live <;> cases s.decoder.binding <;> simp

/-- The trim of R106. -/
def State.trimOf (s : State) (z : Zone) (r : Role) : Int :=
  match z, r with
  | .main, .pos w => (s.speaker w).trim
  | _, _ => 0

/-- The dialogue level of R106. -/
def State.levelOf (s : State) (z : Zone) : Int :=
  match s.headerFor z with
  | some hd => hd.dialogue
  | none => 0

theorem State.normalTarget_eq (z : Zone) (r : Role) : s.normalTarget z r =
    max (-160) (min ((s.zone z).volume + s.trimOf z r - 2 * s.levelOf z -
      (if s.outputs.thw.active then 12 else 0)) 24) := rfl

theorem State.trimOf_eq {z : Zone} {r : Role} {trim : Int}
    (hpos : ∀ w, z = .main → r = .pos w → trim = (s.speaker w).trim)
    (hremote : (z ≠ .main ∨ ∀ w, r ≠ .pos w) → trim = 0) : s.trimOf z r = trim := by
  unfold State.trimOf
  split
  · next w => exact (hpos w rfl rfl).symm
  · next h =>
    refine (hremote ?_).symm
    by_cases hz : z = .main
    · exact .inr fun w hr => h w hz hr
    · exact .inl hz

theorem State.levelOf_eq {z : Zone} {level : Int} (hsome : ∀ hd, s.headerFor z = some hd → level = hd.dialogue)
    (hnone : s.headerFor z = none → level = 0) : s.levelOf z = level := by
  unfold State.levelOf
  split
  · next hd h => exact (hsome hd h).symm
  · next h => exact (hnone h).symm

/-! ### What the targets are set from -/

/-- What the targets read of a zone. -/
def ZoneRec.aimView (r : ZoneRec) : Power × Source × Option Source × Int × Bool :=
  (r.power, r.live, r.waiting, r.volume, r.mute)

/-- What the targets read of an output. -/
def OutputRec.aimView (r : OutputRec) : OutputState × Option Phase × Option Zone × Option Role :=
  (r.state, r.phase, r.zone, r.role)

/-- Two states agree on all that the targets of R106, R107 and R124 are set from. -/
structure AimKept (s t : State) : Prop where
  zone : ∀ z, (t.zone z).aimView = (s.zone z).aimView
  out : ∀ o, (t.out o).aimView = (s.out o).aimView
  gain : ∀ o, t.gain o = s.gain o
  speaker : ∀ w, t.speaker w = s.speaker w
  thw : t.outputs.thw = s.outputs.thw
  decoder : t.decoder = s.decoder
  held : ∀ o, t.heldSilent o = s.heldSilent o

section
variable {s} {t u : State}

theorem AimKept.refl (s : State) : AimKept s s :=
  ⟨fun _ => rfl, fun _ => rfl, fun _ => rfl, fun _ => rfl, rfl, rfl, fun _ => rfl⟩

theorem AimKept.trans (h : AimKept s t) (k : AimKept t u) : AimKept s u where
  zone z := (k.zone z).trans (h.zone z)
  out o := (k.out o).trans (h.out o)
  gain o := (k.gain o).trans (h.gain o)
  speaker w := (k.speaker w).trans (h.speaker w)
  thw := k.thw.trans h.thw
  decoder := k.decoder.trans h.decoder
  held o := (k.held o).trans (h.held o)

theorem AimKept.foldl {β : Type} {f : State → β → State} (h : ∀ s b, AimKept s (f s b)) (l : List β) :
    ∀ s, AimKept s (l.foldl f s) := by
  induction l with
  | nil => exact AimKept.refl
  | cons b l ih => exact fun s => (h s b).trans (ih _)

theorem AimKept.normalTarget (h : AimKept s t) (z : Zone) (r : Role) :
    t.normalTarget z r = s.normalTarget z r := by
  have hz := h.zone z
  simp only [ZoneRec.aimView, Prod.mk.injEq] at hz
  obtain ⟨-, hlive, -, hvolume, -⟩ := hz
  have hplays : t.playsBound z = s.playsBound z := by
    simp only [State.playsBound, State.boundTo, hlive, h.decoder]
  have htrim : t.trimOf z r = s.trimOf z r := by
    simp only [State.trimOf, h.speaker]
  have hlevel : t.levelOf z = s.levelOf z := by
    simp only [State.levelOf, State.headerFor, hplays, h.decoder]
  rw [State.normalTarget_eq, State.normalTarget_eq, hvolume, htrim, hlevel, h.thw]

theorem AimKept.grantedTarget (h : AimKept s t) (z : Zone) (r : Role) :
    t.grantedTarget z r = s.grantedTarget z r := by
  have hz := h.zone z
  simp only [ZoneRec.aimView, Prod.mk.injEq] at hz
  obtain ⟨hpower, -, hwaiting, -, hmute⟩ := hz
  simp only [State.grantedTarget, hpower, hwaiting, hmute, h.normalTarget]

theorem AimKept.aim (h : AimKept s t) (o : Fin 13) : t.aim o = s.aim o := by
  have ho := h.out o
  simp only [OutputRec.aimView, Prod.mk.injEq] at ho
  obtain ⟨hstate, hphase, hzone, hrole⟩ := ho
  simp only [State.aim, hstate, hphase, hzone, hrole, h.gain, h.held, h.grantedTarget]

end

/-! ### The changes that a block start takes (R86) -/

theorem State.setZone_aimKept {z : Zone} {r : ZoneRec} (h : r.aimView = (s.zone z).aimView) :
    AimKept s (s.setZone z r) where
  zone y := by
    by_cases e : y = z
    · subst e; rw [State.zone_setZone_self, h]
    · rw [State.zone_setZone_ne s r e]
  out _ := rfl
  gain _ := rfl
  speaker _ := rfl
  thw := rfl
  decoder := rfl
  held _ := rfl

theorem State.setOut_aimKept {o : Fin 13} {r : OutputRec} (h : r.aimView = (s.out o).aimView) :
    AimKept s (s.setOut o r) where
  zone _ := rfl
  out q := by
    by_cases e : q = o
    · subst e; rw [State.out_setOut_self, h]
    · rw [State.out_setOut_ne s r e]
  gain _ := rfl
  speaker _ := rfl
  thw := rfl
  decoder := rfl
  held _ := rfl

theorem State.setInput_aimKept (i : Fin 12) (r : InputRec) : AimKept s (s.setInput i r) :=
  ⟨fun _ => rfl, fun _ => rfl, fun _ => rfl, fun _ => rfl, rfl, rfl, fun _ => rfl⟩

theorem State.setDelay_aimKept {d : DelayState} (h : ∀ o, (s.setDelay d).heldSilent o = s.heldSilent o) :
    AimKept s (s.setDelay d) :=
  ⟨fun _ => rfl, fun _ => rfl, fun _ => rfl, fun _ => rfl, rfl, rfl, h⟩

theorem State.setMix_aimKept {m : MixState} (hg : m.gains = s.mix.gains) (hw : m.speakers = s.mix.speakers) :
    AimKept s (s.setMix m) where
  zone _ := rfl
  out _ := rfl
  gain o := by simp only [State.gain, State.setMix_mix, hg]
  speaker w := by simp only [State.speaker, State.setMix_mix, hw]
  thw := rfl
  decoder := rfl
  held _ := rfl

theorem State.setTimes_aimKept (k : TunerRec) (m : MinuteDivider) : AimKept s { s with tuner := k, minute := m } :=
  ⟨fun _ => rfl, fun _ => rfl, fun _ => rfl, fun _ => rfl, rfl, rfl, fun _ => rfl⟩

theorem State.countDown_aimKept : AimKept s s.countDown := by
  have hzones := AimKept.foldl (fun s z => s.setZone_aimKept (z := z) (r := (s.zone z).tick) rfl) Zone.all s
  have houts := AimKept.foldl (fun s o => s.setOut_aimKept (o := o)
    (r := { s.out o with relayOpenTimer := tick (s.out o).relayOpenTimer }) rfl) allOutputs
  have hins := AimKept.foldl (fun s i => s.setInput_aimKept (digital i)
    { s.input (digital i) with timer := tick (s.input (digital i)).timer }) allDigital
  exact ((hzones.trans (houts _)).trans (hins _)).trans (State.setTimes_aimKept _ _ _)

theorem DelayState.segment_clearCopied (d : DelayState) (g : Segment) (o : Fin 13) :
    (d.clearCopied g).segment o = d.segment o := by
  unfold DelayState.clearCopied
  split <;> rfl

/-- Clearing a line moves the write position of its segment and no other field of the table. -/
theorem DelayState.segment_clearLine_self (d : DelayState) (g : Segment) :
    (d.clearLine g).segment g.output = some { g with writePos := g.base * pageWords } :=
  DelayState.segment_setSegment_self _ { g with writePos := g.base * pageWords }

theorem DelayState.segment_clearLine_ne (d : DelayState) {g : Segment} {o : Fin 13} (h : o ≠ g.output) :
    (d.clearLine g).segment o = d.segment o :=
  DelayState.segment_setSegment_ne _ { g with writePos := g.base * pageWords } h

theorem State.clearOutputLine_aimKept (o : Fin 13) : AimKept s (s.clearOutputLine o) := by
  unfold State.clearOutputLine
  split
  · next g hg =>
    refine s.setDelay_aimKept fun q => ?_
    have ho := DelayState.segment_output hg
    unfold State.heldSilent
    rw [State.setDelay_delay]
    by_cases hq : q = g.output
    · rw [hq, DelayState.segment_clearLine_self, ho, hg]; rfl
    · rw [DelayState.segment_clearLine_ne _ hq, DelayState.segment_clearCopied]
  · exact AimKept.refl s

theorem State.takeSwitchIn_aimKept (z : Zone) : AimKept s (s.takeSwitchIn z) := by
  unfold State.takeSwitchIn
  split
  · have hlines := AimKept.foldl State.clearOutputLine_aimKept (s.grantedOutputs z) s
    exact hlines.trans (State.setZone_aimKept _ (hlines.zone z).symm)
  · exact AimKept.refl s

theorem State.takeRouting_aimKept : AimKept s s.takeRouting := State.setMix_aimKept s rfl rfl

theorem State.takeChanges_aimKept : AimKept s s.takeChanges :=
  (AimKept.foldl State.takeSwitchIn_aimKept Zone.all s).trans (State.takeRouting_aimKept _)

/-! ### Every gain is aimed and moved once (R86 step 2) -/

theorem State.aim_setGain_ne {o q : Fin 13} (g : GainRec) (h : q ≠ o) : (s.setGain o g).aim q = s.aim q := by
  unfold State.aim
  rw [State.gain_setGain_ne s g h]
  rfl

theorem State.foldl_stepGains_gain (l : List (Fin 13)) (hl : l.Nodup) (o : Fin 13) : ∀ s : State,
    (l.foldl (fun s o => s.setGain o (s.aim o).step) s).gain o = if o ∈ l then (s.aim o).step else s.gain o := by
  induction l with
  | nil => intro s; simp
  | cons q l ih =>
    intro s
    obtain ⟨hq, hnodup⟩ := List.nodup_cons.1 hl
    rw [List.foldl_cons, ih hnodup]
    by_cases e : o = q
    · subst e
      rw [if_neg hq, if_pos List.mem_cons_self, State.gain_setGain_self]
    · rw [State.aim_setGain_ne s _ e, State.gain_setGain_ne s _ e]
      simp only [List.mem_cons, e, false_or]

theorem State.stepGains_gain (o : Fin 13) : s.stepGains.gain o = (s.aim o).step := by
  have hmem : o ∈ allOutputs := by revert o; decide
  unfold State.stepGains
  rw [State.foldl_stepGains_gain _ (by decide), if_pos hmem]

theorem State.atBlock_gain (o : Fin 13) : s.atBlock.gain o = (s.aim o).step := by
  unfold State.atBlock
  rw [State.stepGains_gain, (s.countDown_aimKept.trans (State.takeChanges_aimKept _)).aim]

/-! ### The rest of the block leaves the gains (R86) -/

/-- An update that leaves the Mix Engine alone leaves its gains. -/
theorem Frame.gain {ps : List Part} {s t : State} (h : Frame ps s t) (hm : Part.mix ∉ ps) (o : Fin 13) :
    t.gain o = s.gain o := by
  have : t.mix = s.mix := h.1 .mix hm
  simp only [State.gain, this]

theorem foldl_gain {β : Type} {f : State → β → State} {o : Fin 13} (h : ∀ s b, (f s b).gain o = s.gain o)
    (l : List β) : ∀ s, (l.foldl f s).gain o = s.gain o := by
  induction l with
  | nil => exact fun _ => rfl
  | cons b l ih => exact fun s => (ih _).trans (h s b)

theorem State.takeFilters_gain (rs : List Redirect) (o : Fin 13) : (s.takeFilters rs).gain o = s.gain o := by
  refine foldl_gain (fun s p => ?_) _ s
  dsimp only
  split <;> rfl

theorem State.renderOutput_gain (q : Fin 13) (w : Option Wave) (o : Fin 13) :
    (s.renderOutput q w).gain o = s.gain o := by
  unfold State.renderOutput
  split
  · split <;> rfl
  · rfl

theorem State.renderBlock_gain (audio : BlockAudio) (o : Fin 13) : (s.renderBlock audio).gain o = s.gain o := by
  unfold State.renderBlock
  dsimp only
  rw [foldl_gain (fun s (ow : Fin 13 × Option Wave) => s.renderOutput_gain ow.1 ow.2 o), State.takeFilters_gain]

theorem State.popQueue_gain (o : Fin 13) : s.popQueue.gain o = s.gain o := rfl

theorem State.switchIn_frame (z : Zone) (w : Source) : Frame zoneParts s (s.switchIn z w) :=
  ((((State.setZone_frame s _ _).mono : Frame zoneParts _ _).trans (State.raiseZone_frame _ _).mono).trans
    (State.refreshStatus_frame _ _).mono).trans (State.reportZones_frame _).mono

theorem State.reportToZone_frame (z : Zone) : Frame zoneParts s (s.reportToZone z) := by
  unfold State.reportToZone
  split
  · split
    · exact State.switchIn_frame ..
    · exact Frame.refl ..
  · exact State.endSilentRamp_frame ..
  · exact Frame.refl ..

theorem State.reportToOutput_frame (o : Fin 13) : Frame zoneParts s (s.reportToOutput o) := by
  unfold State.reportToOutput
  dsimp only
  split
  · exact (State.setOut_frame ..).mono
  · exact Frame.refl ..

theorem State.applyHeld_frame (o : Fin 13) : Frame zoneParts s (s.applyHeld o) := by
  have happly := (State.setDelay_frame s (s.delay.applyChange o).1).mono (qs := zoneParts)
  unfold State.applyHeld
  dsimp only
  split
  · exact happly.trans (State.retryPass_frame _).mono
  · exact happly

theorem State.startCopy_frame (o : Fin 13) : Frame zoneParts s (s.startCopy o) := by
  unfold State.startCopy
  split
  · split
    · split
      · exact (State.setDelay_frame ..).mono
      · exact Frame.refl ..
    · exact Frame.refl ..
  · exact Frame.refl ..

theorem State.reportToDelay_frame (o : Fin 13) : Frame zoneParts s (s.reportToDelay o) := by
  unfold State.reportToDelay
  split
  · exact (State.applyHeld_frame s o).trans (State.startCopy_frame _ o)
  · exact Frame.refl ..

/-- The reports of a block reach every unit but the Mix Engine. -/
theorem State.reportBlock_frame : Frame zoneParts s s.reportBlock :=
  ((Frame.foldl _ State.reportToZone_frame _ s).trans (Frame.foldl _ State.reportToOutput_frame _ _)).trans
    (Frame.foldl _ State.reportToDelay_frame _ _)

theorem State.runBlock_gain (audio : BlockAudio) (o : Fin 13) : (s.runBlock audio).gain o = (s.aim o).step := by
  change (((s.atBlock.renderBlock audio).popQueue).reportBlock).gain o = _
  rw [(State.reportBlock_frame _).gain (by decide), State.popQueue_gain, State.renderBlock_gain, State.atBlock_gain]

theorem exec_blockStart {audio : BlockAudio} (h : s.delay.inDram = true) :
    exec (.blockStart audio) s = .next (s.runBlock audio) := by
  change execBlockStart audio s = _
  rw [execBlockStart, if_pos h]

/-! ### The rows of R107 -/

theorem State.aim_step_of_silencedAtOnce {o : Fin 13} (h : (s.out o).silencedAtOnce) :
    (s.aim o).step.current = -161 ∧ (s.aim o).step.target = -161 := by
  have hpos := (s.gain o).ramp.steps_pos
  rw [s.aim_of_silencedAtOnce h]
  refine ⟨?_, rfl⟩
  simp only [GainRec.step]
  rw [if_pos le_rfl]
  omega

/-- A gain that is aimed moves toward its target. -/
theorem State.aim_step_movedToward {o : Fin 13} {target : Int} {ramp : RampKind}
    (h : s.aim o = { s.gain o with target := target, ramp := ramp }) :
    (s.gain o).movedToward (s.aim o).step target ramp := by
  rw [h]; exact GainRec.step_movedToward ..

end

/-- Settles O48: the gains of a block start are those of the state before it, aimed by the first row that holds and
moved once. -/
theorem gainsMoveAtBlockStarts : Obligations.GainsMoveAtBlockStarts := by
  refine ⟨fun audio s hdram => ⟨s.runBlock audio, exec_blockStart s hdram, fun o => ?_⟩,
    fun g n => g.ramp_takes_blocks n, fun s z role trim level hpos hremote hlevel hnone => ?_⟩
  · simp only [State.runBlock_gain]
    rw [← State.heldSilent_iff]
    refine ⟨s.aim_step_of_silencedAtOnce, fun h hp => s.aim_step_movedToward (s.aim_of_rampDown h hp),
      fun h hs => s.aim_step_movedToward (s.aim_of_held h hs), fun z role h hz hr hs => ?_⟩
    have hmoved {target : Int} {ramp : RampKind} (ht : s.grantedTarget z role = (target, ramp)) :
        (s.gain o).movedToward (s.aim o).step target ramp :=
      s.aim_step_movedToward (by rw [s.aim_of_granted h hs hz hr, ht])
    refine ⟨fun hp => hmoved (s.grantedTarget_of_not_on role ?_),
      fun hp hw => hmoved (s.grantedTarget_of_waiting role hp hw),
      fun hp hw hm => hmoved (s.grantedTarget_of_mute role hp hw hm),
      fun hp hw hm => hmoved (s.grantedTarget_of_sounding role hp hw hm)⟩
    rcases hp with hp | hp <;> simp [hp]
  · rw [s.normalTarget_eq, s.trimOf_eq hpos hremote, s.levelOf_eq (fun hd h => ?_) (fun h => hnone ?_)]
    · obtain ⟨i, b, hlive, hb, hbi, hhd⟩ := (s.headerFor_eq_some z hd).1 h
      exact hlevel i hd hlive ⟨b, hb, hbi⟩ hhd
    · rintro ⟨i, b, hd, hb⟩
      exact absurd ((s.headerFor_eq_some z hd).2 ⟨i, b, hb⟩) (by simp [h])

end Sys2Proof.Machine
end

section
/-! PROOFS. Peek Events and Raise Event (R203): a service command that its port takes is executed and answered; a raising
with an empty detail makes its kind pending and keeps the detail; and the NOTIFY line follows the pending kinds. -/

open Sys2Proof Sys2Proof.Machine

namespace Sys2Proof.Machine

/-! ### The pending mark and detail of a kind (R200) -/

theorem EventState.kind_setKind_self (e : EventState) {k : EventKind} (x : KindState) (h : k ≠ .completion) :
    (e.setKind k x).kind k = x := by
  cases k with
  | completion => exact absurd rfl h
  | _ => rfl

theorem EventState.kind_setKind_ne (e : EventState) {j k : EventKind} (x : KindState) (h : j ≠ k) :
    (e.setKind k x).kind j = e.kind j := by
  cases k <;> cases j <;> first | rfl | exact absurd rfl h

@[simp] theorem EventDetail.merge_zero (d : EventDetail) : d.merge EventDetail.zero = d := by
  simp [EventDetail.merge, EventDetail.zero]

theorem PortRec.isPending_eq (r : PortRec) {k : EventKind} (h : k ≠ .completion) :
    r.isPending k = (r.events.kind k).pending := by
  cases k with
  | completion => exact absurd rfl h
  | _ => rfl

/-- Setting a kind as pending adds that kind, and no other, to the kinds pending on a port. -/
theorem PortRec.isPending_setKind_pending (r : PortRec) {k : EventKind} (h : k ≠ .completion) (d : EventDetail)
    (j : EventKind) :
    ({ r with events := r.events.setKind k { pending := true, detail := d } } : PortRec).isPending j = true ↔
      j = k ∨ r.isPending j = true := by
  by_cases hjk : j = k
  · subst hjk
    simp [PortRec.isPending_eq _ h, EventState.kind_setKind_self _ _ h]
  · by_cases hj : j = .completion
    · subst hj
      simp [hjk, PortRec.isPending, PortRec.completionPending]
    · simp [hjk, PortRec.isPending_eq _ hj, EventState.kind_setKind_ne _ _ hjk]

/-! ### The pending set and the NOTIFY line (R201) -/

theorem EventKind.mem_all (k : EventKind) : k ∈ EventKind.all := by cases k <;> decide

/-- A set of bits built up by OR meets a mask where its start does, or where the bit of a chosen kind does. -/
theorem foldl_bits_and_ne_zero (f : EventKind → Bool) (m : Half) (l : List EventKind) (a : Half) :
    l.foldl (fun n k => if f k then n ||| k.bit else n) a &&& m ≠ 0 ↔
      a &&& m ≠ 0 ∨ ∃ k ∈ l, f k = true ∧ k.bit &&& m ≠ 0 := by
  induction l generalizing a with
  | nil => simp
  | cons j l ih =>
    have hor : (a ||| j.bit) &&& m ≠ 0 ↔ a &&& m ≠ 0 ∨ j.bit &&& m ≠ 0 := by
      simp only [BitVec.and_comm _ m, BitVec.and_or_distrib_left, Ne, BitVec.ofNat_eq_ofNat, BitVec.or_eq_zero_iff,
        not_and_or]
    rw [List.foldl_cons, ih, List.exists_mem_cons_iff]
    cases hf : f j with
    | false => simp
    | true => rw [if_pos rfl, hor, or_assoc]; simp

theorem PortRec.pendingSet_and_ne_zero (r : PortRec) (m : Half) :
    r.pendingSet &&& m ≠ 0 ↔ ∃ k, r.isPending k = true ∧ k.bit &&& m ≠ 0 := by
  rw [PortRec.pendingSet, foldl_bits_and_ne_zero]
  simp [EventKind.mem_all]

/-- The NOTIFY line is asserted while the notify enable is SET and an enabled kind is pending. -/
theorem PortRec.notify_iff (r : PortRec) : r.notify = true ↔
    r.events.notifyEnable = true ∧ ∃ k, r.isPending k = true ∧ k.bit &&& r.events.enable ≠ 0 := by
  rw [PortRec.notify, Bool.and_eq_true, bne_iff_ne, PortRec.pendingSet_and_ne_zero]

/-- The line after a kind is made pending: that kind asserts it where it is enabled, and so do the kinds that were
pending. -/
theorem PortRec.notify_setKind_pending (r : PortRec) {k : EventKind} (h : k ≠ .completion) (d : EventDetail) :
    ({ r with events := r.events.setKind k { pending := true, detail := d } } : PortRec).notify = true ↔
      r.events.notifyEnable = true ∧
        (r.events.enable &&& k.bit ≠ 0 ∨ r.pendingSet &&& r.events.enable ≠ 0) := by
  obtain ⟨henable, hnotify, -⟩ := r.events.setKind_settings k { pending := true, detail := d }
  rw [PortRec.notify_iff, PortRec.pendingSet_and_ne_zero, BitVec.and_comm _ k.bit]
  simp only [PortRec.isPending_setKind_pending r h, henable, hnotify, or_and_right, exists_or, exists_eq_left]

/-! ### The kinds that a code names (R203, R206) -/

theorem raisableOf_priority {b : Byte} {k : EventKind} (hk : k ≠ .completion) (h : k.priority = b.toNat) :
    raisableOf b = some k := by
  have hb : b = natByte k.priority := by simp [natByte, h]
  subst hb
  cases k with
  | completion => exact absurd rfl hk
  | _ => rfl

theorem raisableOf_eq_none {b : Byte} (h : b = 0 ∨ b = 2 ∨ 10 ≤ b.toNat) : raisableOf b = none := by
  refine List.find?_eq_none.2 fun k _ hk => ?_
  obtain ⟨hne, rfl⟩ : k ≠ .completion ∧ natByte k.priority = b := by simpa using hk
  revert h hne
  cases k <;> decide

/-! ### Service commands (R178) -/

/-- A service command taken: the block that owns it executes it, and the port answers. -/
theorem exec_serviceTaken {s u : State} {p : Port} {h : FrameHead} {c : Cmd} {a : Answer} (hc : c.isService = true)
    (ht : serviceTaken s p h c) (hr : runCmd (unlinked p h) c s = (a, u))
    (hn : (u.port p).events.notifyOnPending = (s.port p).events.notifyOnPending)
    (ha : (u.port p).attention = (s.port p).attention) : exec (rowOf p h c) s = .next (u.closed p h c a) := by
  have htaken : taken s p h c := by rwa [taken, if_pos hc]
  obtain ⟨-, hattention, -⟩ := ht
  exact exec_taken htaken hr hn (ha.trans hattention)

/-- A raising with an empty detail sets the pending mark and keeps the detail held (R203). -/
theorem State.raiseOn_zero (s : State) (p : Port) (k : EventKind) :
    s.raiseOn p k EventDetail.zero = s.setPort p { s.port p with
      events := (s.port p).events.setKind k
        { pending := true, detail := ((s.port p).events.kind k).detail } } := by
  rw [State.raiseOn, EventState.raise, EventDetail.merge_zero]

theorem doRaiseEvent_of_none (x : Ctx) {b : Byte} (s : State) (h : raisableOf b = none) :
    doRaiseEvent x b s = (Answer.badParam 0, s) := by
  rw [doRaiseEvent, h]

theorem doRaiseEvent_of_some (x : Ctx) {b : Byte} {k : EventKind} (s : State) (h : raisableOf b = some k) :
    doRaiseEvent x b s = (Answer.plain (if (s.port x.port).isPending k then .doneNoChange else .done),
      s.raiseOn x.port k EventDetail.zero) := by
  rw [doRaiseEvent, h]
  cases hp : (s.port x.port).isPending k <;> simp [Answer.changed, hp]

/-- Settles O18: both are service commands; Peek Events leaves the state as it is, and Raise Event raises the kind of its
code with an empty detail, or refuses a code that names no raisable kind. -/
theorem peekAndRaiseEvents : Obligations.PeekAndRaiseEvents := by
  intro p h kind s
  refine ⟨fun ht => exec_serviceTaken rfl ht rfl rfl rfl, fun ht => ⟨fun hkind => ?_, fun k hk hcode => ⟨?_, ?_⟩⟩⟩
  · exact exec_serviceTaken rfl ht (doRaiseEvent_of_none _ s (raisableOf_eq_none hkind)) rfl rfl
  · obtain ⟨-, -, hpending⟩ := (s.port p).events.setKind_settings k
      { pending := true, detail := ((s.port p).events.kind k).detail }
    rw [← s.raiseOn_zero p k]
    refine exec_serviceTaken rfl ht (doRaiseEvent_of_some _ s (raisableOf_priority hk hcode)) ?_ ?_
    · rw [s.raiseOn_zero, State.port_setPort_self]; exact hpending
    · rw [s.raiseOn_zero, State.port_setPort_self]
  · exact (s.port p).notify_setKind_pending hk _

end Sys2Proof.Machine
end

section
/-! PROOFS. Steps and command frames (R176 to R179): the frame's encoder and decoder agree, what an admitted frame comes
to, and the refusals of a frame's tests. -/

open Sys2Proof Sys2Proof.Machine

namespace Sys2Proof.Machine

/-- Settles O1: both clauses are the equations of `step`. -/
theorem stepRunsFrontCommand : Obligations.StepRunsFrontCommand := by
  refine ⟨fun c rest s h => ?_, fun s h => ?_⟩
  · rw [step, h]
  · rw [step, h]

/-! ### The bytes of a frame (sections 11.2 and 11.4) -/

@[simp] theorem byteAt_cons_zero (b : Byte) (bs : List Byte) : byteAt (b :: bs) 0 = b := rfl

@[simp] theorem byteAt_cons_succ (b : Byte) (bs : List Byte) (k : Nat) : byteAt (b :: bs) (k + 1) = byteAt bs k := rfl

/-- The two bytes of a field put together are the field. -/
@[simp] theorem hiByte_append_loByte (v : Half) : hiByte v ++ loByte v = v := by
  refine BitVec.eq_of_getLsbD_eq fun i hi => ?_
  rw [BitVec.getLsbD_append, hiByte, loByte, BitVec.getLsbD_extractLsb', BitVec.getLsbD_extractLsb']
  by_cases h : i < 8
  · simp [h]
  · simp [h, show i - 8 < 8 by omega, show 8 + (i - 8) = i by omega]

theorem halfAt_cons_zero (a b : Byte) (bs : List Byte) : halfAt (a :: b :: bs) 0 = a ++ b := rfl

theorem halfAt_cons_succ (a : Byte) (bs : List Byte) (k : Nat) : halfAt (a :: bs) (k + 1) = halfAt bs k := rfl

/-- A command's code and parameter bytes name that command. -/
theorem decodeCmd_params (c : Cmd) : decodeCmd c.code c.params = some c := by
  cases c <;> simp [Cmd.code, Cmd.params, decodeCmd, halfAt]

/-- The command that a code names has that code. -/
theorem code_of_decodeCmd {code : Byte} {ps : List Byte} {c : Cmd} (h : decodeCmd code ps = some c) : c.code = code := by
  unfold decodeCmd at h
  split at h
  all_goals first
    | (obtain rfl := Option.some.inj h; exact (BitVec.eq_of_toNat_eq (by assumption)).symm)
    | exact absurd h (by simp)

/-- The head and the command of at least four bytes. -/
theorem decodeFrame_of_length {bytes : List Byte} (h : 4 ≤ bytes.length) : decodeFrame bytes =
    (decodeCmd (byteAt bytes 2) (bytes.drop 4)).map (fun c => (⟨bytes.length, byteAt bytes 1, byteAt bytes 3⟩, c)) := by
  match bytes, h with
  | _ :: _ :: _ :: _ :: _, _ => rfl

theorem encodeFrame_length (h : FrameHead) (c : Cmd) : (encodeFrame h c).length = c.ownLength := by
  simp [encodeFrame, Cmd.ownLength]; omega

theorem byteAt_encodeFrame (h : FrameHead) (c : Cmd) (hl : h.length = c.ownLength) :
    (byteAt (encodeFrame h c) 0).toNat = h.length := by
  have hr := Cmd.ownLength_range c
  simp only [encodeFrame, List.cons_append, byteAt_cons_zero, BitVec.toNat_ofNat]
  omega

theorem decodeFrame_encodeFrame (h : FrameHead) (c : Cmd) (hl : h.length = c.ownLength) :
    decodeFrame (encodeFrame h c) = some (h, c) := by
  have hn := encodeFrame_length h c
  rw [decodeFrame_of_length (by rw [hn]; exact (Cmd.ownLength_range c).1), hn, ← hl]
  simp [encodeFrame, decodeCmd_params]

/-- Settles O2: the code and parameter bytes of a command name it, and the length byte holds every command's length. -/
theorem frameDecodeEncode : Obligations.FrameDecodeEncode := by
  intro h c hl
  rw [byteAt_encodeFrame h c hl, encodeFrame_length, hl]
  exact ⟨decodeFrame_encodeFrame h c hl, rfl, rfl⟩

/-- Settles O3: the bytes pass the length test and decode to the command, whose row runs the same tests on it. -/
theorem frameBytesAreTheCommand : Obligations.FrameBytesAreTheCommand := by
  intro p h c s hl
  have hn : (encodeFrame h c).length = h.length := (encodeFrame_length h c).trans hl.symm
  have hok : lengthOk h.length h.length = true := hl ▸ lengthOk_own c
  rw [exec_rowOf]
  change Host.Outcome.next (s.arriveBytes p (encodeFrame h c)) = _
  simp only [State.arriveBytes, State.testBytes, State.arrive, hn, byteAt_encodeFrame h c hl,
    decodeFrame_encodeFrame h c hl, hok, if_true]

/-! ### The arrival of a frame (R174, R178) -/

theorem lengthOk_iff (field received : Nat) : lengthOk field received = true ↔
    4 ≤ received ∧ 4 ≤ field ∧ field ≤ 64 ∧ field = received := by
  simp [lengthOk, and_assoc]

theorem frameLengthOk_iff (bytes : List Byte) :
    frameLengthOk bytes ↔ lengthOk (byteAt bytes 0).toNat bytes.length = true := (lengthOk_iff _ _).symm

/-- The end of a frame that was refused: `arm` and `drive` turn the answer into the refusal's record. -/
theorem State.arm_drive_refused (s u : State) (p : Port) (n : Nat) (tag code : Byte) (a : Answer) (why : DetailReason)
    (hu : u = s.setPort p { s.port p with attention := (u.port p).attention })
    (hslot : a.slot = none) (hdata : a.data = []) (hw : a.status.writesDetail = true)
    (hatt : (s.port p).attention = none → (u.port p).attention = none) :
    (State.arm (u.answer p tag code a why) s p).drive p (List.replicate n 0xFF) =
      s.refusedFrame p n tag code a.status a.param a.residue why (u.port p).attention := by
  generalize hx : (u.port p).attention = x at *
  subst hu
  have hr : ((s.port p).attention.isNone && x.isSome) = false := by
    cases hs : (s.port p).attention with
    | none => simp [hatt hs]
    | some w => simp
  have harm : ∀ v : State, (v.port p).attention = x → State.arm v s p =
      if (s.port p).events.notifyOnPending then
        v.setEvents p { (v.port p).events with notifyEnable := true, notifyOnPending := false }
      else v := by
    intro v hv
    simp [State.arm, hv, hr]
  rw [harm _ (by simp [State.answer])]
  cases hp : (s.port p).events.notifyOnPending with
  | false =>
    have he : ({ (s.port p).events with
        notifyEnable := (s.port p).events.notifyEnable || (s.port p).events.notifyOnPending
        notifyOnPending := false } : EventState) = (s.port p).events := by rw [hp, Bool.or_false, ← hp]
    simp [State.drive, State.refusedFrame, State.answer, hslot, hdata, hw, he]
  | true => simp [State.drive, State.refusedFrame, State.answer, State.setEvents, hslot, hdata, hw, hp]

/-- A frame of a known command that its port is ready for: the tests of R178 from the flags on. -/
theorem exec_of_lengthOk {s : State} {p : Port} {h : FrameHead} (c : Cmd) (hprst : (s.port p).prst = false)
    (h4 : 4 ≤ h.length) (h64 : h.length ≤ 64) : exec (rowOf p h c) s =
      .next ((State.arm (s.admitAttention p h c) s p).drive p (List.replicate h.length 0xFF)) := by
  have hok : lengthOk h.length h.length = true := (lengthOk_iff _ _).2 ⟨h4, h4, h64, rfl⟩
  rw [exec_rowOf, State.arrive, State.frame, hprst]
  simp [hok]

theorem execute_of_length_ne (x : Ctx) {h : FrameHead} {c : Cmd} (s : State) (hl : h.length ≠ c.ownLength) :
    execute x h c s = (lengthRefusal h c, s) := if_neg hl

theorem execute_of_length_eq (x : Ctx) {h : FrameHead} {c : Cmd} (s : State) (hl : h.length = c.ownLength) :
    execute x h c s = runCmd x c s := if_pos hl

/-- A frame of a known command whose length is not the command's own, for a service command and for an ordinary one
taken at once (R178, R180). -/
theorem exec_of_length_ne (p : Port) (h : FrameHead) (c : Cmd) (s : State) (hprst : (s.port p).prst = false)
    (hatt : (s.port p).attention = none) (h4 : 4 ≤ h.length) (h64 : h.length ≤ 64) (hflags : h.flags = 0)
    (hplace : c.isService = true ∨ ((s.port p).chain = .none ∧ (s.port p).inbound = []))
    (hl : h.length ≠ c.ownLength) : exec (rowOf p h c) s = .next (s.closed p h c (lengthRefusal h c)) := by
  have hlink : linkSet h = false := by simp [linkSet, hflags]
  have hadmit : s.admitAttention p h c = s.reply p h c (lengthRefusal h c) := by
    simp only [State.admitAttention, hatt, State.admitFrame, hflags, hlink]
    cases hsv : c.isService with
    | true => simp [State.takeService, execute_of_length_ne _ s hl]
    | false =>
      obtain ⟨hchain, hin⟩ := hplace.resolve_left (by simp [hsv])
      simp [State.place, hchain, hin, State.takeNow, execute_of_length_ne _ s hl, State.ctx, markOf, hlink,
        State.moveChain]
  rw [exec_of_lengthOk c hprst h4 h64, hadmit, State.arm_drive_closed s s p h c _ rfl (fun e => e)]

/-- Settles O4: a frame meets the tests in the model's order, and every refusal ends in the same way. -/
theorem framesRefusedInOrder : Obligations.FramesRefusedInOrder := by
  refine ⟨fun p bytes s => ⟨fun hprst => ?_, fun hprst => ?_⟩, fun p h c s h1 h2 h3 h4 h5 h6 h7 =>
    exec_of_length_ne p h c s h1 h2 h3 h4 h5 h6 h7⟩
  · change Host.Outcome.next (s.arriveBytes p bytes) = _
    simp [State.arriveBytes, State.frame, hprst]
  have hexec : exec (.commandFrameRefused p bytes) s =
      .next ((State.arm (s.testBytes p bytes) s p).drive p (List.replicate bytes.length 0xFF)) := by
    change Host.Outcome.next (s.arriveBytes p bytes) = _
    simp [State.arriveBytes, State.frame, hprst]
  simp only [hexec, frameLengthOk_iff]
  have hself : s = s.setPort p { s.port p with attention := (s.port p).attention } := (s.setPort_port p).symm
  refine ⟨fun hlen => ?_, fun hlen hcode why hwhy => ?_, fun hlen hatt hdec => ?_,
    fun hlen hatt c hdec hflags => ?_⟩
  · have htest : s.testBytes p bytes = s.answer p (if 3 ≤ bytes.length then byteAt bytes 1 else 0)
        (if 3 ≤ bytes.length then byteAt bytes 2 else 0)
        { Answer.plain .badLength with
          residue := if bytes.length < 4 then 0
            else BitVec.ofInt 16 (((byteAt bytes 0).toNat : Int) - (bytes.length : Int)) } .frameLength := by
      simp only [State.testBytes, hlen, State.refuseLength]; rfl
    rw [htest, State.arm_drive_refused s s p _ _ _ _ _ hself rfl rfl rfl (fun e => e)]
    by_cases h3 : bytes.length < 3
    · simp [h3, Nat.not_le.2 h3, Answer.plain]
    · simp [h3, Nat.not_lt.1 h3, Answer.plain]
  all_goals
    have h4 : 4 ≤ bytes.length := ((lengthOk_iff _ _).1 hlen).1
    have h3 : 3 ≤ bytes.length := by omega
  · have htest : s.testBytes p bytes = (s.setPort p { s.port p with attention := none }).answer p (byteAt bytes 1)
        (byteAt bytes 2) (Answer.plain .attention) why := by
      simp only [State.testBytes, hlen, if_true, h3, decodeFrame_of_length h4]
      cases hdec : decodeCmd (byteAt bytes 2) (bytes.drop 4) with
      | none => simp [State.refuseUnknown, hwhy, State.refuseAttention]
      | some c =>
        have hc := code_of_decodeCmd hdec
        have hne : c ≠ .readDetail := fun e => hcode (by rw [← hc, e]; rfl)
        simp [State.admitAttention, hwhy, hne, State.refuseAttention, hc]
    rw [htest, State.arm_drive_refused s _ p _ _ _ _ _ (by simp) rfl rfl rfl (by simp)]
    simp [Answer.plain]
  · have htest : s.testBytes p bytes =
        s.answer p (byteAt bytes 1) (byteAt bytes 2) (Answer.plain .unknownCommand) .none := by
      simp [State.testBytes, hlen, h3, decodeFrame_of_length h4, hdec, State.refuseUnknown, hatt]
    rw [htest, State.arm_drive_refused s s p _ _ _ _ _ hself rfl rfl rfl (fun e => e), hatt]
    simp [Answer.plain]
  · have hc := code_of_decodeCmd hdec
    have hadmit : s.admitAttention p ⟨bytes.length, byteAt bytes 1, byteAt bytes 3⟩ c =
        s.admitFrame p ⟨bytes.length, byteAt bytes 1, byteAt bytes 3⟩ c := by
      unfold State.admitAttention
      rcases hatt with hatt | hcode
      · rw [hatt]
      · have hread : c = .readDetail := by
          rw [hcode] at hdec; exact (Option.some.inj hdec).symm
        cases (s.port p).attention <;> simp [hread]
    have htest : s.testBytes p bytes =
        s.answer p (byteAt bytes 1) (byteAt bytes 2) (Answer.badParam 0xFE) .none := by
      simp only [State.testBytes, hlen, if_true, decodeFrame_of_length h4, hdec, Option.map_some, hadmit,
        State.admitFrame, State.reply, hc, linkSet]
      rcases hflags with hf | ⟨hsv, hf⟩
      · have : (byteAt bytes 3).toNat / 2 ≠ 0 := by omega
        simp [this]
      · have hone : byteAt bytes 3 = 1 := BitVec.eq_of_toNat_eq (by simpa using hf)
        simp [hone, hsv]
    rw [htest, State.arm_drive_refused s s p _ _ _ _ _ hself rfl rfl rfl (fun e => e)]
    simp [Answer.badParam, Answer.plain]

end Sys2Proof.Machine
end

section
/-! PROOFS. What a port does (R174 to R207): the algebra of changes and raisings, chains and their ends, the records of
waiting slots, and the statements about responses, placing, completions and events. -/

open Sys2Proof Sys2Proof.Machine

namespace Sys2Proof.Machine

/-! ### Changes and raisings compose -/

theorem onlyChanges.trans {ps : List Part} {s t u : State} (h1 : onlyChanges ps s t) (h2 : onlyChanges ps t u) :
    onlyChanges ps s u := fun q hq => Part.same_trans (h1 q hq) (h2 q hq)

theorem onlyChanges.mono {ps qs : List Part} {s t : State} (h : onlyChanges ps s t)
    (hs : ps.all (fun q => qs.contains q) = true := by decide) : onlyChanges qs s t :=
  fun q hq => h q (fun hp => hq (by simpa using List.all_eq_true.mp hs q hp))

theorem onlyChanges_setPort (s : State) (p : Port) (r : PortRec) : onlyChanges [.ports] s (s.setPort p r) := by
  intro q hq; cases q <;> first | exact absurd (by decide) hq | rfl

theorem State.closed_onlyChanges (u : State) (p : Port) (h : FrameHead) (c : Cmd) (a : Answer) :
    onlyChanges [.ports] u (u.closed p h c a) := onlyChanges_setPort u p _

@[simp] theorem State.closed_port_self (u : State) (p : Port) (h : FrameHead) (c : Cmd) (a : Answer) :
    (u.closed p h c a).port p = (u.port p).answered h c a := State.port_setPort_self ..

theorem State.closed_port_ne (u : State) {p q : Port} (h : FrameHead) (c : Cmd) (a : Answer) (hq : q ≠ p) :
    (u.closed p h c a).port q = u.port q := State.port_setPort_ne _ _ hq

theorem EventDetail.merge_assoc (a b c : EventDetail) : (a.merge b).merge c = a.merge (b.merge c) := by
  simp [EventDetail.merge, BitVec.or_assoc]

theorem EventDetail.merge_comm (a b : EventDetail) : a.merge b = b.merge a := by
  simp [EventDetail.merge, BitVec.or_comm]

@[simp] theorem EventDetail.merge_self (a : EventDetail) : a.merge a = a := by simp [EventDetail.merge]

/-- No pending mark and no bit of a detail is lost. -/
def EventState.le (e f : EventState) : Prop :=
  ∀ k, ((e.kind k).pending = true → (f.kind k).pending = true) ∧
    ∀ d, (e.kind k).detail.merge d = (e.kind k).detail → (f.kind k).detail.merge d = (f.kind k).detail

theorem EventState.le_refl (e : EventState) : e.le e := fun _ => ⟨id, fun _ => id⟩

theorem EventState.le_trans {e f g : EventState} (h1 : e.le f) (h2 : f.le g) : e.le g :=
  fun k => ⟨fun h => (h2 k).1 ((h1 k).1 h), fun d h => (h2 k).2 d ((h1 k).2 d h)⟩

theorem EventState.le_raise (e : EventState) (k : EventKind) (d : EventDetail) : e.le (e.raise k d) := by
  intro j
  by_cases hk : k = .completion
  · subst hk; exact e.le_refl j
  by_cases hj : j = k
  · subst hj
    refine ⟨fun _ => e.raise_pending j d hk, fun d' hd => ?_⟩
    rw [e.raise_detail j d hk, EventDetail.merge_assoc, EventDetail.merge_comm d, ← EventDetail.merge_assoc, hd]
  · rw [EventState.raise, EventState.kind_setKind_ne _ _ hj]
    exact ⟨id, fun _ => id⟩

/-- On every port no pending mark and no bit of a detail is lost. -/
def eventsGrow (s t : State) : Prop := ∀ q, (s.port q).events.le (t.port q).events

theorem eventsGrow.refl (s : State) : eventsGrow s s := fun _ => EventState.le_refl _

theorem eventsGrow.trans {s t u : State} (h1 : eventsGrow s t) (h2 : eventsGrow t u) : eventsGrow s u :=
  fun q => EventState.le_trans (h1 q) (h2 q)

theorem eventsGrow.of_events_eq {s t : State} (h : ∀ q, (t.port q).events = (s.port q).events) : eventsGrow s t :=
  fun q => h q ▸ EventState.le_refl _

theorem eventsGrow.of_ports_eq {s t : State} (h : t.ports = s.ports) : eventsGrow s t :=
  .of_events_eq fun q => by rw [State.port, h]; rfl

theorem reported.mono {s t : State} {k : EventKind} {d : EventDetail} (h : reported s k d) (g : eventsGrow s t) :
    reported t k d := fun q => ⟨(g q k).1 (h q).1, (g q k).2 d (h q).2⟩

theorem State.raise_reported (s : State) {k : EventKind} (d : EventDetail) (hk : k ≠ .completion) :
    reported (s.raise k d) k d := by
  intro q
  rw [State.raise_port]
  refine ⟨EventState.raise_pending _ k d hk, ?_⟩
  change ((((s.port q).events.raise k d).kind k).detail).merge d = _
  rw [EventState.raise_detail _ k d hk, EventDetail.merge_assoc, EventDetail.merge_self]

theorem PortRec.raisedFrom_refl (r : PortRec) : r.raisedFrom r := ⟨rfl, rfl, rfl, rfl, fun _ => id⟩

theorem PortRec.raisedFrom_trans {r u v : PortRec} (h1 : r.raisedFrom u) (h2 : u.raisedFrom v) : r.raisedFrom v := by
  obtain ⟨a1, b1, c1, d1, e1⟩ := h1
  obtain ⟨a2, b2, c2, d2, e2⟩ := h2
  refine ⟨?_, b2.trans b1, c2.trans c1, d2.trans d1, fun k h => e2 k (e1 k h)⟩
  rw [a2, a1]

theorem portsRaised.refl (s : State) : portsRaised s s := fun _ => PortRec.raisedFrom_refl _

theorem portsRaised.trans {s t u : State} (h1 : portsRaised s t) (h2 : portsRaised t u) : portsRaised s u :=
  fun q => PortRec.raisedFrom_trans (h1 q) (h2 q)

theorem portsRaised.of_ports_eq {s t : State} (h : t.ports = s.ports) : portsRaised s t := fun q => by
  rw [State.port, State.port, h]; exact PortRec.raisedFrom_refl _

/-- The ports have met nothing but raisings, and no bit of a detail is lost. -/
def Raises (s t : State) : Prop := portsRaised s t ∧ eventsGrow s t

theorem Raises.refl (s : State) : Raises s s := ⟨.refl s, .refl s⟩

theorem Raises.trans {s t u : State} (h1 : Raises s t) (h2 : Raises t u) : Raises s u :=
  ⟨h1.1.trans h2.1, h1.2.trans h2.2⟩

theorem Raises.of_ports_eq {s t : State} (h : t.ports = s.ports) : Raises s t := ⟨.of_ports_eq h, .of_ports_eq h⟩

theorem Raises.foldl {β : Type} (f : State → β → State) (h : ∀ s b, Raises s (f s b)) (l : List β) (s : State) :
    Raises s (l.foldl f s) := by
  induction l generalizing s with
  | nil => exact .refl s
  | cons b l ih => exact (h s b).trans (ih (f s b))

theorem PortRec.raisedFrom_raise (r : PortRec) (k : EventKind) (d : EventDetail) :
    r.raisedFrom { r with events := r.events.raise k d } := by
  obtain ⟨h1, h2, h3⟩ := r.events.setKind_settings k { pending := true, detail := (r.events.kind k).detail.merge d }
  exact ⟨rfl, h1, h2, h3, fun j => (r.events.le_raise k d j).1⟩

theorem State.raiseOn_raises (s : State) (p : Port) (k : EventKind) (d : EventDetail) :
    Raises s (s.raiseOn p k d) := by
  have hport : ∀ q, (s.port q).raisedFrom ((s.raiseOn p k d).port q) ∧
      (s.port q).events.le ((s.raiseOn p k d).port q).events := by
    intro q
    by_cases hq : q = p
    · subst hq
      rw [State.raiseOn, State.port_setPort_self]
      exact ⟨PortRec.raisedFrom_raise _ k d, EventState.le_raise _ k d⟩
    · rw [State.raiseOn, State.port_setPort_ne _ _ hq]
      exact ⟨PortRec.raisedFrom_refl _, EventState.le_refl _⟩
  exact ⟨fun q => (hport q).1, fun q => (hport q).2⟩

theorem State.raise_raises (s : State) (k : EventKind) (d : EventDetail) : Raises s (s.raise k d) :=
  ((s.raiseOn_raises .a k d).trans (State.raiseOn_raises _ .b k d)).trans (State.raiseOn_raises _ .c k d)

/-! ### Chains and their ends (R182, R184) -/

/-- What the end of its port's chain makes of a slot (R184). -/
def SlotBody.unchained (p : Port) (b : SlotBody) : SlotBody := if b.port = p then { b with inChain := false } else b

theorem State.unchainSlot_eq (s : State) (p : Port) (k : Fin 8) :
    (match s.slot k with
      | some b => if b.port = p then s.setSlot k (some { b with inChain := false }) else s
      | none => s) = s.setSlot k ((s.slot k).map (SlotBody.unchained p)) := by
  have hself : s.setSlot k (s.slot k) = s := by simp [State.setSlot, State.slot]
  cases hk : s.slot k with
  | none =>
    rw [hk] at hself
    exact hself.symm
  | some b =>
    by_cases hb : b.port = p
    · simp [SlotBody.unchained, hb]
    · simp only [hb, if_false, Option.map_some, SlotBody.unchained]
      rw [← hk, hself]

theorem State.endSlotChains_eq (s : State) (p : Port) : s.endSlotChains p =
    allSlots.foldl (fun s k => s.setSlot k ((s.slot k).map (SlotBody.unchained p))) s := by
  unfold State.endSlotChains
  congr 1
  funext s k
  exact s.unchainSlot_eq p k

theorem foldl_setSlot_slot (f : Slot → Slot) (l : List (Fin 8)) (hl : l.Nodup) (s : State) (j : Fin 8) :
    (l.foldl (fun s k => s.setSlot k (f (s.slot k))) s).slot j = if j ∈ l then f (s.slot j) else s.slot j := by
  induction l generalizing s with
  | nil => simp
  | cons k l ih =>
    obtain ⟨hk, hl⟩ := List.nodup_cons.1 hl
    rw [List.foldl_cons, ih hl]
    by_cases hj : j = k
    · subst hj; simp [hk]
    · simp [hj, State.slot_setSlot_ne _ _ hj]

theorem State.endSlotChains_slot (s : State) (p : Port) (j : Fin 8) :
    (s.endSlotChains p).slot j = (s.slot j).map (SlotBody.unchained p) := by
  have hj : j ∈ allSlots := by revert j; decide
  rw [State.endSlotChains_eq, foldl_setSlot_slot _ _ (by decide), if_pos hj]

theorem State.endSlotChains_ports (s : State) (p : Port) : (s.endSlotChains p).ports = s.ports :=
  (s.endSlotChains_frame p).1 .ports (by decide)

theorem State.endSlotChains_port (s : State) (p q : Port) : (s.endSlotChains p).port q = s.port q := by
  rw [State.port, s.endSlotChains_ports]; rfl

/-- The end of the chains of a port's slots does not see the ports. -/
theorem State.endSlotChains_setPort (s : State) (p q : Port) (r : PortRec) :
    (s.setPort q r).endSlotChains p = (s.endSlotChains p).setPort q r := by
  rw [State.endSlotChains_eq, State.endSlotChains_eq]
  generalize allSlots = l
  induction l generalizing s with
  | nil => rfl
  | cons k l ih => exact ih (s.setSlot k _)

theorem State.endChain_port_self (s : State) (p : Port) : (s.endChain p).port p = { s.port p with
    chain := .none, hold := none
    completions := (s.port p).completions.map (fun r => { r with heldBack := false }) } := by
  rw [State.endChain, State.endSlotChains_port, State.port_setPort_self]

theorem State.endChain_port_ne (s : State) {p q : Port} (h : q ≠ p) : (s.endChain p).port q = s.port q := by
  rw [State.endChain, State.endSlotChains_port, State.port_setPort_ne _ _ h]

theorem State.endChain_slot (s : State) (p : Port) (j : Fin 8) :
    (s.endChain p).slot j = (s.slot j).map (SlotBody.unchained p) := by
  rw [State.endChain, State.endSlotChains_slot, State.setPort_slot]

theorem State.endChain_ended (s : State) (p : Port) : chainEnded s (s.endChain p) p :=
  ⟨s.endChain_port_self p, fun _ => s.endChain_port_ne, s.endChain_slot p, (s.endChain_frame p).1.mono⟩

/-- A chain's end and the answer on its port do not see each other. -/
theorem State.endChain_reply (s : State) (p : Port) (h : FrameHead) (c : Cmd) (a : Answer) :
    (s.reply p h c a).endChain p = (s.endChain p).reply p h c a := by
  have hport := s.endChain_port_self p
  simp only [State.reply, State.answer, hport]
  simp [State.endChain, ← State.endSlotChains_setPort]

theorem Answer.isSuccess_iff (a : Answer) :
    a.status.isSuccess = true ↔ a.status = .done ∨ a.status = .doneNoChange ∨ a.status = .deferred := by
  cases a.status <;> decide

theorem linkSet_of_one {h : FrameHead} (hf : h.flags = 1) : linkSet h = true := by simp [linkSet, hf]

theorem linkSet_of_zero {h : FrameHead} (hf : h.flags = 0) : linkSet h = false := by simp [linkSet, hf]

theorem FrameHead.flags_cases {h : FrameHead} (hf : h.flags.toNat < 2) : h.flags = 0 ∨ h.flags = 1 := by
  have : h.flags.toNat = 0 ∨ h.flags.toNat = 1 := by omega
  exact this.imp (fun e => BitVec.eq_of_toNat_eq (by simpa using e)) (fun e => BitVec.eq_of_toNat_eq (by simpa using e))

/-! ### Where a command is placed (R179, R183) -/

/-- An ordinary command that passes the tests of a frame is placed. -/
theorem exec_admitted {s : State} {p : Port} {h : FrameHead} {c : Cmd} (ha : admitted s p h c) :
    exec (rowOf p h c) s =
      .next ((State.arm (s.place p h c) s p).drive p (List.replicate h.length 0xFF)) := by
  obtain ⟨hprst, hatt, hsv, h4, h64, hflags⟩ := ha
  rw [exec_of_lengthOk c hprst h4 h64]
  have : h.flags.toNat / 2 = 0 := by omega
  simp [State.admitAttention, hatt, State.admitFrame, this, hsv]

/-- A command that is placed by an answer alone. -/
theorem exec_placed {s u : State} {p : Port} {h : FrameHead} {c : Cmd} {a : Answer} (ha : admitted s p h c)
    (hplace : s.place p h c = u.reply p h c a)
    (hn : (u.port p).events.notifyOnPending = (s.port p).events.notifyOnPending)
    (hatt : (s.port p).attention = none → (u.port p).attention = none) :
    exec (rowOf p h c) s = .next (u.closed p h c a) := by
  rw [exec_admitted ha, hplace, State.arm_drive_closed s u p h c a hn hatt]

theorem State.hasRoom_iff (s : State) (p : Port) : s.hasRoom p = true ↔ (s.port p).completions.length < 8 :=
  decide_eq_true_iff

theorem State.place_broken {s : State} {p : Port} {h : FrameHead} {c : Cmd} (hc : (s.port p).chain = .broken)
    (hin : (s.port p).inbound = []) (hroom : (s.port p).completions.length < 8) :
    s.place p h c = (s.discard p h c).reply p h c (Answer.plain .chainBroken) := by
  simp [State.place, hin, hc, (s.hasRoom_iff p).2 hroom]

/-- Settles O5: the model places a command by the length of the queue and the state of the chain. -/
theorem commandsArePlaced : Obligations.CommandsArePlaced := by
  intro p h c s ha
  refine ⟨fun hfull => ?_, fun hroom hwait => ?_, fun hc hin hroom hf => ?_, fun hc hin hroom hf => ?_⟩
  · exact exec_placed ha (by simp [State.place, hfull]) rfl id
  · refine exec_placed ha (u := s.setInbound p ((s.port p).inbound ++ [{ head := h, cmd := c }])) ?_
      (by simp [State.setInbound]) (by simp [State.setInbound])
    have hplace : s.place p h c = s.enqueue p h c := by
      rw [State.place, if_neg (Nat.not_le.2 hroom)]
      rcases hwait with ⟨hc | hc, hin⟩ | hc | ⟨hc, hin⟩
      · simp [hc, hin]
      · simp [hc, hin]
      · simp [hc]
      · have : ¬ ((s.port p).inbound = [] ∧ s.hasRoom p = true) := by
          rw [s.hasRoom_iff]
          rintro ⟨h1, h2⟩
          rcases hin with h | h
          · exact h h1
          · omega
        simp [hc, this]
    exact hplace
  · have hlink := linkSet_of_one hf
    refine (exec_placed (a := Answer.plain .chainBroken) ha (u := s.post p (discardRecord h c)) ?_
      (by simp [State.post]) (by simp [State.post])).trans ?_
    · rw [State.place_broken hc hin hroom]; simp [State.discard, hlink]
    · simp [State.post, discardRecord, memberMark, hlink]
  · have hlink := linkSet_of_zero hf
    have hport := (s.post p (discardRecord h c)).endChain_port_self p
    have hself : (s.post p (discardRecord h c)).port p =
        { s.port p with completions := (s.port p).completions ++ [discardRecord h c] } := by simp [State.post]
    rw [hself] at hport
    refine ⟨_, exec_placed (a := Answer.plain .chainBroken) ha
      (u := (s.post p (discardRecord h c)).endChain p) ?_ (by rw [hport]) (by rw [hport]; exact id),
      ?_⟩
    · rw [State.place_broken hc hin hroom]; simp [State.discard, hlink]
    · rw [State.closed_port_self, hport]
      refine ⟨rfl, rfl, by simp [PortRec.answered, discardRecord, memberMark, hlink], hin, rfl, fun q hq => ?_, ?_⟩
      · rw [State.closed_port_ne _ _ _ _ hq, State.endChain_port_ne _ hq, State.post, State.port_setPort_ne _ _ hq]
      · exact (((onlyChanges_setPort s p _).mono : onlyChanges [.ports, .slots] _ _).trans
          (State.endChain_frame _ p).1.mono).trans
          (onlyChanges.mono (State.closed_onlyChanges _ p h c _))

/-! ### Responses (R174, R177) -/

/-- Settles O9: the transaction clocks out the bytes of the response held, or of the one that stands for none. -/
theorem responseTransactions : Obligations.ResponseTransactions := by
  intro p n s
  have hexec : exec (.responseTransaction p n) s = .next (s.respond p n) := by
    change Host.Outcome.next (s.respond p (List.replicate n 0).length) = _
    rw [List.length_replicate]
  rw [hexec]
  refine ⟨fun h => by simp [State.respond, h], fun h => ⟨fun hn => ?_, fun hn r hr => ?_, fun hn hr => ?_⟩⟩
  · simp [State.respond, h, hn]
  · simp [State.respond, h, hr, Nat.pos_iff_ne_zero.1 hn, Response.bytes]
  · have hbytes : Response.none.bytes = [0x07, 0, 0, 0xFF, 0, 0] := rfl
    have hzeros : (List.replicate n 0).flatMap (fun a : Nat => [BitVec.ofNat 8 a]) = List.replicate n 0 := by
      rw [← List.map_eq_flatMap, List.map_replicate]
      rfl
    simp [State.respond, h, hr, Nat.pos_iff_ne_zero.1 hn, hbytes, hzeros]

/-! ### Commands taken at once -/

/-- An ordinary command taken at once is executed, and the port answers. -/
theorem exec_takenAtOnce {s u : State} {p : Port} {h : FrameHead} {c : Cmd} {a : Answer} (hc : c.isService = false)
    (ht : takenAtOnce s p h c) (hr : runCmd (unlinked p h) c s = (a, u))
    (hn : (u.port p).events.notifyOnPending = (s.port p).events.notifyOnPending)
    (ha : (u.port p).attention = (s.port p).attention) : exec (rowOf p h c) s = .next (u.closed p h c a) := by
  have htaken : taken s p h c := by rwa [taken, if_neg (by simp [hc])]
  obtain ⟨-, hatt, -⟩ := ht
  exact exec_taken htaken hr hn (ha.trans hatt)

/-- An ordinary command taken at once that changes nothing but the answer. -/
theorem exec_takenAtOnce_same {s : State} {p : Port} {h : FrameHead} {c : Cmd} {a : Answer} (hc : c.isService = false)
    (ht : takenAtOnce s p h c) (hr : runCmd (unlinked p h) c s = (a, s)) :
    exec (rowOf p h c) s = .next (s.closed p h c a) := exec_takenAtOnce hc ht hr rfl rfl

theorem exec_serviceTaken_same {s : State} {p : Port} {h : FrameHead} {c : Cmd} {a : Answer} (hc : c.isService = true)
    (ht : serviceTaken s p h c) (hr : runCmd (unlinked p h) c s = (a, s)) :
    exec (rowOf p h c) s = .next (s.closed p h c a) := exec_serviceTaken hc ht hr rfl rfl

theorem State.takeService_eq {s u : State} {p : Port} {h : FrameHead} {c : Cmd} {a : Answer}
    (hl : h.length = c.ownLength) (hr : runCmd (unlinked p h) c s = (a, u)) :
    s.takeService p h c = u.reply p h c a := by
  change (execute (unlinked p h) h c s).2.reply p h c (execute (unlinked p h) h c s).1 = _
  rw [execute_of_length_eq _ s hl, hr]

/-- A service command is taken on a port without attention, and Read Detail on any (R178, R185). -/
theorem State.admitAttention_service {s u : State} {p : Port} {h : FrameHead} {c : Cmd} {a : Answer}
    (hc : c.isService = true) (hatt : (s.port p).attention = none ∨ c = .readDetail) (hf : h.flags = 0)
    (hl : h.length = c.ownLength) (hr : runCmd (unlinked p h) c s = (a, u)) :
    s.admitAttention p h c = u.reply p h c a := by
  have hframe : s.admitFrame p h c = u.reply p h c a := by
    rw [State.admitFrame, if_neg (by simp [hf]), if_pos hc, if_neg (by simp [linkSet, hf]), State.takeService_eq hl hr]
  rw [State.admitAttention]
  rcases hatt with hatt | hatt
  · rw [hatt]; exact hframe
  · split
    · rw [if_pos hatt]; exact hframe
    · exact hframe

/-- Read Detail is taken with attention SET as with attention CLEAR (R185). -/
theorem exec_readDetail {s u : State} {p : Port} {h : FrameHead} {a : Answer} (hprst : (s.port p).prst = false)
    (hl : h.length = 4) (hf : h.flags = 0) (hr : doReadDetail (unlinked p h) s = (a, u))
    (hn : (u.port p).events.notifyOnPending = (s.port p).events.notifyOnPending)
    (ha : (u.port p).attention = (s.port p).attention) :
    exec (.readDetail p h) s = .next (u.closed p h .readDetail a) := by
  refine (exec_of_lengthOk .readDetail hprst (by omega) (by omega)).trans ?_
  rw [State.admitAttention_service rfl (.inr rfl) hf hl hr, State.arm_drive_closed s u p h _ a hn (fun e => ha.trans e)]

/-- Settles O10. -/
theorem noOperationAndReadDetail : Obligations.NoOperationAndReadDetail := by
  refine fun p h s => ⟨fun ht => exec_takenAtOnce_same rfl ht rfl, fun hprst hl hf => ⟨fun d hd => ?_, fun hd => ?_⟩⟩
  · refine exec_readDetail hprst hl hf ?_ (by simp) (by simp)
    simp [doReadDetail, unlinked, hd, DetailRec.bytes]
  · refine exec_readDetail hprst hl hf ?_ rfl rfl
    simp [doReadDetail, unlinked, hd]

/-! ### Events (R201, R202, R204) -/

/-- Settles O16: the settings of a port's events under the three commands, the flag of Notify On taking effect with the
frame after it. -/
theorem eventEnablesAndNotify : Obligations.EventEnablesAndNotify := by
  intro p h m s
  refine ⟨fun ht => ⟨fun hm => ?_, fun hm he => ?_, fun hm he => ?_⟩, fun ht hn => ?_,
    fun ht hn => ⟨fun he => ?_, fun he => ?_⟩, fun ht hn => ?_⟩
  · exact exec_serviceTaken_same rfl ht (by simp [runCmd, doSetEventEnable, hm])
  · exact exec_serviceTaken_same rfl ht (by simp [runCmd, doSetEventEnable, Nat.not_le.2 hm, unlinked, ← he])
  · refine exec_serviceTaken rfl ht (u := s.setEvents p { (s.port p).events with enable := m }) ?_
      (by simp [State.setEvents]) (by simp [State.setEvents])
    simp [runCmd, doSetEventEnable, Nat.not_le.2 hm, unlinked, he]
  · refine exec_serviceTaken rfl ht (u := s.setEvents p { (s.port p).events with notifyEnable := false }) ?_
      (by simp [State.setEvents]) (by simp [State.setEvents])
    have he : ({ (s.port p).events with notifyEnable := false, notifyOnPending := false } : EventState) =
        { (s.port p).events with notifyEnable := false } := by rw [← hn]
    simp [runCmd, doNotifyOff, unlinked, hn, Answer.changed]
  · exact exec_serviceTaken_same rfl ht (by simp [runCmd, doNotifyOn, unlinked, he, hn])
  · obtain ⟨hprst, hatt, hl, hf⟩ := ht
    have hrun : runCmd (unlinked p h) .notifyOn s =
        (Answer.plain .done, s.setEvents p { (s.port p).events with notifyOnPending := true }) := by
      simp [runCmd, doNotifyOn, unlinked, he]
    have h4 : h.length = 4 := hl
    refine (exec_of_lengthOk .notifyOn hprst (by omega) (by omega)).trans ?_
    rw [State.admitAttention_service rfl (.inl hatt) hf hl hrun]
    simp [State.arm, hn, State.drive, State.reply, State.answer, State.setEvents, Answer.plain, Status.writesDetail,
      Status.isRefusal, Cmd.code]
  · refine exec_serviceTaken rfl ht (u := s) ?_ rfl rfl
    have he : ({ (s.port p).events with notifyOnPending := true } : EventState) = (s.port p).events := by rw [← hn]
    simp [runCmd, doNotifyOn, unlinked, hn, State.setEvents]
    rw [he]
    exact s.setPort_port p

/-- A list in rising order of a rank is searched from the lowest rank on. -/
theorem find?_of_pairwise {α : Type} (rank : α → Nat) {l : List α} {f : α → Bool} {x : α}
    (hl : l.Pairwise (fun a b => rank a < rank b)) (hx : x ∈ l) (hfx : f x = true)
    (hlow : ∀ y, y ∈ l → rank y < rank x → f y = false) : l.find? f = some x := by
  induction l with
  | nil => cases hx
  | cons a l ih =>
    obtain ⟨ha, hl⟩ := List.pairwise_cons.1 hl
    rcases List.mem_cons.1 hx with rfl | hx
    · exact List.find?_cons_of_pos hfx
    · have hfa : f a = false := hlow a List.mem_cons_self (ha x hx)
      rw [List.find?_cons_of_neg (by simp [hfa])]
      exact ih hl hx (fun y hy => hlow y (List.mem_cons_of_mem _ hy))

theorem flagOf_eq_some {b : Byte} (h : b.toNat < 2) : flagOf b = some (b == 1) := by
  have : b.toNat = 0 ∨ b.toNat = 1 := by omega
  rcases this with e | e
  · obtain rfl : b = 0 := BitVec.eq_of_toNat_eq (by simpa using e)
    rfl
  · obtain rfl : b = 1 := BitVec.eq_of_toNat_eq (by simpa using e)
    rfl

theorem flagOf_eq_none {b : Byte} (h : 2 ≤ b.toNat) : flagOf b = none := by
  unfold flagOf
  split <;> first | omega | rfl

theorem EventKind.all_pairwise : EventKind.all.Pairwise (fun j k => j.priority < k.priority) := by decide

/-- Settles O17: the kinds stand in the order of their priorities, so the first candidate is the one of highest
priority. -/
theorem fetchEventTakesTheFirst : Obligations.FetchEventTakesTheFirst := by
  intro p h all s ht
  have hcand : ∀ k, (s.port p).candidate (all == 1) k = true ↔
      (s.port p).isPending k = true ∧ (all = 1 ∨ (s.port p).events.enable &&& k.bit ≠ 0) := by
    intro k; simp [PortRec.candidate]
  simp only [← hcand]
  refine ⟨fun hall => ?_, fun hall hnone => ?_, fun hall k hk hlow => ?_⟩
  · exact exec_serviceTaken_same rfl ht (by simp [runCmd, doFetchEvent, flagOf_eq_none hall])
  · have hfind : EventKind.all.find? ((s.port p).candidate (all == 1)) = none :=
      List.find?_eq_none.2 fun k _ => hnone k
    refine exec_serviceTaken rfl ht (u := s.setPort p (s.port p).quiet) ?_ (by simp [PortRec.quiet])
      (by simp [PortRec.quiet])
    simp only [runCmd, doFetchEvent, flagOf_eq_some hall, unlinked, hfind]
  · have hfind : EventKind.all.find? ((s.port p).candidate (all == 1)) = some k :=
      find?_of_pairwise EventKind.priority EventKind.all_pairwise k.mem_all hk
        (fun j _ hj => Bool.eq_false_iff.2 (hlow j hj))
    obtain ⟨-, -, hsettings⟩ := (s.port p).events.setKind_settings k KindState.zero
    refine exec_serviceTaken rfl ht (u := s.setPort p ((s.port p).takeKind k).quiet) ?_
      (by simp [PortRec.quiet, PortRec.takeKind, hsettings]) (by simp [PortRec.quiet, PortRec.takeKind])
    simp only [runCmd, doFetchEvent, flagOf_eq_some hall, unlinked, hfind]
    rfl

/-! ### Waiting slots (R194, R196) -/

/-- Slot `k` of port `p` waits with a record and a completion order. -/
def State.waitsAt (s : State) (p : Port) (k : Fin 8) (b : SlotBody) (r : Completion) (n : Nat) : Prop :=
  s.slot k = some b ∧ b.port = p ∧ b.waiting = some (r, n)

/-- One step of the search for the earliest waiting slot. -/
def State.earlier (s : State) (p : Port) (best : Option (Fin 8 × SlotBody × Completion × Nat)) (k : Fin 8) :
    Option (Fin 8 × SlotBody × Completion × Nat) :=
  match s.slot k with
  | some b => match b.waiting with
    | some (r, n) =>
      if b.port = p then
        match best with
        | some (_, _, _, m) => if n < m then some (k, b, r, n) else best
        | none => some (k, b, r, n)
      else best
    | none => best
  | none => best

theorem State.firstWaiting_eq (s : State) (p : Port) : s.firstWaiting p = allSlots.foldl (s.earlier p) none := rfl

theorem State.earlier_of_waitsAt {s : State} {p : Port} {k : Fin 8} {b : SlotBody} {r : Completion} {n : Nat}
    (h : s.waitsAt p k b r n) (best : Option (Fin 8 × SlotBody × Completion × Nat)) : s.earlier p best k =
      match best with
      | some (_, _, _, m) => if n < m then some (k, b, r, n) else best
      | none => some (k, b, r, n) := by
  obtain ⟨h1, h2, h3⟩ := h
  simp [State.earlier, h1, h2, h3]

theorem State.earlier_of_not_waiting {s : State} {p : Port} {k : Fin 8} (h : ∀ b r n, ¬ s.waitsAt p k b r n)
    (best : Option (Fin 8 × SlotBody × Completion × Nat)) : s.earlier p best k = best := by
  unfold State.earlier
  split
  · next b hb =>
    split
    · next r n hw =>
      split
      · next hp => exact absurd ⟨hb, hp, hw⟩ (h b r n)
      · rfl
    · rfl
  · rfl

/-- The slot whose order is below that of every other waiting slot of the port is found. -/
theorem State.firstWaiting_eq_some {s : State} {p : Port} {k : Fin 8} {b : SlotBody} {r : Completion} {n : Nat}
    (h : s.waitsAt p k b r n) (hmin : ∀ j b' r' m, s.waitsAt p j b' r' m → j ≠ k → n < m) :
    s.firstWaiting p = some (k, b, r, n) := by
  have key : ∀ (l : List (Fin 8)) (best : Option (Fin 8 × SlotBody × Completion × Nat)),
      best = some (k, b, r, n) ∨ (k ∈ l ∧ ∀ j b' r' m, best = some (j, b', r', m) → n < m) →
      l.foldl (s.earlier p) best = some (k, b, r, n) := by
    intro l
    induction l with
    | nil => rintro best (rfl | ⟨hk, -⟩) <;> simp_all
    | cons j l ih =>
      intro best hbest
      rw [List.foldl_cons]
      by_cases hj : j = k
      · subst hj
        refine ih _ (.inl ?_)
        rw [State.earlier_of_waitsAt h]
        rcases hbest with rfl | ⟨-, hworse⟩
        · simp
        · match best, hworse with
          | none, _ => rfl
          | some (_, _, _, m), hworse => exact if_pos (hworse _ _ _ m rfl)
      · by_cases hw : ∃ b' r' m, s.waitsAt p j b' r' m
        · obtain ⟨b', r', m, hw⟩ := hw
          have hm := hmin j b' r' m hw hj
          rw [State.earlier_of_waitsAt hw]
          rcases hbest with rfl | ⟨hk, hworse⟩
          · exact ih _ (.inl (if_neg (Nat.lt_asymm hm)))
          · refine ih _ (.inr ⟨(List.mem_cons.1 hk).resolve_left (fun e => hj e.symm), fun j' b2 r2 m2 e => ?_⟩)
            match best, hworse with
            | none, _ => cases e; exact hm
            | some (_, _, _, m3), hworse =>
              dsimp only at e
              split at e
              · cases e; exact hm
              · cases e; exact hworse _ _ _ _ rfl
        · rw [State.earlier_of_not_waiting (fun b' r' m h => hw ⟨b', r', m, h⟩)]
          refine ih _ (hbest.imp_right fun ⟨hk, hworse⟩ => ⟨?_, hworse⟩)
          exact (List.mem_cons.1 hk).resolve_left (fun e => hj e.symm)
  rw [State.firstWaiting_eq]
  have hall : ∀ k, k ∈ allSlots := by decide
  exact key _ _ (.inr ⟨hall k, by simp⟩)

theorem State.firstWaiting_eq_none {s : State} {p : Port} (h : ∀ k b r n, ¬ s.waitsAt p k b r n) :
    s.firstWaiting p = none := by
  rw [State.firstWaiting_eq]
  generalize allSlots = l
  induction l with
  | nil => rfl
  | cons k l ih => rw [List.foldl_cons, State.earlier_of_not_waiting (h k), ih]

theorem State.postWaiting_of_earliest {s : State} {p : Port} {k : Fin 8} {b : SlotBody} {r : Completion} {n : Nat}
    (hroom : (s.port p).completions.length < 8) (h : s.waitsAt p k b r n)
    (hmin : ∀ j b' r' m, s.waitsAt p j b' r' m → j ≠ k → n < m) : s.postWaiting p =
      (s.setPort p { s.port p with
        completions := (s.port p).completions ++ [{ r with heldBack := b.inChain }] }).setSlot k none := by
  rw [State.postWaiting, if_pos ((s.hasRoom_iff p).2 hroom), State.firstWaiting_eq_some h hmin]
  rfl

theorem State.postWaiting_of_none {s : State} {p : Port} (h : ∀ k b r n, ¬ s.waitsAt p k b r n) :
    s.postWaiting p = s := by
  rw [State.postWaiting, State.firstWaiting_eq_none h]
  simp

/-- Settles O14: both commands post the earliest of the port's waiting slots. -/
theorem completionsAreRead : Obligations.CompletionsAreRead := by
  refine ⟨fun p s k b r n hroom hk hb hw hmin => ?_, fun p h s ht => ⟨fun hc => ?_, fun c rest hc => ⟨fun hnone => ?_,
    fun k b r n hlen hk hb hw hmin => ?_⟩⟩⟩
  · exact congrArg _ (State.postWaiting_of_earliest hroom ⟨hk, hb, hw⟩ (fun j b' r' m hj => hmin j b' r' m hj.1 hj.2.1 hj.2.2))
  · exact exec_serviceTaken_same rfl ht (by simp [runCmd, doReadCompletion, unlinked, hc])
  · refine exec_serviceTaken rfl ht ?_ (by simp) (by simp)
    have hnot : ∀ k b r n, ¬ (s.setPort p { s.port p with completions := rest }).waitsAt p k b r n := by
      rintro k b r n ⟨h1, h2, h3⟩
      rw [hnone k b h1 h2] at h3
      cases h3
    simp [runCmd, doReadCompletion, unlinked, hc, Completion.bytes, natByte, State.postWaiting_of_none hnot]
  · refine exec_serviceTaken rfl ht (u := (s.setPort p { s.port p with
      completions := rest ++ [{ r with heldBack := b.inChain }] }).setSlot k none) ?_ (by simp) (by simp)
    have hpost := State.postWaiting_of_earliest (s := s.setPort p { s.port p with completions := rest }) (p := p)
      (by simp [hlen]) ⟨hk, hb, hw⟩ (fun j b' r' m hj => hmin j b' r' m hj.1 hj.2.1 hj.2.2)
    simp [runCmd, doReadCompletion, unlinked, hc, Completion.bytes, natByte, hpost]

end Sys2Proof.Machine
end

section
/-! PROOFS. What follows a change of the zones (R2, R75, R76, R141, R142): what is kept up step by step before the
reports, and what the reports make of it. -/

open Sys2Proof Sys2Proof.Machine

namespace Sys2Proof.Machine

/-! ### Source statuses (R2) -/

/-- Every source status is the one that the model computes. -/
def State.statusesOk (s : State) : Prop := ∀ z, (s.zone z).status = s.statusOf (s.zone z).live

theorem State.statusesOk_iff (s : State) :
    s.statusesOk ↔ ∀ z, s.statusIs (s.zone z).live (s.zone z).status :=
  forall_congr' fun _ => (s.statusIs_iff _ _).symm

theorem State.input_congr {s t : State} (h : t.inputs = s.inputs) (i : Fin 12) : t.input i = s.input i := by
  simp only [State.input, h]

theorem State.statusOf_congr {s t : State} (hd : t.decoder.binding = s.decoder.binding) (hi : t.inputs = s.inputs)
    (src : Source) : t.statusOf src = s.statusOf src := by
  cases src with
  | tuner => rfl
  | input i =>
    have hb : t.boundTo i = s.boundTo i := by rw [State.boundTo, State.boundTo, hd]
    rw [State.statusOf, State.statusOf, State.input_congr hi, hb]

theorem ZoneRec.sameButStatus.refl (r : ZoneRec) : r.sameButStatus r := rfl

theorem ZoneRec.sameButStatus.trans {r u v : ZoneRec} (h1 : r.sameButStatus u) (h2 : u.sameButStatus v) :
    r.sameButStatus v := by
  rw [ZoneRec.sameButStatus] at *
  rw [h2, h1]

/-- A zone record of which only the status has changed has the same state and source. -/
theorem ZoneRec.sameButStatus.heard {r u : ZoneRec} (h : r.sameButStatus u) :
    u.power = r.power ∧ u.live = r.live := by
  rw [ZoneRec.sameButStatus] at h
  rw [h]
  exact ⟨rfl, rfl⟩

theorem State.refreshStatus_eq (s : State) (z : Zone) : s.refreshStatus z =
    if s.statusOf (s.zone z).live = (s.zone z).status then s
    else (s.setZone z { s.zone z with status := s.statusOf (s.zone z).live }).raiseZone z := rfl

theorem State.refreshStatus_zone_self (s : State) (z : Zone) :
    (s.refreshStatus z).zone z = { s.zone z with status := s.statusOf (s.zone z).live } := by
  unfold State.refreshStatus
  by_cases h : s.statusOf (s.zone z).live = (s.zone z).status
  · rw [if_pos h, h]
  · rw [if_neg h, State.raiseZone, State.zone, ((s.setZone z _).raise_frame _ _).1 .zones (by decide)]
    exact s.zone_setZone_self z _

theorem State.zone_raise (s : State) (k : EventKind) (d : EventDetail) (y : Zone) :
    (s.raise k d).zone y = s.zone y := by
  rw [State.zone, (s.raise_frame k d).1 .zones (by decide)]; rfl

@[simp] theorem State.zone_raiseZone (s : State) (z y : Zone) : (s.raiseZone z).zone y = s.zone y :=
  s.zone_raise ..

theorem State.refreshStatus_zone_ne (s : State) {z y : Zone} (h : y ≠ z) :
    (s.refreshStatus z).zone y = s.zone y := by
  unfold State.refreshStatus
  by_cases hs : s.statusOf (s.zone z).live = (s.zone z).status
  · rw [if_pos hs]
  · rw [if_neg hs, State.zone_raiseZone, State.zone_setZone_ne _ _ h]

theorem State.refreshStatus_sameButStatus (s : State) (z y : Zone) :
    (s.zone y).sameButStatus ((s.refreshStatus z).zone y) := by
  by_cases h : y = z
  · subst h; rw [s.refreshStatus_zone_self]; rfl
  · rw [s.refreshStatus_zone_ne h]; rfl

theorem State.raiseZone_reported (s : State) (z : Zone) : zoneReported (s.raiseZone z) z :=
  s.raise_reported _ (by decide)

theorem State.raiseZone_raises (s : State) (z : Zone) : Raises s (s.raiseZone z) := s.raise_raises ..

theorem State.refreshStatus_raises (s : State) (z : Zone) : Raises s (s.refreshStatus z) := by
  rw [s.refreshStatus_eq]
  split
  · exact .refl s
  · exact (Raises.of_ports_eq (s.setZone_ports z _)).trans (State.raiseZone_raises _ z)

theorem State.refreshStatus_reported (s : State) (z : Zone)
    (h : ((s.refreshStatus z).zone z).status ≠ (s.zone z).status) : zoneReported (s.refreshStatus z) z := by
  rw [s.refreshStatus_zone_self] at h
  rw [State.refreshStatus, if_neg h]
  exact State.raiseZone_reported _ z

/-! ### The derived state before the reports -/

/-- From `s` to `t` the decoder, the tuner and the inputs are kept, and every source status has been kept up, a change
of one having raised ZONE. -/
structure Tracks (s t : State) : Prop where
  decoder : t.decoder = s.decoder
  tuner : t.tuner = s.tuner
  inputs : t.inputs = s.inputs
  statuses : s.statusesOk → t.statusesOk
  grown : eventsGrow s t
  changed : ∀ z, (t.zone z).status ≠ (s.zone z).status → zoneReported t z

theorem Tracks.refl (s : State) : Tracks s s := ⟨rfl, rfl, rfl, id, .refl s, fun _ h => absurd rfl h⟩

theorem Tracks.trans {s t u : State} (h1 : Tracks s t) (h2 : Tracks t u) : Tracks s u where
  decoder := h2.decoder.trans h1.decoder
  tuner := h2.tuner.trans h1.tuner
  inputs := h2.inputs.trans h1.inputs
  statuses := h2.statuses ∘ h1.statuses
  grown := h1.grown.trans h2.grown
  changed := fun z h => by
    by_cases hc : (u.zone z).status = (t.zone z).status
    · exact reported.mono (h1.changed z (hc ▸ h)) h2.grown
    · exact h2.changed z hc

/-- What keeps sources and statuses tracks. -/
theorem Tracks.of_same {s t : State} (hd : t.decoder = s.decoder) (ht : t.tuner = s.tuner) (hi : t.inputs = s.inputs)
    (hg : eventsGrow s t) (hz : ∀ z, (t.zone z).live = (s.zone z).live ∧ (t.zone z).status = (s.zone z).status) :
    Tracks s t where
  decoder := hd
  tuner := ht
  inputs := hi
  statuses := fun h z => by
    obtain ⟨h1, h2⟩ := hz z
    rw [h1, h2, h z, State.statusOf_congr (by rw [hd]) hi]
  grown := hg
  changed := fun z h => absurd (hz z).2 h

/-- A zone whose source has changed is kept up by the status computed anew. -/
theorem Tracks.refreshStatus {s u : State} {z : Zone} (hd : u.decoder = s.decoder) (ht : u.tuner = s.tuner)
    (hi : u.inputs = s.inputs) (hg : eventsGrow s u)
    (hne : ∀ y, y ≠ z → (u.zone y).live = (s.zone y).live ∧ (u.zone y).status = (s.zone y).status)
    (hz : (u.zone z).status = (s.zone z).status) : Tracks s (u.refreshStatus z) where
  decoder := ((u.refreshStatus_frame z).1 .decoder (by decide)).trans hd
  tuner := ((u.refreshStatus_frame z).1 .tuner (by decide)).trans ht
  inputs := ((u.refreshStatus_frame z).1 .inputs (by decide)).trans hi
  statuses := fun h y => by
    have hof (src : Source) : (u.refreshStatus z).statusOf src = u.statusOf src :=
      State.statusOf_congr (congrArg _ ((u.refreshStatus_frame z).1 .decoder (by decide)))
        ((u.refreshStatus_frame z).1 .inputs (by decide)) src
    by_cases hy : y = z
    · subst hy; rw [u.refreshStatus_zone_self, hof]
    · rw [u.refreshStatus_zone_ne hy, hof, (hne y hy).1, (hne y hy).2, h y,
        State.statusOf_congr (congrArg _ hd) hi]
  grown := hg.trans (u.refreshStatus_raises z).2
  changed := fun y h => by
    by_cases hy : y = z
    · subst hy; exact u.refreshStatus_reported y (hz ▸ h)
    · rw [u.refreshStatus_zone_ne hy] at h
      exact absurd (hne y hy).2 h

/-! ### The reports -/

theorem State.refreshStatuses_raises (s : State) : Raises s s.refreshStatuses :=
  ((s.refreshStatus_raises .main).trans (State.refreshStatus_raises _ .z2)).trans (State.refreshStatus_raises _ .z3)

theorem State.refreshBinding_raises (s : State) : Raises s s.refreshBinding := by
  unfold State.refreshBinding
  split
  · exact .refl s
  · exact ((Raises.of_ports_eq (s.setDecoder_ports _)).trans (State.raise_raises _ _ _)).trans (State.refreshStatuses_raises _)

theorem State.refreshBinding_tuner (s : State) : s.refreshBinding.tuner = s.tuner := by
  unfold State.refreshBinding
  split
  · rfl
  · rw [(State.refreshStatuses_frame _).1 .tuner (by decide), (State.raiseDecoder_frame _ _).1 .tuner (by decide)]
    rfl

theorem State.refreshTuner_ports (s : State) : s.refreshTuner.ports = s.ports :=
  s.refreshTuner_frame.1 .ports (by decide)

theorem State.reportZones_raises (s : State) : Raises s s.reportZones :=
  s.refreshBinding_raises.trans (.of_ports_eq (State.refreshTuner_ports _))

theorem State.refreshStatuses_sameButStatus (s : State) (y : Zone) :
    (s.zone y).sameButStatus (s.refreshStatuses.zone y) :=
  ((s.refreshStatus_sameButStatus .main y).trans (State.refreshStatus_sameButStatus _ .z2 y)).trans
    (State.refreshStatus_sameButStatus _ .z3 y)

theorem State.refreshBinding_sameButStatus (s : State) (y : Zone) :
    (s.zone y).sameButStatus (s.refreshBinding.zone y) := by
  unfold State.refreshBinding
  split
  · rfl
  · have := (((s.setDecoder (DecoderRec.bound s.computedBinding)).raiseDecoder decoderBind)).refreshStatuses_sameButStatus y
    rwa [State.raiseDecoder, State.zone_raise] at this

theorem State.refreshTuner_zone (s : State) (y : Zone) : s.refreshTuner.zone y = s.zone y := by
  rw [State.zone, s.refreshTuner_frame.1 .zones (by decide)]; rfl

theorem State.reportZones_sameButStatus (s : State) (y : Zone) :
    (s.zone y).sameButStatus (s.reportZones.zone y) := by
  rw [State.reportZones, State.refreshTuner_zone]
  exact s.refreshBinding_sameButStatus y

/-- The binding computed depends on the zones' states and sources and on the inputs alone. -/
theorem State.computedBinding_congr {s t : State} (hi : t.inputs = s.inputs)
    (hz : ∀ z, (t.zone z).power = (s.zone z).power ∧ (t.zone z).live = (s.zone z).live) :
    t.computedBinding = s.computedBinding := by
  have hp (z : Zone) : t.packedSource z = s.packedSource z := by
    obtain ⟨h1, h2⟩ := hz z
    have hup : (t.zone z).isUp = (s.zone z).isUp := by rw [ZoneRec.isUp, ZoneRec.isUp, h1]
    rw [State.packedSource, State.packedSource, hup, h2]
    simp only [State.input_congr hi]
  simp only [State.computedBinding, hp]

theorem State.listened_congr {s t : State}
    (hz : ∀ z, (t.zone z).power = (s.zone z).power ∧ (t.zone z).live = (s.zone z).live) :
    t.listened ↔ s.listened := by
  unfold State.listened
  exact exists_congr fun z => by rw [(hz z).1, (hz z).2]

/-- After all of them are computed anew every source status is in order. -/
theorem State.refreshStatuses_ok (s : State) : s.refreshStatuses.statusesOk := by
  have hof (src : Source) : s.refreshStatuses.statusOf src = s.statusOf src :=
    State.statusOf_congr (congrArg _ (s.refreshStatuses_frame.1 .decoder (by decide)))
      (s.refreshStatuses_frame.1 .inputs (by decide)) src
  have hof1 (src : Source) : (s.refreshStatus .main).statusOf src = s.statusOf src :=
    State.statusOf_congr (congrArg _ ((s.refreshStatus_frame .main).1 .decoder (by decide)))
      ((s.refreshStatus_frame .main).1 .inputs (by decide)) src
  have hof2 (src : Source) : ((s.refreshStatus .main).refreshStatus .z2).statusOf src = s.statusOf src :=
    (State.statusOf_congr (congrArg _ ((State.refreshStatus_frame _ .z2).1 .decoder (by decide)))
      ((State.refreshStatus_frame _ .z2).1 .inputs (by decide)) src).trans (hof1 src)
  intro z
  rw [hof, State.refreshStatuses]
  cases z
  · rw [State.refreshStatus_zone_ne _ (by decide), State.refreshStatus_zone_ne _ (by decide),
      State.refreshStatus_zone_self]
  · rw [State.refreshStatus_zone_ne _ (by decide), State.refreshStatus_zone_self, hof1]
  · rw [State.refreshStatus_zone_self, hof2]

theorem State.refreshStatuses_reported (s : State) (z : Zone)
    (h : (s.refreshStatuses.zone z).status ≠ (s.zone z).status) : zoneReported s.refreshStatuses z := by
  have hthird (u : State) := (u.refreshStatus_raises .z3).2
  have hsecond (u : State) := (u.refreshStatus_raises .z2).2
  rw [State.refreshStatuses] at *
  cases z
  · rw [State.refreshStatus_zone_ne _ (by decide), State.refreshStatus_zone_ne _ (by decide)] at h
    exact reported.mono (s.refreshStatus_reported .main h) ((hsecond _).trans (hthird _))
  · rw [State.refreshStatus_zone_ne _ (by decide), ← State.refreshStatus_zone_ne s (z := .main) (by decide)] at h
    exact reported.mono (State.refreshStatus_reported _ .z2 h) (hthird _)
  · rw [← State.refreshStatus_zone_ne s (z := .main) (by decide),
      ← State.refreshStatus_zone_ne (s.refreshStatus .main) (z := .z2) (by decide)] at h
    exact State.refreshStatus_reported _ .z3 h

/-- The tuner's records are coherent: no settle, seek or scan in PARKED, an operation in SEEKING and SCANNING. -/
def TunerRec.coherent (t : TunerRec) : Prop :=
  (t.state = .parked → t.settle = none ∧ t.seek = none ∧ t.scan = none) ∧
  (t.state = .seeking ∨ t.state = .scanning → t.op ≠ none)

theorem State.tunerActive_iff (s : State) : s.tunerActive = true ↔ s.listened ∨ s.tuner.op ≠ none := by
  rw [s.listened_iff, State.tunerActive, Bool.or_eq_true, Option.isSome_iff_ne_none]

theorem State.refreshTuner_op (s : State) : s.refreshTuner.tuner.op = s.tuner.op := by
  unfold State.refreshTuner
  split
  · split <;> rfl
  · split <;> rfl

/-- The reports leave the tuner's activity as R141 computes it. -/
theorem State.refreshTuner_follows (s : State) (h : s.tuner.coherent) : s.refreshTuner.tunerFollows := by
  obtain ⟨hp, ho⟩ := h
  have hlisten : s.refreshTuner.listened ↔ s.listened :=
    State.listened_congr fun z => by rw [s.refreshTuner_zone]; exact ⟨rfl, rfl⟩
  unfold State.tunerFollows
  rw [hlisten, s.refreshTuner_op, ← s.tunerActive_iff]
  unfold State.refreshTuner
  by_cases ha : s.tunerActive = true
  · by_cases hs : s.tuner.state = .parked
    · simp [ha, hs, TunerRec.settleNow]
    · simp [ha, hs]
      exact fun h => ho h
  · have hop : s.tuner.op = none := by
      by_contra hop
      exact ha (s.tunerActive_iff.2 (.inr hop))
    rw [hop] at ho
    cases hs : s.tuner.state
    all_goals simp_all [TunerRec.parkNow]

/-- What the reports of the zones make of a state that has been kept up to them (R2, R75, R76, R141, R142). -/
theorem followsOn_reportZones {s u : State} (h : Tracks s u) : followsOn s u.reportZones := by
  rintro ⟨-, hstatus, ⟨-, hcoherent⟩⟩
  have hok : u.statusesOk := h.statuses (s.statusesOk_iff.2 hstatus)
  generalize hv : u.refreshBinding = v
  have hvdecoder : v.decoder = if u.computedBinding = u.decoder.binding then u.decoder
      else decoderAnew u.computedBinding := hv ▸ u.refreshBinding_decoder
  have hvbinding : v.decoder.binding = u.computedBinding := by
    rw [hvdecoder]; split
    · next e => exact e.symm
    · rfl
  have hvok : v.statusesOk := by
    rw [← hv, State.refreshBinding]
    split
    · exact hok
    · exact State.refreshStatuses_ok _
  have hvchanged (z : Zone) : (v.zone z).status ≠ (s.zone z).status → zoneReported v z := by
    have hgrown : eventsGrow u v := hv ▸ u.refreshBinding_raises.2
    intro hne
    by_cases hu : (u.zone z).status = (s.zone z).status
    · rw [← hu, ← hv, State.refreshBinding] at hne
      rw [← hv, State.refreshBinding]
      split
      · next e => rw [if_pos e] at hne; exact absurd rfl hne
      · next e =>
        rw [if_neg e] at hne
        refine State.refreshStatuses_reported _ z (fun e => hne (e.trans ?_))
        rw [State.raiseDecoder, State.zone_raise]; rfl
    · exact reported.mono (h.changed z hu) hgrown
  have hvinputs : v.inputs = u.inputs := hv ▸ u.refreshBinding_frame.1 .inputs (by decide)
  have hvtuner : v.tuner = s.tuner := (hv ▸ u.refreshBinding_tuner : v.tuner = u.tuner).trans h.tuner
  have hvzones (z : Zone) : (v.zone z).power = (u.zone z).power ∧ (v.zone z).live = (u.zone z).live :=
    (hv ▸ u.refreshBinding_sameButStatus z : (u.zone z).sameButStatus (v.zone z)).heard
  have hframe := v.refreshTuner_frame.1
  have hdecoder : v.refreshTuner.decoder = v.decoder := hframe .decoder (by decide)
  have hinputs : v.refreshTuner.inputs = v.inputs := hframe .inputs (by decide)
  have hgrown : eventsGrow v v.refreshTuner := .of_ports_eq v.refreshTuner_ports
  rw [State.reportZones, hv]
  refine ⟨⟨?_, ?_, v.refreshTuner_follows (hvtuner ▸ hcoherent)⟩, fun z hz => ?_, ⟨fun hb => ?_, fun hb => ?_⟩, ?_⟩
  · rw [State.bindingIs_iff, hdecoder, hvbinding]
    exact (State.computedBinding_congr (hinputs.trans hvinputs)
      (fun z => by rw [v.refreshTuner_zone]; exact hvzones z)).symm
  · intro z
    rw [State.statusIs_iff, v.refreshTuner_zone, hvok z]
    exact (State.statusOf_congr (by rw [hdecoder]) hinputs _).symm
  · rw [v.refreshTuner_zone] at hz
    exact reported.mono (hvchanged z hz) hgrown
  · rw [hdecoder, hvbinding] at hb
    rw [hdecoder, hvdecoder, if_pos (by rw [hb, h.decoder]), h.decoder]
  · rw [hdecoder, hvbinding] at hb
    have hne : u.computedBinding ≠ u.decoder.binding := by rwa [h.decoder]
    rw [hdecoder, hvdecoder, if_neg hne]
    refine ⟨rfl, reported.mono ?_ hgrown⟩
    rw [← hv, State.refreshBinding, if_neg hne]
    exact reported.mono (State.raise_reported _ _ (by decide)) (State.refreshStatuses_raises _).2
  · have := v.refreshTuner_retunes
    rwa [retunes, hvtuner] at this

/-! ### After the reports -/

/-- What the derived state reads is the same, and no event is lost. -/
structure Settled (s t : State) : Prop where
  decoder : t.decoder = s.decoder
  tuner : t.tuner = s.tuner
  inputs : t.inputs = s.inputs
  zones : ∀ z, (t.zone z).power = (s.zone z).power ∧ (t.zone z).live = (s.zone z).live ∧
    (t.zone z).status = (s.zone z).status
  grown : eventsGrow s t

theorem Settled.trans {s t u : State} (h1 : Settled s t) (h2 : Settled t u) : Settled s u where
  decoder := h2.decoder.trans h1.decoder
  tuner := h2.tuner.trans h1.tuner
  inputs := h2.inputs.trans h1.inputs
  zones := fun z => by
    obtain ⟨a1, b1, c1⟩ := h1.zones z
    obtain ⟨a2, b2, c2⟩ := h2.zones z
    exact ⟨a2.trans a1, b2.trans b1, c2.trans c1⟩
  grown := h1.grown.trans h2.grown

theorem Settled.refl (s : State) : Settled s s := ⟨rfl, rfl, rfl, fun _ => ⟨rfl, rfl, rfl⟩, .refl s⟩

theorem Settled.tracks {s t : State} (h : Settled s t) : Tracks s t :=
  .of_same h.decoder h.tuner h.inputs h.grown fun z => (h.zones z).2

theorem Settled.heard {s t : State} (h : Settled s t) (z : Zone) :
    (t.zone z).power = (s.zone z).power ∧ (t.zone z).live = (s.zone z).live := by
  obtain ⟨h1, h2, -⟩ := h.zones z
  exact ⟨h1, h2⟩

/-- Nothing that keeps what the derived state reads disturbs it. -/
theorem Settled.followed {s t : State} (h : Settled s t) (hs : s.followed) : t.followed := by
  obtain ⟨hb, hst, htuner⟩ := hs
  refine ⟨?_, ?_, ?_⟩
  · rw [State.bindingIs_iff] at *
    rw [h.decoder, hb, State.computedBinding_congr h.inputs h.heard]
  · exact t.statusesOk_iff.1 (h.tracks.statuses (s.statusesOk_iff.2 hst))
  · unfold State.tunerFollows
    rw [h.tuner, State.listened_congr h.heard]
    exact htuner

theorem followsOn.then {s t u : State} (h : followsOn s t) (ht : Settled t u) : followsOn s u := by
  intro hs
  obtain ⟨h1, h2, ⟨h3, h4⟩, h5⟩ := h hs
  refine ⟨ht.followed h1, fun z hz => ?_, ⟨?_, ?_⟩, ?_⟩
  · obtain ⟨-, -, hst⟩ := ht.zones z
    exact reported.mono (h2 z (hst ▸ hz)) ht.grown
  · rw [ht.decoder]; exact h3
  · rw [ht.decoder]
    exact fun hb => ⟨(h4 hb).1, reported.mono (h4 hb).2 ht.grown⟩
  · unfold retunes
    rw [ht.tuner, State.listened_congr ht.heard]
    exact h5

theorem followsOn.refl (s : State) : followsOn s s := by
  intro hs
  refine ⟨hs, fun _ h => absurd rfl h, ⟨fun _ => rfl, fun h => absurd rfl h⟩, ?_⟩
  obtain ⟨-, -, hact, -, -⟩ := hs
  refine ⟨fun ha hp => absurd ha (hact.1 hp), fun ha hp => ?_, fun _ => rfl⟩
  have := hact.2 ha
  rw [this] at hp
  simp at hp

/-- What is settled before a change does not matter to what follows it. -/
theorem followsOn.after {s u t : State} (hu : Settled s u) (h : followsOn u t) : followsOn s t := by
  intro hs
  obtain ⟨h1, h2, h3, h4⟩ := h (hu.followed hs)
  refine ⟨h1, fun z hz => h2 z ?_, ?_, ?_⟩
  · obtain ⟨-, -, hst⟩ := hu.zones z
    rwa [hst]
  · unfold rebinds at *
    rwa [hu.decoder] at h3
  · unfold retunes at *
    rwa [hu.tuner] at h4

/-- An answer besides keeps what the derived state reads. -/
theorem State.closed_settled (u : State) (p : Port) (h : FrameHead) (c : Cmd) (a : Answer) :
    Settled u (u.closed p h c a) where
  decoder := rfl
  tuner := rfl
  inputs := rfl
  zones := fun _ => ⟨rfl, rfl, rfl⟩
  grown := fun q => by
    by_cases hq : q = p
    · subst hq
      rw [State.closed_port_self]
      intro k
      cases k <;> exact ⟨id, fun _ => id⟩
    · rw [State.closed_port_ne _ _ _ _ hq]
      exact EventState.le_refl _

theorem State.closed_grown (u : State) (p : Port) (h : FrameHead) (c : Cmd) (a : Answer) :
    eventsGrow u (u.closed p h c a) := (u.closed_settled p h c a).grown

theorem onlyReplied_closed {s u : State} {p : Port} {h : FrameHead} {c : Cmd} {a : Answer} (hr : portsRaised s u) :
    onlyReplied s (u.closed p h c a) p h c a :=
  ⟨u, hr, State.closed_port_self .., fun _ hq => State.closed_port_ne _ _ _ _ hq⟩

/-- An ordinary command taken at once whose execution keeps the ports. -/
theorem exec_takenAtOnce_kept {s u : State} {p : Port} {h : FrameHead} {c : Cmd} {a : Answer}
    (hc : c.isService = false) (ht : takenAtOnce s p h c) (hk : portsKept s u)
    (hr : runCmd (unlinked p h) c s = (a, u)) : exec (rowOf p h c) s = .next (u.closed p h c a) := by
  obtain ⟨-, hatt, -, -, -, -, -, -, hn, -⟩ := hk p
  exact exec_takenAtOnce hc ht hr hn hatt

end Sys2Proof.Machine
end

section
/-! PROOFS. Zones: settings, layers and overrides (R12 to R20, R25 to R31), and power commands that find their zone in
a transition (R10). -/

open Sys2Proof Sys2Proof.Machine

namespace Sys2Proof.Machine

/-! ### Layers (R30) -/

/-- Port `p` pushed entry `k`. -/
def pushedAt (stack : List OverrideEntry) (p : Port) (k : Nat) : Bool :=
  match stack[k]? with
  | some e => e.port == p
  | none => false

theorem pushedAt_of_getElem? {stack : List OverrideEntry} {p : Port} {k : Nat} {e : OverrideEntry}
    (h : stack[k]? = some e) : pushedAt stack p k = (e.port == p) := by
  rw [pushedAt, h]

theorem pushedAt_eq_false {stack : List OverrideEntry} {p : Port} {k : Nat}
    (h : ∀ e, stack[k]? = some e → e.port ≠ p) : pushedAt stack p k = false := by
  unfold pushedAt
  split
  · next e he => simpa using h e he
  · rfl

theorem highestPushed_eq (stack : List OverrideEntry) (p : Port) :
    highestPushed stack p = ((List.range stack.length).filter (pushedAt stack p)).getLast? := rfl

/-- The highest entry that a port pushed, as a search of the stack finds it. -/
theorem highestPushed_of_highest {stack : List OverrideEntry} {p : Port} {k : Nat} {e : OverrideEntry}
    (he : stack[k]? = some e) (hp : e.port = p) (hlast : ∀ j f, k < j → stack[j]? = some f → f.port ≠ p) :
    highestPushed stack p = some k := by
  obtain ⟨hk, -⟩ := List.getElem?_eq_some_iff.1 he
  obtain ⟨n, hn⟩ : ∃ n, stack.length = k + 1 + n := ⟨stack.length - (k + 1), by omega⟩
  have hrest : ((List.range n).map (fun i => k + 1 + i)).filter (pushedAt stack p) = [] := by
    rw [List.filter_eq_nil_iff]
    intro j hj
    obtain ⟨i, -, rfl⟩ := List.mem_map.1 hj
    rw [pushedAt_eq_false fun f hf => hlast _ f (by omega) hf]
    simp
  rw [highestPushed_eq, hn, List.range_add, List.filter_append, List.range_succ, List.filter_append, hrest]
  simp [pushedAt_of_getElem? he, hp]

theorem highestPushed_of_none {stack : List OverrideEntry} {p : Port} (h : ∀ e, e ∈ stack → e.port ≠ p) :
    highestPushed stack p = none := by
  rw [highestPushed_eq, List.getLast?_eq_none_iff, List.filter_eq_nil_iff]
  intro k _
  rw [pushedAt_eq_false fun e he => h e (List.mem_of_getElem? he)]
  simp

/-- Settles O26. -/
theorem layersOfPorts : Obligations.LayersOfPorts := by
  intro stack p
  refine ⟨fun h => by simp [layerOf, h], fun e he hp => ?_, fun k e he hp hk hlast => ?_, fun hne hnone => ?_⟩
  · rw [List.getLast?_eq_getElem?] at he
    obtain ⟨hlen, -⟩ := List.getElem?_eq_some_iff.1 he
    have hne : stack ≠ [] := by rintro rfl; simp at hlen
    have hlast : ∀ j f, stack.length - 1 < j → stack[j]? = some f → f.port ≠ p := by
      intro j f hj hf
      obtain ⟨hjlen, -⟩ := List.getElem?_eq_some_iff.1 hf
      omega
    rw [layerOf, if_neg hne, highestPushed_of_highest he hp hlast]
    exact if_pos (by omega)
  · have hne : stack ≠ [] := by rintro rfl; simp at he
    rw [layerOf, if_neg hne, highestPushed_of_highest he hp hlast]
    exact if_neg (by omega)
  · rw [layerOf, if_neg hne, highestPushed_of_none hnone]

/-! ### Settings (R12 to R20, R31) -/

theorem withZone_some {b : Byte} {z : Zone} (s : State) (f : Zone → Answer × State) (h : zoneOf b = some z) :
    withZone b s f = f z := by
  rw [withZone, h]

theorem withZone_none {b : Byte} (s : State) (f : Zone → Answer × State) (h : zoneOf b = none) :
    withZone b s f = (Answer.badParam 0, s) := by
  rw [withZone, h]

theorem layered_entry {x : Ctx} {z : Zone} {s : State} {k : Nat} (f : OverrideEntry → OverrideEntry)
    (live : Bool × State) (h : layerOf (s.zone z).stack x.port = some k) :
    layered x z s f live = (deferredAnswer k, s.changeEntry z k f) := by
  rw [layered, h]

theorem layered_live {x : Ctx} {z : Zone} {s : State} (f : OverrideEntry → OverrideEntry) (live : Bool × State)
    (h : layerOf (s.zone z).stack x.port = none) :
    layered x z s f live = (Answer.changed live.1, live.2) := by
  rw [layered, h]

theorem zoneOf_eq_none {b : Byte} (h : 3 ≤ b.toNat) : zoneOf b = none := by
  unfold zoneOf
  split <;> first | omega | rfl

theorem zoneOf_of_lt {b : Byte} (h : b.toNat < 3) : ∃ z, zoneOf b = some z := by
  have : b.toNat = 0 ∨ b.toNat = 1 ∨ b.toNat = 2 := by omega
  rcases this with e | e | e <;> simp [zoneOf, e]

theorem zoneOf_eq_main {b : Byte} : zoneOf b = some .main ↔ b = 0 := by
  constructor
  · intro h
    unfold zoneOf at h
    split at h
    · next e => exact BitVec.eq_of_toNat_eq (by simpa using e)
    all_goals simp at h
  · rintro rfl; rfl

theorem sourceOf_eq_none {b : Byte} (h : 13 ≤ b.toNat) : sourceOf b = none := by
  rw [sourceOf, dif_neg (by omega), if_neg (by omega)]

theorem surroundOf_eq_none {b : Byte} (h : 4 ≤ b.toNat) : surroundOf b = none := by
  unfold surroundOf
  split <;> first | omega | rfl

theorem Byte.toInt_eq_zero_iff (d : Byte) : d.toInt = 0 ↔ d = 0 :=
  ⟨fun h => BitVec.eq_of_toInt_eq (by simpa using h), fun h => by rw [h]; rfl⟩

/-- The answer of a setting that is taken where it differs from the one held. -/
theorem changed_ite {α : Type} [DecidableEq α] [BEq α] [LawfulBEq α] (v w : α) (s u : State) :
    (Answer.changed (if v = w then (false, s) else (true, u)).1, (if v = w then (false, s) else (true, u)).2) =
      if (v == w) = true then (Answer.plain .doneNoChange, s) else (Answer.plain .done, u) := by
  by_cases h : v = w
  · rw [if_pos h, if_pos (beq_iff_eq.2 h)]; rfl
  · rw [if_neg h, if_neg (h ∘ beq_iff_eq.1)]; rfl

theorem onlyChanges.closed {ps : List Part} {s u : State} (hu : onlyChanges ps s u) (p : Port) (h : FrameHead) (c : Cmd)
    (a : Answer) (hp : [Part.ports].all (fun q => ps.contains q) = true := by decide) :
    onlyChanges ps s (u.closed p h c a) :=
  hu.trans (onlyChanges.mono (State.closed_onlyChanges u p h c a) hp)

/-- Settles O27: a change below the top goes to its entry alone. -/
theorem layeredChangesAreDeferred : Obligations.LayeredChangesAreDeferred := by
  intro p h zone z s k hz hk
  have hkept (f : OverrideEntry → OverrideEntry) :
      portsKept s (s.setZone z { s.zone z with stack := (s.zone z).stack.modify k f }) := (s.setZone_frame z _).2
  refine ⟨fun b src hb ht => ?_, fun v ht => ?_, fun d h0 hlo hhi ht => ?_, fun m hm ht => ?_, fun b m hmain hb ht => ?_⟩
  · refine exec_takenAtOnce_kept rfl ht (hkept _) ?_
    simp only [runCmd, doSelectSource]
    rw [withZone_some s _ hz, hb]
    exact layered_entry _ _ hk
  · refine exec_takenAtOnce_kept rfl ht (hkept _) ?_
    simp only [runCmd, doSetVolume]
    rw [withZone_some s _ hz]
    exact layered_entry _ _ hk
  · refine exec_takenAtOnce_kept rfl ht (hkept _) ?_
    have hok : ¬ (d.toInt = 0 ∨ d.toInt < -20 ∨ 20 < d.toInt) := by
      rw [Byte.toInt_eq_zero_iff]; rintro (h | h | h) <;> first | exact h0 h | omega
    simp only [runCmd, doStepVolume]
    rw [withZone_some s _ hz, if_neg hok]
    exact layered_entry _ _ hk
  · refine exec_takenAtOnce_kept rfl ht (hkept _) ?_
    simp only [runCmd, doSetMute]
    rw [withZone_some s _ hz, flagOf_eq_some hm]
    exact layered_entry _ _ hk
  · refine exec_takenAtOnce_kept rfl ht (hkept _) ?_
    simp only [runCmd, doSetSurroundMode]
    rw [withZone_some s _ hz, if_neg (by simp [hmain]), hb]
    exact layered_entry _ _ hk

/-- Settles O29: each fault is tested before anything changes. -/
theorem settingsRefuseBadParameters : Obligations.SettingsRefuseBadParameters := by
  intro p h zone x v s
  have same (c : Cmd) (k : Byte) (hc : c.isService = false)
      (hr : runCmd (unlinked p h) c s = (Answer.badParam k, s)) (ht : takenAtOnce s p h c) :
      exec (rowOf p h c) s = .next (s.closed p h c (Answer.badParam k)) := exec_takenAtOnce_same hc ht hr
  refine ⟨fun hz => ?_, fun hz => ?_⟩
  · have hnone := zoneOf_eq_none hz
    refine ⟨same _ _ rfl ?_, same _ _ rfl ?_, same _ _ rfl ?_, same _ _ rfl ?_, same _ _ rfl ?_, same _ _ rfl ?_,
      same _ _ rfl ?_, same _ _ rfl ?_, same _ _ rfl ?_, same _ _ rfl ?_, same _ _ rfl ?_, same _ _ rfl ?_,
      same _ _ rfl ?_⟩ <;> exact withZone_none s _ hnone
  · obtain ⟨z, hsome⟩ := zoneOf_of_lt hz
    refine ⟨fun hx => ⟨same _ _ rfl ?_, same _ _ rfl ?_⟩, fun hx => same _ _ rfl ?_, fun hx => same _ _ rfl ?_,
      fun hne => same _ _ rfl ?_, fun h0 hx => same _ _ rfl ?_⟩
    · simp only [runCmd, doSelectSource]
      rw [withZone_some s _ hsome, sourceOf_eq_none hx]
    · simp only [runCmd, doPushOverride]
      rw [withZone_some s _ hsome, sourceOf_eq_none hx]
    · simp only [runCmd, doStepVolume]
      rw [withZone_some s _ hsome, if_pos (hx.imp_left (Byte.toInt_eq_zero_iff x).2)]
    · simp only [runCmd, doSetMute]
      rw [withZone_some s _ hsome, flagOf_eq_none hx]
    · simp only [runCmd, doSetSurroundMode]
      rw [withZone_some s _ hsome, if_pos]
      rintro rfl
      exact hne (zoneOf_eq_main.1 hsome)
    · obtain rfl : z = .main := Option.some.inj (hsome.symm.trans (zoneOf_eq_main.2 h0))
      simp only [runCmd, doSetSurroundMode]
      rw [withZone_some s _ hsome, if_neg (by simp), surroundOf_eq_none hx]

theorem min_eq_ite (a m : Int) : min a m = if m < a then m else a := by
  split <;> omega

/-- Settles O30. -/
theorem setMaxVolumeLowersVolumes : Obligations.SetMaxVolumeLowersVolumes := by
  intro p h zone z v s ht hz
  refine ⟨fun hm => exec_takenAtOnce_same rfl ht ?_, fun hm => exec_takenAtOnce_kept rfl ht
    ((s.setZone_frame z _).comp (State.raiseZone_frame _ z)).2 ?_⟩
  · simp only [runCmd, doSetMaxVolume]
    rw [withZone_some s _ hz]
    exact if_pos hm
  · simp only [runCmd, doSetMaxVolume]
    rw [withZone_some s _ hz]
    refine (if_neg hm).trans ?_
    simp only [clampInt, min_eq_ite]

/-! ### Sources (R12 to R14) -/

/-- A source applied in ON is the waiting source; the live source ends a running switch. -/
theorem State.applySource_on {s : State} {z : Zone} (src : Source) (hon : (s.zone z).power = .on) :
    s.applySource z src =
      if ((src == (s.zone z).live && (s.zone z).waiting == none) ||
          (src != (s.zone z).live && (s.zone z).waiting == some src)) = true then (false, s)
      else (true, s.setZone z { s.zone z with waiting := if src = (s.zone z).live then none else some src }) := by
  rw [State.applySource, if_pos hon]
  cases hw : (s.zone z).waiting with
  | none =>
    by_cases hl : src = (s.zone z).live
    · simp [hl]
    · simp [hl]
  | some w =>
    by_cases hl : src = (s.zone z).live
    · simp [hl]
    · by_cases hsw : src = w
      · simp [hsw, hsw ▸ hl]
      · simp [hl, hsw, Ne.symm hsw]

/-- In ON the waiting source follows, whether it changes or not. -/
theorem State.applySource_on_snd {s : State} {z : Zone} (src : Source) (hon : (s.zone z).power = .on) :
    (s.applySource z src).2 =
      s.setZone z { s.zone z with waiting := if src = (s.zone z).live then none else some src } := by
  have hself (w : Option Source) (hw : (s.zone z).waiting = w) :
      s.setZone z { s.zone z with waiting := w } = s := by rw [← hw]; exact s.setZone_zone z
  rw [State.applySource_on src hon]
  split
  · next h =>
    refine (hself _ ?_).symm
    by_cases hl : src = (s.zone z).live
    · simpa [hl] using h
    · simpa [hl] using h
  · rfl

/-- A source applied outside ON, where it is not the live one, is live at once and reported. -/
theorem State.applySource_off {s : State} {z : Zone} {src : Source} (hoff : (s.zone z).power ≠ .on)
    (hne : src ≠ (s.zone z).live) :
    s.applySource z src =
      (true, (((s.setZone z { s.zone z with live := src }).raiseZone z).refreshStatus z).reportZones) := by
  rw [State.applySource, if_neg hoff, if_neg hne]

theorem State.applySource_same {s : State} {z : Zone} (hoff : (s.zone z).power ≠ .on) :
    s.applySource z (s.zone z).live = (false, s) := by
  rw [State.applySource, if_neg hoff, if_pos rfl]

/-- A new live source as it stands before the reports. -/
def State.sourceTaken (s : State) (z : Zone) (src : Source) : State :=
  ((s.setZone z { s.zone z with live := src }).raiseZone z).refreshStatus z

theorem State.sourceTaken_tracks (s : State) (z : Zone) (src : Source) : Tracks s (s.sourceTaken z src) := by
  have hframe := ((s.setZone z { s.zone z with live := src }).raiseZone_frame z).1
  refine Tracks.refreshStatus (hframe .decoder (by decide)) (hframe .tuner (by decide)) (hframe .inputs (by decide))
    ((eventsGrow.of_ports_eq (s.setZone_ports z _)).trans (State.raiseZone_raises _ z).2) (fun y hy => ?_) ?_
  · rw [State.zone_raiseZone, State.zone_setZone_ne _ _ hy]
    exact ⟨rfl, rfl⟩
  · rw [State.zone_raiseZone, State.zone_setZone_self]

/-- What a source that is live at once leaves (R12, R13). -/
theorem State.applySource_off_spec {s : State} {z : Zone} {src : Source} (hoff : (s.zone z).power ≠ .on) :
    let t := (s.applySource z src).2
    t.zone z = { s.zone z with live := src, status := (t.zone z).status } ∧
    (∀ y, y ≠ z → (s.zone y).sameButStatus (t.zone y)) ∧ followsOn s t ∧ Raises s t ∧
    onlyChanges [.zones, .decoder, .tuner, .ports] s t ∧ (src ≠ (s.zone z).live → zoneReported t z) := by
  by_cases hne : src = (s.zone z).live
  · subst hne
    rw [State.applySource_same hoff]
    exact ⟨rfl, fun _ _ => rfl, followsOn.refl s, .refl s, onlyChanges_refl _ s, fun h => absurd rfl h⟩
  · refine ⟨?_, ?_, ?_, ?_, (s.applySource_frame z src).1.mono, fun _ => ?_⟩
    all_goals rw [State.applySource_off hoff hne]
    · have h := ((State.refreshStatus_sameButStatus ((s.setZone z { s.zone z with live := src }).raiseZone z) z z).trans
        (State.reportZones_sameButStatus _ z))
      rw [State.zone_raiseZone, State.zone_setZone_self] at h
      exact h
    · intro y hy
      have h := ((State.refreshStatus_sameButStatus ((s.setZone z { s.zone z with live := src }).raiseZone z) z y).trans
        (State.reportZones_sameButStatus _ y))
      rwa [State.zone_raiseZone, State.zone_setZone_ne _ _ hy] at h
    · exact followsOn_reportZones (s.sourceTaken_tracks z src)
    · exact (((Raises.of_ports_eq (s.setZone_ports z _)).trans (State.raiseZone_raises _ z)).trans
        (State.refreshStatus_raises _ z)).trans (State.reportZones_raises _)
    · exact reported.mono (State.raiseZone_reported _ z)
        ((State.refreshStatus_raises _ z).2.trans (State.reportZones_raises _).2)

/-- Settles O28. -/
theorem liveSettings : Obligations.LiveSettings := by
  intro p h zone z s hz hlayer r clamp gives
  have hraise (u : ZoneRec) : portsKept s ((s.setZone z u).raiseZone z) := fun q =>
    ((s.setZone_frame z u).comp (State.raiseZone_frame _ z)).2 q
  have live (c : Cmd) (b : Bool) (u : State) (hc : c.isService = false) (ht : takenAtOnce s p h c)
      (hk : portsKept s u) (hr : runCmd (unlinked p h) c s =
        if b then (Answer.plain .doneNoChange, s) else (Answer.plain .done, u)) :
      exec (rowOf p h c) s = gives b u c := by
    cases b with
    | true => exact exec_takenAtOnce_same hc ht hr
    | false => exact exec_takenAtOnce_kept hc ht hk hr
  have volume (v : Int) : (Answer.changed (s.applyVolume z v).1, (s.applyVolume z v).2) =
      if (clamp v == r.volume) = true then (Answer.plain .doneNoChange, s)
      else (Answer.plain .done, (s.setZone z { r with volume := clamp v }).raiseZone z) := by
    exact changed_ite _ _ _ _
  refine ⟨fun v ht => live _ _ _ rfl ht (hraise _) ?_, fun d h0 hlo hhi ht => live _ _ _ rfl ht (hraise _) ?_,
    fun m hm ht => live _ _ _ rfl ht (hraise _) ?_, fun b m hmain hb ht => live _ _ _ rfl ht (hraise _) ?_,
    fun b src hb ht hon => live _ _ _ rfl ht (s.setZone_frame z _).2 ?_, fun b src hb ht hoff => ?_⟩
  · simp only [runCmd, doSetVolume]
    rw [withZone_some s _ hz, layered_live _ _ hlayer]
    exact volume v.toInt
  · have hok : ¬ (d.toInt = 0 ∨ d.toInt < -20 ∨ 20 < d.toInt) := by
      rw [Byte.toInt_eq_zero_iff]; rintro (h | h | h) <;> first | exact h0 h | omega
    simp only [runCmd, doStepVolume]
    rw [withZone_some s _ hz, if_neg hok, layered_live _ _ hlayer]
    exact volume _
  · simp only [runCmd, doSetMute]
    rw [withZone_some s _ hz, flagOf_eq_some hm]
    refine (layered_live _ _ hlayer).trans ?_
    exact changed_ite _ _ _ _
  · simp only [runCmd, doSetSurroundMode]
    rw [withZone_some s _ hz, if_neg (by simp [hmain]), hb]
    refine (layered_live _ _ hlayer).trans ?_
    exact changed_ite _ _ _ _
  · simp only [runCmd, doSelectSource]
    rw [withZone_some s _ hz, hb]
    refine (layered_live _ _ hlayer).trans ?_
    rw [State.applySource_on src hon]
    split <;> rfl
  · have hr : runCmd (unlinked p h) (.selectSource zone b) s =
        (Answer.changed (s.applySource z src).1, (s.applySource z src).2) := by
      simp only [runCmd, doSelectSource]
      rw [withZone_some s _ hz, hb]
      exact layered_live _ _ hlayer
    refine ⟨fun hl => ?_, fun hl => ?_⟩
    · rw [hl, State.applySource_same hoff] at hr
      exact exec_takenAtOnce_same rfl ht hr
    · obtain ⟨h1, h2, h3, h4, h5, h6⟩ := s.applySource_off_spec (z := z) (src := src) hoff
      have h6 := h6 hl
      have hchanged : (s.applySource z src).1 = true := by rw [State.applySource_off hoff hl]
      rw [hchanged] at hr
      refine ⟨_, exec_takenAtOnce_kept rfl ht (s.applySource_frame z src).2 hr, h1, h2, ?_,
        h3.then (State.closed_settled ..), onlyReplied_closed h4.1, ?_⟩
      · exact reported.mono h6 (State.closed_grown _ _ _ _ _)
      · exact h5.closed _ _ _ _


/-! ### Overrides (R25 to R29) -/

theorem State.dropBottom_of_lt {s : State} {z : Zone} (h : (s.zone z).stack.length < 4) : s.dropBottom z = s :=
  if_neg (Nat.not_le.2 h)

theorem State.dropBottom_of_full {s : State} {z : Zone} (h : (s.zone z).stack.length = 4) :
    s.dropBottom z =
      (s.setZone z { s.zone z with stack := (s.zone z).stack.drop 1 }).raiseStackLost z :=
  if_pos (by omega)

@[simp] theorem State.zone_raiseStackLost (s : State) (z y : Zone) : (s.raiseStackLost z).zone y = s.zone y :=
  s.zone_raise _ _ y

/-- Push Override in ON, on the state that has made room for the entry (R25, R26). -/
theorem doPushOverride_on {x : Ctx} {zone b : Byte} {v : Half} {z : Zone} {src : Source} {s : State}
    (hz : zoneOf zone = some z) (hb : sourceOf b = some src) (hon : (s.zone z).power = .on)
    (hr : (s.dropBottom z).zone z = { s.zone z with stack := ((s.dropBottom z).zone z).stack }) :
    let r := s.zone z
    let e : OverrideEntry := { source := r.waiting.getD r.live, volume := r.volume, mute := r.mute,
                               mode := r.mode, port := x.port, tag := x.tag }
    doPushOverride x zone b v s =
      (Answer.withData .done [natByte ((s.dropBottom z).zone z).stack.length],
        ((s.dropBottom z).setZone z { r with
          stack := ((s.dropBottom z).zone z).stack ++ [e]
          volume := r.clampVolume v.toInt, mute := false
          waiting := if src = r.live then none else some src }).raiseZone z) := by
  intro r e
  rw [doPushOverride, withZone_some s _ hz, hb]
  refine (if_neg (by simp [hon])).trans ?_
  dsimp only
  rw [State.applySource_on_snd _ (by rw [State.zone_setZone_self, hr]; exact hon)]
  rw [State.zone_setZone_self, State.setZone_setZone, List.length_append, hr]
  rfl

/-- Settles O32. -/
theorem pushOverrideSavesTheZone : Obligations.PushOverrideSavesTheZone := by
  intro p h zone b v z src s ht hz hb r e u
  have hrun (hon : r.power = .on) (hr : (s.dropBottom z).zone z = { r with stack := ((s.dropBottom z).zone z).stack }) :=
    doPushOverride_on (x := unlinked p h) (v := v) hz hb hon hr
  refine ⟨fun hoff => exec_takenAtOnce_same rfl ht ?_, fun hon hlt => ?_, fun hon hfull => ?_⟩
  · simp only [runCmd, doPushOverride]
    rw [withZone_some s _ hz, hb]
    exact if_pos hoff
  · have hdrop := State.dropBottom_of_lt (s := s) (z := z) hlt
    rw [hdrop] at hrun
    refine exec_takenAtOnce_kept rfl ht ((s.setZone_frame z u).comp (State.raiseZone_frame _ z)).2
      ((hrun hon rfl).trans ?_)
    simp [u, e, r, hlt.ne, unlinked, natByte, ZoneRec.clampVolume, clampInt]
  · have hdrop := State.dropBottom_of_full (s := s) (z := z) hfull
    generalize hw : s.dropBottom z = w at hrun
    have hwz (y : Zone) : w.zone y = (s.setZone z { s.zone z with stack := (s.zone z).stack.drop 1 }).zone y := by
      rw [← hw, hdrop, State.zone_raiseStackLost]
    have hwself := hwz z
    rw [State.zone_setZone_self] at hwself
    have hframe : Frame [.zones, .ports] s ((w.setZone z u).raiseZone z) := by
      rw [← hw, hdrop]
      exact (((s.setZone_frame z _).comp (State.raiseStackLost_frame _ z)).comp
        ((State.setZone_frame _ z u).comp (State.raiseZone_frame _ z))).mono
    have hraises : Raises s ((w.setZone z u).raiseZone z) := by
      rw [← hw, hdrop]
      exact (((Raises.of_ports_eq (s.setZone_ports z _)).trans (State.raise_raises _ _ _)).trans
        (.of_ports_eq (State.setZone_ports _ z u))).trans (State.raiseZone_raises _ z)
    have hlost : reported ((w.setZone z u).raiseZone z) .override { EventDetail.zero with zones := z.bit, reasons := 1 } := by
      rw [← hw, hdrop]
      exact reported.mono (State.raise_reported _ _ (by decide))
        ((Raises.of_ports_eq (State.setZone_ports _ z u)).trans (State.raiseZone_raises _ z)).2
    have hdata : runCmd (unlinked p h) (.pushOverride zone b v) s =
        (Answer.withData .done [3], (w.setZone z u).raiseZone z) := by
      refine (hrun hon (by rw [hwself])).trans ?_
      simp [hwself, u, e, r, hfull, unlinked, natByte, ZoneRec.clampVolume, clampInt]
    refine ⟨_, exec_takenAtOnce_kept rfl ht hframe.2 hdata, ?_, fun y hy => ?_, ?_, ?_,
      onlyReplied_closed hraises.1, hframe.1.closed _ _ _ _⟩
    · exact (State.zone_raiseZone _ z z).trans (State.zone_setZone_self _ z u)
    · refine (State.zone_raiseZone _ z y).trans ((State.zone_setZone_ne _ _ hy).trans ?_)
      rw [hwz, State.zone_setZone_ne _ _ hy]
    · exact reported.mono (State.raiseZone_reported _ z) (State.closed_grown _ _ _ _ _)
    · exact reported.mono hlost (State.closed_grown _ _ _ _ _)

/-- Pop Override by the port of the top entry (R28, R29). -/
theorem doPopOverride_top {x : Ctx} {zone : Byte} {z : Zone} {s : State} {rest : List OverrideEntry} {e : OverrideEntry}
    (hz : zoneOf zone = some z) (hstack : (s.zone z).stack = rest ++ [e]) (hp : e.port = x.port) :
    doPopOverride x zone s =
      (Answer.withData .done [natByte rest.length],
        ((s.setZone z { s.zone z with stack := rest, volume := e.volume, mute := e.mute, mode := e.mode }).applySource z
          e.source).2.raiseZone z) := by
  rw [doPopOverride, withZone_some s _ hz]
  simp [hstack, hp]

/-- Settles O33. -/
theorem popOverrideRestoresTheZone : Obligations.PopOverrideRestoresTheZone := by
  intro p h zone z s ht hz r
  refine ⟨fun hempty => exec_takenAtOnce_same rfl ht ?_, fun rest e hstack => ⟨fun hne => exec_takenAtOnce_same rfl ht ?_,
    fun hp hon => ?_, fun hp hq => ?_⟩⟩
  · simp only [runCmd, doPopOverride]
    rw [withZone_some s _ hz]
    simp [show (s.zone z).stack = [] from hempty]
  · simp only [runCmd, doPopOverride]
    rw [withZone_some s _ hz]
    simp [show (s.zone z).stack = rest ++ [e] from hstack, unlinked, hne]
  · have hrun := doPopOverride_top (x := unlinked p h) hz hstack hp
    rw [State.applySource_on_snd _ (by rw [State.zone_setZone_self]; exact hon), State.zone_setZone_self,
      State.setZone_setZone] at hrun
    exact exec_takenAtOnce_kept rfl ht ((s.setZone_frame z _).comp (State.raiseZone_frame _ z)).2 hrun
  · have hrun := doPopOverride_top (x := unlinked p h) hz hstack hp
    obtain ⟨u, hu⟩ : ∃ u, u = s.setZone z { s.zone z with
      stack := rest, volume := e.volume, mute := e.mute, mode := e.mode } := ⟨_, rfl⟩
    rw [← hu] at hrun
    have huself : u.zone z = { s.zone z with
        stack := rest, volume := e.volume, mute := e.mute, mode := e.mode } := by rw [hu, State.zone_setZone_self]
    have hune (y : Zone) (hy : y ≠ z) : u.zone y = s.zone y := by rw [hu, State.zone_setZone_ne _ _ hy]
    have hoff : (u.zone z).power ≠ .on := by
      rw [huself]
      exact fun e => absurd (hq.symm.trans e) (by decide)
    have hsettled : Settled s u := by
      refine ⟨hu ▸ rfl, hu ▸ rfl, hu ▸ rfl, fun y => ?_, .of_ports_eq (hu ▸ rfl)⟩
      by_cases hy : y = z
      · subst hy; rw [huself]; exact ⟨rfl, rfl, rfl⟩
      · rw [hune y hy]; exact ⟨rfl, rfl, rfl⟩
    obtain ⟨h1, h2, h3, h4, h5, -⟩ := u.applySource_off_spec (src := e.source) hoff
    have hframe : Frame [.zones, .decoder, .tuner, .ports] s ((u.applySource z e.source).2.raiseZone z) :=
      (((hu ▸ s.setZone_frame z _ : Frame [.zones] s u).comp (u.applySource_frame z e.source)).comp
        (State.raiseZone_frame _ z)).mono
    have hraises : Raises s ((u.applySource z e.source).2.raiseZone z) :=
      ((Raises.of_ports_eq (hu ▸ rfl)).trans h4).trans (State.raiseZone_raises _ z)
    have hafter : Settled (u.applySource z e.source).2 ((u.applySource z e.source).2.raiseZone z) :=
      ⟨(State.raiseZone_frame _ z).1 .decoder (by decide), (State.raiseZone_frame _ z).1 .tuner (by decide),
        (State.raiseZone_frame _ z).1 .inputs (by decide),
        fun y => by rw [State.zone_raiseZone]; exact ⟨rfl, rfl, rfl⟩, (State.raiseZone_raises _ z).2⟩
    refine ⟨_, exec_takenAtOnce_kept rfl ht hframe.2 hrun, ?_, fun y hy => ?_, ?_, ?_,
      onlyReplied_closed hraises.1, hframe.1.closed _ _ _ _⟩
    · refine (State.zone_raiseZone _ z z).trans (h1.trans ?_)
      rw [huself]
      exact congrArg (fun st => { r with stack := rest, volume := e.volume, mute := e.mute, mode := e.mode
                                         live := e.source, status := st })
        (congrArg ZoneRec.status (State.zone_raiseZone (u.applySource z e.source).2 z z)).symm
    · have := h2 y hy
      rw [hune y hy, ← State.zone_raiseZone (u.applySource z e.source).2 z y] at this
      exact this
    · exact reported.mono (State.raiseZone_reported _ z) (State.closed_grown _ _ _ _ _)
    · refine followsOn.then ?_ (hafter.trans (State.closed_settled _ _ _ _ _))
      exact followsOn.after hsettled h3

/-! ### Power commands that find the zone in a transition (R10) -/

theorem State.takeSlot_unlinked (s : State) (k : Fin 8) (kind : SlotKind) (t : SlotTarget) (p : Port) (h : FrameHead) :
    s.takeSlot k kind t (unlinked p h) = s.setSlot k (unlinkedSlot kind t p h) := rfl

theorem becomePending_none {x : Ctx} {z : Zone} {kind : SlotKind} {w : PendingPower} {s : State}
    (h : s.freeSlot = none) : becomePending x z kind w s = (Answer.plain .busy, s) := by
  rw [becomePending, h]

theorem becomePending_some {p : Port} {h : FrameHead} {z : Zone} {kind : SlotKind} {w : PendingPower} {s : State}
    {k : Fin 8} (hk : s.freeSlot = some k) : becomePending (unlinked p h) z kind w s =
      (Answer.acceptedIn k, ((s.setSlot k (unlinkedSlot kind (zoneTarget z) p h)).setZone z
        { s.zone z with pendingPower := some w, pendingSlot := some k }).raiseZone z) := by
  rw [becomePending, hk]
  rfl

theorem State.becomePending_kept (s : State) (k : Fin 8) (b : Slot) (z : Zone) (r : ZoneRec) :
    portsKept s (((s.setSlot k b).setZone z r).raiseZone z) :=
  (((s.setSlot_frame k b).comp (State.setZone_frame _ z r)).comp (State.raiseZone_frame _ z)).2

/-- Settles O20. -/
theorem powerCommandsInTransition : Obligations.PowerCommandsInTransition := by
  intro p h zone z s hz r
  have hrunOn : runCmd (unlinked p h) (.zoneOn zone) s = doZoneOn (unlinked p h) zone s := rfl
  have hrunStandby : runCmd (unlinked p h) (.zoneStandby zone) s = doZoneStandby (unlinked p h) zone s := rfl
  rw [doZoneOn, withZone_some s _ hz] at hrunOn
  rw [doZoneStandby, withZone_some s _ hz] at hrunStandby
  constructor
  · intro ht answers
    refine ⟨fun hrow => exec_takenAtOnce_same rfl ht (hrunOn.trans ?_), fun hq hp => ?_⟩
    · rcases hrow with hp | ⟨hp, hw⟩ | ⟨hp, hw⟩
      · simp [show (s.zone z).power = _ from hp]
      · simp [show (s.zone z).power = _ from hp, show (s.zone z).pendingPower = _ from hw]
      · obtain ⟨w, hw⟩ := Option.ne_none_iff_exists'.1 hw
        simp [show (s.zone z).power = _ from hp, show (s.zone z).pendingPower = _ from hw]
    have hrun : runCmd (unlinked p h) (.zoneOn zone) s = if s.outputs.latch then (Answer.plain .isProtected, s)
        else becomePending (unlinked p h) z .zoneOn .on s := by
      simp [hrunOn, show (s.zone z).power = _ from hq, show (s.zone z).pendingPower = _ from hp]
    refine ⟨fun hl => exec_takenAtOnce_same rfl ht (hrun.trans (if_pos hl)), fun hl hfree => ?_, fun hl k hk => ?_⟩
    · exact exec_takenAtOnce_same rfl ht ((hrun.trans (if_neg (by simp [hl]))).trans (becomePending_none hfree))
    · exact exec_takenAtOnce_kept rfl ht (s.becomePending_kept _ _ _ _)
        ((hrun.trans (if_neg (by simp [hl]))).trans (becomePending_some hk))
  · intro ht answers
    refine ⟨fun hrow => exec_takenAtOnce_same rfl ht (hrunStandby.trans ?_), fun hw hp => ?_, fun hon hfree => ?_⟩
    · rcases hrow with hp | ⟨hp, hw⟩ | ⟨hp, hw⟩
      · simp [show (s.zone z).power = _ from hp]
      · obtain ⟨w, hw⟩ := Option.ne_none_iff_exists'.1 hw
        simp [show (s.zone z).power = _ from hp, show (s.zone z).pendingPower = _ from hw]
      · simp [show (s.zone z).power = _ from hp, show (s.zone z).pendingPower = _ from hw]
    · have hrun : runCmd (unlinked p h) (.zoneStandby zone) s =
          becomePending (unlinked p h) z .zoneStandby .standby s := by
        simp [hrunStandby, show (s.zone z).power = _ from hw, show (s.zone z).pendingPower = _ from hp]
      exact ⟨fun hfree => exec_takenAtOnce_same rfl ht (hrun.trans (becomePending_none hfree)),
        fun k hk => exec_takenAtOnce_kept rfl ht (s.becomePending_kept _ _ _ _) (hrun.trans (becomePending_some hk))⟩
    · refine exec_takenAtOnce_same rfl ht (hrunStandby.trans ?_)
      simp [show (s.zone z).power = _ from hon, hfree]

/-- A zone without its pending power command, ZONE raised. -/
def State.unpended (s : State) (z : Zone) : State :=
  (s.setZone z { s.zone z with pendingPower := none, pendingSlot := none }).raiseZone z

theorem State.removePending_eq (s : State) (z : Zone) :
    s.removePending z = (s.unpended z).completeOpt (s.zone z).pendingSlot .cancelled [] := rfl

theorem State.unpended_frame (s : State) (z : Zone) : Frame [.zones, .ports] s (s.unpended z) :=
  ((s.setZone_frame z _).comp (State.raiseZone_frame _ z)).mono

theorem State.unpended_raises (s : State) (z : Zone) : Raises s (s.unpended z) :=
  (Raises.of_ports_eq (s.setZone_ports z _)).trans (State.raiseZone_raises _ z)

theorem State.unpended_zone_self (s : State) (z : Zone) :
    (s.unpended z).zone z = { s.zone z with pendingPower := none, pendingSlot := none } :=
  (State.zone_raiseZone _ z z).trans (State.zone_setZone_self _ z _)

theorem State.unpended_zone_ne (s : State) {z y : Zone} (h : y ≠ z) : (s.unpended z).zone y = s.zone y :=
  (State.zone_raiseZone _ z y).trans (State.zone_setZone_ne _ _ h)

/-- What raisings keep of a port. -/
theorem Raises.port {s t : State} (h : Raises s t) (q : Port) :
    (t.port q).completions = (s.port q).completions ∧ (t.port q).chain = (s.port q).chain ∧
    (t.port q).hold = (s.port q).hold := by
  obtain ⟨he, -⟩ := h.1 q
  rw [he]
  exact ⟨rfl, rfl, rfl⟩

@[simp] theorem State.closed_completions (u : State) (p : Port) (h : FrameHead) (c : Cmd) (a : Answer) (q : Port) :
    ((u.closed p h c a).port q).completions = (u.port q).completions := by
  by_cases hq : q = p
  · subst hq; rw [State.closed_port_self]; rfl
  · rw [State.closed_port_ne _ _ _ _ hq]

/-- Settles O21. -/
theorem pendingCommandsAreRemoved : Obligations.PendingCommandsAreRemoved := by
  intro p h zone z s w hz hw c i hrow ht
  have hkept : portsKept s (s.removePending z) := (s.removePending_frame z).2
  have hexec : exec i s = .next ((s.removePending z).closed p h c (Answer.plain .doneNoChange)) := by
    rcases hrow with ⟨rfl, rfl, hpower⟩ | ⟨rfl, rfl, hpower⟩
    · refine exec_takenAtOnce_kept rfl ht hkept ?_
      simp only [runCmd, doZoneOn]
      rw [withZone_some s _ hz]
      simp [hpower, hw]
    · refine exec_takenAtOnce_kept rfl ht hkept ?_
      simp only [runCmd, doZoneStandby]
      rw [withZone_some s _ hz]
      simp [hpower, hw]
  rw [s.removePending_eq] at hexec
  refine ⟨fun hnone => ?_, fun k hk => ?_, fun k b hk hb hroom hchain => ?_⟩
  · rw [hnone] at hexec; exact hexec
  · rw [hk] at hexec; exact hexec
  · rw [hk] at hexec
    obtain ⟨hcompletions, hchain', -⟩ := (s.unpended_raises z).port b.port
    have hslot (j : Fin 8) : (s.unpended z).slot j = s.slot j := by
      rw [State.slot, (s.unpended_frame z).1 .slots (by decide)]; rfl
    have hpost : (s.unpended z).completeOpt (some k) .cancelled [] = _ := State.complete_posts
      ⟨(hslot k).trans hb, by rw [hcompletions]; exact hroom, by rw [hchain']; exact hchain⟩ .cancelled []
    rw [hcompletions] at hpost
    have hgrown : eventsGrow (s.unpended z) ((s.unpended z).completeOpt (some k) .cancelled []) := by
      refine .of_events_eq fun q => ?_
      rw [hpost, State.setSlot_port]
      by_cases hq : q = b.port
      · subst hq; rw [State.port_setPort_self]
      · rw [State.port_setPort_ne _ _ hq]
    have hframe : Frame [.zones, .slots, .ports] s ((s.unpended z).completeOpt (some k) .cancelled []) :=
      ((s.unpended_frame z).comp (State.completeOpt_frame _ _ _ _)).mono
    refine ⟨_, hexec, ?_, ?_, ?_, ?_, fun y hy => ?_, fun j hj => ?_, ?_, hframe.1.closed _ _ _ _⟩
    · rw [hpost]; exact s.unpended_zone_self z
    · rw [hpost]; exact State.slot_setSlot_self _ k none
    · rw [State.closed_completions, hpost, State.setSlot_port, State.port_setPort_self]
      rfl
    · exact reported.mono (State.raiseZone_reported _ z) (hgrown.trans (State.closed_grown _ _ _ _ _))
    · rw [hpost]; exact s.unpended_zone_ne hy
    · rw [hpost]; exact (State.slot_setSlot_ne _ none hj).trans (hslot j)
    · rw [State.closed_port_self]; rfl

end Sys2Proof.Machine
end

section
/-! PROOFS. What the operations of the Output Channel Unit keep (R42 to R56, R130 to R136): the zones but for their
no-output marks, the unit's other records, and, where no compaction runs, the slots and the ports but for raisings. -/

open Sys2Proof Sys2Proof.Machine

namespace Sys2Proof.Machine

/-! ### Steps of the unit -/

/-- An operation of the Output Channel Unit. -/
structure OutStep (s t : State) : Prop where
  frame : Frame outputParts s t
  grown : eventsGrow s t
  zones : ∀ z, t.zone z = { s.zone z with noOutput := (t.zone z).noOutput }
  outputs : t.outputs = { s.outputs with outs := t.outputs.outs }
  noted : ∀ z, (t.zone z).noOutput = true → (s.zone z).noOutput = true ∨ noOutputReported t z
  delay : t.delay.state = s.delay.state ∧ t.delay.check = s.delay.check ∧ t.delay.badRows = s.delay.badRows ∧
    t.delay.dref = s.delay.dref

theorem OutStep.refl (s : State) : OutStep s s :=
  ⟨.refl _ s, .refl s, fun _ => rfl, rfl, fun _ h => .inl h, rfl, rfl, rfl, rfl⟩

theorem OutStep.trans {s t u : State} (h1 : OutStep s t) (h2 : OutStep t u) : OutStep s u where
  frame := h1.frame.trans h2.frame
  grown := h1.grown.trans h2.grown
  zones := fun z => by rw [h2.zones z, h1.zones z]
  outputs := by rw [h2.outputs, h1.outputs]
  noted := fun z h => (h2.noted z h).elim (fun h => (h1.noted z h).imp_right (reported.mono · h2.grown)) .inr
  delay := by
    obtain ⟨a1, b1, c1, d1⟩ := h1.delay
    obtain ⟨a2, b2, c2, d2⟩ := h2.delay
    exact ⟨a2.trans a1, b2.trans b1, c2.trans c1, d2.trans d1⟩

/-- An operation of the unit that ends no long operation. -/
structure QuietStep (s t : State) : Prop extends OutStep s t where
  slots : t.slots = s.slots
  raised : portsRaised s t
  compaction : t.delay.compaction = s.delay.compaction

theorem QuietStep.refl (s : State) : QuietStep s s := ⟨.refl s, rfl, .refl s, rfl⟩

theorem QuietStep.trans {s t u : State} (h1 : QuietStep s t) (h2 : QuietStep t u) : QuietStep s u :=
  ⟨h1.toOutStep.trans h2.toOutStep, h2.slots.trans h1.slots, h1.raised.trans h2.raised,
    h2.compaction.trans h1.compaction⟩

/-- An operation of the unit that may free segments, and so end a compaction where one runs. -/
def FreeStep (s t : State) : Prop := OutStep s t ∧ (s.delay.compaction = none → QuietStep s t)

theorem FreeStep.refl (s : State) : FreeStep s s := ⟨.refl s, fun _ => .refl s⟩

theorem FreeStep.trans {s t u : State} (h1 : FreeStep s t) (h2 : FreeStep t u) : FreeStep s u :=
  ⟨h1.1.trans h2.1, fun h => (h1.2 h).trans (h2.2 ((h1.2 h).compaction.trans h))⟩

theorem QuietStep.free {s t : State} (h : QuietStep s t) : FreeStep s t := ⟨h.toOutStep, fun _ => h⟩

theorem FreeStep.foldl {β : Type} (f : State → β → State) (h : ∀ s b, FreeStep s (f s b)) (l : List β) (s : State) :
    FreeStep s (l.foldl f s) := by
  induction l generalizing s with
  | nil => exact .refl s
  | cons b l ih => exact (h s b).trans (ih (f s b))

theorem QuietStep.foldl {β : Type} (f : State → β → State) (h : ∀ s b, QuietStep s (f s b)) (l : List β) (s : State) :
    QuietStep s (l.foldl f s) := by
  induction l generalizing s with
  | nil => exact .refl s
  | cons b l ih => exact (h s b).trans (ih (f s b))

/-! ### Single changes -/

theorem State.setOut_quiet (s : State) (o : Fin 13) (r : OutputRec) : QuietStep s (s.setOut o r) :=
  ⟨⟨(s.setOut_frame o r).mono, .of_ports_eq rfl, fun _ => rfl, rfl, fun _ h => .inl h, rfl, rfl, rfl, rfl⟩,
    rfl, .of_ports_eq rfl, rfl⟩

theorem State.raise_quiet (s : State) (k : EventKind) (d : EventDetail) : QuietStep s (s.raise k d) := by
  have hframe := s.raise_frame k d
  refine ⟨⟨hframe.mono, (s.raise_raises k d).2, fun z => ?_, ?_, fun z h => .inl ?_, ?_⟩,
    hframe.1 .slots (by decide), (s.raise_raises k d).1, ?_⟩
  · rw [s.zone_raise]
  · rw [hframe.1 .outputs (by decide)]
  · rwa [s.zone_raise] at h
  · rw [hframe.1 .delay (by decide)]; exact ⟨rfl, rfl, rfl, rfl⟩
  · rw [hframe.1 .delay (by decide)]

/-- What a change of the Delay Memory Controller's record keeps for the unit. -/
theorem State.setDelay_quiet (s : State) {d : DelayState} (h : d.state = s.delay.state ∧ d.check = s.delay.check ∧
    d.badRows = s.delay.badRows ∧ d.dref = s.delay.dref) (hc : d.compaction = s.delay.compaction) :
    QuietStep s (s.setDelay d) :=
  ⟨⟨(s.setDelay_frame d).mono, .of_ports_eq rfl, fun _ => rfl, rfl, fun _ h => .inl h, h⟩,
    rfl, .of_ports_eq rfl, hc⟩

theorem State.setDelay_outStep (s : State) {d : DelayState} (h : d.state = s.delay.state ∧ d.check = s.delay.check ∧
    d.badRows = s.delay.badRows ∧ d.dref = s.delay.dref) : OutStep s (s.setDelay d) :=
  ⟨(s.setDelay_frame d).mono, .of_ports_eq rfl, fun _ => rfl, rfl, fun _ h => .inl h, h⟩

/-! ### The no-output marks (R51) -/

/-- What NO_OUTPUT watches: the zone is ON and the unit grants it no output. -/
def State.lacksOutput (s : State) (z : Zone) : Bool := (s.zone z).power == .on && (s.grantedOutputs z).isEmpty

theorem State.lacksOutput_iff (s : State) (z : Zone) : s.lacksOutput z = true ↔ s.noOutputIs z := by
  have hall : ∀ o, o ∈ allOutputs := by decide
  simp only [State.lacksOutput, Bool.and_eq_true, beq_iff_eq, List.isEmpty_iff, State.grantedOutputs,
    List.filter_eq_nil_iff, Bool.not_eq_true, State.noOutputIs]
  exact and_congr_right fun _ => ⟨fun h o => h o (hall o), fun h o _ => h o⟩

theorem State.noteZone_eq (s : State) (z : Zone) : s.noteZone z =
    (if (s.lacksOutput z && !(s.zone z).noOutput) = true then s.raiseNoOutput z else s).setZone z
      { s.zone z with noOutput := s.lacksOutput z } := by
  have hzone : (if (s.lacksOutput z && !(s.zone z).noOutput) = true then s.raiseNoOutput z else s).zone z = s.zone z := by
    split
    · exact s.zone_raise _ _ z
    · rfl
  rw [← hzone]
  simp only [hzone]
  change State.setZone _ z { State.zone _ z with noOutput := _ } = _
  exact congrArg (fun r : ZoneRec => State.setZone _ z { r with noOutput := s.lacksOutput z }) hzone

theorem State.noteZone_zone_self (s : State) (z : Zone) :
    (s.noteZone z).zone z = { s.zone z with noOutput := s.lacksOutput z } := by
  rw [s.noteZone_eq, State.zone_setZone_self]

theorem State.noteZone_zone_ne (s : State) {z y : Zone} (h : y ≠ z) : (s.noteZone z).zone y = s.zone y := by
  rw [s.noteZone_eq, State.zone_setZone_ne _ _ h]
  split
  · rw [State.raiseNoOutput, State.zone_raise]
  · rfl

theorem State.noteZone_quiet (s : State) (z : Zone) : QuietStep s (s.noteZone z) := by
  have hframe := s.noteZone_frame z
  have hraises : Raises s (s.noteZone z) := by
    rw [s.noteZone_eq]
    split
    · exact (s.raise_raises _ _).trans (.of_ports_eq rfl)
    · exact .of_ports_eq rfl
  refine ⟨⟨hframe.mono, hraises.2, fun y => ?_, ?_, fun y h => ?_, ?_⟩,
    hframe.1 .slots (by decide), hraises.1, ?_⟩
  · by_cases hy : y = z
    · subst hy; rw [s.noteZone_zone_self]
    · rw [s.noteZone_zone_ne hy]
  · rw [hframe.1 .outputs (by decide)]
  · by_cases hy : y = z
    · subst hy
      by_cases hno : (s.zone y).noOutput = true
      · exact .inl hno
      · refine .inr ?_
        rw [s.noteZone_zone_self] at h
        have hlacks : s.lacksOutput y = true := h
        rw [s.noteZone_eq, if_pos (by simp [hlacks, hno])]
        exact reported.mono (s.raise_reported _ (by decide)) (.of_ports_eq rfl)
    · rw [s.noteZone_zone_ne hy] at h; exact .inl h
  · rw [hframe.1 .delay (by decide)]; exact ⟨rfl, rfl, rfl, rfl⟩
  · rw [hframe.1 .delay (by decide)]

theorem State.noteOutputs_quiet (s : State) : QuietStep s s.noteOutputs :=
  (s.noteZone_quiet .z2).trans (State.noteZone_quiet _ .z3)

theorem State.noteZone_out (s : State) (z : Zone) (o : Fin 13) : (s.noteZone z).out o = s.out o := by
  rw [State.out, State.out, (s.noteZone_frame z).1 .outputs (by decide)]

theorem State.noteOutputs_out (s : State) (o : Fin 13) : s.noteOutputs.out o = s.out o := by
  rw [State.noteOutputs, State.noteZone_out, State.noteZone_out]

/-- NO_OUTPUT watches the zones' power and the grants alone. -/
theorem State.lacksOutput_congr {s t : State} {z : Zone} (hp : (t.zone z).power = (s.zone z).power)
    (ho : ∀ o, (t.out o).grantedTo z = (s.out o).grantedTo z) : t.lacksOutput z = s.lacksOutput z := by
  simp only [State.lacksOutput, hp, State.grantedOutputs, ho]

theorem State.noOutputIs_congr {s t : State} {z : Zone} (hp : (t.zone z).power = (s.zone z).power)
    (ho : ∀ o, (t.out o).grantedTo z = (s.out o).grantedTo z) : t.noOutputIs z ↔ s.noOutputIs z := by
  rw [← State.lacksOutput_iff, State.lacksOutput_congr hp ho, State.lacksOutput_iff]

/-- After they are watched the marks say what R51 says, whatever they said before. -/
theorem State.noteOutputs_marked (s : State) : s.noteOutputs.noOutputMarked := by
  intro z hz
  have hpower (y : Zone) : (s.noteOutputs.zone y).power = (s.zone y).power := by rw [s.noteOutputs_quiet.zones y]
  rw [State.noOutputIs_congr (hpower z) (fun o => by rw [s.noteOutputs_out]), ← s.lacksOutput_iff]
  rw [State.noteOutputs]
  cases z
  · exact absurd rfl hz
  · rw [State.noteZone_zone_ne _ (by decide), State.noteZone_zone_self]
  · rw [State.noteZone_zone_self]
    change (s.noteZone .z2).lacksOutput .z3 = true ↔ _
    rw [State.lacksOutput_congr (s := s) (by rw [State.noteZone_zone_ne _ (by decide)])
      (fun o => by rw [State.noteZone_out])]

/-- Changes of other things keep the marks in order. -/
theorem State.noOutputMarked_congr {s t : State} (hz : ∀ z, (t.zone z).power = (s.zone z).power ∧
    (t.zone z).noOutput = (s.zone z).noOutput) (ho : ∀ o z, (t.out o).grantedTo z = (s.out o).grantedTo z)
    (h : s.noOutputMarked) : t.noOutputMarked := by
  intro z hne
  rw [(hz z).2, State.noOutputIs_congr (hz z).1 (fun o => ho o z)]
  exact h z hne

/-! ### The unit's records -/

theorem State.updateOut_quiet (s : State) (o : Fin 13) (r : OutputRec) : QuietStep s (s.updateOut o r) :=
  (s.setOut_quiet o r).trans (State.noteOutputs_quiet _)

theorem State.updateOut_out_self (s : State) (o : Fin 13) (r : OutputRec) : (s.updateOut o r).out o = r := by
  rw [State.updateOut, State.noteOutputs_out, State.out_setOut_self]

theorem State.updateOut_out_ne (s : State) {o q : Fin 13} (r : OutputRec) (h : q ≠ o) :
    (s.updateOut o r).out q = s.out q := by
  rw [State.updateOut, State.noteOutputs_out, State.out_setOut_ne _ _ h]

theorem State.updateOut_marked (s : State) (o : Fin 13) (r : OutputRec) : (s.updateOut o r).noOutputMarked :=
  State.noteOutputs_marked _

theorem State.raise_marked {s : State} (k : EventKind) (d : EventDetail) (h : s.noOutputMarked) :
    (s.raise k d).noOutputMarked := by
  refine State.noOutputMarked_congr (fun z => ?_) (fun o z => ?_) h
  · rw [s.zone_raise]; exact ⟨rfl, rfl⟩
  · rw [State.out, (s.raise_frame k d).1 .outputs (by decide)]; rfl

/-! ### Requests and starved outputs (R125, R131) -/

theorem DelayState.clearLine_keeps (d : DelayState) (g : Segment) :
    d.clearLine g = { d with segments := (d.clearLine g).segments, dram := (d.clearLine g).dram } := rfl

/-- A request changes segments and words alone. -/
theorem DelayState.request_keeps {d e : DelayState} {reqs : List (Fin 13 × Nat)} (h : d.request reqs = .ok e) :
    e = { d with segments := e.segments, dram := e.dram } := by
  have hcreate (runs : List (Fin 13 × Nat × Nat × Nat)) (d : DelayState) :
      runs.foldl (fun d (o, t, b, n) => d.create o t b n) d =
        { d with segments := (runs.foldl (fun d (o, t, b, n) => d.create o t b n) d).segments,
                 dram := (runs.foldl (fun d (o, t, b, n) => d.create o t b n) d).dram } := by
    induction runs generalizing d with
    | nil => rfl
    | cons r runs ih =>
      rw [List.foldl_cons, ih]
      rfl
  unfold DelayState.request at h
  split at h
  · cases h; rfl
  · split at h
    · cases h
    · split at h
      · cases h
      · split at h
        · cases h
        · cases h; exact hcreate _ d

theorem State.requestOne_quiet {s t : State} {o : Fin 13} {z : Zone} {r : Role} (h : s.requestOne o z r = .ok t) :
    QuietStep s t := by
  unfold State.requestOne at h
  cases hd : s.delay.request [(o, s.totalDelay z r)] with
  | error e => rw [hd] at h; cases h
  | ok d =>
    rw [hd] at h
    cases h
    have hk := DelayState.request_keeps hd
    exact s.setDelay_quiet (by rw [hk]; exact ⟨rfl, rfl, rfl, rfl⟩) (by rw [hk])

theorem State.requestOne_outs {s t : State} {o : Fin 13} {z : Zone} {r : Role} (h : s.requestOne o z r = .ok t)
    (q : Fin 13) : t.out q = s.out q := by
  rw [State.out, (s.requestOne_frame o z r t h).1 .outputs (by decide)]; rfl

theorem State.leaveStarved_quiet (s : State) (o : Fin 13) : QuietStep s (s.leaveStarved o) :=
  s.setDelay_quiet ⟨rfl, rfl, rfl, rfl⟩ rfl

theorem State.addStarved_quiet (s : State) (o : Fin 13) : QuietStep s (s.addStarved o) :=
  (s.setDelay_quiet
    (d := { s.delay with starved := allOutputs.filter (fun q => q == o || s.delay.starved.contains q) })
    ⟨rfl, rfl, rfl, rfl⟩ rfl).trans (State.raise_quiet _ _ _)

theorem State.becomeGranted_quiet (s : State) (o : Fin 13) (z : Zone) (r : Role) :
    QuietStep s (s.becomeGranted o z r) := s.updateOut_quiet ..

theorem State.becomeIdle_quiet (s : State) (o : Fin 13) : QuietStep s (s.becomeIdle o) := s.updateOut_quiet ..

theorem State.becomeStarved_quiet (s : State) (o : Fin 13) (z : Zone) (r : Role) :
    QuietStep s (s.becomeStarved o z r) :=
  ((s.updateOut_quiet o _).trans (State.addStarved_quiet _ o)).trans (State.raise_quiet _ _ _)

theorem State.retryOne_quiet (s : State) (o : Fin 13) : QuietStep s (s.retryOne o) := by
  unfold State.retryOne
  split
  · split
    · split
      · next h =>
        exact (((State.requestOne_quiet h).trans (State.leaveStarved_quiet _ o)).trans
          (State.becomeGranted_quiet _ o _ _)).trans (State.raise_quiet _ _ _)
      · exact .refl s
    · exact .refl s
  · exact .refl s

theorem State.retryPass_quiet (s : State) : QuietStep s s.retryPass := QuietStep.foldl _ State.retryOne_quiet _ s

/-! ### Ends of long operations, seen by the unit -/

theorem State.endSlotChains_events (s : State) (p q : Port) : ((s.endSlotChains p).port q).events = (s.port q).events := by
  rw [State.endSlotChains_port]

theorem State.endChain_events (s : State) (p q : Port) : ((s.endChain p).port q).events = (s.port q).events := by
  by_cases h : q = p
  · subst h; rw [State.endChain_port_self]
  · rw [State.endChain_port_ne _ h]

theorem State.setPort_events {s : State} {p : Port} {r : PortRec} (h : r.events = (s.port p).events) (q : Port) :
    ((s.setPort p r).port q).events = (s.port q).events := by
  by_cases hq : q = p
  · subst hq; rw [State.port_setPort_self, h]
  · rw [State.port_setPort_ne _ _ hq]

theorem State.offer_events (s : State) (k : Fin 8) (b : SlotBody) (r : Completion) (q : Port) :
    ((s.offer k b r).port q).events = (s.port q).events := by
  unfold State.offer
  split
  · rw [State.setSlot_port, State.post]; exact State.setPort_events (by rfl) q
  · rfl

/-- The end of a long operation raises no event of its own (R200: COMPLETION is read off the queue). -/
theorem State.complete_events (s : State) (k : Fin 8) (st : Status) (r : List Byte) (q : Port) :
    ((s.complete k st r).port q).events = (s.port q).events := by
  unfold State.complete
  split
  · rfl
  · next b _ =>
    refine Eq.trans ?_ (s.offer_events k b (b.record k st r) q)
    unfold State.endHold
    split
    · split
      · split
        · exact State.setPort_events (by rfl) q
        · exact State.endChain_events _ _ q
      · rfl
    · rfl

theorem State.completeOpt_events (s : State) (k : Option (Fin 8)) (st : Status) (r : List Byte) (q : Port) :
    ((s.completeOpt k st r).port q).events = (s.port q).events := by
  cases k with
  | none => rfl
  | some k => exact s.complete_events k st r q

theorem State.complete_zone (s : State) (k : Fin 8) (st : Status) (r : List Byte) (z : Zone) :
    (s.complete k st r).zone z = s.zone z := by
  rw [State.zone, (s.complete_frame k st r).1 .zones (by decide)]; rfl

theorem State.completeOpt_zone (s : State) (k : Option (Fin 8)) (st : Status) (r : List Byte) (z : Zone) :
    (s.completeOpt k st r).zone z = s.zone z := by
  rw [State.zone, (s.completeOpt_frame k st r).1 .zones (by decide)]; rfl

theorem State.complete_outStep (s : State) (k : Fin 8) (st : Status) (r : List Byte) :
    OutStep s (s.complete k st r) := by
  have hframe := s.complete_frame k st r
  refine ⟨hframe.mono, .of_events_eq (s.complete_events k st r), fun z => ?_, ?_, fun z h => .inl ?_, ?_⟩
  · rw [s.complete_zone]
  · rw [hframe.1 .outputs (by decide)]
  · rwa [s.complete_zone] at h
  · rw [hframe.1 .delay (by decide)]; exact ⟨rfl, rfl, rfl, rfl⟩

/-! ### Compaction and freeing (R130, R133 to R136) -/

/-- Examinations change segments and the compaction alone. -/
theorem DelayState.examine_keeps (fuel : Nat) (d : DelayState) (c : CompactionRec) :
    (DelayState.examine fuel d c).1 = { d with
      segments := (DelayState.examine fuel d c).1.segments
      compaction := (DelayState.examine fuel d c).1.compaction } := by
  induction fuel generalizing c with
  | zero => rfl
  | succ fuel ih =>
    unfold DelayState.examine
    split
    · rfl
    · dsimp only
      split
      · exact ih _
      · split
        · rfl
        · exact ih _

theorem State.endCompaction_outStep (s : State) (c : CompactionRec) : OutStep s (s.endCompaction c) :=
  ((s.setDelay_outStep (d := { s.delay with compaction := none }) ⟨rfl, rfl, rfl, rfl⟩).trans
    (State.retryPass_quiet _).toOutStep).trans (State.complete_outStep _ _ _ _)

theorem State.continueCompaction_outStep (s : State) (c : CompactionRec) : OutStep s (s.continueCompaction c) := by
  unfold State.continueCompaction
  split
  · exact s.endCompaction_outStep c
  · have hkeeps := DelayState.examine_keeps (examineFuel s.delay) s.delay c
    have h : OutStep s (s.setDelay (DelayState.examine (examineFuel s.delay) s.delay c).1) :=
      s.setDelay_outStep (by rw [hkeeps]; exact ⟨rfl, rfl, rfl, rfl⟩)
    dsimp only
    split
    · exact h.trans (State.endCompaction_outStep _ _)
    · exact h

theorem State.freeSegment_free (s : State) (o : Fin 13) : FreeStep s (s.freeSegment o) := by
  have h : QuietStep s (s.setDelay (s.delay.removeSegment o)) := s.setDelay_quiet ⟨rfl, rfl, rfl, rfl⟩ rfl
  unfold State.freeSegment
  split
  · exact .refl s
  · dsimp only
    split
    · exact (h.trans (State.retryPass_quiet _)).free
    · next hc =>
      have hsome : s.delay.compaction ≠ none := by
        rw [show s.delay.compaction = _ from hc]; exact Option.some_ne_none _
      refine ⟨?_, fun h => absurd h hsome⟩
      split
      · exact h.toOutStep.trans (State.continueCompaction_outStep _ _)
      · exact h.toOutStep

/-! ### Grants and handovers (R43 to R49) -/

theorem State.placeInZone_quiet (s : State) (o : Fin 13) (z : Zone) (r : Role) :
    QuietStep s (s.placeInZone o z r).1 := by
  unfold State.placeInZone
  split
  · next h => exact (State.requestOne_quiet h).trans (State.becomeGranted_quiet _ o z r)
  · exact s.becomeStarved_quiet o z r

theorem State.directGrant_quiet (s : State) (o : Fin 13) (z : Zone) (r : Role) :
    QuietStep s (s.directGrant o z r) := by
  unfold State.directGrant
  split
  · exact (s.becomeGranted_quiet o z r).trans (State.raise_quiet _ _ _)
  · have h := s.placeInZone_quiet o z r
    dsimp only
    split
    · exact h.trans (State.raise_quiet _ _ _)
    · exact h

theorem State.startHandover_quiet (s : State) (o : Fin 13) (g : Option (Zone × Role)) :
    QuietStep s (s.startHandover o g) := (s.updateOut_quiet o _).trans (State.raise_quiet _ _ _)

theorem State.abandonHandover_quiet (s : State) (o : Fin 13) : QuietStep s (s.abandonHandover o) :=
  (s.updateOut_quiet o _).trans (State.raise_quiet _ _ _)

theorem State.enterReallocate_quiet (s : State) (o : Fin 13) (b : Bool) : QuietStep s (s.enterReallocate o b) := by
  unfold State.enterReallocate
  cases b
  · exact s.setOut_quiet o _
  · exact (s.setOut_quiet o _).trans (State.raise_quiet _ _ _)

theorem State.reallocate_free (s : State) (o : Fin 13) (b : Bool) : FreeStep s (s.reallocate o b) := by
  have h1 := (s.enterReallocate_quiet o b).free.trans (State.freeSegment_free _ o)
  unfold State.reallocate
  dsimp only
  generalize (s.enterReallocate o b).freeSegment o = v at h1 ⊢
  have h2 (r : OutputRec) := h1.trans (v.setOut_quiet o r).free
  split
  · exact (h2 _).trans ((State.becomeIdle_quiet _ o).trans (State.raise_quiet _ _ _)).free
  · have h3 (r : OutputRec) (z : Zone) (q : Role) := (h2 r).trans ((v.setOut o r).placeInZone_quiet o z q).free
    split
    · split
      · exact (h3 _ _ _).trans ((State.raise_quiet _ _ _).trans (State.raise_quiet _ _ _)).free
      · exact (h3 _ _ _).trans (State.raise_quiet _ _ _).free
    · exact h3 _ _ _

theorem State.regrant_free (s : State) (o : Fin 13) : FreeStep s (s.regrant o) := by
  unfold State.regrant
  dsimp only
  split
  · exact .refl s
  · split
    · exact .refl s
    · exact (s.directGrant_quiet o _ _).free
  · split
    · exact .refl s
    · split
      · exact .refl s
      · exact (s.startHandover_quiet o _).free
  · split
    · exact .refl s
    · split
      · exact .refl s
      · exact (s.leaveStarved_quiet o).free.trans (State.reallocate_free _ o true)
  · split
    · exact (s.abandonHandover_quiet o).free
    · exact (s.setOut_quiet o _).free

theorem State.regrantAll_free (s : State) : FreeStep s s.regrantAll := FreeStep.foldl _ State.regrant_free _ s

theorem State.releaseZone_quiet (s : State) (z : Zone) : QuietStep s (s.releaseZone z) := by
  refine QuietStep.foldl _ (fun s o => ?_) _ s
  split
  · exact ((s.leaveStarved_quiet o).trans (State.becomeIdle_quiet _ o)).trans (State.raise_quiet _ _ _)
  · exact .refl s

theorem State.freeZone_free (s : State) (z : Zone) : FreeStep s (s.freeZone z) := by
  refine FreeStep.foldl _ (fun s o => ?_) _ s
  split
  · exact s.freeSegment_free o
  · exact .refl s

theorem State.openRelays_quiet (s : State) (z : Zone) : QuietStep s (s.openRelays z) := by
  refine QuietStep.foldl _ (fun s o => ?_) _ s
  split
  · exact s.setOut_quiet o _
  · exact .refl s

/-! ### The unit and the derived state -/

/-- The unit's operations keep what the derived state reads. -/
theorem OutStep.settled {s t : State} (h : OutStep s t) : Settled s t where
  decoder := h.frame.1 .decoder (by decide)
  tuner := h.frame.1 .tuner (by decide)
  inputs := h.frame.1 .inputs (by decide)
  zones := fun z => by rw [h.zones z]; exact ⟨rfl, rfl, rfl⟩
  grown := h.grown

theorem QuietStep.raises {s t : State} (h : QuietStep s t) : Raises s t := ⟨h.raised, h.grown⟩

theorem OutStep.sameButDerived {s t : State} (h : OutStep s t) (z : Zone) : (s.zone z).sameButDerived (t.zone z) := by
  rw [ZoneRec.sameButDerived, h.zones z]

end Sys2Proof.Machine
end

section
/-! PROOFS. What every ordinary command keeps of the ports, and which slot an accepted one runs in. -/

open Sys2Proof Sys2Proof.Machine

namespace Sys2Proof.Machine

/-! ### The ports -/

theorem portsKept.refl (s : State) : portsKept s s := fun _ => PortRec.kept_refl _

theorem portsKept.trans {s t u : State} (h1 : portsKept s t) (h2 : portsKept t u) : portsKept s u :=
  fun p => PortRec.kept_trans (h1 p) (h2 p)

theorem withZone_kept {b : Byte} {s : State} {f : Zone → Answer × State} (h : ∀ z, portsKept s (f z).2) :
    portsKept s (withZone b s f).2 := by
  unfold withZone
  split
  · exact .refl s
  · exact h _

theorem becomePending_kept (x : Ctx) (z : Zone) (kind : SlotKind) (w : PendingPower) (s : State) :
    portsKept s (becomePending x z kind w s).2 := by
  unfold becomePending
  split
  · exact .refl s
  · exact (s.takeSlot_frame _ _ _ x).2.trans (State.setPending_frame _ z _ _).2

theorem wakeFromStandby_kept (x : Ctx) (z : Zone) (s : State) : portsKept s (wakeFromStandby x z s).2 := by
  unfold wakeFromStandby
  split
  · exact .refl s
  · split
    · exact .refl s
    · split
      · exact .refl s
      · next h =>
        dsimp only
        exact ((s.wakeRequest_frame z _ h).2.trans (State.takeSlot_frame _ _ _ _ x).2).trans
          (State.enterWaking_frame _ z _).2

theorem doZoneOn_kept (x : Ctx) (b : Byte) (s : State) : portsKept s (doZoneOn x b s).2 := by
  refine withZone_kept fun z => ?_
  split
  · exact wakeFromStandby_kept x z s
  · exact .refl s
  · exact (s.removePending_frame z).2
  · exact .refl s
  · split
    · exact .refl s
    · exact becomePending_kept x z _ _ s
  · exact .refl s

theorem doZoneStandby_kept (x : Ctx) (b : Byte) (s : State) : portsKept s (doZoneStandby x b s).2 := by
  refine withZone_kept fun z => ?_
  split
  · exact .refl s
  · exact becomePending_kept x z _ _ s
  · exact .refl s
  · split
    · exact .refl s
    · exact (s.takeSlot_frame _ _ _ x).2.trans (State.enterQuieting_frame _ z _).2
  · exact .refl s
  · exact (s.removePending_frame z).2

theorem layered_kept {x : Ctx} {z : Zone} {s : State} {f : OverrideEntry → OverrideEntry} {live : Bool × State}
    (h : portsKept s live.2) : portsKept s (layered x z s f live).2 := by
  unfold layered
  split
  · exact (s.changeEntry_frame z _ f).2
  · exact h

theorem doSelectSource_kept (x : Ctx) (b c : Byte) (s : State) : portsKept s (doSelectSource x b c s).2 := by
  refine withZone_kept fun z => ?_
  split
  · exact .refl s
  · exact layered_kept (s.applySource_frame z _).2

theorem doSetVolume_kept (x : Ctx) (b : Byte) (v : Half) (s : State) : portsKept s (doSetVolume x b v s).2 :=
  withZone_kept fun z => layered_kept (s.applyVolume_frame z _).2

theorem doStepVolume_kept (x : Ctx) (b d : Byte) (s : State) : portsKept s (doStepVolume x b d s).2 := by
  refine withZone_kept fun z => ?_
  split
  · exact .refl s
  · exact layered_kept (s.applyVolume_frame z _).2

theorem State.setZone_raiseZone_kept (s : State) (z : Zone) (r : ZoneRec) :
    portsKept s ((s.setZone z r).raiseZone z) := (s.setZone_frame z r).2.trans (State.raiseZone_frame _ z).2

theorem doSetMute_kept (x : Ctx) (b m : Byte) (s : State) : portsKept s (doSetMute x b m s).2 := by
  refine withZone_kept fun z => ?_
  split
  · exact .refl s
  · refine layered_kept ?_
    unfold State.applyMute
    split
    · exact .refl s
    · exact s.setZone_raiseZone_kept z _

theorem doSetSurroundMode_kept (x : Ctx) (b m : Byte) (s : State) : portsKept s (doSetSurroundMode x b m s).2 := by
  refine withZone_kept fun z => ?_
  split
  · exact .refl s
  · split
    · exact .refl s
    · refine layered_kept ?_
      unfold State.applyMode
      split
      · exact .refl s
      · exact s.setZone_raiseZone_kept z _

theorem doSetMaxVolume_kept (x : Ctx) (b : Byte) (v : Half) (s : State) : portsKept s (doSetMaxVolume x b v s).2 := by
  refine withZone_kept fun z => ?_
  dsimp only
  split
  · exact .refl s
  · exact s.setZone_raiseZone_kept z _

/-- A change of delays granted: the new setting with the changes taken, and the retries after a freeing. -/
theorem State.changeDelays_eq_ok {s s1 t : State} {z : Zone} (h : s.changeDelays s1 z = .ok t) :
    ∃ d freed, s.delay.requestChange ((s.grantedOutputs z).filterMap (fun o =>
        ((s.out o).role).map (fun r => (o, s1.totalDelay z r)))) = .ok (d, freed) ∧
      t = if freed then (s1.setDelay { d with dref := s1.delay.dref }).retryPass
        else s1.setDelay { d with dref := s1.delay.dref } := by
  unfold State.changeDelays at h
  dsimp only at h
  split at h
  · cases h
  · next d freed hd =>
    cases h
    exact ⟨d, freed, hd, rfl⟩

theorem State.changeDelays_kept {s s1 t : State} {z : Zone} (h : s.changeDelays s1 z = .ok t) : portsKept s1 t := by
  obtain ⟨d, freed, -, rfl⟩ := State.changeDelays_eq_ok h
  split
  · exact (s1.setDelay_frame _).2.trans (State.retryPass_frame _).2
  · exact (s1.setDelay_frame _).2

theorem doSetLipSync_kept (x : Ctx) (b : Byte) (v : Half) (s : State) : portsKept s (doSetLipSync x b v s).2 := by
  refine withZone_kept fun z => ?_
  dsimp only
  split
  · exact .refl s
  · split
    · split
      · exact .refl s
      · next h =>
        exact ((s.setZone_frame z _).2.trans (State.changeDelays_kept h)).trans (State.raiseZone_frame _ z).2
    · exact s.setZone_raiseZone_kept z _

theorem doSetSleepTimer_kept (x : Ctx) (b n : Byte) (s : State) : portsKept s (doSetSleepTimer x b n s).2 := by
  refine withZone_kept fun z => ?_
  dsimp only
  split
  · exact (s.setZone_frame z _).2
  · exact .refl s

theorem State.dropBottom_kept (s : State) (z : Zone) : portsKept s (s.dropBottom z) := by
  unfold State.dropBottom
  split
  · exact (s.setZone_frame z _).2.trans (State.raiseStackLost_frame _ z).2
  · exact .refl s

theorem doPushOverride_kept (x : Ctx) (b c : Byte) (v : Half) (s : State) : portsKept s (doPushOverride x b c v s).2 := by
  refine withZone_kept fun z => ?_
  split
  · exact .refl s
  · dsimp only
    split
    · exact .refl s
    · exact (((s.dropBottom_kept z).trans (State.setZone_frame _ z _).2).trans (State.applySource_frame _ z _).2).trans
        (State.raiseZone_frame _ z).2

theorem doPopOverride_kept (x : Ctx) (b : Byte) (s : State) : portsKept s (doPopOverride x b s).2 := by
  refine withZone_kept fun z => ?_
  split
  · exact .refl s
  · split
    · exact .refl s
    · exact ((s.setZone_frame z _).2.trans (State.applySource_frame _ z _).2).trans (State.raiseZone_frame _ z).2

theorem doSetAssignment_kept (x : Ctx) (a b c d : Byte) (s : State) :
    portsKept s (doSetAssignment x a b c d s).2 := by
  unfold doSetAssignment
  split
  all_goals try exact .refl s
  · split
    · exact .refl s
    · split
      · exact .refl s
      · split
        · exact .refl s
        · dsimp only
          split
          · exact .refl s
          · exact (s.setOutputs_frame _).2.trans (State.regrant_frame _ _).2

/-! ### Protection lines -/

theorem State.thermalTrip_kept (s : State) : portsKept s s.thermalTrip := by
  have htrip (s : State) (z : Zone) : portsKept s (s.tripZone z) := by
    unfold State.tripZone
    split
    · exact .refl s
    · dsimp only
      split
      · exact ((s.removePending_frame z).2.trans (State.completeOpt_frame _ _ _ _).2).trans (State.quietZone_frame _ z _).2
      · exact (State.completeOpt_frame _ _ _ _).2.trans (State.quietZone_frame _ z _).2
    · exact (s.quietZone_frame z _).2
    · split
      · exact (s.removePending_frame z).2
      · exact .refl s
  exact (((htrip s .main).trans (htrip _ .z2)).trans (htrip _ .z3)).trans (State.reportQuieting_frame _ _).2

theorem State.fltArrives_kept (s : State) (n : Fin 11) : portsKept s (s.fltArrives n) :=
  (s.setOutputs_frame _).2.trans (State.faultOutput_frame _ n).2

theorem State.fltDeparts_kept (s : State) (n : Fin 11) : portsKept s (s.fltDeparts n) :=
  (s.setOutputs_frame _).2.trans (State.raiseFaultLine_frame _ n).2

theorem State.thwChanges_kept (s : State) (b : Bool) : portsKept s (s.thwChanges b) :=
  (s.setOutputs_frame _).2.trans (State.raiseThw_frame _).2

theorem State.thtDeparts_kept (s : State) : portsKept s s.thtDeparts :=
  (s.setOutputs_frame _).2.trans (State.raiseTht_frame _).2

theorem State.thtArrives_kept (s : State) : portsKept s s.thtArrives := by
  have h := (s.setOutputs_frame { s.outputs with tht := { s.outputs.tht with active := true } }).2.trans
    (State.raiseTht_frame _).2
  unfold State.thtArrives
  dsimp only
  split
  · exact h
  · exact (h.trans (State.setOutputs_frame _ _).2).trans (State.thermalTrip_kept _)

theorem State.senseFlt_kept (s : State) (n : Fin 11) : portsKept s (s.senseFlt n) := by
  unfold State.senseFlt
  dsimp only
  split
  · exact .refl s
  · split
    · exact s.fltArrives_kept n
    · exact s.fltDeparts_kept n

theorem State.senseAll_kept (s : State) : portsKept s s.senseAll := by
  have hflt : portsKept s (allFaultLines.foldl State.senseFlt s) := by
    generalize allFaultLines = l
    induction l generalizing s with
    | nil => exact .refl s
    | cons n l ih => exact (s.senseFlt_kept n).trans (ih _)
  have hthw (s : State) : portsKept s s.senseThw := by
    unfold State.senseThw
    dsimp only
    split
    · exact .refl s
    · exact s.thwChanges_kept _
  have htht (s : State) : portsKept s s.senseTht := by
    unfold State.senseTht
    dsimp only
    split
    · exact .refl s
    · split
      · exact s.thtArrives_kept
      · exact s.thtDeparts_kept
  exact (hflt.trans (hthw _)).trans (htht _)

theorem doSetProtectionLevels_kept (x : Ctx) (a b c : Byte) (s : State) :
    portsKept s (doSetProtectionLevels x a b c s).2 := by
  unfold doSetProtectionLevels
  split
  all_goals try exact .refl s
  · split
    · exact .refl s
    · dsimp only
      exact (s.setOutputs_frame _).2.trans (State.senseAll_kept _)

theorem doClearFault_kept (x : Ctx) (b : Byte) (s : State) : portsKept s (doClearFault x b s).2 := by
  unfold doClearFault
  split
  · unfold clearThermal
    split
    · exact .refl s
    · split
      · exact (s.setOutputs_frame _).2.trans (State.raiseTht_frame _).2
      · exact .refl s
  · split
    · unfold clearOutput
      dsimp only
      split
      · exact .refl s
      · split
        · exact ((s.becomeIdle_frame _).2.trans (State.raiseFaultLine_frame _ _).2).trans (State.regrant_frame _ _).2
        · exact .refl s
    · exact .refl s

/-! ### Speakers, memory and tuner -/

theorem State.changeDistances_kept {s s1 t : State} (h : s.changeDistances s1 = .ok t) : portsKept s1 t := by
  unfold State.changeDistances at h
  split at h
  · exact (s1.setDelay_frame _).2.trans (State.changeDelays_kept h)
  · cases h; exact .refl s1

theorem Except.eq_ok_of_map {ε α β : Type} {e : Except ε α} {f : α → β} {t : β} (h : e.map f = .ok t) :
    ∃ u, e = .ok u ∧ f u = t := by
  cases e with
  | error e => cases h
  | ok u => cases h; exact ⟨u, rfl, rfl⟩

/-- A speaker record that is taken: the delay change that a new distance asks for, then the regrants. -/
theorem State.takeSpeaker_eq_ok {s t : State} {w : Position} {r : SpeakerRec} (h : s.takeSpeaker w r = .ok t) :
    ∃ u, (if r.distance = (s.speaker w).distance then Except.ok (s.setSpeakerRec w r)
        else s.changeDistances (s.setSpeakerRec w r)) = .ok u ∧
      t = if (r.size == .none) = ((s.speaker w).size == .none) then u else u.regrantAll := by
  obtain ⟨u, hu, hf⟩ := Except.eq_ok_of_map h
  exact ⟨u, hu, hf.symm⟩

theorem State.takeSpeaker_kept {s t : State} {w : Position} {r : SpeakerRec} (h : s.takeSpeaker w r = .ok t) :
    portsKept s t := by
  obtain ⟨u, hu, rfl⟩ := State.takeSpeaker_eq_ok h
  have hkept : portsKept s u := by
    split at hu
    · cases hu; exact (s.setSpeakerRec_frame w r).2
    · exact (s.setSpeakerRec_frame w r).2.trans (State.changeDistances_kept hu)
  split
  · exact hkept
  · exact hkept.trans (State.regrantAll_frame u).2

theorem doSetSpeaker_kept (x : Ctx) (a b : Byte) (d : Half) (t i : Byte) (s : State) :
    portsKept s (doSetSpeaker x a b d t i s).2 := by
  unfold doSetSpeaker
  split
  · exact .refl s
  · split
    · exact .refl s
    · exact .refl s
    · dsimp only
      split
      · exact .refl s
      · split
        · exact .refl s
        · next h => exact State.takeSpeaker_kept h

theorem doSetCrossover_kept (x : Ctx) (b : Byte) (s : State) : portsKept s (doSetCrossover x b s).2 := by
  unfold doSetCrossover
  split
  · split
    · exact .refl s
    · exact (s.setMix_frame _).2
  · exact .refl s

theorem doReadDecoder_kept (x : Ctx) (b : Byte) (n : Half) (s : State) : portsKept s (doReadDecoder x b n s).2 := by
  unfold doReadDecoder
  split
  · exact .refl s
  · split
    · dsimp only
      split
      · exact (s.setDecoder_frame _).2
      · exact .refl s
    · exact .refl s

theorem doMemoryStart_kept (x : Ctx) (b : Byte) (s : State) : portsKept s (doMemoryStart x b s).2 := by
  unfold doMemoryStart
  split
  · exact .refl s
  · split
    · exact .refl s
    · exact .refl s
    · split
      · exact .refl s
      · exact (s.takeSlot_frame _ _ _ x).2.trans (State.setDelay_frame _ _).2

theorem doCompact_kept (x : Ctx) (s : State) : portsKept s (doCompact x s).2 := by
  unfold doCompact
  split
  · exact .refl s
  · split
    · exact .refl s
    · dsimp only
      exact (s.takeSlot_frame _ _ _ x).2.trans (State.continueCompaction_frame _ _).2

theorem tuneTo_kept (x : Ctx) (kind : SlotKind) (b : Band) (f : Nat) (s : State) :
    portsKept s (tuneTo x kind b f s).2 := by
  unfold tuneTo
  split
  · exact .refl s
  · split
    · exact .refl s
    · split
      · split
        · dsimp only
          exact s.takeTuner_frame.2.trans (State.acceptTune_frame _ x kind .tune b f _).2
        · exact .refl s
      · exact .refl s

theorem startOn_kept {x : Ctx} {s : State} {start : State → Fin 8 → State} (h : ∀ u k, portsKept u (start u k)) :
    portsKept s (startOn x s start).2 := by
  unfold startOn
  split
  · exact .refl s
  · split
    · split
      · dsimp only
        exact s.takeTuner_frame.2.trans (h _ _)
      · exact .refl s
    · exact .refl s

theorem State.takeSlot_setTuner_kept (s : State) (k : Fin 8) (kind : SlotKind) (t : SlotTarget) (x : Ctx)
    (r : TunerRec) : portsKept s ((s.takeSlot k kind t x).setTuner r) :=
  (s.takeSlot_frame k kind t x).2.trans (State.setTuner_frame _ r).2

theorem doTune_kept (x : Ctx) (b : Byte) (f : Half) (s : State) : portsKept s (doTune x b f s).2 := by
  unfold doTune
  split
  · exact .refl s
  · split
    · exact tuneTo_kept x _ _ _ s
    · exact .refl s

theorem doStepTune_kept (x : Ctx) (b : Byte) (s : State) : portsKept s (doStepTune x b s).2 := by
  unfold doStepTune
  split
  · exact .refl s
  · exact startOn_kept fun u k => (u.acceptTune_frame x _ _ _ _ k).2

theorem doSeek_kept (x : Ctx) (b : Byte) (s : State) : portsKept s (doSeek x b s).2 := by
  unfold doSeek
  split
  · exact .refl s
  · exact startOn_kept fun u k => u.takeSlot_setTuner_kept k _ _ x _

theorem doScan_kept (x : Ctx) (b : Byte) (s : State) : portsKept s (doScan x b s).2 := by
  unfold doScan
  split
  · exact .refl s
  · exact startOn_kept fun u k => u.takeSlot_setTuner_kept k _ _ x _

theorem doSetSeekThreshold_kept (x : Ctx) (b : Byte) (s : State) : portsKept s (doSetSeekThreshold x b s).2 := by
  unfold doSetSeekThreshold
  dsimp only
  split
  · exact .refl s
  · exact (s.setTuner_frame _).2

theorem doSetRegion_kept (x : Ctx) (b : Byte) (s : State) : portsKept s (doSetRegion x b s).2 := by
  unfold doSetRegion
  split
  · exact .refl s
  · split
    · exact .refl s
    · split
      · exact .refl s
      · dsimp only
        exact s.abortTuner_frame.2.trans (State.setTuner_frame _ _).2

theorem doStorePreset_kept (x : Ctx) (b : Byte) (s : State) : portsKept s (doStorePreset x b s).2 := by
  unfold doStorePreset
  split
  · exact .refl s
  · split
    · exact .refl s
    · exact (s.setTuner_frame _).2

theorem doClearPreset_kept (x : Ctx) (b : Byte) (s : State) : portsKept s (doClearPreset x b s).2 := by
  unfold doClearPreset
  split
  · exact .refl s
  · split
    · exact .refl s
    · exact (s.setTuner_frame _).2

theorem doRecallPreset_kept (x : Ctx) (b : Byte) (s : State) : portsKept s (doRecallPreset x b s).2 := by
  unfold doRecallPreset
  split
  · exact .refl s
  · split
    · exact .refl s
    · exact tuneTo_kept x _ _ _ s

theorem doRecallStation_kept (x : Ctx) (b : Byte) (s : State) : portsKept s (doRecallStation x b s).2 := by
  unfold doRecallStation
  split
  · exact .refl s
  · exact tuneTo_kept x _ _ _ s

/-! ### The commands that read and change nothing -/

theorem withZone_snd {b : Byte} {s : State} {f : Zone → Answer × State} (h : ∀ z, (f z).2 = s) :
    (withZone b s f).2 = s := by
  unfold withZone
  split
  · rfl
  · exact h _

theorem doReadInput_snd (x : Ctx) (b : Byte) (n : Half) (s : State) : (doReadInput x b n s).2 = s := by
  unfold doReadInput
  split <;> rfl

theorem doReadPresets_snd (x : Ctx) (b : Byte) (n : Half) (s : State) : (doReadPresets x b n s).2 = s := by
  unfold doReadPresets
  split <;> rfl

theorem doReadStationList_snd (x : Ctx) (b : Byte) (n : Half) (s : State) : (doReadStationList x b n s).2 = s := by
  unfold doReadStationList
  split <;> rfl

/-- Every ordinary command keeps the ports, but for completion queues, chains and event kinds (R180, R194, R200). -/
theorem runCmd_kept (x : Ctx) {c : Cmd} (s : State) (hc : c.isService = false) : portsKept s (runCmd x c s).2 := by
  have same {t : State} (h : t = s) : portsKept s t := h ▸ .refl s
  cases c with
  | noOperation => exact same rfl
  | identify n => exact same rfl
  | zoneOn b => exact doZoneOn_kept x b s
  | zoneStandby b => exact doZoneStandby_kept x b s
  | selectSource b c => exact doSelectSource_kept x b c s
  | setVolume b v => exact doSetVolume_kept x b v s
  | stepVolume b d => exact doStepVolume_kept x b d s
  | setMute b m => exact doSetMute_kept x b m s
  | setMaxVolume b v => exact doSetMaxVolume_kept x b v s
  | setLipSync b v => exact doSetLipSync_kept x b v s
  | setSurroundMode b m => exact doSetSurroundMode_kept x b m s
  | setSleepTimer b n => exact doSetSleepTimer_kept x b n s
  | readZone b n => exact same (withZone_snd fun _ => rfl)
  | pushOverride b c v => exact doPushOverride_kept x b c v s
  | popOverride b => exact doPopOverride_kept x b s
  | readOverrideStack b n => exact same (withZone_snd fun _ => rfl)
  | setAssignment a b c d => exact doSetAssignment_kept x a b c d s
  | readAssignment n => exact same rfl
  | setProtectionLevels a b c => exact doSetProtectionLevels_kept x a b c s
  | readProtection n => exact same rfl
  | clearFault b => exact doClearFault_kept x b s
  | readInput b n => exact same (doReadInput_snd x b n s)
  | readDecoder b n => exact doReadDecoder_kept x b n s
  | setSpeaker a b d t i => exact doSetSpeaker_kept x a b d t i s
  | setCrossover b => exact doSetCrossover_kept x b s
  | readSpeakers n => exact same rfl
  | memoryStart b => exact doMemoryStart_kept x b s
  | compactDelayMemory => exact doCompact_kept x s
  | readSegmentTable n => exact same rfl
  | tune b f => exact doTune_kept x b f s
  | stepTune b => exact doStepTune_kept x b s
  | seek b => exact doSeek_kept x b s
  | scan b => exact doScan_kept x b s
  | setSeekThreshold b => exact doSetSeekThreshold_kept x b s
  | setRegion b => exact doSetRegion_kept x b s
  | readTuner n => exact same rfl
  | storePreset b => exact doStorePreset_kept x b s
  | recallPreset b => exact doRecallPreset_kept x b s
  | clearPreset b => exact doClearPreset_kept x b s
  | readPresets b n => exact same (doReadPresets_snd x b n s)
  | readStationList b n => exact same (doReadStationList_snd x b n s)
  | recallStation b => exact doRecallStation_kept x b s
  | _ => cases hc

end Sys2Proof.Machine
end

section
/-! PROOFS. Linked chains and completions (R180 to R184, R194 to R196, R205): the end of a long operation, the slot an
accepted command runs in, members and queue heads, and the reset of a port. -/

open Sys2Proof Sys2Proof.Machine

namespace Sys2Proof.Machine

/-! ### Completion orders (R194) -/

/-- The completion order with which a slot waits on port `p`. -/
def waitOrder (p : Port) (b : Slot) : Option Nat :=
  b.bind fun b => if b.port = p then b.waiting.map (·.2) else none

theorem waitOrder_eq_some {p : Port} {b : Slot} {m : Nat} :
    waitOrder p b = some m ↔ ∃ b' r', b = some b' ∧ b'.port = p ∧ b'.waiting = some (r', m) := by
  cases b with
  | none => simp [waitOrder]
  | some b =>
    by_cases hp : b.port = p
    · cases hw : b.waiting with
      | none => simp [waitOrder, hw]
      | some w => simp [waitOrder, hp, hw, Prod.ext_iff]
    · simp [waitOrder, hp]

/-- The order after those met so far. -/
def orderAfter (p : Port) (m : Nat) (b : Slot) : Nat := max m ((waitOrder p b).elim 0 (· + 1))

theorem State.nextOrder_eq (s : State) (p : Port) : s.nextOrder p = s.slots.toList.foldl (orderAfter p) 0 := by
  unfold State.nextOrder
  congr 1
  funext m b
  unfold orderAfter waitOrder
  rcases b with _ | ⟨kind, q, tag, target, mark, inChain, _ | ⟨r, n⟩⟩
  · simp
  · by_cases hp : q = p <;> simp [hp]
  · by_cases hp : q = p <;> simp [hp]

theorem foldl_orderAfter (p : Port) (l : List Slot) (m : Nat) :
    m ≤ l.foldl (orderAfter p) m ∧ (∀ b, b ∈ l → ∀ n, waitOrder p b = some n → n < l.foldl (orderAfter p) m) ∧
    (l.foldl (orderAfter p) m = m ∨ ∃ b, b ∈ l ∧ ∃ n, waitOrder p b = some n ∧ l.foldl (orderAfter p) m = n + 1) := by
  induction l generalizing m with
  | nil => simp
  | cons a l ih =>
    obtain ⟨h1, h2, h3⟩ := ih (orderAfter p m a)
    rw [List.foldl_cons]
    refine ⟨(le_max_left _ _).trans h1, fun b hb n hn => ?_, ?_⟩
    · rcases List.mem_cons.1 hb with rfl | hb
      · refine Nat.lt_of_lt_of_le ?_ h1
        rw [orderAfter, hn]
        exact Nat.lt_of_lt_of_le (Nat.lt_succ_self n) (le_max_right _ _)
      · exact h2 b hb n hn
    · rcases h3 with h3 | ⟨b, hb, n, hn, h3⟩
      · rw [h3, orderAfter]
        cases ha : waitOrder p a with
        | none => exact .inl (Nat.max_eq_left (Nat.zero_le _))
        | some n =>
          rcases Nat.le_total (n + 1) m with h | h
          · exact .inl (Nat.max_eq_left h)
          · exact .inr ⟨a, List.mem_cons_self, n, ha, Nat.max_eq_right h⟩
      · exact .inr ⟨b, List.mem_cons_of_mem _ hb, n, hn, h3⟩

theorem State.slot_mem (s : State) (j : Fin 8) : s.slot j ∈ s.slots.toList := by
  rw [State.slot]
  exact Vector.mem_toList_iff.2 (Vector.getElem_mem j.isLt)

theorem State.exists_slot_of_mem {s : State} {b : Slot} (h : b ∈ s.slots.toList) : ∃ j, s.slot j = b := by
  obtain ⟨i, hi, e⟩ := Vector.mem_iff_getElem.1 (Vector.mem_toList_iff.1 h)
  exact ⟨⟨i, hi⟩, e⟩

/-- The completion order that a record takes is above those of the port's waiting slots, and next to the highest. -/
theorem State.nextOrder_spec (s : State) (p : Port) :
    (∀ j m, (∃ b' r', s.slot j = some b' ∧ b'.port = p ∧ b'.waiting = some (r', m)) → m < s.nextOrder p) ∧
    (s.nextOrder p = 0 ∨ ∃ j m, (∃ b' r', s.slot j = some b' ∧ b'.port = p ∧ b'.waiting = some (r', m)) ∧
      s.nextOrder p = m + 1) := by
  rw [s.nextOrder_eq]
  obtain ⟨-, h2, h3⟩ := foldl_orderAfter p s.slots.toList 0
  refine ⟨fun j m hw => h2 _ (s.slot_mem j) m (waitOrder_eq_some.2 hw), h3.imp_right ?_⟩
  rintro ⟨b, hb, n, hn, h3⟩
  obtain ⟨j, rfl⟩ := State.exists_slot_of_mem hb
  exact ⟨j, n, waitOrder_eq_some.1 hn, h3⟩

/-! ### The end of a long operation (R182, R194) -/

/-- What the slot holds after its record has been offered. -/
def State.slotLeft (s : State) (k : Fin 8) (b : SlotBody) (st : Status) (result : List Byte) : Slot :=
  if (s.port b.port).completions.length < 8 then none
  else some { b with waiting := some (slotRecord k b st result, s.nextOrder b.port) }

/-- The completion queue after a slot's record has been offered. -/
def State.queueAfter (s : State) (k : Fin 8) (b : SlotBody) (st : Status) (result : List Byte) : List Completion :=
  if (s.port b.port).completions.length < 8 then (s.port b.port).completions ++ [slotRecord k b st result]
  else (s.port b.port).completions

/-- A slot's record has been offered to its port's queue. -/
def State.offered (s : State) (k : Fin 8) (b : SlotBody) (st : Status) (result : List Byte) : State :=
  (s.setSlot k (s.slotLeft k b st result)).setPort b.port
    { s.port b.port with completions := s.queueAfter k b st result }

theorem State.offer_record (s : State) (k : Fin 8) (b : SlotBody) (st : Status) (result : List Byte) :
    s.offer k b (b.record k st result) = s.offered k b st result := by
  have hrec : b.record k st result = slotRecord k b st result := rfl
  unfold State.offer State.offered State.slotLeft State.queueAfter
  by_cases hroom : (s.port b.port).completions.length < 8
  · rw [if_pos ((s.hasRoom_iff _).2 hroom), if_pos hroom, if_pos hroom]
    rfl
  · rw [if_neg (fun h => hroom ((s.hasRoom_iff _).1 h)), if_neg hroom, if_neg hroom, hrec]
    exact (State.setPort_port _ _).symm

theorem State.complete_eq {s : State} {k : Fin 8} {b : SlotBody} (h : s.slot k = some b) (st : Status)
    (result : List Byte) : s.complete k st result = (s.offered k b st result).endHold b.port k st := by
  unfold State.complete
  rw [h, ← s.offer_record]

theorem State.complete_none {s : State} {k : Fin 8} (h : s.slot k = none) (st : Status) (result : List Byte) :
    s.complete k st result = s := by
  unfold State.complete
  rw [h]

/-- The record of slot's port once the record has been offered. -/
theorem State.offered_port_self (s : State) (k : Fin 8) (b : SlotBody) (st : Status) (result : List Byte) :
    (s.offered k b st result).port b.port = { s.port b.port with completions := s.queueAfter k b st result } :=
  State.port_setPort_self ..

theorem State.endHold_of_not_holding {s : State} {p : Port} {k : Fin 8} (st : Status)
    (h : ¬ ((s.port p).chain = .holding ∧ ∃ link, (s.port p).hold = some ⟨k, link⟩)) : s.endHold p k st = s := by
  unfold State.endHold
  split
  · next r hc hh =>
    exact if_neg fun e => h ⟨hc, r.link, by rw [hh, ← e]⟩
  · rfl

theorem State.endHold_linked {s : State} {p : Port} {k : Fin 8} (st : Status) (hc : (s.port p).chain = .holding)
    (hh : (s.port p).hold = some ⟨k, true⟩) : s.endHold p k st =
      s.setPort p { s.port p with chain := if st = .done then .open else .broken, hold := none } := by
  unfold State.endHold
  rw [hc, hh]
  simp

theorem State.endHold_last {s : State} {p : Port} {k : Fin 8} (st : Status) (hc : (s.port p).chain = .holding)
    (hh : (s.port p).hold = some ⟨k, false⟩) : s.endHold p k st = s.endChain p := by
  unfold State.endHold
  rw [hc, hh]
  simp

/-- Settles O7: the offer of the record, then the hold of the port's chain. -/
theorem completionsMoveTheChain : Obligations.CompletionsMoveTheChain := by
  intro s k b st result hk pr t room queued waits
  obtain ⟨habove, hnext⟩ := s.nextOrder_spec b.port
  have ht : t = (s.offered k b st result).endHold b.port k st := State.complete_eq hk st result
  have hport := s.offered_port_self k b st result
  refine ⟨s.nextOrder b.port, habove, hnext, fun hnot => ?_, fun hc hh => ?_, fun hc hh => ?_⟩
  · rw [ht, State.endHold_of_not_holding st (by rw [hport]; exact hnot)]
    rfl
  · rw [ht, State.endHold_linked st (by rw [hport]; exact hc) (by rw [hport]; exact hh), hport]
    exact State.setPort_setPort ..
  · rw [ht, State.endHold_last st (by rw [hport]; exact hc) (by rw [hport]; exact hh)]
    exact State.endChain_ended _ b.port

/-! ### The slot of an accepted command (R180, R182, R193) -/

theorem State.setZone_raises (s : State) (z : Zone) (r : ZoneRec) : Raises s (s.setZone z r) :=
  .of_ports_eq (s.setZone_ports z r)

/-- Slot `k` runs the operation of the command in context `x`, and a member's chain holds on it. -/
def runsIn (x : Ctx) (u : State) (k : Fin 8) : Prop :=
  (∃ b, u.slot k = some b ∧ b.waiting = none ∧ b.mark = x.mark ∧ b.inChain = (x.mark != .none) ∧ b.port = x.port ∧
    b.tag = x.tag) ∧
  (x.mark ≠ .none → (u.port x.port).chain = .holding ∧ (u.port x.port).hold = some ⟨k, x.mark == .member⟩)

/-- The operation of the command in context `x` has ended already, and a member's chain has moved with its end. -/
def endedIn (x : Ctx) (u : State) (k : Fin 8) : Prop :=
  (∀ b, u.slot k = some b → b.waiting ≠ none) ∧
  (x.mark ≠ .none → (u.port x.port).hold = none ∧
    (u.port x.port).chain = (if x.mark = .member then .open else .none) ∧
    (x.mark = .last → ∀ r, r ∈ (u.port x.port).completions → r.heldBack = false))

theorem State.takeSlot_runs (s : State) (k : Fin 8) (kind : SlotKind) (t : SlotTarget) (x : Ctx) :
    runsIn x (s.takeSlot k kind t x) k := by
  unfold State.takeSlot
  by_cases hm : x.mark = .none
  · simp [runsIn, hm]
  · simp [runsIn, hm]

/-- What keeps the slots and a port's chain keeps the operation running. -/
theorem runsIn.of_kept {x : Ctx} {u v : State} {k : Fin 8} (h : runsIn x u k) (hs : v.slots = u.slots)
    (hc : (v.port x.port).chain = (u.port x.port).chain ∧ (v.port x.port).hold = (u.port x.port).hold) :
    runsIn x v k := by
  obtain ⟨hb, hh⟩ := h
  have hslot : v.slot k = u.slot k := by rw [State.slot, State.slot, hs]
  refine ⟨by rwa [hslot], fun hm => ?_⟩
  rw [hc.1, hc.2]
  exact hh hm

theorem runsIn.of_raises {x : Ctx} {u v : State} {k : Fin 8} (h : runsIn x u k) (hs : v.slots = u.slots)
    (hr : portsRaised u v) : runsIn x v k := by
  refine h.of_kept hs ?_
  obtain ⟨hport, -⟩ := hr x.port
  rw [hport]
  exact ⟨rfl, rfl⟩

/-- A command that is accepted runs in the slot of its answer, or has ended there. -/
def acceptsWell (x : Ctx) (r : Answer × State) : Prop :=
  r.1.status = .accepted → ∀ k, r.1.slot = some k → runsIn x r.2 k ∨ endedIn x r.2 k

theorem acceptsWell_of_ne {x : Ctx} {r : Answer × State} (h : r.1.status ≠ .accepted) : acceptsWell x r :=
  fun ha => absurd ha h

theorem acceptsWell_of_runs {x : Ctx} {k : Fin 8} {u : State} (h : runsIn x u k) :
    acceptsWell x (Answer.acceptedIn k, u) := by
  intro _ j hj
  obtain rfl : k = j := Option.some.inj hj
  exact .inl h

theorem withZone_accepts {x : Ctx} {b : Byte} {s : State} {f : Zone → Answer × State}
    (h : ∀ z, acceptsWell x (f z)) : acceptsWell x (withZone b s f) := by
  unfold withZone
  split
  · exact acceptsWell_of_ne (by simp [Answer.badParam, Answer.plain])
  · exact h _

theorem becomePending_accepts (x : Ctx) (z : Zone) (kind : SlotKind) (w : PendingPower) (s : State) :
    acceptsWell x (becomePending x z kind w s) := by
  unfold becomePending
  split
  · exact acceptsWell_of_ne (by simp [Answer.plain])
  · next k _ =>
    refine acceptsWell_of_runs ((s.takeSlot_runs k kind (zoneTarget z) x).of_raises ?_ ?_)
    · exact (State.setPending_frame _ z w _).1 .slots (by decide)
    · exact ((State.setZone_raises _ z _).trans (State.raiseZone_raises _ z)).1

/-! ### Wakes and entries into QUIETING keep slots and chains -/

theorem DelayState.takesRequests_ok {d : DelayState} {y : Unit} (h : d.takesRequests = .ok y) :
    d.state = .ready ∧ d.compaction = none := by
  unfold DelayState.takesRequests at h
  split at h
  · cases h
  · next hn =>
    split at h
    · next hr =>
      refine ⟨hr, ?_⟩
      by_contra hc
      exact hn (.inr (Option.isSome_iff_ne_none.2 hc))
    · cases h

theorem State.wakeTests_ok {s : State} {y : Unit} (h : s.wakeTests = .ok y) :
    s.outputs.latch = false ∧ s.delay.state = .ready ∧ s.delay.compaction = none := by
  unfold State.wakeTests at h
  split at h
  · cases h
  · next hl =>
    obtain ⟨h1, h2⟩ := DelayState.takesRequests_ok h
    exact ⟨by simpa using hl, h1, h2⟩

/-! The refusals of the Delay Memory Controller are none of them ACCEPTED. -/

theorem DelayState.takesRequests_error {d : DelayState} {e : Status} (h : d.takesRequests = .error e) :
    e = .memoryBusy ∨ e = .notReady := by
  unfold DelayState.takesRequests at h
  split at h
  · cases h; exact .inl rfl
  · split at h
    · cases h
    · cases h; exact .inr rfl

theorem DelayState.request_error {d : DelayState} {reqs : List (Fin 13 × Nat)} {e : Status}
    (h : d.request reqs = .error e) :
    e = .memoryBusy ∨ e = .notReady ∨ e = .noDelayMemory ∨ e = .fragmented := by
  unfold DelayState.request at h
  split at h
  · cases h
  · split at h
    · next he =>
      cases h
      exact (DelayState.takesRequests_error he).imp_right .inl
    · split at h
      · cases h; exact .inr (.inr (.inl rfl))
      · split at h
        · cases h; exact .inr (.inr (.inr rfl))
        · cases h

theorem State.wakeTests_error {s : State} {e : Status} (h : s.wakeTests = .error e) : e ≠ .accepted := by
  unfold State.wakeTests at h
  split at h
  · cases h; decide
  · rcases DelayState.takesRequests_error h with rfl | rfl <;> decide

theorem Except.eq_error_of_map {ε α β : Type} {e : Except ε α} {f : α → β} {x : ε} (h : e.map f = .error x) :
    e = .error x := by
  cases e with
  | error e => cases h; rfl
  | ok u => cases h

theorem State.wakeRequest_error {s : State} {z : Zone} {e : Status} (h : s.wakeRequest z = .error e) :
    e ≠ .accepted := by
  rcases DelayState.request_error (Except.eq_error_of_map h) with rfl | rfl | rfl | rfl <;> decide

/-- A wake request changes segments, words and, for MAIN, the reference alone. -/
theorem State.wakeRequest_eq_ok {s t : State} {z : Zone} (h : s.wakeRequest z = .ok t) :
    ∃ d, (s.withReference z).delay.request ((s.directOutputs z).map (fun (o, r) =>
        (o, (s.withReference z).totalDelay z r))) = .ok d ∧ t = s.setDelay d := by
  unfold State.wakeRequest at h
  obtain ⟨d, hd, rfl⟩ := Except.eq_ok_of_map h
  refine ⟨d, hd, ?_⟩
  cases z <;> rfl

theorem State.wakeRequest_delay {s t : State} {z : Zone} (h : s.wakeRequest z = .ok t) :
    t.delay.compaction = s.delay.compaction ∧ t.delay.state = s.delay.state := by
  obtain ⟨d, hd, rfl⟩ := State.wakeRequest_eq_ok h
  have hk := DelayState.request_keeps hd
  have hr : (s.withReference z).delay.compaction = s.delay.compaction ∧
      (s.withReference z).delay.state = s.delay.state := by cases z <;> exact ⟨rfl, rfl⟩
  rw [State.setDelay_delay, hk]
  exact hr

theorem State.setPower_eq (s : State) (z : Zone) (w : Power) :
    s.setPower z w = ((s.setZone z { s.zone z with power := w }).noteOutputs).raiseZone z := rfl

theorem State.setPower_raises (s : State) (z : Zone) (w : Power) : Raises s (s.setPower z w) :=
  ((s.setZone_raises z _).trans (State.noteOutputs_quiet _).raises).trans (State.raiseZone_raises _ z)

theorem State.enterWaking_slots {s : State} (z : Zone) (k : Option (Fin 8)) (hc : s.delay.compaction = none) :
    (s.enterWaking z k).slots = s.slots ∧ Raises s (s.enterWaking z k) := by
  have hpower := (s.setZone z { s.zone z with opSlot := k, wakeTimer := some 120 }).setPower_frame z .waking
  have hquiet := (State.regrantAll_free
    ((s.setZone z { s.zone z with opSlot := k, wakeTimer := some 120 }).setPower z .waking)).2
    (by rw [hpower.1 .delay (by decide)]; exact hc)
  refine ⟨?_, ?_⟩
  · unfold State.enterWaking
    rw [(State.reportZones_frame _).1 .slots (by decide), hquiet.slots, hpower.1 .slots (by decide)]
    rfl
  · exact (((s.setZone_raises z _).trans (State.setPower_raises _ z .waking)).trans hquiet.raises).trans
      (State.reportZones_raises _)

theorem State.startRelayStage_slots (s : State) (z : Zone) :
    (s.startRelayStage z).slots = s.slots ∧ Raises s (s.startRelayStage z) :=
  ⟨(State.openRelays_quiet _ z).slots, (s.setZone_raises z _).trans (State.openRelays_quiet _ z).raises⟩

theorem State.endSilentRamp_slots (s : State) (z : Zone) :
    (s.endSilentRamp z).slots = s.slots ∧ Raises s (s.endSilentRamp z) := by
  unfold State.endSilentRamp
  split
  · exact s.startRelayStage_slots z
  · exact ⟨rfl, .refl s⟩

theorem State.reportQuieting_slots (before s : State) :
    (State.reportQuieting before s).slots = s.slots ∧ Raises s (State.reportQuieting before s) := by
  have hfold (l : List Zone) (s : State) :
      (l.foldl State.endSilentRamp s).slots = s.slots ∧ Raises s (l.foldl State.endSilentRamp s) := by
    induction l generalizing s with
    | nil => exact ⟨rfl, .refl s⟩
    | cons z l ih =>
      obtain ⟨h1, h2⟩ := ih (s.endSilentRamp z)
      obtain ⟨h3, h4⟩ := s.endSilentRamp_slots z
      exact ⟨h1.trans h3, h4.trans h2⟩
  obtain ⟨h1, h2⟩ := hfold (Zone.all.filter (fun z => (before.zone z).power != .quieting)) s.reportZones
  exact ⟨h1.trans (s.reportZones_frame.1 .slots (by decide)), s.reportZones_raises.trans h2⟩

theorem State.quietZone_raises (s : State) (z : Zone) (k : Option (Fin 8)) : Raises s (s.quietZone z k) :=
  ((s.setZone_raises z _).trans (State.setPower_raises _ z .quieting)).trans (State.refreshStatus_raises _ z)

theorem State.enterQuieting_slots (s : State) (z : Zone) (k : Option (Fin 8)) :
    (s.enterQuieting z k).slots = s.slots ∧ Raises s (s.enterQuieting z k) := by
  obtain ⟨h1, h2⟩ := State.reportQuieting_slots s (s.quietZone z k)
  exact ⟨h1.trans ((s.quietZone_frame z k).1 .slots (by decide)), (s.quietZone_raises z k).trans h2⟩

/-! ### Accepted commands, one by one -/

theorem doZoneOn_accepts (x : Ctx) (b : Byte) (s : State) : acceptsWell x (doZoneOn x b s) := by
  refine withZone_accepts fun z => ?_
  split
  · unfold wakeFromStandby
    split
    · next e he => exact acceptsWell_of_ne (State.wakeTests_error he)
    · next hw =>
      split
      · exact acceptsWell_of_ne (by simp [Answer.plain])
      · next k _ =>
        split
        · next e he => exact acceptsWell_of_ne (State.wakeRequest_error he)
        · next u hreq =>
          obtain ⟨-, -, hc⟩ := State.wakeTests_ok hw
          have hc' : (u.takeSlot k .zoneOn (zoneTarget z) x).delay.compaction = none := by
            rw [(State.takeSlot_frame _ _ _ _ x).1 .delay (by decide), (State.wakeRequest_delay hreq).1, hc]
          obtain ⟨h1, h2⟩ := State.enterWaking_slots z (some k) hc'
          exact acceptsWell_of_runs ((State.takeSlot_runs _ _ _ _ x).of_raises h1 h2.1)
  · exact acceptsWell_of_ne (by simp [Answer.plain])
  · exact acceptsWell_of_ne (by simp [Answer.plain])
  · exact acceptsWell_of_ne (by simp [Answer.plain])
  · split
    · exact acceptsWell_of_ne (by simp [Answer.plain])
    · exact becomePending_accepts x z _ _ s
  · exact acceptsWell_of_ne (by simp [Answer.plain])

theorem doZoneStandby_accepts (x : Ctx) (b : Byte) (s : State) : acceptsWell x (doZoneStandby x b s) := by
  refine withZone_accepts fun z => ?_
  split
  · exact acceptsWell_of_ne (by simp [Answer.plain])
  · exact becomePending_accepts x z _ _ s
  · exact acceptsWell_of_ne (by simp [Answer.plain])
  · split
    · exact acceptsWell_of_ne (by simp [Answer.plain])
    · next k _ =>
      obtain ⟨h1, h2⟩ := (s.takeSlot k .zoneStandby (zoneTarget z) x).enterQuieting_slots z (some k)
      exact acceptsWell_of_runs ((State.takeSlot_runs _ _ _ _ x).of_raises h1 h2.1)
  · exact acceptsWell_of_ne (by simp [Answer.plain])
  · exact acceptsWell_of_ne (by simp [Answer.plain])

theorem doMemoryStart_accepts (x : Ctx) (b : Byte) (s : State) : acceptsWell x (doMemoryStart x b s) := by
  unfold doMemoryStart
  split
  · exact acceptsWell_of_ne (by simp [Answer.badParam, Answer.plain])
  · split
    · exact acceptsWell_of_ne (by simp [Answer.plain])
    · exact acceptsWell_of_ne (by simp [Answer.plain])
    · split
      · exact acceptsWell_of_ne (by simp [Answer.plain])
      · exact acceptsWell_of_runs ((s.takeSlot_runs _ _ _ x).of_kept rfl ⟨rfl, rfl⟩)

theorem State.acceptTune_runs (s : State) (x : Ctx) (kind : SlotKind) (op : TunerOpKind) (b : Band) (f : Nat)
    (k : Fin 8) : runsIn x (s.acceptTune x kind op b f k) k := (s.takeSlot_runs k _ _ x).of_kept rfl ⟨rfl, rfl⟩

theorem tuneTo_accepts (x : Ctx) (kind : SlotKind) (b : Band) (f : Nat) (s : State) :
    acceptsWell x (tuneTo x kind b f s) := by
  unfold tuneTo
  split
  · exact acceptsWell_of_ne (by simp [Answer.plain])
  · split
    · exact acceptsWell_of_ne (by simp [Answer.plain])
    · split
      · split
        · exact acceptsWell_of_runs (State.acceptTune_runs _ x kind .tune b f _)
        · exact acceptsWell_of_ne (by simp [Answer.plain])
      · exact acceptsWell_of_ne (by simp [Answer.plain])

theorem startOn_accepts {x : Ctx} {s : State} {start : State → Fin 8 → State} (h : ∀ u k, runsIn x (start u k) k) :
    acceptsWell x (startOn x s start) := by
  unfold startOn
  split
  · exact acceptsWell_of_ne (by simp [Answer.plain])
  · split
    · split
      · exact acceptsWell_of_runs (h _ _)
      · exact acceptsWell_of_ne (by simp [Answer.plain])
    · exact acceptsWell_of_ne (by simp [Answer.plain])

theorem State.takeSlot_setTuner_runs (s : State) (k : Fin 8) (kind : SlotKind) (t : SlotTarget) (x : Ctx)
    (r : TunerRec) : runsIn x ((s.takeSlot k kind t x).setTuner r) k :=
  (s.takeSlot_runs k kind t x).of_kept rfl ⟨rfl, rfl⟩

/-! A compaction with no segment to move ends at once (R133). -/

theorem State.endHold_slot (s : State) (p : Port) (k : Fin 8) (st : Status) (j : Fin 8) :
    (s.endHold p k st).slot j = s.slot j ∨ (s.endHold p k st).slot j = (s.slot j).map (SlotBody.unchained p) := by
  unfold State.endHold
  split
  · split
    · split
      · exact .inl rfl
      · exact .inr (s.endChain_slot p j)
    · exact .inl rfl
  · exact .inl rfl

theorem SlotBody.unchained_waiting (p : Port) (b : SlotBody) : (b.unchained p).waiting = b.waiting := by
  unfold SlotBody.unchained
  split <;> rfl

theorem State.offered_slot_self (s : State) (k : Fin 8) (b : SlotBody) (st : Status) (r : List Byte) :
    (s.offered k b st r).slot k = s.slotLeft k b st r := State.slot_setSlot_self s k _

theorem State.slotLeft_waiting {s : State} {k : Fin 8} {b b' : SlotBody} {st : Status} {r : List Byte}
    (h : s.slotLeft k b st r = some b') : b'.waiting ≠ none := by
  unfold State.slotLeft at h
  split at h
  · cases h
  · cases h; exact Option.some_ne_none _

/-- The slot of an operation that has ended is FREE, or holds its record (R194). -/
theorem State.complete_slot_self {s : State} {k : Fin 8} {b' : SlotBody} {st : Status} {r : List Byte}
    (h : (s.complete k st r).slot k = some b') : b'.waiting ≠ none := by
  cases hk : s.slot k with
  | none =>
    rw [State.complete_none hk, hk] at h
    cases h
  | some b =>
    rw [State.complete_eq hk] at h
    rcases (s.offered k b st r).endHold_slot b.port k st k with e | e
    · rw [e, State.offered_slot_self] at h
      exact State.slotLeft_waiting h
    · rw [e, State.offered_slot_self] at h
      obtain ⟨b1, h1, rfl⟩ := Option.map_eq_some_iff.1 h
      rw [SlotBody.unchained_waiting]
      exact State.slotLeft_waiting h1

theorem runsIn.complete_ended {x : Ctx} {u : State} {k : Fin 8} (h : runsIn x u k) (r : List Byte) :
    endedIn x (u.complete k .done r) k := by
  refine ⟨fun b hb => State.complete_slot_self hb, fun hm => ?_⟩
  obtain ⟨⟨b, hb, -, -, -, hport, -⟩, hh⟩ := h
  obtain ⟨hc, hhold⟩ := hh hm
  have hself := u.offered_port_self k b .done r
  rw [State.complete_eq hb]
  rw [hport] at hself ⊢
  cases hmark : x.mark with
  | none => exact absurd hmark hm
  | member =>
    rw [hmark] at hhold
    rw [State.endHold_linked .done (by rw [hself]; exact hc) (by rw [hself]; exact hhold)]
    simp
  | last =>
    rw [hmark] at hhold
    rw [State.endHold_last .done (by rw [hself]; exact hc) (by rw [hself]; exact hhold), State.endChain_port_self]
    simp

/-- Examinations keep the compaction's slot and whether its abort is requested. -/
theorem DelayState.examine_compaction (fuel : Nat) (d : DelayState) (c : CompactionRec) :
    ∃ c', (DelayState.examine fuel d c).1.compaction = some c' ∧ c'.slot = c.slot ∧ c'.abort = c.abort := by
  induction fuel generalizing c with
  | zero => exact ⟨c, rfl, rfl, rfl⟩
  | succ fuel ih =>
    unfold DelayState.examine
    split
    · exact ⟨_, rfl, rfl, rfl⟩
    · dsimp only
      split
      · exact ih _
      · split
        · exact ⟨_, rfl, rfl, rfl⟩
        · exact ih _

/-- A compaction that is taken up runs on in its slot, or ends there. -/
theorem State.continueCompaction_runs {x : Ctx} {s : State} {c : CompactionRec} (h : runsIn x s c.slot)
    (ha : c.abort = false) :
    runsIn x (s.continueCompaction c) c.slot ∨ endedIn x (s.continueCompaction c) c.slot := by
  obtain ⟨c', hc', hslot, habort⟩ := DelayState.examine_compaction (examineFuel s.delay) s.delay c
  unfold State.continueCompaction
  rw [if_neg (by simp [ha])]
  dsimp only
  have h1 : runsIn x (s.setDelay (DelayState.examine (examineFuel s.delay) s.delay c).1) c.slot :=
    h.of_kept rfl ⟨rfl, rfl⟩
  split
  · refine .inr ?_
    rw [hc', Option.getD_some]
    unfold State.endCompaction
    rw [habort, ha, hslot]
    have hretry := State.retryPass_quiet ((s.setDelay (DelayState.examine (examineFuel s.delay) s.delay c).1).setDelay
      { (s.setDelay (DelayState.examine (examineFuel s.delay) s.delay c).1).delay with compaction := none })
    exact ((h1.of_kept rfl ⟨rfl, rfl⟩).of_raises hretry.slots hretry.raised).complete_ended _
  · exact .inl h1

theorem doCompact_accepts (x : Ctx) (s : State) : acceptsWell x (doCompact x s) := by
  unfold doCompact
  split
  · next e he =>
    refine acceptsWell_of_ne ?_
    rcases DelayState.takesRequests_error he with rfl | rfl <;> simp [Answer.plain]
  · split
    · exact acceptsWell_of_ne (by simp [Answer.plain])
    · next k _ =>
      intro _ j hj
      obtain rfl : k = j := Option.some.inj hj
      exact State.continueCompaction_runs (c := { slot := k, scanStart := 0, examined := [], current := none, moved := 0, abort := false })
        (s.takeSlot_runs k .compact none x) rfl

/-! ### The commands that are never accepted -/

/-- An answer other than ACCEPTED. -/
def notAccepted (r : Answer × State) : Prop := r.1.status ≠ .accepted

theorem notAccepted_plain {st : Status} (s : State) (h : st ≠ .accepted) : notAccepted (Answer.plain st, s) := h

theorem notAccepted_badParam (k : Byte) (s : State) : notAccepted (Answer.badParam k, s) := by
  simp [notAccepted, Answer.badParam, Answer.plain]

theorem notAccepted_changed (b : Bool) (s : State) : notAccepted (Answer.changed b, s) := by
  cases b <;> simp [notAccepted, Answer.changed, Answer.plain]

theorem readAnswer_status (n : Half) (bytes : List Byte) : (readAnswer n bytes).status ≠ .accepted := by
  unfold readAnswer
  dsimp only
  split
  · decide
  · split <;> decide

theorem notAccepted_read (k : Byte) (n : Half) (bytes : List Byte) (s : State) :
    notAccepted (readCommand k n bytes, s) := by
  unfold notAccepted readCommand
  dsimp only
  split
  · exact readAnswer_status n bytes
  · simp [Answer.badParam, Answer.plain]

theorem withZone_notAccepted {b : Byte} {s : State} {f : Zone → Answer × State} (h : ∀ z, notAccepted (f z)) :
    notAccepted (withZone b s f) := by
  unfold withZone
  split
  · exact notAccepted_badParam 0 s
  · exact h _

theorem layered_notAccepted (x : Ctx) (z : Zone) (s : State) (f : OverrideEntry → OverrideEntry) (live : Bool × State) :
    notAccepted (layered x z s f live) := by
  unfold layered
  split
  · simp [notAccepted, deferredAnswer, Answer.withData, Answer.plain]
  · exact notAccepted_changed _ _

theorem doSelectSource_notAccepted (x : Ctx) (b c : Byte) (s : State) : notAccepted (doSelectSource x b c s) := by
  refine withZone_notAccepted fun z => ?_
  split
  · exact notAccepted_badParam 1 s
  · exact layered_notAccepted _ _ _ _ _

theorem doStepVolume_notAccepted (x : Ctx) (b d : Byte) (s : State) : notAccepted (doStepVolume x b d s) := by
  refine withZone_notAccepted fun z => ?_
  split
  · exact notAccepted_badParam 1 s
  · exact layered_notAccepted _ _ _ _ _

theorem doSetMute_notAccepted (x : Ctx) (b m : Byte) (s : State) : notAccepted (doSetMute x b m s) := by
  refine withZone_notAccepted fun z => ?_
  split
  · exact notAccepted_badParam 1 s
  · exact layered_notAccepted _ _ _ _ _

theorem doSetSurroundMode_notAccepted (x : Ctx) (b m : Byte) (s : State) : notAccepted (doSetSurroundMode x b m s) := by
  refine withZone_notAccepted fun z => ?_
  split
  · exact notAccepted_badParam 0 s
  · split
    · exact notAccepted_badParam 1 s
    · exact layered_notAccepted _ _ _ _ _

theorem doSetMaxVolume_notAccepted (x : Ctx) (b : Byte) (v : Half) (s : State) : notAccepted (doSetMaxVolume x b v s) := by
  refine withZone_notAccepted fun z => ?_
  dsimp only
  split <;> exact notAccepted_plain _ (by decide)

theorem DelayState.requestChange_error {d : DelayState} {want : List (Fin 13 × Nat)} {e : Status}
    (h : d.requestChange want = .error e) :
    e = .memoryBusy ∨ e = .notReady ∨ e = .noDelayMemory ∨ e = .fragmented := by
  unfold DelayState.requestChange at h
  split at h
  · next he =>
    cases h
    exact (DelayState.takesRequests_error he).imp_right .inl
  · dsimp only at h
    split at h
    · cases h; exact .inr (.inr (.inl rfl))
    · split at h
      · cases h; exact .inr (.inr (.inr rfl))
      · cases h

theorem State.changeDelays_error {s s1 : State} {z : Zone} {e : Status} (h : s.changeDelays s1 z = .error e) :
    e ≠ .accepted := by
  unfold State.changeDelays at h
  dsimp only at h
  split at h
  · next he =>
    cases h
    rcases DelayState.requestChange_error he with rfl | rfl | rfl | rfl <;> decide
  · cases h

theorem doSetLipSync_notAccepted (x : Ctx) (b : Byte) (v : Half) (s : State) : notAccepted (doSetLipSync x b v s) := by
  refine withZone_notAccepted fun z => ?_
  dsimp only
  split
  · exact notAccepted_plain _ (by decide)
  · split
    · split
      · next h => exact notAccepted_plain _ (State.changeDelays_error h)
      · exact notAccepted_plain _ (by decide)
    · exact notAccepted_plain _ (by decide)

theorem doSetSleepTimer_notAccepted (x : Ctx) (b n : Byte) (s : State) : notAccepted (doSetSleepTimer x b n s) := by
  refine withZone_notAccepted fun z => ?_
  dsimp only
  split
  · exact notAccepted_changed _ _
  · exact notAccepted_plain _ (by decide)

theorem doPushOverride_notAccepted (x : Ctx) (b c : Byte) (v : Half) (s : State) :
    notAccepted (doPushOverride x b c v s) := by
  refine withZone_notAccepted fun z => ?_
  split
  · exact notAccepted_badParam 1 s
  · dsimp only
    split
    · exact notAccepted_plain _ (by decide)
    · simp [notAccepted, Answer.withData, Answer.plain]

theorem doPopOverride_notAccepted (x : Ctx) (b : Byte) (s : State) : notAccepted (doPopOverride x b s) := by
  refine withZone_notAccepted fun z => ?_
  split
  · exact notAccepted_plain _ (by decide)
  · split
    · exact notAccepted_plain _ (by decide)
    · simp [notAccepted, Answer.withData, Answer.plain]

theorem doSetAssignment_notAccepted (x : Ctx) (a b c d : Byte) (s : State) :
    notAccepted (doSetAssignment x a b c d s) := by
  unfold doSetAssignment
  split
  · exact notAccepted_badParam _ _
  · exact notAccepted_badParam _ _
  · exact notAccepted_badParam _ _
  · exact notAccepted_badParam _ _
  · split
    · exact notAccepted_badParam _ _
    · split
      · exact notAccepted_badParam _ _
      · split
        · exact notAccepted_plain _ (by decide)
        · dsimp only
          split <;> exact notAccepted_plain _ (by decide)

theorem doSetProtectionLevels_notAccepted (x : Ctx) (a b c : Byte) (s : State) :
    notAccepted (doSetProtectionLevels x a b c s) := by
  unfold doSetProtectionLevels
  split
  · exact notAccepted_badParam _ _
  · exact notAccepted_badParam _ _
  · exact notAccepted_badParam _ _
  · split <;> exact notAccepted_plain _ (by decide)

theorem doClearFault_notAccepted (x : Ctx) (b : Byte) (s : State) : notAccepted (doClearFault x b s) := by
  unfold doClearFault
  split
  · unfold clearThermal
    split
    · exact notAccepted_plain _ (by decide)
    · split <;> exact notAccepted_plain _ (by decide)
  · split
    · unfold clearOutput
      dsimp only
      split
      · exact notAccepted_plain _ (by decide)
      · split <;> exact notAccepted_plain _ (by decide)
    · exact notAccepted_badParam _ _

theorem doReadInput_notAccepted (x : Ctx) (b : Byte) (n : Half) (s : State) : notAccepted (doReadInput x b n s) := by
  unfold doReadInput
  split
  · exact notAccepted_badParam _ _
  · exact notAccepted_read _ _ _ _

theorem doReadDecoder_notAccepted (x : Ctx) (b : Byte) (n : Half) (s : State) : notAccepted (doReadDecoder x b n s) := by
  unfold doReadDecoder
  split
  · exact notAccepted_badParam _ _
  · split
    · exact readAnswer_status _ _
    · exact notAccepted_badParam _ _

theorem State.takeSpeaker_error {s : State} {w : Position} {r : SpeakerRec} {e : Status}
    (h : s.takeSpeaker w r = .error e) : e ≠ .accepted := by
  have hmoved := Except.eq_error_of_map h
  split at hmoved
  · cases hmoved
  · unfold State.changeDistances at hmoved
    split at hmoved
    · exact State.changeDelays_error hmoved
    · cases hmoved

theorem doSetSpeaker_notAccepted (x : Ctx) (a b : Byte) (d : Half) (t i : Byte) (s : State) :
    notAccepted (doSetSpeaker x a b d t i s) := by
  unfold doSetSpeaker
  split
  · exact notAccepted_badParam _ _
  · split
    · exact notAccepted_badParam _ _
    · exact notAccepted_badParam _ _
    · dsimp only
      split
      · exact notAccepted_plain _ (by decide)
      · split
        · next h => exact notAccepted_plain _ (State.takeSpeaker_error h)
        · exact notAccepted_plain _ (by decide)

theorem doSetCrossover_notAccepted (x : Ctx) (b : Byte) (s : State) : notAccepted (doSetCrossover x b s) := by
  unfold doSetCrossover
  split
  · split <;> exact notAccepted_plain _ (by decide)
  · exact notAccepted_badParam _ _

theorem doSetSeekThreshold_notAccepted (x : Ctx) (b : Byte) (s : State) : notAccepted (doSetSeekThreshold x b s) := by
  unfold doSetSeekThreshold
  dsimp only
  split <;> exact notAccepted_plain _ (by decide)

theorem doSetRegion_notAccepted (x : Ctx) (b : Byte) (s : State) : notAccepted (doSetRegion x b s) := by
  unfold doSetRegion
  split
  · exact notAccepted_badParam _ _
  · split
    · exact notAccepted_plain _ (by decide)
    · split <;> exact notAccepted_plain _ (by decide)

theorem doStorePreset_notAccepted (x : Ctx) (b : Byte) (s : State) : notAccepted (doStorePreset x b s) := by
  unfold doStorePreset
  split
  · exact notAccepted_badParam _ _
  · split <;> exact notAccepted_plain _ (by decide)

theorem doClearPreset_notAccepted (x : Ctx) (b : Byte) (s : State) : notAccepted (doClearPreset x b s) := by
  unfold doClearPreset
  split
  · exact notAccepted_badParam _ _
  · split <;> exact notAccepted_plain _ (by decide)

theorem doReadPresets_notAccepted (x : Ctx) (b : Byte) (n : Half) (s : State) : notAccepted (doReadPresets x b n s) := by
  unfold doReadPresets
  split
  · exact notAccepted_badParam _ _
  · exact notAccepted_read _ _ _ _

theorem doReadStationList_notAccepted (x : Ctx) (b : Byte) (n : Half) (s : State) :
    notAccepted (doReadStationList x b n s) := by
  unfold doReadStationList
  split
  · exact notAccepted_badParam _ _
  · exact notAccepted_read _ _ _ _

theorem doTune_accepts (x : Ctx) (b : Byte) (f : Half) (s : State) : acceptsWell x (doTune x b f s) := by
  unfold doTune
  split
  · exact acceptsWell_of_ne (notAccepted_badParam 0 s)
  · split
    · exact tuneTo_accepts x _ _ _ s
    · exact acceptsWell_of_ne (notAccepted_badParam 1 s)

theorem doStepTune_accepts (x : Ctx) (b : Byte) (s : State) : acceptsWell x (doStepTune x b s) := by
  unfold doStepTune
  split
  · exact acceptsWell_of_ne (notAccepted_badParam 0 s)
  · exact startOn_accepts fun u k => u.acceptTune_runs x _ _ _ _ k

theorem doSeek_accepts (x : Ctx) (b : Byte) (s : State) : acceptsWell x (doSeek x b s) := by
  unfold doSeek
  split
  · exact acceptsWell_of_ne (notAccepted_badParam 0 s)
  · exact startOn_accepts fun u k => u.takeSlot_setTuner_runs k _ _ x _

theorem doScan_accepts (x : Ctx) (b : Byte) (s : State) : acceptsWell x (doScan x b s) := by
  unfold doScan
  split
  · exact acceptsWell_of_ne (notAccepted_badParam 0 s)
  · exact startOn_accepts fun u k => u.takeSlot_setTuner_runs k _ _ x _

theorem doRecallPreset_accepts (x : Ctx) (b : Byte) (s : State) : acceptsWell x (doRecallPreset x b s) := by
  unfold doRecallPreset
  split
  · exact acceptsWell_of_ne (notAccepted_badParam 0 s)
  · split
    · exact acceptsWell_of_ne (notAccepted_badParam 0 s)
    · exact tuneTo_accepts x _ _ _ s

theorem doRecallStation_accepts (x : Ctx) (b : Byte) (s : State) : acceptsWell x (doRecallStation x b s) := by
  unfold doRecallStation
  split
  · exact acceptsWell_of_ne (notAccepted_badParam 0 s)
  · exact tuneTo_accepts x _ _ _ s

/-- Every ordinary command that is accepted runs in the slot it names, or has ended there at once (R180, R193). -/
theorem runCmd_accepts (x : Ctx) {c : Cmd} (s : State) (hc : c.isService = false) :
    acceptsWell x (runCmd x c s) := by
  cases c with
  | noOperation => exact acceptsWell_of_ne (notAccepted_plain s (by decide))
  | identify n => exact acceptsWell_of_ne (notAccepted_read _ n _ s)
  | zoneOn b => exact doZoneOn_accepts x b s
  | zoneStandby b => exact doZoneStandby_accepts x b s
  | selectSource b c => exact acceptsWell_of_ne (doSelectSource_notAccepted x b c s)
  | setVolume b v => exact acceptsWell_of_ne (withZone_notAccepted fun z => layered_notAccepted x z s _ _)
  | stepVolume b d => exact acceptsWell_of_ne (doStepVolume_notAccepted x b d s)
  | setMute b m => exact acceptsWell_of_ne (doSetMute_notAccepted x b m s)
  | setMaxVolume b v => exact acceptsWell_of_ne (doSetMaxVolume_notAccepted x b v s)
  | setLipSync b v => exact acceptsWell_of_ne (doSetLipSync_notAccepted x b v s)
  | setSurroundMode b m => exact acceptsWell_of_ne (doSetSurroundMode_notAccepted x b m s)
  | setSleepTimer b n => exact acceptsWell_of_ne (doSetSleepTimer_notAccepted x b n s)
  | readZone b n => exact acceptsWell_of_ne (withZone_notAccepted fun z => notAccepted_read 1 n _ s)
  | pushOverride b c v => exact acceptsWell_of_ne (doPushOverride_notAccepted x b c v s)
  | popOverride b => exact acceptsWell_of_ne (doPopOverride_notAccepted x b s)
  | readOverrideStack b n => exact acceptsWell_of_ne (withZone_notAccepted fun z => notAccepted_read 1 n _ s)
  | setAssignment a b c d => exact acceptsWell_of_ne (doSetAssignment_notAccepted x a b c d s)
  | readAssignment n => exact acceptsWell_of_ne (notAccepted_read _ n _ s)
  | setProtectionLevels a b c => exact acceptsWell_of_ne (doSetProtectionLevels_notAccepted x a b c s)
  | readProtection n => exact acceptsWell_of_ne (notAccepted_read _ n _ s)
  | clearFault b => exact acceptsWell_of_ne (doClearFault_notAccepted x b s)
  | readInput b n => exact acceptsWell_of_ne (doReadInput_notAccepted x b n s)
  | readDecoder b n => exact acceptsWell_of_ne (doReadDecoder_notAccepted x b n s)
  | setSpeaker a b d t i => exact acceptsWell_of_ne (doSetSpeaker_notAccepted x a b d t i s)
  | setCrossover b => exact acceptsWell_of_ne (doSetCrossover_notAccepted x b s)
  | readSpeakers n => exact acceptsWell_of_ne (notAccepted_read _ n _ s)
  | memoryStart b => exact doMemoryStart_accepts x b s
  | compactDelayMemory => exact doCompact_accepts x s
  | readSegmentTable n => exact acceptsWell_of_ne (notAccepted_read _ n _ s)
  | tune b f => exact doTune_accepts x b f s
  | stepTune b => exact doStepTune_accepts x b s
  | seek b => exact doSeek_accepts x b s
  | scan b => exact doScan_accepts x b s
  | setSeekThreshold b => exact acceptsWell_of_ne (doSetSeekThreshold_notAccepted x b s)
  | setRegion b => exact acceptsWell_of_ne (doSetRegion_notAccepted x b s)
  | readTuner n => exact acceptsWell_of_ne (notAccepted_read _ n _ s)
  | storePreset b => exact acceptsWell_of_ne (doStorePreset_notAccepted x b s)
  | recallPreset b => exact doRecallPreset_accepts x b s
  | clearPreset b => exact acceptsWell_of_ne (doClearPreset_notAccepted x b s)
  | readPresets b n => exact acceptsWell_of_ne (doReadPresets_notAccepted x b n s)
  | readStationList b n => exact acceptsWell_of_ne (doReadStationList_notAccepted x b n s)
  | recallStation b => exact doRecallStation_accepts x b s
  | _ => cases hc

/-! ### Members taken on arrival (R180, R182) -/

theorem execute_of_executes {x : Ctx} {h : FrameHead} {c : Cmd} {s u : State} {a : Answer}
    (he : executes x h c s a u) : execute x h c s = (a, u) := by
  obtain ⟨h1, h2⟩ := he
  by_cases hl : h.length = c.ownLength
  · rw [execute_of_length_eq x s hl, h1 hl]
  · obtain ⟨rfl, rfl⟩ := h2 hl
    rw [execute_of_length_ne x _ hl]
    rfl

theorem executes.kept {x : Ctx} {h : FrameHead} {c : Cmd} {s u : State} {a : Answer} (hc : c.isService = false)
    (he : executes x h c s a u) : portsKept s u := by
  obtain ⟨h1, h2⟩ := he
  by_cases hl : h.length = c.ownLength
  · have := runCmd_kept x s hc
    rwa [h1 hl] at this
  · obtain ⟨rfl, -⟩ := h2 hl
    exact .refl _

theorem executes.accepts {x : Ctx} {h : FrameHead} {c : Cmd} {s u : State} {a : Answer} (hc : c.isService = false)
    (he : executes x h c s a u) : acceptsWell x (a, u) := by
  obtain ⟨h1, h2⟩ := he
  by_cases hl : h.length = c.ownLength
  · have := runCmd_accepts x s hc
    rwa [h1 hl] at this
  · obtain ⟨-, rfl⟩ := h2 hl
    exact acceptsWell_of_ne (by simp)

/-- Settles O6. -/
theorem chainMovesWithMembers : Obligations.ChainMovesWithMembers := by
  intro p h c s u a hadmit hin hchain hex
  obtain ⟨-, -, hservice, -, -, hflags⟩ := id hadmit
  have hmark : markOf (s.port p).chain h = if h.flags = 1 then .member else .last := by
    rcases FrameHead.flags_cases hflags with hf | hf
    · have hopen : (s.port p).chain = .open := hchain.resolve_right fun hc => by simp [hf] at hc
      simp [markOf, hopen, memberMark, linkSet_of_zero hf, hf]
    · simp [markOf, memberMark, linkSet_of_one hf, hf]
  have hctx : s.ctx p h = { port := p, tag := h.tag, mark := if h.flags = 1 then .member else .last } := by
    rw [State.ctx, hmark]
  have hplace : s.place p h c =
      (u.reply p h c a).moveChain p (if h.flags = 1 then .member else .last) a.status := by
    have htake : s.takeNow p h c = (u.reply p h c a).moveChain p (if h.flags = 1 then .member else .last) a.status := by
      rw [State.takeNow, hctx, execute_of_executes hex]
    rcases hchain with hc | ⟨hc, -⟩ <;> simp [State.place, hin, hc, htake]
  obtain ⟨-, hatt, -, -, -, -, -, -, hnotify, -⟩ := hex.kept hservice p
  refine ⟨fun hacc => ⟨fun hf => ?_, fun hf => ?_⟩, fun hacc => ⟨?_, fun k hk => ?_⟩⟩
  · refine exec_placed hadmit (u := u.setPort p { u.port p with
      chain := if a.status = .done ∨ a.status = .doneNoChange ∨ a.status = .deferred then .open else .broken }) ?_
      (by simp [hnotify]) (fun e => by simp [hatt, e])
    rw [hplace, if_pos hf]
    simp [State.moveChain, hacc, ← Answer.isSuccess_iff, State.reply, State.answer]
  · refine ⟨u.endChain p, u.endChain_ended p, exec_placed hadmit ?_ ?_ fun e => ?_⟩
    · rw [hplace, if_neg (by simp [hf]), ← State.endChain_reply]
      simp [State.moveChain, hacc]
    · rw [State.endChain_port_self]; exact hnotify
    · rw [State.endChain_port_self]; exact hatt.trans e
  · refine exec_placed hadmit ?_ hnotify (fun e => hatt.trans e)
    rw [hplace, hacc]
    rfl
  · have hmarks : (if h.flags = 1 then ChainMark.member else .last) ≠ .none := by split <;> decide
    have hlink : ((if h.flags = 1 then ChainMark.member else .last) == .member) = decide (h.flags = 1) := by
      by_cases hf : h.flags = 1
      · rw [if_pos hf, decide_eq_true hf]; rfl
      · rw [if_neg hf, decide_eq_false hf]; rfl
    refine ⟨fun b hb hw => ?_, fun hb => ?_⟩
    · rcases hex.accepts hservice hacc k hk with ⟨⟨b', hb', -, h1, h2, h3, h4⟩, hh⟩ | ⟨hno, -⟩
      · obtain rfl : b = b' := Option.some.inj (hb.symm.trans hb')
        obtain ⟨hc, hhold⟩ := hh hmarks
        refine ⟨hc, ?_, h1, ?_, h3, h4⟩
        · exact hhold.trans (congrArg (fun l => some (HoldRec.mk k l)) hlink)
        · rw [h2]; exact bne_iff_ne.2 hmarks
      · exact absurd hw (hno b hb)
    · rcases hex.accepts hservice hacc k hk with ⟨⟨b', hb', hw, -⟩, -⟩ | ⟨-, hh⟩
      · exact absurd hw (hb b' hb')
      · obtain ⟨hhold, hc, hlast⟩ := hh hmarks
        refine ⟨hhold, ?_, fun hf => hlast (if_neg (by simp [hf]))⟩
        rw [hc]
        by_cases hf : h.flags = 1 <;> simp [hf]

/-! ### Queue heads (R181, R183) -/

/-- The port of a queued command has answered it. -/
def PortRec.repliedTo (r : PortRec) (h : FrameHead) (c : Cmd) (a : Answer) : PortRec :=
  { r with
    response := some { status := a.status, tag := h.tag, code := c.code, slot := a.slot, data := a.data }
    detail :=
      if a.status.writesDetail then
        some { status := a.status, code := c.code, tag := h.tag, param := a.param, residue := a.residue,
               reason := .none }
      else r.detail }

theorem State.reply_eq (s : State) (p : Port) (h : FrameHead) (c : Cmd) (a : Answer) :
    s.reply p h c a = s.setPort p ((s.port p).repliedTo h c a) := rfl

/-- A queue head that is taken: the command executed with its record, the answer, the chain's move. -/
theorem exec_queueHeadTaken {s : State} {p : Port} {q : QueuedCmd} {rest : List QueuedCmd}
    (hin : (s.port p).inbound = q :: rest) (hchain : (s.port p).chain = .none ∨ (s.port p).chain = .open)
    (hroom : (s.port p).completions.length < 8) :
    exec (.queueHeadTaken p) s = .next ((s.setInbound p rest).takeQueued p q) := by
  change Host.Outcome.next (s.takeHead p) = _
  unfold State.takeHead
  simp [hin, hchain, (s.hasRoom_iff p).2 hroom]

theorem State.runQueued_accepted {s u : State} {x : Ctx} {h : FrameHead} {c : Cmd} {a : Answer}
    (he : execute x h c s = (a, u)) (ha : a.status = .accepted) : s.runQueued x h c = (a, u) := by
  rw [State.runQueued, he]
  exact if_pos ha

theorem State.runQueued_room {s u : State} {x : Ctx} {h : FrameHead} {c : Cmd} {a : Answer}
    (he : execute x h c s = (a, u)) (ha : a.status ≠ .accepted) (hroom : (u.port x.port).completions.length < 8) :
    s.runQueued x h c = (a, u.post x.port (answerRecord h c x.mark a.status)) := by
  rw [State.runQueued, he]
  exact (if_neg ha).trans (if_pos ((u.hasRoom_iff _).2 hroom))

theorem State.runQueued_full {s u u' : State} {x : Ctx} {h : FrameHead} {c : Cmd} {a a' : Answer}
    (he : execute x h c s = (a, u)) (ha : a.status ≠ .accepted) (hfull : 8 ≤ (u.port x.port).completions.length)
    (he' : execute x h c (s.post x.port (answerRecord h c x.mark .done)) = (a', u')) :
    s.runQueued x h c = (a', u'.setRecord x.port (s.port x.port).completions.length
      (answerRecord h c x.mark a'.status)) := by
  rw [State.runQueued, he]
  refine (if_neg ha).trans ((if_neg fun h => ?_).trans ?_)
  · have := (u.hasRoom_iff x.port).1 h
    omega
  · rw [he']

/-- The record of a queued command with its answer. -/
theorem answerRecord_eq (h : FrameHead) (c : Cmd) (mark : ChainMark) (a : Answer) :
    answerRecord h c mark a.status =
      { tag := h.tag, code := c.code
        status := if a.status = .done ∨ a.status = .doneNoChange ∨ a.status = .deferred then .done else .failed
        slot := none, mark := mark, result := [a.status.code], heldBack := mark != .none } := by
  rw [answerRecord]
  by_cases hs : a.status.isSuccess = true
  · rw [if_pos hs, if_pos (a.isSuccess_iff.1 hs)]
  · rw [if_neg hs, if_neg fun h => hs (a.isSuccess_iff.2 h)]

/-- What an answered queue head leaves of its port, by its chain mark. -/
theorem State.moveChain_replied (u : State) (p : Port) (h : FrameHead) (c : Cmd) (a : Answer)
    (records : List Completion) (mark : ChainMark) (ha : a.status ≠ .accepted) :
    let taken : PortRec := { (u.port p).repliedTo h c a with completions := records }
    let t := ((u.setPort p { u.port p with completions := records }).reply p h c a).moveChain p mark a.status
    (mark = .none → t = u.setPort p taken) ∧
    (mark = .member → t = u.setPort p { taken with
      chain := if a.status = .done ∨ a.status = .doneNoChange ∨ a.status = .deferred then .open else .broken }) ∧
    (mark = .last → chainEnded (u.setPort p taken) t p) := by
  intro taken t
  have hreply : (u.setPort p { u.port p with completions := records }).reply p h c a = u.setPort p taken := by
    rw [State.reply_eq, State.port_setPort_self, State.setPort_setPort]
    rfl
  have ht : t = (u.setPort p taken).moveChain p mark a.status := congrArg (State.moveChain · p mark a.status) hreply
  rw [ht, State.moveChain.eq_def, if_neg ha]
  refine ⟨?_, ?_, ?_⟩ <;> rintro rfl
  · rfl
  · simp [← Answer.isSuccess_iff]
  · exact State.endChain_ended _ p

theorem markOf_eq {s : State} {p : Port} {h : FrameHead}
    (hchain : (s.port p).chain = .none ∨ (s.port p).chain = .open) (hflags : h.flags.toNat < 2) :
    markOf (s.port p).chain h =
      if h.flags = 1 then .member else if (s.port p).chain = .open then .last else .none := by
  rcases FrameHead.flags_cases hflags with hf | hf <;> rcases hchain with hc | hc <;>
    simp [markOf, memberMark, hf, hc, linkSet]

/-- A discarded queue head leaves one record, and ends the chain where LINK was clear (R183). -/
theorem exec_chainMemberDiscarded {s : State} {p : Port} {q : QueuedCmd} {rest : List QueuedCmd}
    (hin : (s.port p).inbound = q :: rest) (hchain : (s.port p).chain = .broken)
    (hroom : (s.port p).completions.length < 8) :
    exec (.chainMemberDiscarded p) s = .next ((s.setInbound p rest).discard p q.head q.cmd) := by
  change Host.Outcome.next (s.discardHead p) = _
  unfold State.discardHead
  simp [hin, hchain, (s.hasRoom_iff p).2 hroom]

/-- Settles O8. -/
theorem queueHeadsTakenAndDiscarded : Obligations.QueueHeadsTakenAndDiscarded := by
  refine ⟨fun p s => ⟨?_, fun hno => ?_⟩, fun p s => ⟨fun q rest hin hc hroom => ⟨fun hf => ?_, fun hf => ?_⟩, fun hno => ?_⟩⟩
  · intro q rest a u hin hchain hflags hroom mark x s' good record hex answered gives
    have hexec := exec_queueHeadTaken hin hchain hroom
    have hctx : s'.ctx p q.head = x := by
      have : (s'.port p).chain = (s.port p).chain := by simp [s']
      rw [State.ctx, this, markOf_eq hchain hflags]
    have hexec' : exec (.queueHeadTaken p) s = .next (((s'.runQueued x q.head q.cmd).2.reply p q.head q.cmd
        (s'.runQueued x q.head q.cmd).1).moveChain p mark (s'.runQueued x q.head q.cmd).1.status) := by
      rw [hexec]
      change Host.Outcome.next (s'.takeQueued p q) = _
      unfold State.takeQueued
      rw [hctx]
    have hgives (a : Answer) (u : State) (records : List Completion) (ha : a.status ≠ .accepted)
        (hrun : s'.runQueued x q.head q.cmd = (a, u.setPort p { u.port p with completions := records })) :
        gives a u records := by
      rw [hrun] at hexec'
      obtain ⟨h1, h2, h3⟩ := u.moveChain_replied p q.head q.cmd a records mark ha
      exact ⟨fun hm => hexec'.trans (congrArg _ (h1 hm)), fun hm => hexec'.trans (congrArg _ (h2 hm)),
        fun hm => ⟨_, hexec', h3 hm⟩⟩
    refine ⟨fun ha => ?_, fun ha hlen => ?_, fun ha hlen a' u' hex' ha' => ?_⟩
    · rw [hexec', State.runQueued_accepted (execute_of_executes hex) ha]
      rw [ha]
      rfl
    · refine hgives a u _ ha ((State.runQueued_room (execute_of_executes hex) ha hlen).trans ?_)
      rw [answerRecord_eq]
      rfl
    · have hex2 := execute_of_executes hex'
      have hdone : answerRecord q.head q.cmd x.mark .done = record (Answer.plain .done) :=
        answerRecord_eq q.head q.cmd x.mark (Answer.plain .done)
      have hplace : (s'.port p).completions = (s.port p).completions := by simp [s']
      rw [← hplace] at hex2 ⊢
      rw [← hdone] at hex2
      refine hgives a' u' _ ha' ((State.runQueued_full (execute_of_executes hex) ha hlen hex2).trans ?_)
      rw [answerRecord_eq]
      rfl
  · change Host.Outcome.next (s.takeHead p) = _
    unfold State.takeHead
    dsimp only
    split
    · rfl
    · next hin =>
      refine congrArg _ (if_neg ?_)
      rw [s.hasRoom_iff]
      rintro ⟨hc, hroom⟩
      rcases hno with h | h | h | h
      · simp [h] at hin
      · simp [h] at hc
      · simp [h] at hc
      · omega
  · rw [exec_chainMemberDiscarded hin hc hroom]
    simp [State.discard, linkSet_of_one hf, State.post, State.setInbound, discardRecord, memberMark]
  · rw [exec_chainMemberDiscarded hin hc hroom]
    refine ⟨_, rfl, ?_⟩
    obtain ⟨h1, h2, -, h4⟩ := ((s.setInbound p rest).post p (discardRecord q.head q.cmd)).endChain_ended p
    have hdiscard : (s.setInbound p rest).discard p q.head q.cmd =
        ((s.setInbound p rest).post p (discardRecord q.head q.cmd)).endChain p := by
      simp [State.discard, linkSet_of_zero hf]
    rw [hdiscard]
    refine ⟨?_, fun r hr => ?_, ?_⟩
    · rw [h1]
      simp [State.post, State.setInbound, discardRecord, memberMark, linkSet_of_zero hf]
    · rw [h2 r hr]
      simp [State.post, State.setInbound, State.port_setPort_ne _ _ hr]
    · have hports : onlyChanges [.ports, .slots] s ((s.setInbound p rest).post p (discardRecord q.head q.cmd)) :=
        ((onlyChanges_setPort s p _).mono : onlyChanges [.ports, .slots] _ _).trans (onlyChanges_setPort _ p _).mono
      exact hports.trans h4
  · change Host.Outcome.next (s.discardHead p) = _
    unfold State.discardHead
    dsimp only
    split
    · rfl
    · next hin =>
      refine congrArg _ (if_neg ?_)
      rw [s.hasRoom_iff]
      rintro ⟨hc, hroom⟩
      rcases hno with h | h | h
      · simp [h] at hin
      · exact h hc
      · omega

end Sys2Proof.Machine
end

section
/-! PROOFS. The reset of a port (R191, R205): its waiting slots post, in their order, into the emptied queue. -/

open Sys2Proof Sys2Proof.Machine

namespace Sys2Proof.Machine

/-! ### Waiting slots post one by one (R196, R205) -/

/-- The slots of port `p` that wait with a record. -/
def State.waitingSlots (s : State) (p : Port) : Finset (Fin 8) :=
  Finset.univ.filter fun k => (waitOrder p (s.slot k)).isSome

theorem State.mem_waitingSlots {s : State} {p : Port} {k : Fin 8} :
    k ∈ s.waitingSlots p ↔ ∃ b r n, s.waitsAt p k b r n := by
  rw [State.waitingSlots, Finset.mem_filter, Option.isSome_iff_exists]
  simp only [waitOrder_eq_some, Finset.mem_univ, true_and]
  exact ⟨fun ⟨n, b, r, h⟩ => ⟨b, r, n, h⟩, fun ⟨b, r, n, h⟩ => ⟨n, b, r, h⟩⟩

/-- What posts of waiting slots of port `p` change. -/
structure Posts (p : Port) (s t : State) : Prop where
  own : t.port p = { s.port p with completions := (t.port p).completions }
  others : ∀ q, q ≠ p → t.port q = s.port q
  slots : ∀ k, t.slot k = s.slot k ∨ (k ∈ s.waitingSlots p ∧ t.slot k = none)
  only : onlyChanges [.ports, .slots] s t

theorem Posts.refl (p : Port) (s : State) : Posts p s s :=
  ⟨rfl, fun _ _ => rfl, fun _ => .inl rfl, onlyChanges_refl _ s⟩

theorem Posts.waiting_subset {p : Port} {s t : State} (h : Posts p s t) : t.waitingSlots p ⊆ s.waitingSlots p := by
  intro k hk
  rcases h.slots k with e | ⟨hk', -⟩
  · rw [State.mem_waitingSlots] at hk ⊢
    obtain ⟨b, r, n, h1, h2⟩ := hk
    exact ⟨b, r, n, e ▸ h1, h2⟩
  · exact hk'

theorem Posts.trans {p : Port} {s t u : State} (h1 : Posts p s t) (h2 : Posts p t u) : Posts p s u where
  own := by rw [h2.own, h1.own]
  others := fun q hq => (h2.others q hq).trans (h1.others q hq)
  slots := fun k => by
    rcases h2.slots k with e | ⟨hk, e⟩
    · rw [e]; exact h1.slots k
    · exact .inr ⟨h1.waiting_subset hk, e⟩
  only := h1.only.trans h2.only

/-- A waiting slot is found when there is one. -/
theorem State.firstWaiting_mem {s : State} {p : Port} (h : (s.waitingSlots p).Nonempty) :
    ∃ k b r n, s.firstWaiting p = some (k, b, r, n) ∧ s.waitsAt p k b r n := by
  have key : ∀ (l : List (Fin 8)) (best : Option (Fin 8 × SlotBody × Completion × Nat)),
      (∀ k b r n, best = some (k, b, r, n) → s.waitsAt p k b r n) →
      (best ≠ none ∨ ∃ k, k ∈ l ∧ k ∈ s.waitingSlots p) →
      ∃ k b r n, l.foldl (s.earlier p) best = some (k, b, r, n) ∧ s.waitsAt p k b r n := by
    intro l
    induction l with
    | nil =>
      rintro best hbest (hne | ⟨k, hk, -⟩)
      · obtain ⟨⟨k, b, r, n⟩, rfl⟩ := Option.ne_none_iff_exists'.1 hne
        exact ⟨k, b, r, n, rfl, hbest _ _ _ _ rfl⟩
      · cases hk
    | cons j l ih =>
      intro best hbest hex
      rw [List.foldl_cons]
      by_cases hj : ∃ b r n, s.waitsAt p j b r n
      · obtain ⟨b, r, n, hw⟩ := hj
        have hstep : s.earlier p best j = some (j, b, r, n) ∨ (s.earlier p best j = best ∧ best ≠ none) := by
          rw [State.earlier_of_waitsAt hw]
          split
          · split
            · exact .inl rfl
            · exact .inr ⟨rfl, Option.some_ne_none _⟩
          · exact .inl rfl
        rcases hstep with e | ⟨e, hne⟩
        · rw [e]
          refine ih _ (fun k' b' r' n' e' => ?_) (.inl (Option.some_ne_none _))
          cases e'
          exact hw
        · rw [e]; exact ih _ hbest (.inl hne)
      · rw [State.earlier_of_not_waiting (fun b r n hw => hj ⟨b, r, n, hw⟩)]
        refine ih _ hbest (hex.imp_right ?_)
        rintro ⟨k, hk, hkw⟩
        refine ⟨k, (List.mem_cons.1 hk).resolve_left ?_, hkw⟩
        rintro rfl
        exact hj (State.mem_waitingSlots.1 hkw)
  obtain ⟨k, hk⟩ := h
  have hall : ∀ k, k ∈ allSlots := by decide
  rw [State.firstWaiting_eq]
  exact key allSlots none (fun _ _ _ _ e => by cases e) (.inr ⟨k, hall k, hk⟩)

/-- With room a waiting slot posts, and one slot fewer waits. -/
theorem State.postWaiting_spec {s : State} {p : Port} (hroom : (s.port p).completions.length < 8)
    (h : (s.waitingSlots p).Nonempty) :
    Posts p s (s.postWaiting p) ∧ ((s.postWaiting p).waitingSlots p).card + 1 = (s.waitingSlots p).card ∧
    ((s.postWaiting p).port p).completions.length = (s.port p).completions.length + 1 := by
  obtain ⟨k, b, r, n, hfirst, hw⟩ := State.firstWaiting_mem h
  have hk : k ∈ s.waitingSlots p := State.mem_waitingSlots.2 ⟨b, r, n, hw⟩
  have hpost : s.postWaiting p = (s.setPort p { s.port p with
      completions := (s.port p).completions ++ [{ r with heldBack := b.inChain }] }).setSlot k none := by
    rw [State.postWaiting, if_pos ((s.hasRoom_iff p).2 hroom), hfirst]
    rfl
  have hrest : (s.postWaiting p).waitingSlots p = (s.waitingSlots p).erase k := by
    ext j
    rw [Finset.mem_erase, State.mem_waitingSlots, State.mem_waitingSlots, hpost]
    by_cases hj : j = k
    · subst hj
      simp [State.waitsAt]
    · simp [State.waitsAt, State.slot_setSlot_ne _ none hj, hj]
  refine ⟨⟨?_, fun q hq => ?_, fun j => ?_, ?_⟩, ?_, ?_⟩
  · rw [hpost]; simp
  · rw [hpost, State.setSlot_port, State.port_setPort_ne _ _ hq]
  · rw [hpost]
    by_cases hj : j = k
    · subst hj; exact .inr ⟨hk, State.slot_setSlot_self _ j none⟩
    · exact .inl (State.slot_setSlot_ne _ none hj)
  · exact (s.postWaiting_frame p).1.mono
  · rw [hrest]; exact Finset.card_erase_add_one hk
  · rw [hpost]; simp

theorem State.postWaiting_of_empty {s : State} {p : Port} (h : s.waitingSlots p = ∅) : s.postWaiting p = s := by
  refine State.postWaiting_of_none fun k b r n hw => ?_
  have : k ∈ s.waitingSlots p := State.mem_waitingSlots.2 ⟨b, r, n, hw⟩
  rw [h] at this
  cases this

/-- Enough posts, with room for them all, leave no slot waiting. -/
theorem State.posts_all (p : Port) (l : List (Fin 8)) (s : State) (hl : (s.waitingSlots p).card ≤ l.length)
    (hroom : (s.port p).completions.length + (s.waitingSlots p).card ≤ 8) :
    Posts p s (l.foldl (fun s _ => s.postWaiting p) s) ∧
    (l.foldl (fun s _ => s.postWaiting p) s).waitingSlots p = ∅ := by
  induction l generalizing s with
  | nil => exact ⟨.refl p s, Finset.card_eq_zero.1 (Nat.le_zero.1 hl)⟩
  | cons j l ih =>
    rw [List.foldl_cons]
    rcases (s.waitingSlots p).eq_empty_or_nonempty with he | hne
    · rw [State.postWaiting_of_empty he]
      exact ih s (by simp [he]) hroom
    · have hpos := hne.card_pos
      obtain ⟨h1, h2, h3⟩ := State.postWaiting_spec (by omega) hne
      obtain ⟨h4, h5⟩ := ih (s.postWaiting p) (by simp only [List.length_cons] at hl; omega) (by omega)
      exact ⟨h1.trans h4, h5⟩

/-- The records of the waiting slots, listed in their order, enter the queue in that order. -/
theorem State.posts_in_order (p : Port) (steps : List (Fin 8)) (l : List (Fin 8 × Completion × Nat)) (s : State)
    (hmem : ∀ x, x ∈ l ↔ ∃ b, s.waitsAt p x.1 b x.2.1 x.2.2) (hsorted : l.Pairwise (fun x y => x.2.2 < y.2.2))
    (hfree : ∀ k b r n, s.waitsAt p k b r n → b.inChain = false) (hlen : l.length ≤ steps.length)
    (hroom : (s.port p).completions.length + l.length ≤ 8) :
    ((steps.foldl (fun s _ => s.postWaiting p) s).port p).completions =
      (s.port p).completions ++ l.map (fun x => { x.2.1 with heldBack := false }) := by
  induction steps generalizing l s with
  | nil =>
    obtain rfl := List.eq_nil_of_length_eq_zero (Nat.le_zero.1 hlen)
    simp
  | cons j steps ih =>
    rw [List.foldl_cons]
    cases l with
    | nil =>
      have hnone : ∀ k b r n, ¬ s.waitsAt p k b r n := fun k b r n hw => by
        simpa using (hmem (k, r, n)).2 ⟨b, hw⟩
      rw [State.postWaiting_of_none hnone]
      exact ih [] s hmem hsorted hfree (Nat.zero_le _) hroom
    | cons x l =>
      obtain ⟨k, r, n⟩ := x
      obtain ⟨b, hw⟩ := (hmem (k, r, n)).1 List.mem_cons_self
      obtain ⟨hfirst, hsorted⟩ := List.pairwise_cons.1 hsorted
      simp only [List.length_cons] at hlen hroom
      have hmin : ∀ j b' r' m, s.waitsAt p j b' r' m → j ≠ k → n < m := by
        intro j b' r' m hw' hj
        rcases List.mem_cons.1 ((hmem (j, r', m)).2 ⟨b', hw'⟩) with e | hl
        · exact absurd (congrArg Prod.fst e) hj
        · exact hfirst _ hl
      rw [State.postWaiting_of_earliest (by omega) hw hmin]
      have hslot (i : Fin 8) : ((s.setPort p { s.port p with
          completions := (s.port p).completions ++ [{ r with heldBack := b.inChain }] }).setSlot k none).slot i =
          if i = k then none else s.slot i := by
        by_cases hi : i = k
        · subst hi; rw [State.slot_setSlot_self, if_pos rfl]
        · rw [State.slot_setSlot_ne _ none hi, if_neg hi]; rfl
      have hwaits (i : Fin 8) (b' : SlotBody) (r' : Completion) (m : Nat) :
          ((s.setPort p { s.port p with
            completions := (s.port p).completions ++ [{ r with heldBack := b.inChain }] }).setSlot k none).waitsAt
            p i b' r' m ↔ i ≠ k ∧ s.waitsAt p i b' r' m := by
        rw [State.waitsAt, hslot]
        by_cases hi : i = k
        · simp [hi]
        · simp [hi, State.waitsAt]
      rw [ih l _ (fun y => ?_) hsorted (fun i b' r' m h => hfree i b' r' m ((hwaits i b' r' m).1 h).2) (by omega)
        (by simp; omega)]
      · simp [hfree k b r n hw]
      · simp only [hwaits]
        constructor
        · intro hy
          obtain ⟨b', hb'⟩ := (hmem y).1 (List.mem_cons_of_mem _ hy)
          refine ⟨b', ?_, hb'⟩
          intro hyk
          obtain ⟨h1, -, h3⟩ := hw
          obtain ⟨h1', -, h3'⟩ := hb'
          rw [hyk, h1] at h1'
          obtain rfl := Option.some.inj h1'
          rw [h3] at h3'
          have hlt := hfirst y hy
          rw [show y.2.2 = n from (congrArg Prod.snd (Option.some.inj h3')).symm] at hlt
          exact Nat.lt_irrefl n hlt
        · rintro ⟨b', hyk, hb'⟩
          rcases List.mem_cons.1 ((hmem y).2 ⟨b', hb'⟩) with e | hy
          · exact absurd (congrArg Prod.fst e) hyk
          · exact hy

/-! ### PORT_RESET (R191, R205) -/

/-- A port's reset up to the posts of its waiting slots. -/
def State.portCleared (s : State) (p : Port) : State :=
  (s.setPort p { PortRec.reset .portReset with prst := true }).endSlotChains p

theorem State.portCleared_port_self (s : State) (p : Port) :
    (s.portCleared p).port p = { PortRec.reset .portReset with prst := true } := by
  rw [State.portCleared, State.endSlotChains_port, State.port_setPort_self]

theorem State.portCleared_slot (s : State) (p : Port) (k : Fin 8) :
    (s.portCleared p).slot k = (s.slot k).map (SlotBody.unchained p) := by
  rw [State.portCleared, State.endSlotChains_slot, State.setPort_slot]

theorem SlotBody.unchained_of_eq {p : Port} {b : SlotBody} (h : b.port = p) :
    b.unchained p = { b with inChain := false } := if_pos h

theorem SlotBody.unchained_of_ne {p : Port} {b : SlotBody} (h : b.port ≠ p) : b.unchained p = b := if_neg h

theorem State.portCleared_waitsAt {s : State} {p : Port} {k : Fin 8} {b : SlotBody} {r : Completion} {n : Nat} :
    (s.portCleared p).waitsAt p k b r n ↔
      ∃ b', s.slot k = some b' ∧ b'.port = p ∧ b'.waiting = some (r, n) ∧ b = { b' with inChain := false } := by
  rw [State.waitsAt, State.portCleared_slot]
  constructor
  · rintro ⟨h1, h2, h3⟩
    obtain ⟨b', hb', rfl⟩ := Option.map_eq_some_iff.1 h1
    by_cases hp : b'.port = p
    · rw [SlotBody.unchained_of_eq hp] at h3 ⊢
      exact ⟨b', hb', hp, h3, rfl⟩
    · rw [SlotBody.unchained_of_ne hp] at h2
      exact absurd h2 hp
  · rintro ⟨b', hb', hp, hw, rfl⟩
    exact ⟨by rw [hb', Option.map_some, SlotBody.unchained_of_eq hp], hp, hw⟩

/-- Settles O12. -/
theorem portResetReachesItsPortAlone : Obligations.PortResetReachesItsPortAlone := by
  intro p s
  refine ⟨⟨s.portResets p, rfl, ?_⟩, rfl⟩
  have hport := s.portCleared_port_self p
  have hcard : ((s.portCleared p).waitingSlots p).card ≤ 8 := Finset.card_le_univ _
  have hempty : ((s.portCleared p).port p).completions.length = 0 := by rw [hport]; rfl
  obtain ⟨hposts, hdone⟩ := State.posts_all p allSlots (s.portCleared p) hcard (by omega)
  have ht : s.portResets p = allSlots.foldl (fun s _ => s.postWaiting p) (s.portCleared p) := rfl
  rw [← ht] at hposts hdone
  have hown := hposts.own
  rw [hport] at hown
  have hslot (k : Fin 8) (b : SlotBody) (hk : s.slot k = some b) (hno : b.port ≠ p ∨ b.waiting = none) :
      (s.portResets p).slot k = some (b.unchained p) := by
    rcases hposts.slots k with e | ⟨hw, -⟩
    · rw [e, State.portCleared_slot, hk]; rfl
    · obtain ⟨_, r, n, hw⟩ := State.mem_waitingSlots.1 hw
      obtain ⟨b', hb', hp, hw', -⟩ := State.portCleared_waitsAt.1 hw
      obtain rfl := Option.some.inj (hk.symm.trans hb')
      rcases hno with h | h
      · exact absurd hp h
      · cases h.symm.trans hw'
  have hreset : PortRec.reset .portReset = { PortRec.reset .portReset with completions := [] } := rfl
  refine ⟨?_, ?_, ?_, ?_, ?_, ?_, ?_, ?_, ?_, fun l hl hsorted => ?_, fun k b hk hp hw => ?_, fun k b hk hp hw => ?_,
    fun k b hk hp => ?_, fun q hq => ?_, ?_⟩
  · rw [hown]; rfl
  · rw [hown]; rfl
  · rw [hown]; rfl
  · rw [hown]; rfl
  · rw [hown]; rfl
  · rw [hown]; rfl
  · rw [hown]; rfl
  · rw [hown]
  · rw [hown]; rfl
  · have hmem : ∀ x, x ∈ l ↔ ∃ b, (s.portCleared p).waitsAt p x.1 b x.2.1 x.2.2 := fun x => by
      rw [hl x]
      exact ⟨fun ⟨b, h1, h2, h3⟩ => ⟨_, State.portCleared_waitsAt.2 ⟨b, h1, h2, h3, rfl⟩⟩,
        fun ⟨_, hb⟩ => by
          obtain ⟨b', h1, h2, h3, -⟩ := State.portCleared_waitsAt.1 hb
          exact ⟨b', h1, h2, h3⟩⟩
    have hnodup : (l.map Prod.fst).Nodup := by
      refine (List.pairwise_map.2 (hsorted.imp_of_mem fun {x y} hx hy hlt he => ?_))
      obtain ⟨b, h1, -, h3⟩ := (hl x).1 hx
      obtain ⟨b', h1', -, h3'⟩ := (hl y).1 hy
      rw [← he, h1] at h1'
      obtain rfl := Option.some.inj h1'
      rw [h3] at h3'
      rw [Option.some.inj h3'] at hlt
      exact Nat.lt_irrefl _ hlt
    have hlen : l.length ≤ 8 := by
      have := hnodup.length_le_card
      simpa using this
    have := State.posts_in_order p allSlots l (s.portCleared p) hmem hsorted (fun k b r n hw => by
      obtain ⟨b', -, -, -, rfl⟩ := State.portCleared_waitsAt.1 hw
      rfl) hlen (by omega)
    rw [ht, this, List.eq_nil_of_length_eq_zero hempty, List.nil_append]
  · rw [hslot k b hk (.inr hw), SlotBody.unchained_of_eq hp]
  · obtain ⟨⟨r, n⟩, hw⟩ := Option.ne_none_iff_exists'.1 hw
    have hmem : k ∈ (s.portCleared p).waitingSlots p :=
      State.mem_waitingSlots.2 ⟨_, r, n, State.portCleared_waitsAt.2 ⟨b, hk, hp, hw, rfl⟩⟩
    rcases hposts.slots k with e | ⟨-, e⟩
    · have : k ∈ (s.portResets p).waitingSlots p := by
        rw [State.mem_waitingSlots] at hmem ⊢
        obtain ⟨b', r', n', h1, h2⟩ := hmem
        exact ⟨b', r', n', e.trans h1, h2⟩
      rw [hdone] at this
      cases this
    · exact e
  · rw [hslot k b hk (.inl hp), SlotBody.unchained_of_ne hp]
  · rw [hposts.others q hq, State.portCleared, State.endSlotChains_port, State.port_setPort_ne _ _ hq]
  · have hcleared : onlyChanges [.ports, .slots] s (s.portCleared p) :=
      ((onlyChanges_setPort s p _).mono : onlyChanges [.ports, .slots] _ _).trans (State.endSlotChains_frame _ p).1.mono
    exact hcleared.trans hposts.only

end Sys2Proof.Machine
end

section
/-! PROOFS. What the read commands answer, and every byte of it (R188; O11). -/

open Sys2Proof Sys2Proof.Machine

namespace Sys2Proof.Machine

/-! ### The residue rule -/

/-- The count asked for stands in the last parameter of a read command. -/
def countIndex : Cmd → Byte
  | .readZone _ _ => 1
  | .readOverrideStack _ _ => 1
  | .readInput _ _ => 1
  | .readDecoder _ _ => 1
  | .readPresets _ _ => 1
  | .readStationList _ _ => 1
  | _ => 0

/-- A read command that names something answers its bytes under the residue rule, and changes nothing. -/
theorem runCmd_read {s : State} {c : Cmd} {bytes : List Byte} {count : Half} (x : Ctx)
    (hr : readOf s x.port c = some (bytes, count)) :
    runCmd x c s = (readCommand (countIndex c) count bytes, s) := by
  cases c
  case readZone code _ =>
    obtain ⟨z, hz, hb⟩ := Option.map_eq_some_iff.1 hr
    cases hb
    exact withZone_some _ _ hz
  case readOverrideStack code _ =>
    obtain ⟨z, hz, hb⟩ := Option.map_eq_some_iff.1 hr
    cases hb
    exact withZone_some _ _ hz
  case readInput input _ =>
    obtain ⟨is, his, hb⟩ := Option.map_eq_some_iff.1 hr
    cases hb
    simp [runCmd, doReadInput, his, countIndex]
  case readDecoder clear _ =>
    simp only [readOf, Option.ite_none_right_eq_some, Option.some.injEq, Prod.mk.injEq] at hr
    obtain ⟨rfl, rfl, rfl⟩ := hr
    have hclear : flagOf 0 = some false := rfl
    simp only [runCmd, doReadDecoder, hclear, readCommand, countIndex]
    split <;> rfl
  case readPresets first _ =>
    obtain ⟨n, hn, hb⟩ := Option.map_eq_some_iff.1 hr
    cases hb
    simp [runCmd, doReadPresets, hn, countIndex]
  case readStationList first _ =>
    simp only [readOf, Option.ite_none_left_eq_some, Option.some.injEq, Prod.mk.injEq] at hr
    obtain ⟨hle, rfl, rfl⟩ := hr
    simp [runCmd, doReadStationList, hle, countIndex]
  all_goals cases hr
  all_goals rfl

theorem taken_attention {s : State} {p : Port} {h : FrameHead} {c : Cmd} (ht : taken s p h c) :
    (s.port p).attention = none := by
  unfold taken at ht
  split at ht
  · exact ht.2.1
  · exact ht.2.1

/-- A read command that its port takes. -/
theorem exec_read {s : State} {p : Port} {h : FrameHead} {c : Cmd} {bytes : List Byte} {count : Half}
    (ht : taken s p h c) (hr : readOf s p c = some (bytes, count)) :
    exec (rowOf p h c) s = .next (s.closed p h c (readCommand (countIndex c) count bytes)) :=
  exec_taken ht (runCmd_read (unlinked p h) hr) rfl (taken_attention ht)

/-! ### Codes and fields -/

theorem natBytes_eq (n : Nat) : natBytes n = [BitVec.ofNat 8 (n / 256), BitVec.ofNat 8 n] := by
  have hhi : (BitVec.ofNat 16 n).extractLsb' 8 8 = BitVec.ofNat 8 (n / 256) :=
    BitVec.eq_of_toNat_eq (by simp [BitVec.extractLsb'_toNat, Nat.shiftRight_eq_div_pow]; omega)
  have hlo : (BitVec.ofNat 16 n).extractLsb' 0 8 = BitVec.ofNat 8 n :=
    BitVec.eq_of_toNat_eq (by simp [BitVec.extractLsb'_toNat])
  rw [natBytes, halfBytes, hhi, hlo]

theorem halfBytes_eq (h : Half) : halfBytes h = [BitVec.ofNat 8 (h.toNat / 256), BitVec.ofNat 8 h.toNat] := by
  rw [← natBytes_eq, natBytes, BitVec.ofNat_toNat, BitVec.setWidth_eq]

section Codes

theorem placeIn_zone (z : Zone) : placeIn [.main, .z2, .z3] z = z.code := by cases z <;> rfl
theorem placeIn_port (p : Port) : placeIn [.a, .b, .c] p = p.code := by cases p <;> rfl
theorem placeIn_power (x : Power) : placeIn [.standby, .waking, .on, .quieting] x = x.code := by cases x <;> rfl
theorem placeIn_status (x : SourceStatus) : placeIn [.playing, .noSignal, .unavailable] x = x.code := by
  cases x <;> rfl
theorem placeIn_mode (x : SurroundMode) : placeIn [.direct, .stereo, .matrix, .allStereo] x = x.code := by
  cases x <;> rfl
theorem placeIn_pending : placeIn [.on, .standby] = PendingPower.code := by funext x; cases x <;> rfl
theorem placeIn_flag : placeIn [false, true] = boolByte := by funext b; cases b <;> rfl
theorem placeIn_present (b : Bool) : placeIn [true, false] b = presentCode b := by cases b <;> rfl
theorem placeIn_mainRole (x : MainRole) : placeIn [.none, .bl, .br, .hl, .hr] x = x.code := by cases x <;> rfl
theorem placeIn_remoteRole (x : RemoteRole) : placeIn [.none, .z2l, .z2r, .z3l, .z3r] x = x.code := by
  cases x <;> rfl
theorem placeIn_priority (x : Priority) : placeIn [.mainFirst, .remoteFirst] x = x.code := by cases x <;> rfl
theorem placeIn_level (x : ActiveLevel) : placeIn [.low, .high] x = x.code := by cases x <;> rfl
theorem placeIn_input (x : InputState) : placeIn [.noSignal, .locking, .pcm2, .pcmn, .packed] x = x.code := by
  cases x <;> rfl
theorem placeIn_decoder (x : DecoderState) : placeIn [.idle, .searching, .locked, .concealing] x = x.code := by
  cases x <;> rfl
theorem placeIn_frameError (x : FrameError) :
    placeIn [.none, .sync, .lengthRange, .rate, .blocks, .mask, .downmix, .width, .lengthMismatch, .check] x =
      x.code := by cases x <;> rfl
theorem placeIn_size (x : SpeakerSize) : placeIn [.large, .small, .none] x = x.code := by cases x <;> rfl
theorem placeIn_memory (x : MemoryState) : placeIn [.uninit, .initializing, .ready, .fault] x = x.code := by
  cases x <;> rfl
theorem placeIn_change (x : ChangeKind) : placeIn [.retime, .shrink, .grow, .relocate] x + 1 = x.code := by
  cases x <;> rfl
theorem placeIn_stage (x : MoveStage) : placeIn [.ramp, .copy] x + 5 = if x = .ramp then 5 else 6 := by
  cases x <;> rfl
theorem placeIn_band (x : Band) : placeIn [.fm, .am] x = x.code := by cases x <;> rfl
theorem placeIn_region (x : Region) : placeIn [.nine, .ten] x = x.code := by cases x <;> rfl
theorem placeIn_tuner (x : TunerState) : placeIn [.parked, .settling, .idle, .seeking, .scanning] x = x.code := by
  cases x <;> rfl
theorem placeIn_blend (x : Blend) : placeIn [.stereo, .mono] x = x.code := by cases x <;> rfl
theorem placeIn_opKind (x : TunerOpKind) : placeIn [.tune, .stepTune, .seek, .scan] x = x.code := by cases x <;> rfl
theorem placeIn_label (x : LabelState) : placeIn [.none, .partly, .complete] x = x.code := by cases x <;> rfl
theorem placeIn_mark (x : ChainMark) : placeIn [.none, .member, .last] x = x.code := by cases x <;> rfl
theorem placeIn_slotKind (x : SlotKind) :
    placeIn [.zoneOn, .zoneStandby, .memoryStart, .compact, .tune, .stepTune, .seek, .scan, .recallStation,
      .recallPreset] x = x.code := by cases x <;> rfl

end Codes

/-! ### Fields in a record -/

theorem fieldsAt_of_append (pre fields post : List Byte) : fieldsAt (pre ++ (fields ++ post)) pre.length fields := by
  simp [fieldsAt]

theorem fieldsAt_zero (fields post : List Byte) : fieldsAt (fields ++ post) 0 fields := fieldsAt_of_append [] fields post

/-- The bytes of the records of a list, every record having `n` bytes. -/
theorem length_flatten_of_length {α : Type} (f : α → List Byte) {n : Nat} {l : List α}
    (h : ∀ x ∈ l, (f x).length = n) : (l.map f).flatten.length = n * l.length := by
  induction l with
  | nil => rfl
  | cons x l ih =>
    rw [List.map_cons, List.flatten_cons, List.length_append, h x List.mem_cons_self,
      ih fun y hy => h y (List.mem_cons_of_mem _ hy), List.length_cons]
    ring

/-- The record at place `k` of a list stands `n * k` bytes after the first, every record having `n` bytes. -/
theorem fieldsAt_flatten {α : Type} (f : α → List Byte) (n : Nat) (pre post : List Byte) {l : List α} {k : Nat} {x : α}
    (h : ∀ y ∈ l, (f y).length = n) (hx : l[k]? = some x) :
    fieldsAt (pre ++ ((l.map f).flatten ++ post)) (pre.length + n * k) (f x) := by
  induction l generalizing pre k with
  | nil => cases hx
  | cons y l ih =>
    cases k with
    | zero =>
      obtain rfl : y = x := Option.some.inj hx
      simpa [List.append_assoc] using fieldsAt_of_append pre (f y) ((l.map f).flatten ++ post)
    | succ k =>
      have hrest := ih (pre ++ f y) (fun z hz => h z (List.mem_cons_of_mem _ hz)) hx
      have hlen : (pre ++ f y).length + n * k = pre.length + n * (k + 1) := by
        rw [List.length_append, h y List.mem_cons_self]
        ring
      rw [hlen] at hrest
      simpa [List.append_assoc] using hrest

theorem fieldsAt_flatten_last {α : Type} (f : α → List Byte) (n : Nat) (pre : List Byte) {l : List α} {k : Nat} {x : α}
    (h : ∀ y ∈ l, (f y).length = n) (hx : l[k]? = some x) :
    fieldsAt (pre ++ (l.map f).flatten) (pre.length + n * k) (f x) := by
  simpa using fieldsAt_flatten f n pre [] h hx

theorem halfAt_of_append (pre post : List Byte) (m : Half) : halfAt (pre ++ (halfBytes m ++ post)) pre.length = m := by
  induction pre with
  | nil => exact hiByte_append_loByte m
  | cons b pre ih => exact ih

theorem maskFrom_getLsbD (bits : List Nat) (m : Half) {k : Nat} (hk : k < 16) :
    (bits.foldl (fun m j => m ||| BitVec.ofNat 16 (2 ^ j)) m).getLsbD k = true ↔ m.getLsbD k = true ∨ k ∈ bits := by
  induction bits generalizing m with
  | nil => simp
  | cons j bits ih =>
    have hbit : (BitVec.ofNat 16 (2 ^ j)).getLsbD k = true ↔ k = j := by
      rw [BitVec.getLsbD_ofNat, Nat.testBit_two_pow]
      simp only [hk, decide_true, Bool.true_and, decide_eq_true_eq]
      exact eq_comm
    rw [List.foldl_cons, ih, BitVec.getLsbD_or, Bool.or_eq_true, hbit, List.mem_cons, or_assoc]

/-- A mask has the bit of each place listed, and no other. -/
theorem maskOf_getLsbD (bits : List Nat) {k : Nat} (hk : k < 16) : (maskOf bits).getLsbD k = true ↔ k ∈ bits := by
  rw [maskOf, maskFrom_getLsbD bits 0 hk]
  simp

/-! ### The records -/

theorem ZoneRec.bytes_length (r : ZoneRec) (z : Zone) : (r.bytes z).length = 16 := by
  simp [ZoneRec.bytes, natBytes_eq]

theorem AssignEntry.bytes_length (e : AssignEntry) (k : Fin 6) : (e.bytes k).length = 4 := rfl

theorem OutputRec.bytes_length (r : OutputRec) (o : Fin 13) : (r.bytes o).length = 6 := rfl

theorem InputRec.bytes_length (r : InputRec) (i : Fin 12) : (r.bytes i).length = 5 := rfl

theorem SpeakerRec.bytes_length (r : SpeakerRec) (w : Position) : (r.bytes w).length = 6 := rfl

theorem Segment.bytes_length (g : Segment) : g.bytes.length = 15 := by
  have hnew : g.newBytes.length = 5 := by
    unfold Segment.newBytes
    split <;> rfl
  simp [Segment.bytes, natBytes_eq, natBytes3, hnew]

theorem labelBytes_length {l : Option (List Byte)} (h : ∀ x, l = some x → x.length = 8) : (labelBytes l).length = 9 := by
  cases l with
  | none => rfl
  | some x => simp [labelBytes, h x rfl]

theorem StationEntry.bytes_length {e : StationEntry} (h : ∀ l, e.label = some l → l.length = 8) :
    e.bytes.length = 13 := by
  simp [StationEntry.bytes, natBytes_eq, labelBytes_length h]

theorem presetBytes_length (n : Fin 40) {r : Option PresetRec}
    (h : ∀ x l, r = some x → x.label = some l → l.length = 8) : (presetBytes n r).length = 13 := by
  cases r with
  | none => rfl
  | some x => simp [presetBytes, natBytes_eq, labelBytes_length fun l => h x l rfl]

theorem slotBytes_length (k : Fin 8) (b : Slot) : (slotBytes k b).length = 9 := by
  cases b <;> rfl

/-- The entry `k` of a list is the one at `n - 1 - k` of the list read from its end. -/
theorem zipIdx_reverse_getElem? {α : Type} {l : List α} {k : Nat} {x : α} (h : l[k]? = some x) :
    l.zipIdx.reverse[l.length - 1 - k]? = some (x, k) := by
  have hk : k < l.length := (List.getElem?_eq_some_iff.1 h).1
  rw [List.getElem?_reverse (by rw [List.length_zipIdx]; omega), List.length_zipIdx,
    show l.length - 1 - (l.length - 1 - k) = k by omega, List.getElem?_zipIdx, h]
  simp

theorem allPresets_getElem? (n : Fin 40) : allPresets[n.val]? = some n := by
  revert n
  decide

theorem allSlots_getElem? (k : Fin 8) : allSlots[k.val]? = some k := by
  revert k
  decide

theorem allInputs_getElem? (i : Fin 12) : allInputs[i.val]? = some i := by
  revert i
  decide

theorem allOutputs_getElem? (o : Fin 13) : allOutputs[o.val]? = some o := by
  revert o
  decide

theorem Position.index_of_all {k : Nat} {w : Position} (h : Position.all[k]? = some w) : w.index.val = k := by
  obtain ⟨hk, rfl⟩ := List.getElem?_eq_some_iff.1 h
  revert k
  decide

theorem Position.all_index (w : Position) : Position.all[w.index.val]? = some w := by
  cases w <;> rfl

end Sys2Proof.Machine

end

section
/-! PROOFS. The bytes of every read command (R188; O11). -/

open Sys2Proof Sys2Proof.Machine

namespace Sys2Proof.Machine

/-- The nine bytes of the last good header start the header fields of Read Decoder. -/
theorem headerBytes_length (h : Option FrameHeader) : (headerBytes h).length = 9 := by
  cases h with
  | none => rfl
  | some f => cases hd : f.downmix <;> simp [headerBytes, halfBytes, hd]

/-- The presence byte has the bit of every pair that is present. -/
theorem LabelRec.presence_getLsbD (l : LabelRec) {k : Nat} (hk : k < 8) :
    l.presence.getLsbD k = true ↔ ∃ i : Fin 4, i.val = k ∧ l.pair i ≠ none := by
  obtain ⟨state, version, a, b, c, d⟩ := l
  have hpairs : (∃ i : Fin 4, i.val = k ∧ LabelRec.pair ⟨state, version, a, b, c, d⟩ i ≠ none) ↔
      (k = 0 ∧ a ≠ none) ∨ (k = 1 ∧ b ≠ none) ∨ (k = 2 ∧ c ≠ none) ∨ (k = 3 ∧ d ≠ none) := by
    simp [Fin.exists_fin_succ, LabelRec.pair, eq_comm]
  rw [hpairs]
  cases a <;> cases b <;> cases c <;> cases d <;> interval_cases k <;> simp [LabelRec.presence]

theorem fieldsAt_congr {bytes fields fields' : List Byte} {n : Nat} (h : fieldsAt bytes n fields)
    (he : fields = fields') : fieldsAt bytes n fields' := he ▸ h

theorem targetCode_eq : targetCode = fun y => (y.map Zone.code).getD 3 := by
  funext y
  cases y <;> rfl

theorem Segment.holdCode_eq (g : Segment) : g.holdCode = match g.change, g.move with
    | some x, _ => placeIn [.retime, .shrink, .grow, .relocate] x.kind + 1
    | none, some m => placeIn [.ramp, .copy] m.stage + 5
    | none, none => 0 := by
  unfold Segment.holdCode
  cases g.change with
  | some x => exact (placeIn_change x.kind).symm
  | none =>
    cases g.move with
    | none => rfl
    | some m => exact (placeIn_stage m.stage).symm

theorem natBytes3_eq (n : Nat) : natBytes3 n = natByte (n / 65536) :: natBytes n := by
  rw [natBytes_eq]
  rfl

theorem slotState_code (b : SlotBody) : (slotState (some b)).code = if b.waiting = none then 1 else 2 := by
  cases hw : b.waiting <;> simp [slotState, hw, SlotState.code]

theorem allEntries_getElem? (k : Fin 6) : ([0, 1, 2, 3, 4, 5] : List (Fin 6))[k.val]? = some k := by
  revert k
  decide

/-- The state of an output with its phase. -/
theorem OutputRec.stateCode_eq (r : OutputRec) : r.stateCode = match r.state with
    | .idle => 0
    | .granted => 1
    | .handover => if r.phase = some .relayOpen then 3 else if r.phase = some .reallocate then 4 else 2
    | .fault => 5
    | .starved => 6 := by
  unfold OutputRec.stateCode
  split <;> simp_all

/-- Settles O11: the residue rule, then the fields of each read command. -/
theorem readCommandsAnswerAPrefix : Obligations.ReadCommandsAnswerAPrefix := by
  refine ⟨fun p h c s bytes count ht hr => ?_, fun s p c bytes count hr => ?_⟩
  · rw [exec_read ht hr]
    refine ⟨fun hc => ?_, fun hc => ?_⟩
    · rw [readCommand, if_pos (by simpa [countOk] using hc)]
      rfl
    · rw [readCommand, if_neg (by simpa [countOk] using hc)]
      cases c <;> rfl
  intro one two zone port source gain slot mode flag label
  have htwo : two = natBytes := by
    funext n
    exact (natBytes_eq n).symm
  have hone : one = natByte := rfl
  have hport : port = Port.code := by
    funext q
    exact placeIn_port q
  have hzone : zone = Zone.code := by
    funext z
    exact placeIn_zone z
  have hsource : source = Source.code := by
    funext x
    cases x <;> rfl
  have hgain : gain = gainByte := rfl
  have hslot : slot = slotByte := rfl
  have hmode : mode = SurroundMode.code := by
    funext m
    exact placeIn_mode m
  have hflag : flag = boolByte := placeIn_flag
  have hlabel : label = labelBytes := by
    funext l
    cases l <;> rfl
  clear_value one two zone port source gain slot mode flag label
  subst htwo hone hport hzone hsource hgain hslot hmode hflag hlabel
  cases c
  case identify count =>
    cases hr
    exact ⟨by simp [State.identityBytes, natBytes_eq], rfl⟩
  case readZone code count =>
    obtain ⟨z, hz, hb⟩ := Option.map_eq_some_iff.1 hr
    cases hb
    refine ⟨ZoneRec.bytes_length _ _, fun z' hz' => ?_⟩
    obtain rfl : z = z' := Option.some.inj (hz.symm.trans hz')
    simp [ZoneRec.bytes, placeIn_power, placeIn_status, placeIn_pending, optByte, absentByte]
  case readOverrideStack code count =>
    obtain ⟨z, hz, hb⟩ := Option.map_eq_some_iff.1 hr
    cases hb
    intro z' hz' stack
    obtain rfl : z = z' := Option.some.inj (hz.symm.trans hz')
    refine ⟨?_, fieldsAt_zero _ _, fun k e hk => ?_⟩
    · rw [stackBytes, List.length_append,
        length_flatten_of_length (n := 7) (fun x : OverrideEntry × Nat => x.1.bytes x.2) fun _ _ => rfl]
      simp [stack]
    · exact fieldsAt_flatten_last (fun x : OverrideEntry × Nat => x.1.bytes x.2) 7 _ (fun _ _ => rfl)
        (zipIdx_reverse_getElem? hk)
  case readAssignment count =>
    cases hr
    have hentries := length_flatten_of_length (n := 4) (l := ([0, 1, 2, 3, 4, 5] : List (Fin 6)))
      (fun k => (s.outputs.assign[k]).bytes k) fun _ _ => rfl
    have houts := length_flatten_of_length (n := 6) (l := allOutputs) (fun o => (s.out o).bytes o) fun _ _ => rfl
    refine ⟨?_, fun k => ?_, fun o => ?_⟩
    · rw [State.assignmentBytes, List.length_append, hentries, houts]
      rfl
    · have h := fieldsAt_flatten (fun k : Fin 6 => (s.outputs.assign[k]).bytes k) 4 []
        (allOutputs.map fun o => (s.out o).bytes o).flatten (fun _ _ => rfl) (allEntries_getElem? k)
      simpa [State.assignmentBytes, AssignEntry.bytes, placeIn_mainRole, placeIn_remoteRole, placeIn_priority,
        List.flatten] using h
    · have h := fieldsAt_flatten_last (fun o => (s.out o).bytes o) 6
        ((([0, 1, 2, 3, 4, 5] : List (Fin 6)).map fun k => (s.outputs.assign[k]).bytes k).flatten) (fun _ _ => rfl)
        (allOutputs_getElem? o)
      rw [hentries] at h
      refine fieldsAt_congr h ?_
      rw [OutputRec.bytes, OutputRec.stateCode_eq, placeIn_present, targetCode_eq]
      rfl
  case readProtection count =>
    cases hr
    have hline (f : Fin 11 → Bool) {k : Nat} (hk : k < 16) :
        (lineMask f).getLsbD k = true ↔ ∃ n : Fin 11, n.val = k ∧ f n = true := by
      have hall : ∀ n, n ∈ allFaultLines := by decide
      rw [lineMask, maskOf_getLsbD _ hk]
      simp [hall, and_comm]
    refine ⟨rfl, ?_, fun k hk => ⟨?_, ?_⟩, ?_⟩
    · simp [State.protectionBytes, fieldsAt, placeIn_level]
    · rw [show halfAt s.protectionBytes 3 = lineMask fun n => (s.fltLine n).active from
        halfAt_of_append [_, _, _] _ _, hline _ hk]
    · rw [show halfAt s.protectionBytes 5 = lineMask fun n => (s.out (lineOutput n)).state == .fault from
        halfAt_of_append [_, _, _, _, _] _ _, hline _ hk]
      simp only [beq_iff_eq]
    · simp [State.protectionBytes, fieldsAt, halfBytes]
  case readInput input count =>
    obtain ⟨is, his, hb⟩ := Option.map_eq_some_iff.1 hr
    cases hb
    rw [inputsNamed] at his
    split at his
    · next hlt =>
      obtain rfl := Option.some.inj his
      have hne : input ≠ 0x80 := fun he => absurd hlt (by rw [he]; decide)
      refine ⟨by rw [if_neg hne]; rfl, fun i => ⟨fun hi => ?_, fun he => absurd he hne⟩⟩
      obtain rfl : (⟨input.toNat, hlt⟩ : Fin 12) = i := Fin.ext hi
      simp [InputRec.bytes, halfBytes_eq, natBytes_eq, placeIn_input, optByte, absentByte]
    · obtain ⟨rfl, his⟩ := Option.ite_none_right_eq_some.1 his
      obtain rfl := Option.some.inj his
      refine ⟨?_, fun i => ⟨fun hi => absurd hi (by simp; omega), fun _ => ?_⟩⟩
      · exact length_flatten_of_length (n := 5) (fun i => (s.input i).bytes i) fun _ _ => rfl
      · have h := fieldsAt_flatten_last (fun i => (s.input i).bytes i) 5 [] (fun _ _ => rfl) (allInputs_getElem? i)
        simpa [InputRec.bytes, halfBytes_eq, natBytes_eq, placeIn_input, optByte, absentByte] using h
  case readDecoder clear count =>
    obtain ⟨-, hb⟩ := Option.ite_none_right_eq_some.1 hr
    cases hb
    refine ⟨by simp [DecoderRec.bytes, headerBytes_length, natBytes_eq], ?_⟩
    have hheader : headerBytes s.decoder.header = match s.decoder.header with
        | none => List.replicate 9 0
        | some f => [1, f.rate, natByte f.blocks] ++ natBytes f.mask.toNat ++ [natByte f.dialogue] ++
            (match f.downmix with
              | none => [0, 0, 0]
              | some (x, y) => [1, natByte x, natByte y]) := by
      cases hh : s.decoder.header with
      | none => rfl
      | some f => cases hd : f.downmix <;> simp [headerBytes, halfBytes_eq, natBytes_eq, hd]
    dsimp only
    rw [DecoderRec.bytes, hheader, placeIn_decoder, placeIn_frameError]
    rfl
  case readSpeakers count =>
    cases hr
    refine ⟨rfl, fieldsAt_zero [_] _, fun k hk => ?_, fun k w hw => ?_⟩
    · rw [show halfAt s.speakerBytes 1 = maskOf (s.mix.speakerSet.map fun p => p.index.val) from
        halfAt_of_append [_] _ _, maskOf_getLsbD _ hk, List.mem_map]
      constructor
      · rintro ⟨w, hw, rfl⟩
        exact ⟨w, Position.all_index w, hw⟩
      · rintro ⟨w, hk, hw⟩
        exact ⟨w, hw, Position.index_of_all hk⟩
    · have h := fieldsAt_flatten_last (fun p => (s.speaker p).bytes p) 6
        ([s.mix.crossover] ++ halfBytes (maskOf (s.mix.speakerSet.map fun p => p.index.val))) (fun _ _ => rfl)
        (l := Position.all) hw
      refine fieldsAt_congr h ?_
      rw [SpeakerRec.bytes, placeIn_size, Position.index_of_all hw]
  case readSegmentTable count =>
    cases hr
    dsimp only
    generalize s.delay = d
    have hlen := length_flatten_of_length (n := 15) (l := d.segments) Segment.bytes fun g _ => g.bytes_length
    have hfree : ((List.range 1024).filter d.pageFree).length = d.freePages := List.countP_eq_length_filter.symm
    refine ⟨?_, ?_, fun k hk => ?_, ?_, fun k g hg => ?_⟩
    · rw [DelayState.bytes, List.length_append, hlen]
      simp [natBytes, halfBytes]
    · rw [placeIn_memory, hfree]
      exact fieldsAt_zero _ (halfBytes _ ++ [_] ++ _)
    · rw [show halfAt d.bytes 10 = maskOf (d.starved.map (·.val)) from
        halfAt_of_append [_, _, _, _, _, _, _, _, _, _] _ _, maskOf_getLsbD _ hk, List.mem_map]
      simp [and_comm]
    · exact fieldsAt_of_append [_, _, _, _, _, _, _, _, _, _, _, _] [_] _
    · have h := fieldsAt_flatten_last Segment.bytes 15
        ([d.state.code, boolByte d.compaction.isSome] ++ natBytes d.freePages ++ natBytes (4 * d.badRows.length) ++
          natBytes d.largestHole ++ natBytes (d.dref.getD 65535) ++ halfBytes (maskOf (d.starved.map (·.val))) ++
          [natByte d.segments.length]) (fun g _ => g.bytes_length) hg
      refine fieldsAt_congr h ?_
      rw [Segment.bytes, g.holdCode_eq, natBytes3_eq]
      simp only [List.append_assoc, List.cons_append, List.nil_append]
      rfl
  case readTuner count =>
    cases hr
    dsimp only
    generalize s.tuner = t
    have hchars (o : Option (Byte × Byte)) : (pairChars o).length = 2 := by cases o <;> rfl
    have hall : t.label.chars.length = 8 := by simp [LabelRec.chars, hchars]
    refine ⟨?_, ?_, fun k hk => ?_, ?_⟩
    · simp [TunerRec.bytes, natBytes, halfBytes, hall]
    · simp [TunerRec.bytes, natBytes, halfBytes, fieldsAt, placeIn_band, placeIn_region, placeIn_tuner, placeIn_blend,
        placeIn_opKind, placeIn_label, optByte, absentByte, slotByte]
    · exact t.label.presence_getLsbD hk
    · change t.label.chars.take t.label.chars.length = t.label.chars
      exact List.take_length
  case readPresets first count =>
    intro hlabels
    obtain ⟨m, hm, hb⟩ := Option.map_eq_some_iff.1 hr
    cases hb
    rw [presetOf] at hm
    obtain ⟨hrange, hm⟩ := Option.dite_none_right_eq_some.1 hm
    obtain rfl := Option.some.inj hm
    have hlen : ∀ k ∈ allPresets.drop (first.toNat - 1), (presetBytes k s.tuner.presets[k]).length = 13 :=
      fun k _ => presetBytes_length k (hlabels k)
    refine ⟨?_, fun n hn => ?_⟩
    · rw [length_flatten_of_length _ hlen, List.length_drop]
      change 13 * (40 - (first.toNat - 1)) = _
      omega
    · have hget : (allPresets.drop (first.toNat - 1))[n.val + 1 - first.toNat]? = some n := by
        rw [List.getElem?_drop, show first.toNat - 1 + (n.val + 1 - first.toNat) = n.val by omega, allPresets_getElem?]
      have h := fieldsAt_flatten_last (fun k => presetBytes k s.tuner.presets[k]) 13 [] hlen hget
      rw [List.nil_append, List.length_nil, Nat.zero_add] at h
      refine fieldsAt_congr h ?_
      cases s.tuner.presets[n] with
      | none => rfl
      | some r => simp only [presetBytes, placeIn_band]
  case readStationList first count =>
    intro hlabels
    obtain ⟨hle, hb⟩ := Option.ite_none_left_eq_some.1 hr
    cases hb
    have hlen : ∀ e ∈ s.tuner.stations.drop first.toNat, e.bytes.length = 13 :=
      fun e he => StationEntry.bytes_length fun l => hlabels e l (List.mem_of_mem_drop he)
    refine ⟨?_, fieldsAt_zero _ _, fun k e hk he => ?_⟩
    · rw [List.length_append, length_flatten_of_length _ hlen, List.length_drop]
      rfl
    · have hget : (s.tuner.stations.drop first.toNat)[k - first.toNat]? = some e := by
        rw [List.getElem?_drop, show first.toNat + (k - first.toNat) = k by omega, he]
      refine fieldsAt_congr (fieldsAt_flatten_last StationEntry.bytes 13 [_, _] hlen hget) ?_
      rw [StationEntry.bytes, placeIn_band]
  case readSlots count =>
    cases hr
    refine ⟨?_, ?_, fun k => ?_⟩
    · rw [State.slotTableBytes, List.length_cons, length_flatten_of_length _ fun k _ => slotBytes_length k _]
      rfl
    · have hall : allSlots = List.finRange 8 := by decide
      rw [← hall]
      exact fieldsAt_zero [_] _
    · have h := fieldsAt_flatten_last (fun k => slotBytes k (s.slot k)) 9
        [natByte (allSlots.filter fun k => (s.slot k).isNone).length] (fun k _ => slotBytes_length k _)
        (allSlots_getElem? k)
      refine fieldsAt_congr h ?_
      cases s.slot k with
      | none => rfl
      | some b =>
        dsimp only
        rw [slotBytes, halfBytes_eq, ← natBytes_eq, slotState_code, placeIn_slotKind, placeIn_mark]
        rfl
  all_goals trivial

end Sys2Proof.Machine

end

section
/-! PROOFS. The Tuner: commands that break in, seeks, scans, settles and settings (07, 08; O52 to O56). -/

open Sys2Proof Sys2Proof.Machine

namespace Sys2Proof.Machine

/-! ### The end of an operation and the tuner record -/

/-- The state `u` with the slots and ports of `s`: what the end of an operation sees of `u`. -/
def State.onto (s u : State) : State := { u with slots := s.slots, ports := s.ports }

theorem State.onto_of_onlyChanges {s t : State} (h : onlyChanges [.slots, .ports] s t) : t.onto s = t := by
  have hzones : t.zones = s.zones := h .zones (by decide)
  have hminute : t.minute = s.minute := h .minute (by decide)
  have houtputs : t.outputs = s.outputs := h .outputs (by decide)
  have hinputs : t.inputs = s.inputs := h .inputs (by decide)
  have hdecoder : t.decoder = s.decoder := h .decoder (by decide)
  have hmix : t.mix = s.mix := h .mix (by decide)
  have hdelay : t.delay = s.delay := h .delay (by decide)
  have htuner : t.tuner = s.tuner := h .tuner (by decide)
  have hfree : t.freeCount = s.freeCount := h .freeCount (by decide)
  have hpending : t.pending = s.pending := h .pending (by decide)
  rw [State.onto, ← hzones, ← hminute, ← houtputs, ← hinputs, ← hdecoder, ← hmix, ← hdelay, ← htuner, ← hfree, ← hpending]

theorem State.endSlotChains_onto (s u : State) (p : Port) :
    (s.onto u).endSlotChains p = (s.endSlotChains p).onto u := by
  rw [State.endSlotChains_eq, State.endSlotChains_eq]
  generalize allSlots = l
  induction l generalizing s with
  | nil => rfl
  | cons k l ih => exact ih (s.setSlot k ((s.slot k).map (SlotBody.unchained p)))

theorem State.endHold_onto (s u : State) (p : Port) (k : Fin 8) (st : Status) :
    (s.onto u).endHold p k st = (s.endHold p k st).onto u := by
  by_cases hc : (s.port p).chain = .holding ∧ ∃ link, (s.port p).hold = some ⟨k, link⟩
  · obtain ⟨hc, link, hh⟩ := hc
    cases link with
    | true =>
      rw [State.endHold_linked st hc hh, State.endHold_linked (s := s.onto u) st hc hh]
      rfl
    | false =>
      rw [State.endHold_last st hc hh, State.endHold_last (s := s.onto u) st hc hh]
      exact State.endSlotChains_onto (s.setPort p _) u p
  · rw [State.endHold_of_not_holding st hc, State.endHold_of_not_holding (s := s.onto u) st hc]

/-- What ends a slot sees the slots and the ports alone. -/
theorem State.complete_onto (s u : State) (k : Fin 8) (st : Status) (r : List Byte) :
    (s.onto u).complete k st r = (s.complete k st r).onto u := by
  cases hk : s.slot k with
  | none => rw [State.complete_none hk, State.complete_none (s := s.onto u) hk]
  | some b =>
    rw [State.complete_eq hk, State.complete_eq (s := s.onto u) hk, ← State.endHold_onto]
    rfl

theorem State.complete_onto_self (s : State) (k : Fin 8) (st : Status) (r : List Byte) :
    (s.complete k st r).onto s = s.complete k st r := State.onto_of_onlyChanges (State.complete_frame s k st r).1

theorem State.complete_setTuner (s : State) (k : Fin 8) (st : Status) (r : List Byte) (t : TunerRec) :
    (s.setTuner t).complete k st r = (s.complete k st r).setTuner t :=
  calc (s.setTuner t).complete k st r = ((s.complete k st r).onto s).setTuner t := State.complete_onto s (s.setTuner t) k st r
    _ = (s.complete k st r).setTuner t := by rw [State.complete_onto_self]

theorem State.complete_setDelay (s : State) (k : Fin 8) (st : Status) (r : List Byte) (d : DelayState) :
    (s.setDelay d).complete k st r = (s.complete k st r).setDelay d :=
  calc (s.setDelay d).complete k st r = ((s.complete k st r).onto s).setDelay d := State.complete_onto s (s.setDelay d) k st r
    _ = (s.complete k st r).setDelay d := by rw [State.complete_onto_self]

theorem State.complete_zones (s : State) (k : Fin 8) (st : Status) (r : List Byte) :
    (s.complete k st r).zones = s.zones := (State.complete_frame s k st r).1 .zones (by decide)

theorem State.complete_tuner (s : State) (k : Fin 8) (st : Status) (r : List Byte) :
    (s.complete k st r).tuner = s.tuner := (State.complete_frame s k st r).1 .tuner (by decide)

theorem State.endTunerOp_eq (s : State) (o : TunerOp) (st : Status) (r : List Byte) :
    s.endTunerOp o st r = (s.complete o.slot st r).setTuner { s.tuner with op := none } :=
  State.complete_setTuner ..

theorem State.tunerHeard_congr {s u : State} (h : u.zones = s.zones) : u.tunerHeard = s.tunerHeard := by
  unfold State.tunerHeard State.zone
  rw [h]

/-- With no operation the tuner is active while a zone listens. -/
theorem State.tunerActive_of_no_op {s : State} (h : s.tuner.op = none) : s.tunerActive = s.tunerHeard := by
  rw [State.tunerActive, h]
  exact Bool.or_false _

/-- The tuner with no operation settles while a zone listens, and parks otherwise (R142). -/
def TunerRec.settledOrParked (t : TunerRec) (heard : Bool) : TunerRec := if heard then t.settleNow else t.parkNow

/-- The tuner with no operation rests IDLE while a zone listens, and parks otherwise (R143). -/
def TunerRec.rested (t : TunerRec) (heard : Bool) : TunerRec :=
  if heard then { t with state := .idle, settle := none, seek := none, scan := none } else t.parkNow

theorem State.settleOrPark_eq {s : State} {heard : Bool} (h : s.tuner.op = none) (hh : s.tunerHeard = heard) :
    s.settleOrPark = s.setTuner (s.tuner.settledOrParked heard) := by
  rw [State.settleOrPark, State.tunerActive_of_no_op h, hh, TunerRec.settledOrParked]
  split <;> rfl

theorem State.restTuner_eq {s : State} {heard : Bool} (h : s.tuner.op = none) (hh : s.tunerHeard = heard) :
    s.restTuner = s.setTuner (s.tuner.rested heard) := by
  rw [State.restTuner, State.tunerActive_of_no_op h, hh, TunerRec.rested]
  split <;> rfl

/-- An operation ends and the tuner, whose record is then `t`, settles or parks. -/
theorem State.endTunerOp_settleOrPark (s : State) (t : TunerRec) (o : TunerOp) (st : Status) (r : List Byte) :
    ((s.setTuner t).endTunerOp o st r).settleOrPark =
      (s.complete o.slot st r).setTuner (({ t with op := none } : TunerRec).settledOrParked s.tunerHeard) := by
  rw [State.endTunerOp_eq, State.complete_setTuner]
  exact State.settleOrPark_eq rfl (State.tunerHeard_congr (State.complete_zones ..))

theorem State.endTunerOp_restTuner (s : State) (t : TunerRec) (o : TunerOp) (st : Status) (r : List Byte) :
    ((s.setTuner t).endTunerOp o st r).restTuner =
      (s.complete o.slot st r).setTuner (({ t with op := none } : TunerRec).rested s.tunerHeard) := by
  rw [State.endTunerOp_eq, State.complete_setTuner]
  exact State.restTuner_eq rfl (State.tunerHeard_congr (State.complete_zones ..))

theorem settleTime_eq (b : Band) : settleTime b = if b = .fm then 30 else 50 := by cases b <;> rfl

theorem dwellTime_eq (b : Band) : dwellTime b = if b = .fm then 25 else 60 := by cases b <;> rfl

theorem TunerRec.report_eq (t : TunerRec) (q : Nat) : t.report q = t.measured q := rfl

theorem settlesOrParks_of {s t : State} {r : TunerRec} (ht : t.tuner = r.settledOrParked s.tunerHeard)
    (hl : r.label = s.tuner.label) : settlesOrParks s t r.band := by
  refine ⟨fun h => ?_, fun h => ?_⟩
  · rw [ht, (State.listened_iff s).1 h]
    exact ⟨rfl, congrArg some (settleTime_eq r.band), rfl⟩
  · rw [ht, Bool.eq_false_iff.2 (fun e => h ((State.listened_iff s).2 e))]
    exact ⟨rfl, rfl, hl⟩

theorem comesToRest_of {s t : State} {r : TunerRec} (ht : t.tuner = r.rested s.tunerHeard) : comesToRest s t := by
  refine ⟨fun h => ?_, fun h => ?_⟩
  · rw [ht, (State.listened_iff s).1 h]
    rfl
  · rw [ht, Bool.eq_false_iff.2 (fun e => h ((State.listened_iff s).2 e))]
    rfl

theorem TunerRec.rested_eq (t : TunerRec) (heard : Bool) : t.rested heard =
    { t with seek := none, scan := none, settle := none, state := (t.rested heard).state } := by
  cases heard <;> rfl

theorem TunerRec.settledOrParked_eq (t : TunerRec) (heard : Bool) : t.settledOrParked heard =
    { t with seek := none, scan := none, state := (t.settledOrParked heard).state
             settle := (t.settledOrParked heard).settle, label := (t.settledOrParked heard).label } := by
  cases heard <;> rfl

/-! ### Breaking in -/

theorem State.freeSlot_eq_some_iff (s : State) (k : Fin 8) :
    s.freeSlot = some k ↔ s.slot k = none ∧ ∀ j, j < k → s.slot j ≠ none := by
  constructor
  · intro h
    refine ⟨State.freeSlot_some h, fun j hj hn => ?_⟩
    obtain ⟨as, bs, hs, hnot⟩ := (List.find?_eq_some_iff_append.1 h).2
    have hsorted : allSlots.Pairwise (· < ·) := by decide
    rw [hs] at hsorted
    have hmem : j ∈ as ++ k :: bs := hs ▸ (by decide : ∀ j, j ∈ allSlots) j
    rcases List.mem_append.1 hmem with hm | hm
    · have := hnot j hm
      simp [hn] at this
    · have hafter : ∀ x ∈ bs, k < x := (List.pairwise_cons.1 (List.pairwise_append.1 hsorted).2.1).1
      rcases List.mem_cons.1 hm with rfl | hm
      · exact lt_irrefl _ hj
      · exact lt_asymm hj (hafter j hm)
  · rintro ⟨hk, hbelow⟩
    cases hf : s.freeSlot with
    | none => exact absurd hk (State.freeSlot_none hf k)
    | some j =>
      have hj := State.freeSlot_some hf
      rcases lt_trichotomy j k with hlt | rfl | hlt
      · exact absurd hj (hbelow j hlt)
      · rfl
      · obtain ⟨as, bs, hs, hnot⟩ := (List.find?_eq_some_iff_append.1 hf).2
        have hsorted : allSlots.Pairwise (· < ·) := by decide
        rw [hs] at hsorted
        have hmem : k ∈ as ++ j :: bs := hs ▸ (by decide : ∀ j, j ∈ allSlots) k
        rcases List.mem_append.1 hmem with hm | hm
        · have := hnot k hm
          simp [hk] at this
        · have hafter : ∀ x ∈ bs, j < x := (List.pairwise_cons.1 (List.pairwise_append.1 hsorted).2.1).1
          rcases List.mem_cons.1 hm with rfl | hm
          · rfl
          · exact absurd hlt (lt_asymm (hafter k hm))

/-- A FREE slot stays FREE when another operation ends. -/
theorem State.complete_slot_free {s : State} {k j : Fin 8} (st : Status) (r : List Byte) (hj : s.slot j = none) :
    (s.complete k st r).slot j = none := by
  cases hk : s.slot k with
  | none => rw [State.complete_none hk, hj]
  | some b =>
    have hne : j ≠ k := by
      rintro rfl
      rw [hk] at hj
      cases hj
    have ho : (s.offered k b st r).slot j = none := (State.slot_setSlot_ne s _ hne).trans hj
    rw [State.complete_eq hk]
    rcases (s.offered k b st r).endHold_slot b.port k st j with e | e
    · rw [e, ho]
    · rw [e, ho]
      rfl

theorem State.complete_freeSlot {s : State} (h : s.freeSlot ≠ none) (k : Fin 8) (st : Status) (r : List Byte) :
    ∃ j, (s.complete k st r).freeSlot = some j := by
  obtain ⟨i, hi⟩ := Option.ne_none_iff_exists'.1 h
  cases hf : (s.complete k st r).freeSlot with
  | some j => exact ⟨j, rfl⟩
  | none => exact absurd (State.complete_slot_free st r (State.freeSlot_some hi)) (State.freeSlot_none hf i)

theorem State.tunerHeldFrom_iff (s : State) (p : Port) : s.tunerHeldFrom p = true ↔ s.heldByOther p := by
  unfold State.tunerHeldFrom State.heldByOther
  cases s.tuner.op with
  | none => simp
  | some o => cases hk : o.kind <;> simp [TunerOpKind.isSearch, hk]

/-- An accepted command of port `p` ends an operation that yields to it. -/
theorem State.yields_of_not_held {s : State} {p : Port} {o : TunerOp} (h : ¬ s.heldByOther p)
    (ho : s.tuner.op = some o) : o.yieldsTo p := by
  by_contra hy
  simp only [TunerOp.yieldsTo, not_or] at hy
  obtain ⟨h1, h2, h3⟩ := hy
  refine h ⟨o, ho, ?_, h3⟩
  cases hk : o.kind <;> simp_all

/-- The tuner record `u` has no operation and stands on the frequency `f`; what a tuning does not set is that of `t`. -/
structure TunerRec.FreedAt (t u : TunerRec) (f : Nat) : Prop where
  op : u.op = none
  frequency : u.frequency = f
  band : u.band = t.band
  region : u.region = t.region
  threshold : u.threshold = t.threshold
  quality : u.quality = t.quality
  blend : u.blend = t.blend
  stations : u.stations = t.stations
  presets : u.presets = t.presets

theorem TunerRec.freedAt_settledOrParked (t : TunerRec) (f : Nat) (seek : Option SeekRec) (scan : Option ScanRec)
    (heard : Bool) : t.FreedAt (({ t with op := none, frequency := f, seek := seek, scan := scan } :
      TunerRec).settledOrParked heard) f := by
  cases heard <;> exact ⟨rfl, rfl, rfl, rfl, rfl, rfl, rfl, rfl, rfl⟩

/-- What an accepted command ends before it takes its slot (R146, R147). -/
theorem State.takeTuner_of_op {s : State} {o : TunerOp} (ho : s.tuner.op = some o) :
    ∃ t, s.takeTuner = (s.complete o.slot (s.endedWith o).1 (s.endedWith o).2).setTuner t ∧
      s.tuner.FreedAt t s.heldFrequency ∧
      (o.kind = .seek ∨ o.kind = .scan → s.takeTuner = s.abortTuner ∧
        ∃ r : TunerRec, t = r.settledOrParked s.tunerHeard ∧ r.label = s.tuner.label ∧ r.band = s.tuner.band) := by
  have hcancel {u : State} (hu : u.tuner.op = none) : u.cancelTune = u := by rw [State.cancelTune, hu]
  have hkept : o.kind ≠ .seek → s.heldFrequency = s.tuner.frequency := fun hk => by
    simp [State.heldFrequency, ho, hk]
  have hsettled (r : TunerRec) : (r.settledOrParked s.tunerHeard).op = r.op := by cases s.tunerHeard <;> rfl
  have htune : o.kind.isSearch = false → s.endedWith o = (.cancelled, []) → ∃ t,
      s.takeTuner = (s.complete o.slot (s.endedWith o).1 (s.endedWith o).2).setTuner t ∧
      s.tuner.FreedAt t s.heldFrequency := by
    intro hk he
    have habort : s.abortTuner = s := by
      rw [State.abortTuner, ho]
      cases hkind : o.kind <;> simp_all [TunerOpKind.isSearch]
    refine ⟨{ s.tuner with op := none }, ?_, ⟨rfl, ?_, rfl, rfl, rfl, rfl, rfl, rfl, rfl⟩⟩
    · rw [State.takeTuner, habort, State.cancelTune, ho, he, ← State.endTunerOp_eq]
      simp [hk]
    · exact (hkept fun e => by rw [e] at hk; cases hk).symm
  cases hk : o.kind with
  | tune =>
    obtain ⟨t, h1, h2⟩ := htune (by rw [hk]; rfl) (by simp [State.endedWith, hk])
    exact ⟨t, h1, h2, by simp⟩
  | stepTune =>
    obtain ⟨t, h1, h2⟩ := htune (by rw [hk]; rfl) (by simp [State.endedWith, hk])
    exact ⟨t, h1, h2, by simp⟩
  | seek =>
    have hf : s.heldFrequency = (s.tuner.seek.map (·.start)).getD s.tuner.frequency := by
      simp [State.heldFrequency, ho, hk]
    have he : s.endedWith o = (.aborted, tuneResult s.tuner.band s.heldFrequency 0) := by
      simp [State.endedWith, hk, tuneResult, natBytes, natByte]
    have habort : s.abortTuner = (s.complete o.slot (s.endedWith o).1 (s.endedWith o).2).setTuner
        (({ s.tuner with frequency := s.heldFrequency, seek := none, op := none } :
          TunerRec).settledOrParked s.tunerHeard) := by
      rw [he, ← State.endTunerOp_settleOrPark s { s.tuner with frequency := s.heldFrequency, seek := none },
        State.abortTuner, ho]
      simp only [hk, hf]
    have htake : s.takeTuner = s.abortTuner := by
      rw [State.takeTuner]
      exact hcancel (by rw [habort]; exact hsettled _)
    exact ⟨_, htake.trans habort, s.tuner.freedAt_settledOrParked _ none s.tuner.scan s.tunerHeard, fun _ =>
      ⟨htake, _, rfl, rfl, rfl⟩⟩
  | scan =>
    have hf : s.heldFrequency = s.tuner.frequency := hkept (by simp [hk])
    have he : s.endedWith o = (.aborted, scanResult o s.tuner.stations.length) := by
      simp [State.endedWith, hk, scanResult, natBytes, natByte]
    have habort : s.abortTuner = (s.complete o.slot (s.endedWith o).1 (s.endedWith o).2).setTuner
        (({ s.tuner with scan := none, op := none } : TunerRec).settledOrParked s.tunerHeard) := by
      rw [he, ← State.endTunerOp_settleOrPark s { s.tuner with scan := none }, State.abortTuner, ho]
      simp only [hk]
    have htake : s.takeTuner = s.abortTuner := by
      rw [State.takeTuner]
      exact hcancel (by rw [habort]; exact hsettled _)
    rw [hf]
    exact ⟨_, htake.trans habort, s.tuner.freedAt_settledOrParked _ s.tuner.seek none s.tunerHeard, fun _ =>
      ⟨htake, _, rfl, rfl, rfl⟩⟩
/-- The lowest slot FREE once the operation `o` has ended, where a slot was FREE before (R193). -/
theorem State.exists_afterEnding {s : State} (o : TunerOp) (hf : s.freeSlot ≠ none) : ∃ u k, s.afterEnding o u k ∧
    u.freeSlot = some k := by
  obtain ⟨k, hk⟩ := State.complete_freeSlot hf o.slot (s.endedWith o).1 (s.endedWith o).2
  obtain ⟨h1, h2⟩ := (State.freeSlot_eq_some_iff _ k).1 hk
  exact ⟨_, k, ⟨rfl, h1, h2⟩, hk⟩

/-- The state of an accepted command that has ended an operation whose slot has posted its record. -/
theorem State.afterEnding.tunerTaken {s u : State} {p : Port} {h : FrameHead} {c : Cmd} {o : TunerOp} {x : SlotBody}
    {k : Fin 8} (hu : s.afterEnding o u k) (hx : canPost s o.slot x) (slot : Slot) (after : Fin 8 → TunerRec) :
    tunerTaken s (((u.setSlot k slot).setTuner (after k)).closed p h c (Answer.acceptedIn k)) p h c.code o x slot
      after := by
  obtain ⟨hu, hk, hbelow⟩ := hu
  rw [State.complete_posts hx] at hu
  have hslot : u.slot o.slot = none := by rw [hu, State.slot_setSlot_self]
  have hne {j : Fin 8} (hj : j ≠ o.slot) : u.slot j = s.slot j := by
    rw [hu, State.slot_setSlot_ne _ _ hj]
    rfl
  have hport : (u.port x.port).completions = (s.port x.port).completions ++
      [slotRecord o.slot x (s.endedWith o).1 (s.endedWith o).2] := by
    rw [hu]
    change ((s.setPort x.port _).port x.port).completions = _
    rw [State.port_setPort_self]
  have hnew : ((u.setSlot k slot).setTuner (after k)).slot k = slot := State.slot_setSlot_self u k slot
  have hold {j : Fin 8} (hj : j ≠ k) : ((u.setSlot k slot).setTuner (after k)).slot j = u.slot j :=
    State.slot_setSlot_ne u slot hj
  refine ⟨k, ?_, fun j hj => ?_, hnew, fun hj => (hold hj).trans hslot, fun j hj hjo => (hold hj).trans (hne hjo), rfl, ?_,
    ?_, ?_⟩
  · by_cases e : k = o.slot
    · exact .inr e
    · exact .inl ((hne e).symm.trans hk)
  · have hjo : j ≠ o.slot := fun e => hbelow j hj (e ▸ hslot)
    exact ⟨hne hjo ▸ hbelow j hj, hjo⟩
  · rw [← hport, State.closed_completions]
    rfl
  · rw [State.closed_port_self]
    rfl
  · have hsu : onlyChanges [.tuner, .slots, .ports] s u := by
      rw [hu]
      exact (((onlyChanges_setPort s x.port _).mono (by decide)).trans
        ((State.setSlot_frame _ _ _).1.mono (by decide)))
    have hut : onlyChanges [.tuner, .slots, .ports] u ((u.setSlot k slot).setTuner (after k)) :=
      ((State.setSlot_frame u k slot).1.mono (by decide)).trans ((State.setTuner_frame _ _).1.mono (by decide))
    exact (hsu.trans hut).trans ((State.closed_onlyChanges _ p h c _).mono (by decide))

/-- The ports are kept when an operation ends and the tuner takes a new record. -/
theorem State.afterEnding.kept {s u : State} {o : TunerOp} {k : Fin 8} (hu : s.afterEnding o u k) (slot : Slot)
    (t : TunerRec) : portsKept s ((u.setSlot k slot).setTuner t) := by
  have hsu : portsKept s u := by
    rw [hu.1]
    exact (State.complete_frame ..).2
  exact hsu.trans (portsKept_of_eq rfl)

/-- What `startOn` accepts: no operation, or one that it ends first. -/
theorem startOn_of_no_op {x : Ctx} {s : State} {k : Fin 8} (start : State → Fin 8 → State) (ho : s.tuner.op = none)
    (hk : s.freeSlot = some k) : startOn x s start = (Answer.acceptedIn k, start s k) := by
  have hheld : s.tunerHeldFrom x.port = false := by simp [State.tunerHeldFrom, ho]
  have htake : s.takeTuner = s := by simp [State.takeTuner, State.abortTuner, State.cancelTune, ho]
  simp [startOn, hheld, State.hasFreeSlot, hk, htake]

theorem startOn_busy {x : Ctx} {s : State} (start : State → Fin 8 → State) (hh : ¬ s.heldByOther x.port)
    (hf : s.freeSlot = none) : startOn x s start = (Answer.plain .busy, s) := by
  have hheld : s.tunerHeldFrom x.port = false := Bool.eq_false_iff.2 fun e => hh ((s.tunerHeldFrom_iff _).1 e)
  simp [startOn, hheld, State.hasFreeSlot, hf]

theorem startOn_held {x : Ctx} {s : State} (start : State → Fin 8 → State) (hh : s.heldByOther x.port) :
    startOn x s start = (Answer.plain .tunerBusy, s) := by
  simp [startOn, (s.tunerHeldFrom_iff _).2 hh]
/-- What `startOn` accepts where an operation yields: that operation ends first. -/
theorem startOn_of_op {x : Ctx} {s : State} {o : TunerOp} (start : State → Fin 8 → State) (ho : s.tuner.op = some o)
    (hy : o.yieldsTo x.port) (hf : s.freeSlot ≠ none) : ∃ u k t, s.afterEnding o u k ∧
      s.tuner.FreedAt t s.heldFrequency ∧ startOn x s start = (Answer.acceptedIn k, start (u.setTuner t) k) := by
  have hheld : s.tunerHeldFrom x.port = false := by
    refine Bool.eq_false_iff.2 fun e => ?_
    obtain ⟨o', ho', hk, hp⟩ := (s.tunerHeldFrom_iff _).1 e
    obtain rfl := Option.some.inj (ho.symm.trans ho')
    rcases hy with e | e | e
    · simp [e] at hk
    · simp [e] at hk
    · exact hp e
  obtain ⟨k0, hk0⟩ := Option.ne_none_iff_exists'.1 hf
  obtain ⟨t, htake, hfreed, -⟩ := State.takeTuner_of_op ho
  obtain ⟨u, k, hu, hk⟩ := State.exists_afterEnding o hf
  refine ⟨u, k, t, hu, hfreed, ?_⟩
  have hfree : (u.setTuner t).freeSlot = some k := hk
  rw [hu.1] at hfree ⊢
  simp [startOn, hheld, State.hasFreeSlot, hk0, htake, hfree]

theorem tuneTo_held {x : Ctx} {s : State} (kind : SlotKind) (b : Band) (f : Nat) (hh : s.heldByOther x.port) :
    tuneTo x kind b f s = (Answer.plain .tunerBusy, s) := by
  simp [tuneTo, (s.tunerHeldFrom_iff _).2 hh]

theorem TunerRec.idleOn_iff (t : TunerRec) (b : Band) (f : Nat) :
    t.idleOn b f = true ↔ t.state = .idle ∧ t.band = b ∧ t.frequency = f := by
  simp [TunerRec.idleOn, and_assoc]

theorem tuneTo_idle {x : Ctx} {s : State} (kind : SlotKind) {b : Band} {f : Nat} (hh : ¬ s.heldByOther x.port)
    (hi : s.tuner.state = .idle ∧ s.tuner.band = b ∧ s.tuner.frequency = f) :
    tuneTo x kind b f s = (Answer.plain .doneNoChange, s) := by
  have hheld : s.tunerHeldFrom x.port = false := Bool.eq_false_iff.2 fun e => hh ((s.tunerHeldFrom_iff _).1 e)
  simp [tuneTo, hheld, (s.tuner.idleOn_iff b f).2 hi]

theorem tuneTo_of_not_idle {x : Ctx} {s : State} (kind : SlotKind) {b : Band} {f : Nat}
    (hi : ¬ (s.tuner.state = .idle ∧ s.tuner.band = b ∧ s.tuner.frequency = f)) :
    tuneTo x kind b f s = startOn x s fun u k => u.acceptTune x kind .tune b f k := by
  rw [tuneTo, Bool.eq_false_iff.2 fun e => hi ((s.tuner.idleOn_iff b f).1 e)]
  rfl

/-- What an accepted tune makes of the tuner does not depend on how the operation before it ended. -/
theorem State.acceptTune_eq {u : State} {r t : TunerRec} {f0 : Nat} (ht : r.FreedAt t f0) (p : Port) (h : FrameHead)
    (kind : SlotKind) (op : TunerOpKind) (b : Band) (f : Nat) (k : Fin 8) :
    (u.setTuner t).acceptTune (unlinked p h) kind op b f k =
      (u.setSlot k (unlinkedSlot kind (some (BitVec.ofNat 16 f)) p h)).setTuner (r.tuned op b f k p) := by
  obtain ⟨hop, hf, hband, hregion, hthreshold, hquality, hblend, hstations, hpresets⟩ := ht
  change (u.setSlot k _).setTuner (TunerRec.settleNow (TunerRec.blendNow _)) = _
  congr 1
  simp only [TunerRec.settleNow, TunerRec.blendNow, TunerRec.tuned, settleTime_eq, hregion, hthreshold, hquality,
    hstations, hpresets, State.takeSlot_unlinked, State.setSlot_tuner, State.setTuner_tuner]
  rfl

theorem TunerRec.freedAt_self {t : TunerRec} (h : t.op = none) : t.FreedAt t t.frequency :=
  ⟨h, rfl, rfl, rfl, rfl, rfl, rfl, rfl, rfl⟩

theorem State.heldFrequency_of_no_op {s : State} (h : s.tuner.op = none) : s.heldFrequency = s.tuner.frequency := by
  rw [State.heldFrequency, h]

/-- A command that starts an operation on the tuner: BUSY, or the tuner `after`, whatever the operation that it ends
first (R146, R147, R193). -/
theorem startOn_accepted {p : Port} {h : FrameHead} {c : Cmd} {s : State} (slot : Slot) (after : Fin 8 → TunerRec)
    (start : State → Fin 8 → State) (hc : c.isService = false) (ht : takenAtOnce s p h c)
    (hr : runCmd (unlinked p h) c s = startOn (unlinked p h) s start)
    (hstart : ∀ (u : State) t k, s.tuner.FreedAt t s.heldFrequency → start (u.setTuner t) k =
      (u.setSlot k slot).setTuner (after k)) :
    (¬ s.heldByOther p → s.freeSlot = none → exec (rowOf p h c) s = .next (s.closed p h c (Answer.plain .busy))) ∧
    (s.tuner.op = none → ∀ k, s.freeSlot = some k → exec (rowOf p h c) s =
      .next (((s.setSlot k slot).setTuner (after k)).closed p h c (Answer.acceptedIn k))) ∧
    (∀ o x, s.freeSlot ≠ none → s.tuner.op = some o → o.yieldsTo p → canPost s o.slot x →
      ∃ t, exec (rowOf p h c) s = .next t ∧ tunerTaken s t p h c.code o x slot after) ∧
    (∀ o, s.freeSlot ≠ none → s.tuner.op = some o → o.yieldsTo p → ∃ u k, s.afterEnding o u k ∧
      exec (rowOf p h c) s = .next (((u.setSlot k slot).setTuner (after k)).closed p h c (Answer.acceptedIn k))) := by
  have hended : ∀ o, s.freeSlot ≠ none → s.tuner.op = some o → o.yieldsTo p → ∃ u k, s.afterEnding o u k ∧
      exec (rowOf p h c) s = .next (((u.setSlot k slot).setTuner (after k)).closed p h c (Answer.acceptedIn k)) := by
    intro o hf ho hy
    obtain ⟨u, k, t, hu, hfreed, heq⟩ := startOn_of_op start ho (x := unlinked p h) hy hf
    refine ⟨u, k, hu, exec_takenAtOnce_kept hc ht (hu.kept slot _) ?_⟩
    rw [hr, heq, hstart u t k hfreed]
  refine ⟨fun hh hf => exec_takenAtOnce_same hc ht (hr.trans (startOn_busy start hh hf)), fun ho k hk => ?_, ?_, hended⟩
  · have hfreed : s.tuner.FreedAt s.tuner s.heldFrequency :=
      (State.heldFrequency_of_no_op ho) ▸ TunerRec.freedAt_self ho
    refine exec_takenAtOnce_kept hc ht (portsKept_of_eq rfl) ?_
    exact (hr.trans (startOn_of_no_op start ho hk)).trans (congrArg (Prod.mk _) (hstart s s.tuner k hfreed))
  · intro o x hf ho hy hx
    obtain ⟨u, k, hu, he⟩ := hended o hf ho hy
    exact ⟨_, he, hu.tunerTaken hx slot _⟩

/-! ### The tuning grid -/

theorem bandOf_eq_none {x : Byte} (h : 2 ≤ x.toNat) : bandOf x = none := by
  unfold bandOf
  split <;> first | omega | rfl

theorem directionOf_eq_none {x : Byte} (h : 2 ≤ x.toNat) : directionOf x = none := by
  unfold directionOf
  split <;> first | omega | rfl

theorem regionOf_eq_none {x : Byte} (h : 2 ≤ x.toNat) : regionOf x = none := by
  unfold regionOf
  split <;> first | omega | rfl

theorem inBand_iff (b : Band) (r : Region) (f : Nat) : inBand b r f = true ↔ gridLow b r ≤ f ∧ f ≤ gridHigh b := by
  simp [inBand]

theorem onGrid_iff (b : Band) (r : Region) (f : Nat) : onGrid b r f = true ↔
    gridLow b r ≤ f ∧ f ≤ gridHigh b ∧ (f - gridLow b r) % gridStep b r = 0 := by
  simp [onGrid, inBand, and_assoc]

/-- The three grids: FM, AM in steps of 9 kHz and AM in steps of 10 kHz. -/
theorem grid_cases (b : Band) (r : Region) :
    (gridLow b r = 8750 ∧ gridHigh b = 10800 ∧ gridStep b r = 5) ∨
    (gridLow b r = 522 ∧ gridHigh b = 1710 ∧ gridStep b r = 9) ∨
    (gridLow b r = 530 ∧ gridHigh b = 1710 ∧ gridStep b r = 10) := by
  cases b <;> cases r <;> decide

/-- A frequency of a band is snapped down onto the grid. -/
theorem snapDown_spec (b : Band) (r : Region) {f : Nat} (h1 : gridLow b r ≤ f) (h2 : f ≤ gridHigh b) :
    onGrid b r (snapDown b r f) = true ∧ snapDown b r f ≤ f ∧ f < snapDown b r f + gridStep b r := by
  rw [onGrid_iff, snapDown]
  obtain ⟨hl, hh, hs⟩ | ⟨hl, hh, hs⟩ | ⟨hl, hh, hs⟩ := grid_cases b r
  all_goals
    rw [hl] at h1 ⊢
    rw [hh] at h2 ⊢
    rw [hs]
    omega

/-- The neighbours of a channel, wrapping at the edges of the band. -/
theorem nextChannel_spec (b : Band) (r : Region) {f : Nat} (h : onGrid b r f = true) :
    nextChannel b r .up f = (if f = gridHigh b then gridLow b r else f + gridStep b r) ∧
    nextChannel b r .down f = (if f = gridLow b r then gridHigh b else f - gridStep b r) := by
  rw [onGrid_iff] at h
  simp only [nextChannel]
  obtain ⟨hl, hh, hs⟩ | ⟨hl, hh, hs⟩ | ⟨hl, hh, hs⟩ := grid_cases b r
  all_goals
    rw [hl, hh, hs] at h
    rw [hl, hh, hs]
    constructor <;> split <;> split <;> omega

/-! ### Tune, Step Tune and the recalls -/

/-- A command that names a channel is carried out as a tune of that channel. -/
theorem runCmd_tunesTo {s : State} {c : Cmd} {kind : SlotKind} {b : Band} {f : Nat} (x : Ctx)
    (hc : s.tunesTo c = some (kind, b, f)) : c.isService = false ∧ runCmd x c s = tuneTo x kind b f s := by
  cases c
  case tune band frequency =>
    cases hb : bandOf band with
    | none => simp [State.tunesTo, hb] at hc
    | some b' =>
      by_cases hin : gridLow b' s.tuner.region ≤ frequency.toNat ∧ frequency.toNat ≤ gridHigh b'
      · simp only [State.tunesTo, hb, if_pos hin, Option.some.injEq, Prod.mk.injEq] at hc
        obtain ⟨rfl, rfl, rfl⟩ := hc
        exact ⟨rfl, by simp [runCmd, doTune, hb, (inBand_iff _ _ _).2 hin]⟩
      · simp [State.tunesTo, hb, hin] at hc
  case recallStation index =>
    obtain ⟨e, he, hv⟩ := Option.map_eq_some_iff.1 hc
    cases hv
    exact ⟨rfl, by simp [runCmd, doRecallStation, he]⟩
  case recallPreset preset =>
    obtain ⟨n, hn, hr⟩ := Option.bind_eq_some_iff.1 hc
    obtain ⟨r, hr0, hv⟩ := Option.map_eq_some_iff.1 hr
    cases hv
    exact ⟨rfl, by simp only [runCmd, doRecallPreset, hn, hr0]⟩
  all_goals cases hc

theorem presetOf_eq_none {x : Byte} (h : x = 0 ∨ 40 < x.toNat) : presetOf x = none := by
  refine dif_neg fun hx => ?_
  rcases h with rfl | h
  · exact absurd hx.1 (by decide)
  · omega

theorem presetOf_val {x : Byte} {n : Fin 40} (h : presetOf x = some n) : n.val + 1 = x.toNat := by
  obtain ⟨hr, hn⟩ := Option.dite_none_right_eq_some.1 h
  obtain rfl := Option.some.inj hn
  change x.toNat - 1 + 1 = x.toNat
  omega

theorem presetOf_of_val {x : Byte} {n : Fin 40} (h : x.toNat = n.val + 1) : presetOf x = some n := by
  rw [presetOf, dif_pos (by omega)]
  exact congrArg some (Fin.ext (by change x.toNat - 1 = n.val; omega))

/-- Settles O52: the tests of each command, then what every accepted command does. -/
theorem tuneCommandsSettle : Obligations.TuneCommandsSettle := by
  refine ⟨fun p h c s ht => ?_, fun b r f => snapDown_spec b r, fun b r f => nextChannel_spec b r⟩
  intro same accepted
  refine ⟨fun band frequency hc => ⟨fun hband => ?_, fun b hb hout => ?_⟩, fun index hc hlen => ?_, fun preset hc hp => ?_,
    fun kind b f hc => ⟨fun hheld => ?_, fun hheld => ⟨fun h1 h2 h3 => ?_, fun hidle => ?_⟩⟩,
    fun direction hc => ⟨fun hdir => ?_, fun d hd => ⟨fun hheld => ?_, fun hheld => ?_⟩⟩⟩
  · subst hc
    exact exec_takenAtOnce_same rfl ht (by simp [runCmd, doTune, bandOf_eq_none hband])
  · subst hc
    have hin : inBand b s.tuner.region frequency.toNat = false :=
      Bool.eq_false_iff.2 fun e => by rw [inBand_iff] at e; omega
    exact exec_takenAtOnce_same rfl ht (by simp [runCmd, doTune, hb, hin])
  · subst hc
    exact exec_takenAtOnce_same rfl ht (by simp [runCmd, doRecallStation, List.getElem?_eq_none hlen])
  · subst hc
    refine exec_takenAtOnce_same rfl ht ?_
    cases hn : presetOf preset with
    | none => simp [runCmd, doRecallPreset, hn]
    | some n =>
      have hnone : s.tuner.presets[n] = none := by
        rcases hp with e | e | e
        · simp [presetOf_eq_none (.inl e)] at hn
        · simp [presetOf_eq_none (.inr e)] at hn
        · exact e n (presetOf_val hn)
      simp [runCmd, doRecallPreset, hn, hnone]
  · obtain ⟨hs, hr⟩ := runCmd_tunesTo (unlinked p h) hc
    exact exec_takenAtOnce_same hs ht (hr.trans (tuneTo_held kind b f hheld))
  · obtain ⟨hs, hr⟩ := runCmd_tunesTo (unlinked p h) hc
    exact exec_takenAtOnce_same hs ht (hr.trans (tuneTo_idle kind hheld ⟨h1, h2, h3⟩))
  · obtain ⟨hs, hr⟩ := runCmd_tunesTo (unlinked p h) hc
    obtain ⟨h1, h2⟩ := startOn_accepted (unlinkedSlot kind (some (BitVec.ofNat 16 f)) p h)
      (fun k => s.tuner.tuned .tune b f k p) _ hs ht (hr.trans (tuneTo_of_not_idle kind hidle))
      fun u t k hf => State.acceptTune_eq hf p h kind .tune b f k
    exact ⟨h1 hheld, h2⟩
  · subst hc
    exact exec_takenAtOnce_same rfl ht (by simp [runCmd, doStepTune, directionOf_eq_none hdir])
  · subst hc
    exact exec_takenAtOnce_same rfl ht (by simpa [runCmd, doStepTune, hd] using startOn_held _ hheld)
  · subst hc
    obtain ⟨h1, h2⟩ := startOn_accepted (unlinkedSlot .stepTune (some (BitVec.ofNat 16
      (nextChannel s.tuner.band s.tuner.region d s.heldFrequency))) p h)
      (fun k => s.tuner.tuned .stepTune s.tuner.band (nextChannel s.tuner.band s.tuner.region d s.heldFrequency) k p)
      (fun u k => u.acceptTune (unlinked p h) .stepTune .stepTune u.tuner.band
        (nextChannel u.tuner.band u.tuner.region d u.tuner.frequency) k) rfl ht (by simp [runCmd, doStepTune, hd])
      (fun u t k hf => by
        simp only [State.setTuner_tuner, hf.band, hf.region, hf.frequency]
        exact State.acceptTune_eq hf p h ..)
    exact ⟨h1 hheld, h2⟩

end Sys2Proof.Machine

end

section
/-! PROOFS. Seeks and scans (R148, R149, R160 to R164; O53, O54). -/

open Sys2Proof Sys2Proof.Machine

namespace Sys2Proof.Machine

/-! ### Starts -/

theorem TunerRec.startSeek_eq {r t : TunerRec} {f : Nat} (h : r.FreedAt t f) (d : Direction) (k : Fin 8) (p : Port) :
    t.startSeek d k p = ({ r with frequency := f } : TunerRec).seeking d k p := by
  obtain ⟨hop, hf, hband, hregion, hthreshold, hquality, hblend, hstations, hpresets⟩ := h
  simp only [TunerRec.startSeek, TunerRec.seeking, dwellTime_eq, hf, hband, hregion, hthreshold, hquality, hblend,
    hstations, hpresets]

theorem TunerRec.startScan_eq {r t : TunerRec} {f : Nat} (h : r.FreedAt t f) (b : Band) (k : Fin 8) (p : Port) :
    t.startScan b k p = ({ r with frequency := f } : TunerRec).scanning b k p := by
  obtain ⟨hop, hf, hband, hregion, hthreshold, hquality, hblend, hstations, hpresets⟩ := h
  have hfilter : (fun e : StationEntry => e.band != b) = fun e => decide (e.band ≠ b) := by
    funext e
    by_cases he : e.band = b <;> simp [he]
  simp only [TunerRec.startScan, TunerRec.scanning, dwellTime_eq, hf, hband, hregion, hthreshold, hquality, hblend,
    hstations, hpresets, hfilter]

/-- The frequency held where no operation is present is the tuner's. -/
theorem State.tuner_at_held {s : State} (h : s.tuner.op = none) :
    ({ s.tuner with frequency := s.heldFrequency } : TunerRec) = s.tuner := by
  rw [State.heldFrequency_of_no_op h]

/-! ### Ends -/

/-- The end of an operation with the tuner's event, as the statements write it. -/
theorem State.ended_raised {s : State} (k : Fin 8) (st : Status) (r : List Byte) (t : TunerRec) :
    ((s.complete k st r).setTuner t).raiseTuner tunerDone =
      ({ s.complete k st r with
        tuner := (((s.complete k st r).setTuner t).raiseTuner tunerDone).tuner } : State).raise .tuner
        { EventDetail.zero with reasons := 1 } := rfl

theorem State.complete_setTuner_changes (s : State) (k : Fin 8) (st : Status) (r : List Byte) (t : TunerRec) :
    onlyChanges [.tuner, .slots, .ports] s ((s.complete k st r).setTuner t) :=
  ((State.complete_frame s k st r).1.mono (by decide)).trans ((State.setTuner_frame _ t).1.mono (by decide))

theorem slotPosted_of_complete {s t : State} {k : Fin 8} {b : SlotBody} {st : Status} {r : List Byte}
    (hb : canPost s k b) (hs : t.slots = (s.complete k st r).slots)
    (hp : ∀ q, (t.port q).completions = ((s.complete k st r).port q).completions) : slotPosted s t k b st r := by
  have hslot (j : Fin 8) : t.slot j = (s.complete k st r).slot j := by
    unfold State.slot
    rw [hs]
  rw [State.complete_posts hb] at hslot hp
  refine ⟨by rw [hslot, State.slot_setSlot_self], fun j hj => ?_, ?_⟩
  · rw [hslot, State.slot_setSlot_ne _ _ hj]
    rfl
  · rw [hp]
    change ((s.setPort b.port _).port b.port).completions = _
    rw [State.port_setPort_self]

theorem State.raise_completions (s : State) (k : EventKind) (d : EventDetail) (q : Port) :
    ((s.raise k d).port q).completions = (s.port q).completions := by
  rw [State.raise_port]

theorem State.raise_slots (s : State) (k : EventKind) (d : EventDetail) : (s.raise k d).slots = s.slots :=
  (State.raise_frame s k d).1 .slots (by decide)

theorem natByte_quality (q : Fin 101) : natByte q.val = BitVec.ofNat 8 q.val := rfl

/-- Settles O53: Seek starts as every tuner command, and each dwell expiry is found, passed over or the last. -/
theorem seeksTestEveryChannel : Obligations.SeeksTestEveryChannel := by
  refine ⟨fun p h direction s ht => ?_, fun q s => ⟨fun hs => ?_, fun k o hs hk ho => ?_⟩⟩
  · intro same
    refine ⟨fun hdir => exec_takenAtOnce_same rfl ht (by simp [runCmd, doSeek, directionOf_eq_none hdir]), fun d hd =>
      ⟨fun hheld => exec_takenAtOnce_same rfl ht (by simpa [runCmd, doSeek, hd] using startOn_held _ hheld), ?_⟩⟩
    have hstart := startOn_accepted (unlinkedSlot .seek none p h)
      (fun k => ({ s.tuner with frequency := s.heldFrequency } : TunerRec).seeking d k p)
      (fun u k => (u.takeSlot k .seek none (unlinked p h)).setTuner (u.tuner.startSeek d k p)) (c := .seek direction) rfl
      ht (by simp [runCmd, doSeek, hd, unlinked]) (fun u t k hf => by
        rw [State.setTuner_tuner, TunerRec.startSeek_eq hf]
        rfl)
    refine ⟨hstart.1, fun ho k hf => ?_, hstart.2.2⟩
    have hrun := hstart.2.1 ho k hf
    rw [State.tuner_at_held ho] at hrun
    exact hrun
  · change Host.Outcome.next (s.seekDwellEnds q.val) = _
    rw [State.seekDwellEnds]
    split
    · next e _ _ => exact absurd e hs
    · rfl
  · intro m next
    have hstep : exec (.seekDwellExpiry q) s = .next (s.seekDwellEnds q.val) := rfl
    have hends : s.seekDwellEnds q.val =
        if s.tuner.threshold ≤ q.val then (s.setTuner m).seekFound o
        else if next = k.start then (s.setTuner m).seekNotFound o k
        else s.setTuner { m with frequency := next, seek := some { k with dwell := dwellTime s.tuner.band } } := by
      rw [State.seekDwellEnds, hs, hk, ho]
      rfl
    rw [hstep, hends]
    refine ⟨fun hq => ?_, fun hq hn => ?_, fun hq hn => ?_⟩
    · rw [if_pos hq]
      have he : (s.setTuner m).seekFound o = ((s.complete o.slot .done
          (tuneResult s.tuner.band s.tuner.frequency q.val)).setTuner
            (({ m with seek := none, op := none } : TunerRec).rested s.tunerHeard)).raiseTuner tunerDone :=
        congrArg (State.raiseTuner · tunerDone) (State.endTunerOp_restTuner s { m with seek := none } o .done _)
      refine ⟨_, rfl, ?_, ?_, ?_, ⟨?_, fun b hb => ?_⟩, ?_⟩
      all_goals rw [he]
      · exact TunerRec.rested_eq ..
      · exact comesToRest_of rfl
      · exact State.raise_reported _ _ (by decide)
      · rfl
      · exact slotPosted_of_complete hb (State.raise_slots ..) fun q => State.raise_completions ..
      · exact (State.complete_setTuner_changes s _ _ _ _).trans ((State.raiseTuner_frame _ _).1.mono (by decide))
    · rw [if_neg (by omega), if_neg hn, dwellTime_eq]
    · rw [if_neg (by omega), if_pos hn]
      have he : (s.setTuner m).seekNotFound o k = (s.complete o.slot .notFound
          (tuneResult s.tuner.band k.start 0)).setTuner
            (({ m with seek := none, frequency := k.start, op := none } : TunerRec).settledOrParked s.tunerHeard) :=
        State.endTunerOp_settleOrPark s { m with seek := none, frequency := k.start } o .notFound _
      refine ⟨_, rfl, ?_, ?_, ⟨?_, fun b hb => ?_⟩, ?_⟩
      all_goals rw [he]
      · exact TunerRec.settledOrParked_eq ..
      · exact settlesOrParks_of (r := { m with seek := none, frequency := k.start, op := none }) rfl rfl
      · rfl
      · exact slotPosted_of_complete hb rfl fun q => rfl
      · exact State.complete_setTuner_changes s _ _ _ _

/-! ### The station list -/

theorem StationEntry.before_trans {a b c : StationEntry} (h1 : a.before b = true) (h2 : b.before c = true) :
    a.before c = true := by
  unfold StationEntry.before at *
  cases ha : a.band <;> cases hb : b.band <;> cases hc : c.band <;> simp_all <;> omega

theorem StationEntry.ne_of_before {a b : StationEntry} (h : a.before b = true) :
    a.band ≠ b.band ∨ a.frequency ≠ b.frequency := by
  by_contra hn
  simp only [not_or, not_not] at hn
  obtain ⟨hb, hf⟩ := hn
  unfold StationEntry.before at h
  cases ha : a.band <;> simp_all

theorem insertStation_perm (e : StationEntry) (l : List StationEntry) : (insertStation e l).Perm (e :: l) := by
  induction l with
  | nil => exact List.Perm.refl _
  | cons x l ih =>
    rw [insertStation]
    split
    · exact List.Perm.refl _
    · exact (ih.cons x).trans (List.Perm.swap e x l)

/-- An entry whose place is known beside every entry of a list in order goes to its place (R160). -/
theorem insertStation_pairwise {e : StationEntry} {l : List StationEntry}
    (hl : l.Pairwise fun a b => a.before b = true) (he : ∀ x ∈ l, x.before e = true ∨ e.before x = true) :
    (insertStation e l).Pairwise fun a b => a.before b = true := by
  induction l with
  | nil => exact List.pairwise_singleton _ _
  | cons x l ih =>
    obtain ⟨hx, hl'⟩ := List.pairwise_cons.1 hl
    rw [insertStation]
    split
    · next hb =>
      refine List.pairwise_cons.2 ⟨fun y hy => ?_, hl⟩
      rcases List.mem_cons.1 hy with rfl | hy
      · exact hb
      · exact StationEntry.before_trans hb (hx y hy)
    · next hb =>
      refine List.pairwise_cons.2 ⟨fun y hy => ?_, ih hl' fun y hy => he y (List.mem_cons_of_mem _ hy)⟩
      rcases List.mem_cons.1 ((insertStation_perm e l).mem_iff.1 hy) with rfl | hy
      · exact (he x List.mem_cons_self).resolve_right hb
      · exact hx y hy

/-- Entry `a` would be dropped before `b`, or beside it: its quality is lower, or the same at a higher frequency (R163). -/
def StationEntry.worse (a b : StationEntry) : Prop :=
  a.quality < b.quality ∨ (a.quality = b.quality ∧ b.frequency ≤ a.frequency)

/-- One step of the search for the worst entry. -/
def worseOf (w : Option StationEntry) (e : StationEntry) : Option StationEntry :=
  match w with
  | none => some e
  | some w => if e.quality < w.quality ∨ (e.quality = w.quality ∧ w.frequency < e.frequency) then some e else some w

theorem worstStation_eq (b : Band) (l : List StationEntry) :
    worstStation b l = (l.filter fun e => e.band == b).foldl worseOf none := rfl

theorem foldl_worseOf (w : StationEntry) (l : List StationEntry) :
    ∃ v, l.foldl worseOf (some w) = some v ∧ v ∈ w :: l ∧ ∀ e ∈ w :: l, v.worse e := by
  induction l generalizing w with
  | nil => exact ⟨w, rfl, List.mem_cons_self, by simp [StationEntry.worse]⟩
  | cons x l ih =>
    rw [List.foldl_cons]
    by_cases hx : x.quality < w.quality ∨ (x.quality = w.quality ∧ w.frequency < x.frequency)
    · rw [show worseOf (some w) x = some x from if_pos hx]
      obtain ⟨v, hv, hm, hall⟩ := ih x
      refine ⟨v, hv, List.mem_cons_of_mem _ hm, fun e he => ?_⟩
      rcases List.mem_cons.1 he with rfl | he
      · have hvx : v.worse x := hall x List.mem_cons_self
        unfold StationEntry.worse at *
        omega
      · exact hall e he
    · rw [show worseOf (some w) x = some w from if_neg hx]
      obtain ⟨v, hv, hm, hall⟩ := ih w
      refine ⟨v, hv, ?_, fun e he => ?_⟩
      · rcases List.mem_cons.1 hm with rfl | hm
        · exact List.mem_cons_self
        · exact List.mem_cons_of_mem _ (List.mem_cons_of_mem _ hm)
      · rcases List.mem_cons.1 he with rfl | he
        · exact hall e List.mem_cons_self
        · rcases List.mem_cons.1 he with rfl | he
          · have hvw : v.worse w := hall w List.mem_cons_self
            unfold StationEntry.worse at *
            omega
          · exact hall e (List.mem_cons_of_mem _ he)

theorem worstStation_none {b : Band} {l : List StationEntry} (h : ∀ x ∈ l, x.band ≠ b) : worstStation b l = none := by
  have hnil : l.filter (fun e => e.band == b) = [] := List.filter_eq_nil_iff.2 fun x hx => by simpa using h x hx
  rw [worstStation_eq, hnil]
  rfl

/-- Of a list in order, the entry of R163 is the one that the search finds. -/
theorem worstStation_some {t : TunerRec} {w : StationEntry} (hl : t.stations.Pairwise fun a b => a.before b = true)
    (hw : t.worstOf w) : worstStation w.band t.stations = some w := by
  obtain ⟨hmem, hworst⟩ := hw
  have hin : w ∈ t.stations.filter fun e => e.band == w.band := List.mem_filter.2 ⟨hmem, by simp⟩
  rw [worstStation_eq]
  obtain ⟨y, ys, hy⟩ := List.exists_cons_of_ne_nil (List.ne_nil_of_mem hin)
  rw [hy]
  obtain ⟨v, hv, hm, hall⟩ := foldl_worseOf y ys
  refine hv.trans (congrArg some ?_)
  rw [← hy] at hm hall
  obtain ⟨hvmem, hvband⟩ := List.mem_filter.1 hm
  have hband : v.band = w.band := by simpa using hvband
  have hwv := hworst v hvmem hband
  have hvw : v.worse w := hall w hin
  unfold StationEntry.worse at hvw
  by_contra hne
  have hpair : t.stations.Pairwise fun a b => a.band ≠ b.band ∨ a.frequency ≠ b.frequency :=
    hl.imp StationEntry.ne_of_before
  have hsymm : Std.Symm fun a b : StationEntry => a.band ≠ b.band ∨ a.frequency ≠ b.frequency :=
    ⟨fun _ _ h => h.imp Ne.symm Ne.symm⟩
  rcases hpair.forall hvmem hmem hne with h | h
  · exact h hband
  · omega

/-- A dwell of a scan whose channel leaves the list `l` and the operation `o'` (R162). -/
theorem State.scanDwellEnds_eq {s : State} {q : Nat} {k : ScanRec} {o o' : TunerOp} {l : List StationEntry}
    (hs : s.tuner.state = .scanning) (hk : s.tuner.scan = some k) (ho : s.tuner.op = some o)
    (hm : (s.tuner.measured q).scanMeasured o k q = ({ s.tuner.measured q with stations := l }, o'))
    (hslot : o'.slot = o.slot) :
    s.scanDwellEnds q =
      if k.channel < gridHigh o.scanBand then s.setTuner { s.tuner.measured q with
        stations := l, op := some o'
        scan := some { channel := k.channel + gridStep o.scanBand s.tuner.region
                       dwell := if o.scanBand = .fm then 25 else 60 } }
      else (s.complete o.slot .done (scanResult o' l.length)).setTuner
        (({ s.tuner.measured q with stations := l, scan := none, op := none } : TunerRec).settledOrParked s.tunerHeard) := by
  have hend := State.endTunerOp_settleOrPark s { s.tuner.measured q with stations := l, scan := none, op := some o' } o'
    .done (scanResult o' l.length)
  rw [hslot] at hend
  rw [State.scanDwellEnds, hs, hk, ho]
  simp only [TunerRec.report_eq, hm, dwellTime_eq]
  rw [← hend]
  rfl

/-- Settles O54: Scan starts as every tuner command; the list takes what is found. -/
theorem scansBuildTheStationList : Obligations.ScansBuildTheStationList := by
  refine ⟨fun p h band s ht => ?_, fun q s => ⟨fun hs => ?_, fun k o hs hk ho hl => ?_⟩⟩
  · intro same
    refine ⟨fun hband => exec_takenAtOnce_same rfl ht (by simp [runCmd, doScan, bandOf_eq_none hband]), fun b hb =>
      ⟨fun hheld => exec_takenAtOnce_same rfl ht (by simpa [runCmd, doScan, hb] using startOn_held _ hheld), ?_⟩⟩
    have hstart := startOn_accepted (unlinkedSlot .scan (some (b.code.zeroExtend 16)) p h)
      (fun k => ({ s.tuner with frequency := s.heldFrequency } : TunerRec).scanning b k p)
      (fun u k => (u.takeSlot k .scan (some (b.code.zeroExtend 16)) (unlinked p h)).setTuner
        (u.tuner.startScan b k p)) (c := .scan band) rfl
      ht (by simp [runCmd, doScan, hb, unlinked]) (fun u t k hf => by
        rw [State.setTuner_tuner, TunerRec.startScan_eq hf]
        rfl)
    refine ⟨hstart.1, fun ho k hf => ?_, hstart.2.2⟩
    have hrun := hstart.2.1 ho k hf
    rw [State.tuner_at_held ho] at hrun
    exact hrun
  · change Host.Outcome.next (s.scanDwellEnds q.val) = _
    rw [State.scanDwellEnds]
    split
    · next e _ _ => exact absurd e hs
    · rfl
  · intro m e finds full goesOn found dropped
    have hgoes (o' : TunerOp) (l : List StationEntry) (list : List StationEntry → Prop) (hlist : list l)
        (hm : m.scanMeasured o k q.val = ({ m with stations := l }, o')) (hslot : o'.slot = o.slot)
        (hband : o'.scanBand = o.scanBand) : goesOn o' list := by
      have hstep : exec (.scanDwellExpiry q) s = .next (s.scanDwellEnds q.val) := rfl
      have hends := State.scanDwellEnds_eq hs hk ho hm hslot
      refine ⟨fun hlow => ⟨_, hstep, ?_⟩, fun hhigh => ⟨_, hstep, ?_⟩⟩
      · rw [hends, if_pos hlow]
        exact ⟨rfl, hlist, (State.setTuner_frame _ _).1⟩
      · rw [hends, if_neg (by omega)]
        have ht := TunerRec.settledOrParked_eq ({ m with stations := l, scan := none, op := none } : TunerRec)
          s.tunerHeard
        have hstations : (({ m with stations := l, scan := none, op := none } : TunerRec).settledOrParked
            s.tunerHeard).stations = l := by rw [ht]
        refine ⟨?_, ?_, settlesOrParks_of (r := { m with stations := l, scan := none, op := none }) rfl rfl,
          ⟨?_, fun b hb => ?_⟩, State.complete_setTuner_changes s _ _ _ _⟩
        · rw [State.setTuner_tuner, hstations]
          exact ht
        · rw [State.setTuner_tuner, hstations]
          exact hlist
        · rw [State.setTuner_tuner, hstations, ← hband]
          rfl
        · rw [State.setTuner_tuner, hstations, ← hband]
          exact slotPosted_of_complete hb rfl fun q => rfl
    have hoffer (hf : finds) {l : List StationEntry} {b : Bool} (h : offerStation e s.tuner.stations = (l, b)) :
        m.scanMeasured o k q.val = ({ m with stations := l }, if b then dropped else found) := by
      have hm : m.scanMeasured o k q.val = ({ m with stations := (offerStation e s.tuner.stations).1 },
        { o with found := o.found + 1,
                 dropped := if (offerStation e s.tuner.stations).2 then o.dropped + 1 else o.dropped }) := if_pos hf
      rw [hm, h]
      cases b <;> rfl
    have hworst {w : StationEntry} (hw : s.tuner.worstOf w) (hband : w.band = o.scanBand) :
        worstStation e.band s.tuner.stations = some w := by
      have hfound := worstStation_some hl hw
      rw [hband] at hfound
      exact hfound
    refine ⟨fun hf => hgoes o _ (fun l => l = s.tuner.stations) rfl (if_neg hf) rfl rfl, fun hf hfull => ?_, fun hf hfull hnone => ?_,
      fun w hf hfull hw hband => ⟨fun hq => ?_, fun hq => ?_⟩⟩
    · refine hgoes found (insertStation e s.tuner.stations) (fun l => l.Perm (e :: s.tuner.stations) ∧
        ((∀ x, x ∈ s.tuner.stations → x.before e = true ∨ e.before x = true) →
          l.Pairwise fun a b => a.before b = true)) ?_ (hoffer hf (b := false) ?_) rfl rfl
      · exact ⟨insertStation_perm e _, insertStation_pairwise hl⟩
      · exact if_pos (by omega)
    · refine hgoes dropped s.tuner.stations (fun l => l = s.tuner.stations) ?_ (hoffer hf (b := true) ?_) rfl rfl
      · rfl
      · rw [offerStation, if_neg (by omega), worstStation_none hnone]
    · refine hgoes dropped s.tuner.stations (fun l => l = s.tuner.stations) ?_ (hoffer hf (b := true) ?_) rfl rfl
      · rfl
      · rw [offerStation, if_neg (by omega), hworst hw hband]
        exact if_neg (by change ¬ w.quality < q.val; omega)
    · have hfilter : (fun x : StationEntry => x != w) = fun x => decide (x ≠ w) := by
        funext x
        by_cases hx : x = w <;> simp [hx]
      refine hgoes dropped (insertStation e (s.tuner.stations.filter fun x => decide (x ≠ w)))
        (fun l => l.Perm (e :: s.tuner.stations.filter fun x => decide (x ≠ w))) ?_
        (hoffer hf (b := true) ?_) rfl rfl
      · exact insertStation_perm e _
      · rw [offerStation, if_neg (by omega), hworst hw hband, ← hfilter]
        exact if_pos hq

end Sys2Proof.Machine

end

section
/-! PROOFS. Settles, quality, labels, and the settings and presets of the Tuner (R143, R151 to R156, R165, R168 to R171;
O55, O56). -/

open Sys2Proof Sys2Proof.Machine

namespace Sys2Proof.Machine

/-! ### The label -/

theorem LabelRec.setPair_pair_self (l : LabelRec) (i : Fin 4) (c : Byte × Byte) : (l.setPair i c).pair i = some c := by
  match i with
  | 0 => rfl
  | 1 => rfl
  | 2 => rfl
  | 3 => rfl

theorem LabelRec.setPair_pair_ne (l : LabelRec) {i j : Fin 4} (c : Byte × Byte) (h : j ≠ i) :
    (l.setPair i c).pair j = l.pair j := by
  match i, j with
  | 0, 0 | 1, 1 | 2, 2 | 3, 3 => exact absurd rfl h
  | 0, 1 | 0, 2 | 0, 3 => rfl
  | 1, 0 | 1, 2 | 1, 3 => rfl
  | 2, 0 | 2, 1 | 2, 3 => rfl
  | 3, 0 | 3, 1 | 3, 2 => rfl

theorem LabelRec.setPair_version (l : LabelRec) (i : Fin 4) (c : Byte × Byte) : (l.setPair i c).version = l.version := by
  match i with
  | 0 => rfl
  | 1 => rfl
  | 2 => rfl
  | 3 => rfl

theorem LabelRec.judged_pair (l : LabelRec) (i : Fin 4) : l.judged.pair i = l.pair i := rfl

theorem LabelRec.full_iff (l : LabelRec) : l.full = true ↔ ∀ j, l.pair j ≠ none := by
  simp [LabelRec.full, Fin.forall_fin_succ, LabelRec.pair, Option.isSome_iff_ne_none, and_assoc]

theorem LabelRec.judged_complete (l : LabelRec) : l.judged.state = .complete ↔ ∀ j, l.judged.pair j ≠ none := by
  change (if l.full then LabelState.complete else .partly) = .complete ↔ ∀ j, l.pair j ≠ none
  rw [← LabelRec.full_iff]
  cases l.full <;> simp

theorem LabelRec.judged_ne_none (l : LabelRec) : l.judged.state ≠ .none := by
  change (if l.full then LabelState.complete else .partly) ≠ .none
  cases l.full <;> simp

/-- What the assembly starts from when a segment of a version is taken: itself, or empty (R153). -/
def LabelRec.base (l : LabelRec) (v : Bool) : LabelRec :=
  if l.state ≠ .none ∧ l.version = some v then l else { LabelRec.cleared with version := some v }

theorem LabelRec.take_eq (l : LabelRec) (i : Fin 4) (v : Bool) (c : Byte × Byte) :
    l.take i v c = ((l.base v).setPair i c).judged := by
  unfold LabelRec.take LabelRec.base
  split <;> rfl

theorem LabelRec.base_version (l : LabelRec) (v : Bool) : (l.base v).version = some v := by
  unfold LabelRec.base
  split
  · next h => exact h.2
  · rfl

theorem LabelRec.cleared_pair (v : Bool) (j : Fin 4) :
    ({ LabelRec.cleared with version := some v } : LabelRec).pair j = none := by
  match j with
  | 0 => rfl
  | 1 => rfl
  | 2 => rfl
  | 3 => rfl

/-! ### Settles and quality -/

/-- Settles O55: the end of a settle, the quality reports, and the label. -/
theorem settlesQualityAndLabels : Obligations.SettlesQualityAndLabels := by
  refine ⟨fun q s => ⟨fun hs => congrArg _ (if_neg hs), fun hs => ?_, fun hs => congrArg _ (if_pos hs), fun hs =>
    congrArg _ (if_neg hs)⟩, fun i v a b s => ?_⟩
  · intro rested
    have hstep : exec (.settleExpiry q) s = .next (s.settleEnds q.val) := rfl
    refine ⟨fun ho => ⟨_, hstep, ?_⟩, fun o ho _ => ⟨_, hstep, ?_⟩⟩
    · have he : s.settleEnds q.val =
          (s.setTuner (({ s.tuner.measured q.val with op := none } : TunerRec).rested s.tunerHeard)).raiseTuner tunerDone := by
        have hm : ({ s.tuner.measured q.val with op := none } : TunerRec) = s.tuner.measured q.val := by
          rw [← ho]
          rfl
        have hrest := State.restTuner_eq (s := s.setTuner (s.tuner.measured q.val)) (heard := s.tunerHeard) ho rfl
        rw [State.settleEnds, if_pos hs, hm]
        change State.raiseTuner (State.restTuner (match s.tuner.op with
          | some o => _
          | none => _)) _ = _
        rw [ho]
        exact congrArg (State.raiseTuner · tunerDone) hrest
      rw [he]
      have hraise := State.raise_raises (s.setTuner (({ s.tuner.measured q.val with op := none } : TunerRec).rested
        s.tunerHeard)) .tuner { EventDetail.zero with reasons := tunerDone }
      refine ⟨⟨TunerRec.rested_eq .., comesToRest_of rfl, State.raise_reported _ _ (by decide), ?_⟩, hraise.1,
        State.raise_slots ..⟩
      exact ((State.setTuner_frame s _).1.mono (by decide)).trans ((State.raiseTuner_frame _ _).1.mono (by decide))
    · have he : s.settleEnds q.val = ((s.complete o.slot .done
          (tuneResult s.tuner.band s.tuner.frequency q.val)).setTuner
          (({ s.tuner.measured q.val with op := none } : TunerRec).rested s.tunerHeard)).raiseTuner tunerDone := by
        rw [State.settleEnds, if_pos hs]
        change State.raiseTuner (State.restTuner (match s.tuner.op with
          | some o => _
          | none => _)) _ = _
        rw [ho]
        exact congrArg (State.raiseTuner · tunerDone) (State.endTunerOp_restTuner s (s.tuner.measured q.val) o .done _)
      rw [he]
      refine ⟨⟨TunerRec.rested_eq .., comesToRest_of rfl, State.raise_reported _ _ (by decide), ?_⟩, rfl, fun b hb =>
        slotPosted_of_complete hb (State.raise_slots ..) fun q => State.raise_completions ..⟩
      exact (State.complete_setTuner_changes s _ _ _ _).trans ((State.raiseTuner_frame _ _).1.mono (by decide))
  · intro t0 taken char goesOn
    have hstep : exec (.labelSegment i v a b) s = .next (s.segmentArrives i v a b) := rfl
    refine ⟨fun ht => hstep.trans (congrArg _ (if_neg ht)), fun ht => ?_⟩
    have hl : t0.label.take i v (labelChar a, labelChar b) = ((t0.label.base v).setPair i (char a, char b)).judged :=
      LabelRec.take_eq ..
    have he : s.segmentArrives i v a b =
        if (t0.label.take i v (char a, char b)).state = .complete ∧ t0.label.take i v (char a, char b) ≠ t0.label then
          (s.setTuner (({ t0 with label := t0.label.take i v (char a, char b) } : TunerRec).handLabel)).raiseTuner tunerLabel
        else s.setTuner { t0 with label := t0.label.take i v (char a, char b) } := if_pos ht
    rw [hstep, he]
    generalize hlab : t0.label.take i v (char a, char b) = l at he
    have hfacts : l.version = some v ∧ l.pair i = some (char a, char b) ∧
        (∀ j, j ≠ i → goesOn → l.pair j = t0.label.pair j) ∧ (∀ j, j ≠ i → ¬ goesOn → l.pair j = none) ∧
        (l.state = .complete ↔ ∀ j, l.pair j ≠ none) ∧ l.state ≠ .none := by
      rw [← hlab, LabelRec.take_eq]
      refine ⟨?_, LabelRec.setPair_pair_self .., fun j hj hg => ?_, fun j hj hg => ?_, LabelRec.judged_complete _,
        LabelRec.judged_ne_none _⟩
      · exact (LabelRec.setPair_version ..).trans (LabelRec.base_version ..)
      · refine (LabelRec.setPair_pair_ne _ _ hj).trans ?_
        rw [LabelRec.base, if_pos hg]
      · refine (LabelRec.setPair_pair_ne _ _ hj).trans ?_
        rw [LabelRec.base, if_neg hg, LabelRec.cleared_pair]
    obtain ⟨hv, hpair, hsame, hnone, hcomplete, hstate⟩ := hfacts
    by_cases hnew : l.state = .complete ∧ l ≠ t0.label
    · rw [if_pos hnew]
      refine ⟨_, rfl, rfl, hv, hpair, hsame, hnone, hcomplete, hstate, fun _ _ => ⟨State.raise_reported _ _ (by decide), rfl⟩,
        fun h => ?_, ?_, ?_⟩
      · exact (h.elim (fun e => e hnew.1) (fun e => hnew.2 e)).elim
      · exact (State.raise_raises (s.setTuner _) _ _).1
      · exact ((State.setTuner_frame s _).1.mono (by decide)).trans ((State.raiseTuner_frame _ _).1.mono (by decide))
    · rw [if_neg hnew]
      exact ⟨_, rfl, rfl, hv, hpair, hsame, hnone, hcomplete, hstate, fun h1 h2 => absurd ⟨h1, h2⟩ hnew,
        fun _ => ⟨rfl, rfl⟩, portsRaised.of_ports_eq rfl, (State.setTuner_frame s _).1.mono (by decide)⟩

/-! ### The region -/

/-- The purge empties a preset exactly where it is purged. -/
theorem foldl_purge (r : Region) (l : List (Fin 40)) (v : Vector (Option PresetRec) 40) (n : Fin 40) :
    (l.foldl (fun v (m : Fin 40) => if purged r v[m] then v.set m none else v) v)[n] =
      if n ∈ l ∧ purged r v[n] = true then none else v[n] := by
  induction l generalizing v with
  | nil => simp
  | cons m l ih =>
    rw [List.foldl_cons, ih]
    by_cases hm : n = m
    · subst hm
      by_cases hp : purged r v[n] = true
      · simp_all
      · rw [if_neg hp, if_neg fun h => hp h.2, if_neg fun h => hp h.2]
    · have hget : (if purged r v[m] = true then v.set m none else v)[n] = v[n] := by
        split
        · exact Vector.getElem_set_ne _ _ (fun e => hm (Fin.ext e.symm))
        · rfl
      rw [hget]
      simp [hm]

theorem TunerRec.purge_presets (t : TunerRec) (n : Fin 40) :
    t.purge.presets[n] = if purged t.region t.presets[n] then none else t.presets[n] := by
  have hall : n ∈ allPresets := List.mem_of_getElem? (allPresets_getElem? n)
  have hfold := foldl_purge t.region allPresets t.presets n
  unfold TunerRec.purge
  generalize allPresets = l at hall hfold ⊢
  by_cases hp : purged t.region t.presets[n] = true
  · rw [if_pos ⟨hall, hp⟩] at hfold
    rw [if_pos hp]
    exact hfold
  · rw [if_neg fun h => hp h.2] at hfold
    rw [if_neg hp]
    exact hfold

theorem TunerRec.purge_stations (t : TunerRec) :
    t.purge.stations = t.stations.filter fun e => decide (e.band = .fm) := by
  refine List.filter_congr fun e _ => ?_
  cases e.band <;> decide

/-- A preset on FM or on the grid is kept by the purge. -/
theorem TunerRec.purge_kept {t : TunerRec} {n : Fin 40}
    (h : ∀ e, t.presets[n] = some e → e.band = .fm ∨ onGrid .am t.region e.frequency = true) :
    t.purge.presets[n] = t.presets[n] := by
  rw [TunerRec.purge_presets]
  refine if_neg fun hp => ?_
  cases hn : t.presets[n] with
  | none => rw [hn] at hp; cases hp
  | some e =>
    rw [hn] at hp
    rcases h e hn with he | he <;> simp [purged, he] at hp

theorem TunerRec.purge_gone {t : TunerRec} {n : Fin 40} {e : PresetRec} (hn : t.presets[n] = some e)
    (hb : e.band = .am) (hg : onGrid .am t.region e.frequency = false) : t.purge.presets[n] = none := by
  rw [TunerRec.purge_presets, hn]
  exact if_pos (by simp [purged, hb, hg])

/-- The frequency that a change of the region leaves. -/
def TunerRec.snapped (t : TunerRec) : Nat := if t.band = .am then snapDown .am t.region t.frequency else t.frequency

/-- What a change of the region leaves of the tuner, but for frequency, state, settle, search and label. -/
theorem TunerRec.snapRegion_kept (t : TunerRec) : t.snapRegion.frequency = t.snapped ∧ t.snapRegion.region = t.region ∧
    t.snapRegion.band = t.band ∧ t.snapRegion.op = t.op ∧ t.snapRegion.threshold = t.threshold ∧
    t.snapRegion.stations = t.stations ∧ t.snapRegion.presets = t.presets := by
  unfold TunerRec.snapRegion TunerRec.snapped
  dsimp only
  split
  · next h =>
    rw [if_pos h.1]
    split <;> exact ⟨rfl, rfl, rfl, rfl, rfl, rfl, rfl⟩
  · next h =>
    refine ⟨?_, rfl, rfl, rfl, rfl, rfl, rfl⟩
    split
    · next hb => exact (not_not.1 fun hn => h ⟨hb, hn⟩).symm
    · rfl

theorem TunerRec.snapRegion_still {t : TunerRec} (h : t.snapped = t.frequency ∨ t.state = .parked) :
    t.snapRegion = { t with frequency := t.snapped } := by
  unfold TunerRec.snapRegion TunerRec.snapped at *
  dsimp only
  split
  · next hb =>
    rw [if_pos hb.1] at h ⊢
    rw [if_pos (h.resolve_left hb.2)]
  · next hb =>
    split
    · next ha =>
      have hf : snapDown .am t.region t.frequency = t.frequency := not_not.1 fun hn => hb ⟨ha, hn⟩
      rw [hf]
    · rfl

theorem TunerRec.snapRegion_moved {t : TunerRec} (hf : t.snapped ≠ t.frequency) (hs : t.state ≠ .parked) :
    t.snapRegion = ({ t with frequency := t.snapped } : TunerRec).settleNow ∧ t.band = .am := by
  unfold TunerRec.snapRegion TunerRec.snapped at *
  dsimp only
  split at hf
  · next hb =>
    rw [if_pos ⟨hb, hf⟩, if_neg hs, if_pos hb]
    exact ⟨rfl, hb⟩
  · exact absurd rfl hf

/-- Set Region that its port takes and that changes the region. -/
theorem exec_setRegion {p : Port} {h : FrameHead} {x : Byte} {s u : State} {r : Region}
    (ht : takenAtOnce s p h (.setRegion x)) (hr : regionOf x = some r) (hheld : ¬ s.heldByOther p)
    (hne : r ≠ s.tuner.region) (hu : s.abortTuner = u) : exec (.setRegion p h x) s =
      .next ((u.setTuner (({ u.tuner with region := r } : TunerRec).snapRegion.purge)).closed p h (.setRegion x)
        (Answer.plain .done)) := by
  have hheld' : s.tunerHeldFrom p = false := Bool.eq_false_iff.2 fun e => hheld ((s.tunerHeldFrom_iff p).1 e)
  subst hu
  refine exec_takenAtOnce_kept rfl ht ((State.abortTuner_frame s).2.trans (portsKept_of_eq rfl)) ?_
  simp only [runCmd, doSetRegion, hr, unlinked, hheld', if_neg hne]
  rfl

/-- The presets and stations after a change of the region to `r`. -/
theorem TunerRec.purged_at {t : TunerRec} {r : Region} (hr : t.region = r) :
    (∀ n : Fin 40, (∀ e, t.presets[n] = some e → e.band = .fm ∨ onGrid .am r e.frequency = true) →
      t.purge.presets[n] = t.presets[n]) ∧
    (∀ (n : Fin 40) e, t.presets[n] = some e → e.band = .am → onGrid .am r e.frequency = false →
      t.purge.presets[n] = none) := by
  subst hr
  exact ⟨fun n => TunerRec.purge_kept, fun n e => TunerRec.purge_gone⟩

/-- A tuner that has settled or parked does so on the new grid too, and no seek or scan runs. -/
theorem settlesOrParks_snapRegion {s t : State} {r : Region} {u : TunerRec} (hl : u.label = s.tuner.label)
    (ht : t.tuner = ({ u.settledOrParked s.tunerHeard with region := r } : TunerRec).snapRegion.purge) :
    settlesOrParks s t u.band ∧ t.tuner.seek = none ∧ t.tuner.scan = none := by
  cases hh : s.tunerHeard with
  | true =>
    rw [hh] at ht
    have hlistened : s.listened := (State.listened_iff s).2 hh
    by_cases hf : ({ u.settledOrParked true with region := r } : TunerRec).snapped = u.frequency
    · rw [TunerRec.snapRegion_still (.inl hf)] at ht
      rw [ht]
      refine ⟨⟨fun _ => ?_, fun h => absurd hlistened h⟩, rfl, rfl⟩
      rw [ht]
      exact ⟨rfl, congrArg some (settleTime_eq u.band), rfl⟩
    · have hmoved := TunerRec.snapRegion_moved hf (by simp [TunerRec.settledOrParked, TunerRec.settleNow])
      rw [hmoved.1] at ht
      rw [ht]
      refine ⟨⟨fun _ => ?_, fun h => absurd hlistened h⟩, rfl, rfl⟩
      rw [ht]
      exact ⟨rfl, congrArg some (settleTime_eq u.band), rfl⟩
  | false =>
    rw [hh, TunerRec.snapRegion_still (.inr rfl)] at ht
    have hlistened : ¬ s.listened := fun h => by rw [State.listened_iff, hh] at h; cases h
    rw [ht]
    refine ⟨⟨fun h => absurd h hlistened, fun _ => ?_⟩, rfl, rfl⟩
    rw [ht]
    exact ⟨rfl, rfl, hl⟩

/-- Settles O56: threshold, region, grid, and the presets. -/
theorem tunerSettingsAndPresets : Obligations.TunerSettingsAndPresets := by
  refine ⟨fun p h x s ht => ⟨fun hv => ?_, fun hv => ?_⟩, fun p h x s ht => ?_, fun r f => ?_, fun p h x s =>
    ⟨fun ht => ⟨fun hx => ?_, fun n hn => ⟨fun he => ?_, fun he => ?_⟩⟩,
     fun ht => ⟨fun hx => ?_, fun n hn => ⟨fun he => ?_, fun he => ?_⟩⟩⟩⟩
  · exact exec_takenAtOnce_same rfl ht (by simp only [runCmd, doSetSeekThreshold, if_pos hv])
  · exact exec_takenAtOnce_kept rfl ht (portsKept_of_eq rfl) (by simp only [runCmd, doSetSeekThreshold, if_neg hv])
  · intro same
    refine ⟨fun hx => exec_takenAtOnce_same rfl ht (by simp [runCmd, doSetRegion, regionOf_eq_none hx]), fun r hr =>
      ⟨fun hheld => ?_, fun hheld he => ?_, fun hne hop => ?_, fun hne o ho hkind hport => ?_⟩⟩
    · exact exec_takenAtOnce_same rfl ht (by
        simp [runCmd, doSetRegion, hr, unlinked, (s.tunerHeldFrom_iff p).2 hheld])
    · have hheld' : s.tunerHeldFrom p = false := Bool.eq_false_iff.2 fun e => hheld ((s.tunerHeldFrom_iff p).1 e)
      exact exec_takenAtOnce_same rfl ht (by simp [runCmd, doSetRegion, hr, unlinked, hheld', he])
    · have hheld : ¬ s.heldByOther p := by
        rintro ⟨o, ho, hk, -⟩
        rcases hop o ho with e | e <;> simp [e] at hk
      have habort : s.abortTuner = s := by
        unfold State.abortTuner
        cases ho : s.tuner.op with
        | none => rfl
        | some o => rcases hop o ho with e | e <;> simp [e]
      refine ⟨_, exec_setRegion ht hr hheld hne habort, ?_⟩
      obtain ⟨hf, hregion, hband, hopk, hthreshold, hstations, hpresets⟩ :=
        TunerRec.snapRegion_kept { s.tuner with region := r }
      obtain ⟨hkept, hgone⟩ := TunerRec.purged_at hregion
      rw [hpresets] at hkept hgone
      have hsnap : ({ s.tuner with region := r } : TunerRec).snapped =
          if s.tuner.band = .am then snapDown .am r s.tuner.frequency else s.tuner.frequency := rfl
      refine ⟨hregion, hf, hband, hopk, hthreshold, fun hstill => ?_, fun hmoved hpark => ?_, ?_, hkept, hgone,
        fun q hq => State.closed_port_ne _ _ _ _ hq, ?_, ?_⟩
      · have he := TunerRec.snapRegion_still (t := { s.tuner with region := r }) hstill
        rw [State.closed, State.setPort_tuner, State.setTuner_tuner, he]
        exact ⟨rfl, rfl, rfl⟩
      · have he := TunerRec.snapRegion_moved (t := { s.tuner with region := r }) hmoved hpark
        have ham : s.tuner.band = .am := he.2
        rw [State.closed, State.setPort_tuner, State.setTuner_tuner, he.1]
        exact ⟨rfl, by simp [TunerRec.purge, TunerRec.settleNow, settleTime, ham], rfl⟩
      · exact (TunerRec.purge_stations _).trans (by rw [hstations])
      · rw [State.closed_port_self]
        rfl
      · exact ((State.setTuner_frame s _).1.mono (by decide)).trans ((State.closed_onlyChanges _ p h _ _).mono (by decide))
    · have hheld : ¬ s.heldByOther p := by
        rintro ⟨o', ho', -, hp⟩
        obtain rfl := Option.some.inj (ho.symm.trans ho')
        exact hp hport
      obtain ⟨t0, htake, hfreed, hsearch⟩ := State.takeTuner_of_op ho
      obtain ⟨habort, u, hu, hlabel, huband⟩ := hsearch hkind
      rw [habort] at htake
      refine ⟨_, exec_setRegion ht hr hheld hne htake, ?_⟩
      obtain ⟨hf, hregion, hband, hopk, hthreshold, hstations, hpresets⟩ :=
        TunerRec.snapRegion_kept { t0 with region := r }
      obtain ⟨hkept, hgone⟩ := TunerRec.purged_at hregion
      rw [hpresets] at hkept hgone
      have hsnap : ({ t0 with region := r } : TunerRec).snapped =
          if s.tuner.band = .am then snapDown .am r s.heldFrequency else s.heldFrequency := by
        rw [← hfreed.band, ← hfreed.frequency]
        rfl
      obtain ⟨hrest, hseek, hscan⟩ := settlesOrParks_snapRegion (r := r) (t := (((s.complete o.slot (s.endedWith o).1
        (s.endedWith o).2).setTuner t0).setTuner (({ t0 with region := r } : TunerRec).snapRegion.purge)).closed p h
        (.setRegion x) (Answer.plain .done)) hlabel (by rw [← hu]; rfl)
      refine ⟨hregion, hf.trans hsnap, hband.trans hfreed.band, hopk.trans hfreed.op, hseek, hscan, huband ▸ hrest, ?_,
        fun n hn => (hkept n fun e he => hn e (hfreed.presets ▸ he)).trans (by rw [hfreed.presets]),
        fun n e hn => hgone n e (hfreed.presets.symm ▸ hn), rfl, fun b hb => ?_, ?_, ?_⟩
      · exact (TunerRec.purge_stations _).trans (congrArg (List.filter _) (hstations.trans hfreed.stations))
      · exact slotPosted_of_complete hb rfl fun q => State.closed_completions ..
      · rw [State.closed_port_self]
        rfl
      · exact (State.complete_setTuner_changes s _ _ _ _).trans ((State.setTuner_frame _ _).1.mono (by decide) |>.trans
          ((State.closed_onlyChanges _ p h _ _).mono (by decide)))
  · cases r <;> simp only [snapDown, gridLow, gridStep, if_true, reduceCtorEq, if_false] <;> omega
  · exact exec_takenAtOnce_same rfl ht (by simp [runCmd, doStorePreset, presetOf_eq_none hx])
  · exact exec_takenAtOnce_same rfl ht (by simp only [runCmd, doStorePreset, presetOf_of_val hn]; exact if_pos he)
  · exact exec_takenAtOnce_kept rfl ht (portsKept_of_eq rfl)
      (by simp only [runCmd, doStorePreset, presetOf_of_val hn]; exact if_neg he)
  · exact exec_takenAtOnce_same rfl ht (by simp [runCmd, doClearPreset, presetOf_eq_none hx])
  · exact exec_takenAtOnce_same rfl ht (by simp only [runCmd, doClearPreset, presetOf_of_val hn]; exact if_pos he)
  · exact exec_takenAtOnce_kept rfl ht (portsKept_of_eq rfl)
      (by simp only [runCmd, doClearPreset, presetOf_of_val hn]; exact if_neg he)

end Sys2Proof.Machine

end

section
/-! PROOFS. Abort Operation, and the start of the delay memory (R115 to R118, R197; O15, O50). -/

open Sys2Proof Sys2Proof.Machine

namespace Sys2Proof.Machine

theorem slotOf_eq_none {b : Byte} (h : 8 ≤ b.toNat) : slotOf b = none := dif_neg (by omega)

theorem slotOf_of_val {b : Byte} {k : Fin 8} (h : b.toNat = k.val) : slotOf b = some k := by
  rw [slotOf, dif_pos (by omega)]
  exact congrArg some (Fin.ext h)

theorem TunerRec.settledOrParked_search (t : TunerRec) (heard : Bool) :
    (t.settledOrParked heard).seek = none ∧ (t.settledOrParked heard).scan = none := by
  cases heard <;> exact ⟨rfl, rfl⟩

theorem State.closed_slots (u : State) (p : Port) (h : FrameHead) (c : Cmd) (a : Answer) :
    (u.closed p h c a).slots = u.slots := rfl

/-- A service command of which the ports are kept. -/
theorem exec_serviceTaken_kept {s u : State} {p : Port} {h : FrameHead} {c : Cmd} {a : Answer}
    (hc : c.isService = true) (ht : serviceTaken s p h c) (hk : portsKept s u)
    (hr : runCmd (unlinked p h) c s = (a, u)) : exec (rowOf p h c) s = .next (u.closed p h c a) := by
  obtain ⟨-, hatt, -, -, -, -, -, -, hn, -⟩ := hk p
  exact exec_serviceTaken hc ht hr hn hatt

/-- Abort Operation comes to the abort of a running slot of its port. -/
theorem runCmd_abortOperation {p : Port} {h : FrameHead} {slot : Byte} {s : State} {k : Fin 8} {b : SlotBody}
    (hk : slot.toNat = k.val) (hb : s.slot k = some b) (hp : b.port = p) (hw : b.waiting = none) :
    runCmd (unlinked p h) (.abortOperation slot) s = abortSlot b s := by
  simp [runCmd, doAbortOperation, slotOf_of_val hk, hb, unlinked, hp, hw]

/-- Settles O15: the tests in order, then the abort of each kind of operation. -/
theorem abortOperationTests : Obligations.AbortOperationTests := by
  intro p h slot s ht same
  refine ⟨fun hs => exec_serviceTaken_same rfl ht (by simp [runCmd, doAbortOperation, slotOf_eq_none hs]), fun k hk =>
    ⟨fun hn => exec_serviceTaken_same rfl ht (by simp [runCmd, doAbortOperation, slotOf_of_val hk, hn]), fun b hb =>
    ⟨fun hp => ?_, fun hp hw => ?_, fun hp hw => ?_⟩⟩⟩
  · exact exec_serviceTaken_same rfl ht (by simp [runCmd, doAbortOperation, slotOf_of_val hk, hb, unlinked, hp])
  · exact exec_serviceTaken_same rfl ht (by
      simp [runCmd, doAbortOperation, slotOf_of_val hk, hb, unlinked, hp, Option.isSome_iff_ne_none.2 hw])
  · have hrun := runCmd_abortOperation (h := h) hk hb hp hw
    intro aborts
    have haborts {u : State} (hr : abortSlot b s = (Answer.plain .done, u)) (parts : List Part) (result : List Byte)
        (after : State → Prop) (hu : u = { s.complete k .aborted result with delay := u.delay, tuner := u.tuner })
        (hparts : onlyChanges (.slots :: .ports :: parts) s u)
        (ha : after (u.closed p h (.abortOperation slot) (Answer.plain .done))) : aborts parts result after := by
      have hkept : portsKept s u := by
        rw [hu]
        exact (State.complete_frame s k .aborted result).2.trans (portsKept_of_eq rfl)
      refine ⟨_, exec_serviceTaken_kept rfl ht hkept (hrun.trans hr), ha, ?_, fun hpost => ?_, ?_, ?_⟩
      · exact congrArg (State.closed · p h (.abortOperation slot) (Answer.plain .done)) hu
      · refine slotPosted_of_complete hpost ?_ fun q => ?_
        · rw [State.closed_slots, hu]
        · rw [State.closed_completions, hu]
          rfl
      · rw [State.closed_port_self]
        rfl
      · exact hparts.trans ((State.closed_onlyChanges _ p h _ _).mono (by simp))
    refine ⟨fun h1 h2 h3 h4 => ?_, fun hkind c hc => ⟨fun hab => ?_, fun hab => ?_⟩, fun hkind c hc hck => ?_,
      fun hkind o from' ho hok hos hseek => ?_, fun hkind o ho hok hos => ?_⟩
    · refine exec_serviceTaken_same rfl ht (hrun.trans ?_)
      unfold abortSlot
      split <;> first | contradiction | rfl
    · exact exec_serviceTaken_same rfl ht (hrun.trans (by simp [abortSlot, hkind, hc, hab]))
    · exact exec_serviceTaken_kept rfl ht (portsKept_of_eq rfl)
        (hrun.trans (by simp [abortSlot, hkind, hc, hab, State.abortCompaction]))
    · have hu : s.abortCheck = (s.complete k .aborted []).setDelay
          { s.delay with state := .uninit, check := none, badRows := [] } := by
        rw [State.abortCheck, hc, ← hck]
        exact State.complete_setDelay ..
      refine haborts (u := s.abortCheck) (by simp only [abortSlot, hkind]) _ _ _ ?_ ?_ ?_
      all_goals rw [hu]
      · rfl
      · exact ((State.complete_frame s _ _ _).1.mono (by decide)).trans ((State.setDelay_frame _ _).1.mono (by decide))
      · rfl
    · obtain ⟨t, htake, hfreed, hsearch⟩ := State.takeTuner_of_op ho
      obtain ⟨habort, u, hu, hlabel, hband⟩ := hsearch (.inl hok)
      have hheld : s.heldFrequency = from'.start := by simp [State.heldFrequency, ho, hok, hseek]
      have hended : s.endedWith o = (.aborted, [s.tuner.band.code] ++ halfBytes (BitVec.ofNat 16 from'.start) ++ [0]) := by
        simp [State.endedWith, hok, hheld]
      rw [habort, hended, hos] at htake
      refine haborts (u := s.abortTuner) (by simp only [abortSlot, hkind]) _ _ _ ?_ ?_ ?_
      all_goals rw [htake]
      · rfl
      · exact (State.complete_setTuner_changes s _ _ _ _).mono (by decide)
      · exact ⟨hfreed.frequency.trans hheld, hu ▸ (u.settledOrParked_search _).1, hfreed.op, hfreed.stations,
          hband ▸ settlesOrParks_of hu hlabel⟩
    · obtain ⟨t, htake, hfreed, hsearch⟩ := State.takeTuner_of_op ho
      obtain ⟨habort, u, hu, hlabel, hband⟩ := hsearch (.inr hok)
      have hheld : s.heldFrequency = s.tuner.frequency := by simp [State.heldFrequency, ho, hok]
      have hended : s.endedWith o = (.aborted, [o.scanBand.code] ++ halfBytes (BitVec.ofNat 16 o.found) ++
          halfBytes (BitVec.ofNat 16 o.dropped) ++ [BitVec.ofNat 8 s.tuner.stations.length]) := by
        simp [State.endedWith, hok]
      rw [habort, hended, hos] at htake
      refine haborts (u := s.abortTuner) (by simp only [abortSlot, hkind]) _ _ _ ?_ ?_ ?_
      all_goals rw [htake]
      · rfl
      · exact (State.complete_setTuner_changes s _ _ _ _).mono (by decide)
      · exact ⟨hfreed.frequency.trans hheld, hu ▸ (u.settledOrParked_search _).2, hfreed.op, hfreed.stations,
          hband ▸ settlesOrParks_of hu hlabel⟩

/-! ### The check of the memory -/

theorem checkLevelOf_eq_none {b : Byte} (h : 2 ≤ b.toNat) : checkLevelOf b = none := by
  unfold checkLevelOf
  split <;> first | omega | rfl

theorem State.quickRowEnds_idle {s : State} (pass : Bool)
    (h : ∀ c, s.delay.check = some c → c.level = .full ∨ c.stage = .sequence) : s.quickRowEnds pass = s := by
  unfold State.quickRowEnds
  split
  · rfl
  · next c hc =>
    split
    · next hl hs => rcases h c hc with e | e <;> simp_all
    · rfl

theorem State.fullRowEnds_idle {s : State} (pass : Bool)
    (h : ∀ c, s.delay.check = some c → c.level = .quick ∨ c.stage = .sequence) : s.fullRowEnds pass = s := by
  unfold State.fullRowEnds
  split
  · rfl
  · next c hc =>
    split
    · next hl hs => rcases h c hc with e | e <;> simp_all
    · rfl

theorem State.quickRowEnds_eq {s : State} {c : CheckRec} (pass : Bool) (hc : s.delay.check = some c)
    (hl : c.level = .quick) (hs : c.stage = .rows) : s.quickRowEnds pass =
      if pass = false then (s.testRow c).failCheck c c.nextRow
      else if 255 ≤ c.nextRow then (s.testRow c).passCheck c
      else (s.testRow c).setCheck { c with nextRow := c.nextRow + 85 } := by
  unfold State.quickRowEnds
  rw [hc]
  dsimp only
  rw [hl, hs]
  cases pass <;> rfl

theorem State.fullRowEnds_eq {s : State} {c : CheckRec} (pass : Bool) (hc : s.delay.check = some c)
    (hl : c.level = .full) (hs : c.stage = .rows) : s.fullRowEnds pass =
      if 65 ≤ ((s.testRow c).countRow c pass).1.badFound then
        ((s.testRow c).countRow c pass).2.failCheck ((s.testRow c).countRow c pass).1
          ((s.testRow c).countRow c pass).1.badFound
      else if 255 ≤ c.nextRow then ((s.testRow c).countRow c pass).2.passCheck ((s.testRow c).countRow c pass).1
      else ((s.testRow c).countRow c pass).2.setCheck
        { ((s.testRow c).countRow c pass).1 with nextRow := c.nextRow + 1 } := by
  unfold State.fullRowEnds
  rw [hc]
  dsimp only
  rw [hl, hs]

/-- The state with another delay memory and another count of free numbers. -/
def State.withMemory (s : State) (d : DelayState) (n : Nat) : State := { s with delay := d, freeCount := n }

theorem State.complete_withMemory (s : State) (k : Fin 8) (st : Status) (r : List Byte) (d : DelayState) (n : Nat) :
    (s.withMemory d n).complete k st r = (s.complete k st r).withMemory d n :=
  calc (s.withMemory d n).complete k st r = ((s.complete k st r).onto s).withMemory d n :=
        State.complete_onto s (s.withMemory d n) k st r
    _ = (s.complete k st r).withMemory d n := by rw [State.complete_onto_self]

/-- What an end of the check leaves, with the row written (R116, R117). -/
theorem checkEnds_spec {s t : State} {d : DelayState} {n : Nat} {k : Fin 8} {code : Status} {result : List Byte}
    {reason : Byte} (ht : t = ((s.complete k code result).withMemory d n).raiseMemory reason) :
    t.delay = d ∧ t.freeCount = n ∧
    t = ({ s.complete k code result with delay := t.delay, freeCount := t.freeCount } : State).raise .memory
      { EventDetail.zero with reasons := reason } ∧
    (∀ b, canPost s k b → slotPosted s t k b code result) ∧
    reported t .memory { EventDetail.zero with reasons := reason } ∧
    onlyChanges [.delay, .slots, .ports, .freeCount] s t := by
  subst ht
  refine ⟨rfl, rfl, rfl, fun b hb => slotPosted_of_complete hb (State.raise_slots ..) fun q =>
    State.raise_completions .., State.raise_reported _ _ (by decide), ?_⟩
  have hmemory : onlyChanges [.delay, .slots, .ports, .freeCount] (s.complete k code result)
      ((s.complete k code result).withMemory d n) := by
    intro q hq
    cases q <;> first | exact absurd (by decide) hq | rfl
  exact (((State.complete_frame s _ _ _).1.mono (by decide)).trans hmemory).trans
    ((State.raiseMemory_frame _ _).1.mono (by decide))

/-- Settles O50: Memory Start, then each row test by level and stage. -/
theorem memoryStartChecksRows : Obligations.MemoryStartChecksRows := by
  refine ⟨fun p h level s ht => ?_, fun s hc => ?_, fun s c hc => ?_⟩
  · intro same
    refine ⟨fun hl => exec_takenAtOnce_same rfl ht (by simp [runCmd, doMemoryStart, checkLevelOf_eq_none hl]), fun l hl =>
      ⟨fun hs => exec_takenAtOnce_same rfl ht (by simp [runCmd, doMemoryStart, hl, hs]), fun hs =>
        exec_takenAtOnce_same rfl ht (by simp [runCmd, doMemoryStart, hl, hs]), fun hs => ⟨fun hf => ?_, fun k hf => ?_⟩⟩⟩
    · exact exec_takenAtOnce_same rfl ht (by rcases hs with hs | hs <;> simp [runCmd, doMemoryStart, hl, hs, hf])
    · refine exec_takenAtOnce_kept rfl ht (portsKept_of_eq rfl) ?_
      rcases hs with hs | hs <;> simp only [runCmd, doMemoryStart, hl, hs, hf] <;> rfl
  · have hidle : s.checkSequenceEnds = s := by rw [State.checkSequenceEnds, hc]
    exact ⟨congrArg _ hidle, fun pass => ⟨congrArg _ (State.quickRowEnds_idle pass (by simp [hc])),
      congrArg _ (State.fullRowEnds_idle pass (by simp [hc]))⟩⟩
  · intro written goesOn ends
    have hrow : ∀ t : State, t.freeCount = s.freeCount + 1 → t.delay.dram = (s.testRow c).delay.dram → written t := by
      intro t hn hd
      refine ⟨hn, fun a ha => ?_⟩
      rw [hd, State.testRow_read s c a ha, show rowWords * c.nextRow + rowWords = 1024 * (c.nextRow + 1) by
        rw [rowWords]; ring]
      rfl
    have hgoes {i : Instr} {rows : List Nat} {c' : CheckRec} (h : exec i s = .next (((s.testRow c).setDelay
        { (s.testRow c).delay with badRows := rows }).setCheck c')) : goesOn i rows c' := by
      refine ⟨_, h, rfl, hrow _ rfl rfl, ?_⟩
      intro q hq
      cases q <;> first | exact absurd (by decide) hq | rfl
    have hends {i : Instr} {st : MemoryState} {rows : List Nat} {code : Status} {result : List Byte} {reason : Byte}
        (h : exec i s = .next ((((s.testRow c).setDelay { (s.testRow c).delay with
          badRows := rows, state := st, check := none }).complete c.slot code result).raiseMemory reason)) :
        ends i st rows code result reason := by
      obtain ⟨hd, hn, hrest⟩ := checkEnds_spec (congrArg (State.raiseMemory · reason) (State.complete_withMemory s c.slot
        code result { (s.testRow c).delay with badRows := rows, state := st, check := none } (s.freeCount + 1)))
      have hdram := congrArg DelayState.dram hd
      refine ⟨_, h, hd.trans ?_, hrow _ hn hdram, hrest⟩
      exact congrArg (fun m => ({ s.delay with badRows := rows, state := st, check := none, dram := m } : DelayState))
        hdram.symm
    have hquick (pass : Bool) : exec (.quickRowTestEnd pass) s = .next (s.quickRowEnds pass) := rfl
    have hfull (pass : Bool) : exec (.fullRowTestEnd pass) s = .next (s.fullRowEnds pass) := rfl
    refine ⟨fun hs => ⟨?_, fun pass => ⟨?_, ?_⟩⟩, fun hs => ?_, fun hs hl => ⟨fun pass => ?_, ?_, fun hn => ?_, fun hn hb => ?_⟩,
      fun hs hl => ⟨fun pass => ?_, fun hb => ?_, fun hb hn => ?_, fun hb hn => ?_, fun hb hn => ?_, fun hb hn => ?_⟩⟩
    · refine congrArg Host.Outcome.next ?_
      rw [State.checkSequenceEnds, hc]
      dsimp only
      rw [hs]
      rfl
    · exact congrArg _ (State.quickRowEnds_idle pass fun c' hc' => .inr (by rw [← Option.some.inj (hc.symm.trans hc'), hs]))
    · exact congrArg _ (State.fullRowEnds_idle pass fun c' hc' => .inr (by rw [← Option.some.inj (hc.symm.trans hc'), hs]))
    · refine congrArg Host.Outcome.next ?_
      rw [State.checkSequenceEnds, hc]
      dsimp only
      rw [hs]
    · exact congrArg _ (State.fullRowEnds_idle pass fun c' hc' => .inl (by rw [← Option.some.inj (hc.symm.trans hc'), hl]))
    · refine hends ?_
      rw [hquick, State.quickRowEnds_eq false hc hl hs, if_pos rfl, State.failCheck, hl]
      rfl
    · refine hgoes ?_
      rw [hquick, State.quickRowEnds_eq true hc hl hs, if_neg (by decide), if_neg (by omega)]
      rfl
    · refine hends ?_
      rw [hquick, State.quickRowEnds_eq true hc hl hs, if_neg (by decide), if_pos hn, State.passCheck, hb]
      rfl
    · exact congrArg _ (State.quickRowEnds_idle pass fun c' hc' => .inl (by rw [← Option.some.inj (hc.symm.trans hc'), hl]))
    · refine hends ?_
      rw [hfull, State.fullRowEnds_eq false hc hl hs, if_pos (by change 65 ≤ c.badFound + 1; omega), State.failCheck]
      rw [show (1 : Byte) = c.level.code by rw [hl]; rfl]
      rfl
    · refine hgoes ?_
      rw [hfull, State.fullRowEnds_eq false hc hl hs, if_neg (by change ¬ 65 ≤ c.badFound + 1; omega),
        if_neg (by omega)]
      rfl
    · refine hends ?_
      rw [hfull, State.fullRowEnds_eq false hc hl hs, if_neg (by change ¬ 65 ≤ c.badFound + 1; omega), if_pos hn]
      rfl
    · refine hgoes ?_
      rw [hfull, State.fullRowEnds_eq true hc hl hs, if_neg (by change ¬ 65 ≤ c.badFound; omega), if_neg (by omega)]
      rfl
    · refine hends ?_
      rw [hfull, State.fullRowEnds_eq true hc hl hs, if_neg (by change ¬ 65 ≤ c.badFound; omega), if_pos hn]
      rfl

end Sys2Proof.Machine

end

section
/-! PROOFS. The tests of a layered channel frame, and what the Frame Decoder does with a frame (R68 to R84; O42, O44,
O45). -/

open Sys2Proof Sys2Proof.Machine

namespace Sys2Proof.Machine

/-! ### The walk of the channel records -/

theorem walkRecords_ended {len n pos : Nat} (rest : List Byte) (acc : List ChannelRecord) (h : len ≤ pos) :
    walkRecords len (n + 1) pos rest acc = .bad .lengthMismatch := by
  rw [walkRecords.eq_def]
  exact if_pos h

theorem walkRecords_wide {len n pos : Nat} {b : Byte} (t : List Byte) (acc : List ChannelRecord) (h : pos < len)
    (hb : 10 < b.toNat % 16) : walkRecords len (n + 1) pos (b :: t) acc = .bad .width := by
  rw [walkRecords.eq_def]
  dsimp only
  rw [if_neg (by omega), if_pos hb]

theorem walkRecords_next {len n pos : Nat} {b : Byte} (t : List Byte) (acc : List ChannelRecord) (h : pos < len)
    (hb : b.toNat % 16 ≤ 10) : walkRecords len (n + 1) pos (b :: t) acc =
      walkRecords len n (pos + 1 + 32 * (4 + 2 * (b.toNat % 16))) (t.drop (32 * (4 + 2 * (b.toNat % 16))))
        ({ exponent := b.toNat / 16, width := 4 + 2 * (b.toNat % 16)
           bytes := t.take (32 * (4 + 2 * (b.toNat % 16))) } :: acc) := by
  rw [walkRecords.eq_def]
  dsimp only
  rw [if_neg (by omega), if_neg (by omega)]

/-- What a walk that ends has found. -/
theorem walkRecords_done {len n pos : Nat} {rest : List Byte} {acc : List ChannelRecord} {p : Nat}
    {records : List ChannelRecord} (h : walkRecords len n pos rest acc = .done p records) :
    ∃ new, records = acc.reverse ++ new ∧ new.length = n ∧ pos + (new.map fun r => 1 + 32 * r.width).sum = p ∧
      ∀ r ∈ new, r.exponent ≤ 15 ∧ ∃ code, code ≤ 10 ∧ r.width = 4 + 2 * code := by
  induction n generalizing pos rest acc with
  | zero =>
    cases h
    exact ⟨[], by simp⟩
  | succ n ih =>
    by_cases hend : len ≤ pos
    · rw [walkRecords_ended _ _ hend] at h
      cases h
    cases rest with
    | nil =>
      rw [walkRecords.eq_def] at h
      dsimp only at h
      rw [if_neg hend] at h
      cases h
    | cons b t =>
      by_cases hcode : 10 < b.toNat % 16
      · rw [walkRecords_wide _ _ (by omega) hcode] at h
        cases h
      · rw [walkRecords_next _ _ (by omega) (by omega)] at h
        obtain ⟨new, hrec, hlen, hpos, hall⟩ := ih h
        refine ⟨{ exponent := b.toNat / 16, width := 4 + 2 * (b.toNat % 16)
                  bytes := t.take (32 * (4 + 2 * (b.toNat % 16))) } :: new, ?_, ?_, ?_, fun r hr => ?_⟩
        · rw [hrec, List.reverse_cons, List.append_assoc]
          rfl
        · rw [List.length_cons, hlen]
        · rw [List.map_cons, List.sum_cons, ← hpos]
          ring
        · rcases List.mem_cons.1 hr with rfl | hr
          · have hb := b.isLt
            exact ⟨by change b.toNat / 16 ≤ 15; omega, b.toNat % 16, by omega, rfl⟩
          · exact hall r hr

/-- A walk over records with known width codes goes on from the place it has reached. -/
theorem walkRecords_walked {bs : List Byte} {len n k pos : Nat} {codes : List Nat} (hw : walked bs len k codes pos)
    (hn : codes.length ≤ n) (acc : List ChannelRecord) :
    ∃ acc', walkRecords len n k (bs.drop k) acc = walkRecords len (n - codes.length) pos (bs.drop pos) acc' := by
  induction codes generalizing k n acc with
  | nil =>
    obtain rfl : pos = k := hw
    exact ⟨acc, rfl⟩
  | cons c codes ih =>
    obtain ⟨hlen, hbs, hc, hc10, hrest⟩ := hw
    obtain ⟨m, rfl⟩ : ∃ m, n = m + 1 := ⟨n - 1, by simp at hn; omega⟩
    have hdrop : bs.drop k = byteAt bs k :: bs.drop (k + 1) := by
      rw [List.drop_eq_getElem_cons hbs, byteAt, List.getD_eq_getElem _ _ hbs]
    have hstep := walkRecords_next (n := m) (bs.drop (k + 1)) acc hlen (b := byteAt bs k) (by omega)
    rw [hc, List.drop_drop] at hstep
    obtain ⟨acc', ha⟩ := ih hrest (n := m) (by simpa using hn) _
    refine ⟨acc', ?_⟩
    rw [List.length_cons, Nat.add_sub_add_right, hdrop, hstep]
    exact ha

theorem startsWithSync_iff {bs : List Byte} (h : 2 ≤ bs.length) :
    startsWithSync bs = true ↔ byteAt bs 0 = 0xC5 ∧ byteAt bs 1 = 0x3A := by
  match bs, h with
  | a :: b :: rest, _ => simp [startsWithSync, byteAt]

theorem maskValid_iff (m : Half) : maskValid m = true ↔ m &&& 3 = 3 ∧ m.toNat < 1024 := by
  have hbits : (m.getLsbD 0 = true ∧ m.getLsbD 1 = true) ↔ m &&& 3 = 3 := by
    refine ⟨fun ⟨h0, h1⟩ => BitVec.eq_of_getLsbD_eq fun i hi => ?_, fun h => ?_⟩
    · rw [BitVec.getLsbD_and]
      interval_cases i <;> simp [h0, h1]
    · have hbit (i : Nat) : (m &&& 3).getLsbD i = (3 : Half).getLsbD i := by rw [h]
      exact ⟨by simpa using hbit 0, by simpa using hbit 1⟩
  rw [maskValid, Bool.and_eq_true, Bool.and_eq_true, hbits, decide_eq_true_eq]

/-! ### The judgement of a frame -/

/-- The header that the fields of a frame give (R68). -/
def headerOf (bs : List Byte) : FrameHeader :=
  { length := numAt bs 2, rate := byteAt bs 4, blocks := (byteAt bs 5).toNat, mask := halfAt bs 6
    dialogue := min (byteAt bs 8).toNat 31
    downmix := if (byteAt bs 9).getLsbD 0 = true then some ((byteAt bs 10).toNat, (byteAt bs 11).toNat) else none }

/-- Where the payload of a frame starts (R68). -/
def payloadStart (bs : List Byte) : Nat := if (byteAt bs 9).getLsbD 0 = true then 12 else 10

theorem headerOf_start (bs : List Byte) : (if (headerOf bs).downmix = none then 10 else 12) = payloadStart bs := by
  rw [headerOf, payloadStart]
  by_cases hf : (byteAt bs 9).getLsbD 0 = true
  · rw [if_pos hf, if_pos hf, if_neg (Option.some_ne_none _)]
  · rw [if_neg hf, if_neg hf, if_pos rfl]

/-- The tests of the header fields, in order (R72). -/
structure FieldsPass (bs : List Byte) : Prop where
  length : 64 ≤ numAt bs 2 ∧ numAt bs 2 ≤ 8192
  rate : (byteAt bs 4).toNat ≤ 2
  blocks : 1 ≤ (byteAt bs 5).toNat ∧ (byteAt bs 5).toNat ≤ 8
  mask : halfAt bs 6 &&& 3 = 3 ∧ (halfAt bs 6).toNat < 1024
  downmix : (byteAt bs 9).getLsbD 0 = true → 12 ≤ bs.length ∧ (byteAt bs 10).toNat ≤ 3 ∧ (byteAt bs 11).toNat ≤ 3

theorem judgeFields_of_pass {bs : List Byte} (h10 : 10 ≤ bs.length) (h : FieldsPass bs) :
    judgeFields bs = judgePayload (headerOf bs) (payloadStart bs) bs := by
  obtain ⟨hlen, hrate, hblocks, hmask, hdown⟩ := h
  rw [judgeFields, if_neg (by omega), if_neg (by omega), if_neg (by omega), if_neg (by omega),
    (maskValid_iff _).2 hmask, headerOf, payloadStart]
  by_cases hf : (byteAt bs 9).getLsbD 0 = true
  · obtain ⟨h12, h1, h2⟩ := hdown hf
    simp only [hf, if_true]
    rw [if_neg (by decide), if_neg (by omega), if_neg (by omega)]
  · simp only [hf]
    rfl

/-- The fields of a frame whose first failing test, if any, is after them. -/
theorem judgeFields_good {bs : List Byte} {h : FrameHeader} {records : List ChannelRecord}
    (hg : judgeFields bs = .good h records) : 10 ≤ bs.length ∧ FieldsPass bs := by
  by_cases h10 : bs.length < 10
  · rw [judgeFields, if_pos h10] at hg
    cases hg
  rw [judgeFields, if_neg h10] at hg
  refine ⟨by omega, ?_⟩
  split at hg
  · cases hg
  split at hg
  · cases hg
  split at hg
  · cases hg
  split at hg
  · cases hg
  next hlen hrate hblocks hmask =>
  refine ⟨by omega, by omega, by omega, (maskValid_iff _).1 (by simpa using hmask), fun hf => ?_⟩
  dsimp only at hg
  rw [if_pos hf] at hg
  split at hg
  · cases hg
  split at hg
  · cases hg
  exact ⟨by omega, by omega, by omega⟩

/-- The tests of the payload (R69 to R72), from the walk's end. -/
theorem judgePayload_of_done {h : FrameHeader} {start pos : Nat} {bs : List Byte} {records : List ChannelRecord}
    (hw : walkRecords h.length (h.blocks * (channelsOf h.mask).length) start (bs.drop start) [] = .done pos records) :
    judgePayload h start bs =
      if pos + 2 ≠ h.length then .bad .lengthMismatch
      else if bs.length < h.length then .needMore
      else if crc (bs.take pos) = halfAt bs pos then .good h records
      else .bad .check := by
  rw [judgePayload, hw]

theorem judgePayload_of_bad {h : FrameHeader} {start : Nat} {bs : List Byte} {e : FrameError}
    (hw : walkRecords h.length (h.blocks * (channelsOf h.mask).length) start (bs.drop start) [] = .bad e) :
    judgePayload h start bs = .bad e := by
  rw [judgePayload, hw]

theorem judgePayload_good {h h' : FrameHeader} {start : Nat} {bs : List Byte} {records : List ChannelRecord}
    (hg : judgePayload h start bs = .good h' records) : h' = h ∧ ∃ pos,
      walkRecords h.length (h.blocks * (channelsOf h.mask).length) start (bs.drop start) [] = .done pos records ∧
      pos + 2 = h.length ∧ h.length ≤ bs.length ∧ crc (bs.take pos) = halfAt bs pos := by
  cases hw : walkRecords h.length (h.blocks * (channelsOf h.mask).length) start (bs.drop start) [] with
  | needMore => rw [judgePayload, hw] at hg; cases hg
  | bad e => rw [judgePayload, hw] at hg; cases hg
  | done pos recs =>
    rw [judgePayload_of_done hw] at hg
    split at hg
    · cases hg
    split at hg
    · cases hg
    split at hg
    · next h1 h2 h3 =>
      cases hg
      exact ⟨rfl, pos, rfl, by omega, by omega, h3⟩
    · cases hg

theorem judge_of_sync {bs : List Byte} (h2 : 2 ≤ bs.length) (h0 : byteAt bs 0 = 0xC5) (h1 : byteAt bs 1 = 0x3A) :
    judge bs = judgeFields bs := by
  rw [judge, if_neg (by omega), if_pos ((startsWithSync_iff h2).2 ⟨h0, h1⟩)]

theorem judge_good {bs : List Byte} {h : FrameHeader} {records : List ChannelRecord} (hg : judge bs = .good h records) :
    (byteAt bs 0 = 0xC5 ∧ byteAt bs 1 = 0x3A) ∧ judgeFields bs = .good h records := by
  rw [judge] at hg
  split at hg
  · cases hg
  split at hg
  · next h2 hs => exact ⟨(startsWithSync_iff (by omega)).1 hs, hg⟩
  · cases hg

/-- Settles O42: what a good frame has, and the first failing test of a bad one. -/
theorem goodFramesPassEveryTest : Obligations.GoodFramesPassEveryTest := by
  refine ⟨fun bs h records hg => ?_, fun bs => ?_⟩
  · obtain ⟨⟨h0, h1⟩, hf⟩ := judge_good hg
    obtain ⟨h10, hpass⟩ := judgeFields_good hf
    rw [judgeFields_of_pass h10 hpass] at hf
    obtain ⟨rfl, pos, hwalk, hpos, hlong, hcrc⟩ := judgePayload_good hf
    obtain ⟨new, hrec, hcount, hsum, hall⟩ := walkRecords_done hwalk
    obtain rfl : records = new := hrec
    have hlast : (headerOf bs).length - 2 = pos := by omega
    obtain ⟨hlen, hrate, hblocks, hmask, hdown⟩ := hpass
    refine ⟨h0, h1, rfl, hlen.1, hlen.2, hlong, rfl, hrate, rfl, hblocks.1, hblocks.2, rfl, hmask.1, hmask.2, rfl, ?_,
      fun c d hcd => ?_, hcount, hall, ?_, by rw [hlast, hcrc]⟩
    · by_cases hf : (byteAt bs 9).getLsbD 0 = true <;> simp [headerOf, hf]
    · by_cases hf : (byteAt bs 9).getLsbD 0 = true
      · obtain ⟨-, h2, h3⟩ := hdown hf
        rw [headerOf, if_pos hf] at hcd
        cases hcd
        exact ⟨rfl, rfl, h2, h3⟩
      · rw [headerOf, if_neg hf] at hcd
        cases hcd
    · rw [← hpos, ← hsum, headerOf_start]
  · intro len field start records lengthOk rateOk blocksOk maskOk downmixOk
    refine ⟨fun h2 hs => ?_, fun h10 h0 h1 => ?_⟩
    · rw [judge, if_neg (by omega), if_neg fun e => hs ((startsWithSync_iff h2).1 e)]
    rw [judge_of_sync (by omega) h0 h1]
    have hmaskFalse (hm : ¬ maskOk) : (!maskValid (halfAt bs 6)) = true := by
      simpa using fun e => hm ((maskValid_iff _).1 e)
    refine ⟨fun hl => ?_, fun hl hr => ?_, fun hl hr hb => ?_, fun hl hr hb hm => ?_, fun hl hr hb hm hf h12 hd => ?_,
      fun hl hr hb hm hd codes pos hw => ?_⟩
    · exact (if_neg (by omega)).trans (if_pos (by omega))
    · exact (if_neg (by omega)).trans ((if_neg (by omega)).trans (if_pos (by omega)))
    · exact (if_neg (by omega)).trans ((if_neg (by omega)).trans ((if_neg (by omega)).trans (if_pos (by omega))))
    · exact (if_neg (by omega)).trans ((if_neg (by omega)).trans ((if_neg (by omega)).trans ((if_neg (by omega)).trans
        (if_pos (hmaskFalse hm)))))
    · have hvalid : ¬ (!maskValid (halfAt bs 6)) = true := by simpa using (maskValid_iff _).2 hm
      refine (if_neg (by omega)).trans ((if_neg (by omega)).trans ((if_neg (by omega)).trans ((if_neg (by omega)).trans
        ((if_neg hvalid).trans ?_))))
      exact (if_pos hf).trans ((if_neg (by omega)).trans (if_pos hd))
    · have hpass : FieldsPass bs := ⟨hl, hr, hb, hm, hd⟩
      rw [judgeFields_of_pass h10 hpass]
      have hwalk (hc : codes.length ≤ records) := walkRecords_walked hw hc []
      refine ⟨fun hc hp hpb hwide => judgePayload_of_bad ?_, fun hc hp => judgePayload_of_bad ?_, fun hc hp => ?_,
        fun hc hp hlong => ?_⟩
      · obtain ⟨acc, ha⟩ := hwalk (by omega)
        obtain ⟨m, hmore⟩ : ∃ m, records - codes.length = m + 1 := ⟨records - codes.length - 1, by omega⟩
        have hdrop : bs.drop pos = byteAt bs pos :: bs.drop (pos + 1) := by
          rw [List.drop_eq_getElem_cons hpb, byteAt, List.getD_eq_getElem _ _ hpb]
        rw [hmore, hdrop, walkRecords_wide _ _ hp hwide] at ha
        exact ha
      · obtain ⟨acc, ha⟩ := hwalk (by omega)
        obtain ⟨m, hmore⟩ : ∃ m, records - codes.length = m + 1 := ⟨records - codes.length - 1, by omega⟩
        rw [hmore, walkRecords_ended _ _ hp] at ha
        exact ha
      · obtain ⟨acc, ha⟩ := hwalk (by omega)
        rw [hc, Nat.sub_self] at ha
        rw [judgePayload_of_done ha]
        exact if_pos hp
      · obtain ⟨acc, ha⟩ := hwalk (by omega)
        rw [hc, Nat.sub_self] at ha
        have hend : ¬ (pos + 2 ≠ (headerOf bs).length) := not_not.2 hp
        have hspan : ¬ bs.length < (headerOf bs).length := Nat.not_lt.2 hlong
        rw [judgePayload_of_done ha, if_neg hend, if_neg hspan]
        exact ⟨fun hcrc => if_neg hcrc, fun hcrc => ⟨_, _, if_pos hcrc⟩⟩

/-! ### Delivery -/

/-- A delivery reaches the delivery queue alone, and may take one free number (R73, R81). -/
def hasDelivered (s t : State) (fifo : List (List Sample)) : Prop :=
  ∃ n, t = { s with freeCount := n, decoder := { s.decoder with fifo := fifo } }

theorem State.deliver_spec (s : State) (rate : Byte) (f : DecodedFrame) :
    ∃ fifo, hasDelivered s (s.deliver rate f) fifo ∧ (rate = 0 → fifo = queuedAfter s.decoder.fifo f.channels) := by
  unfold State.deliver
  split
  · exact ⟨_, ⟨s.freeCount, rfl⟩, fun _ => rfl⟩
  · next hr => exact ⟨_, ⟨_, rfl⟩, fun e => absurd e hr⟩

theorem State.deliverSilence_spec (s : State) (h : FrameHeader) :
    ∃ fifo, hasDelivered s (s.deliverSilence h) fifo ∧ (h.rate = 0 → fifo = queuedAfter s.decoder.fifo
      (List.replicate 10 (List.replicate (256 * h.blocks) 0))) := by
  unfold State.deliverSilence
  split
  · exact ⟨_, ⟨s.freeCount, rfl⟩, fun _ => rfl⟩
  · next hr => exact ⟨_, ⟨_, rfl⟩, fun e => absurd e hr⟩

theorem hasDelivered.changes {s t : State} {fifo : List (List Sample)} (h : hasDelivered s t fifo) :
    onlyChanges [.decoder, .freeCount] s t := by
  obtain ⟨n, rfl⟩ := h
  intro q hq
  cases q <;> first | exact absurd (by decide) hq | rfl

theorem hasDelivered.ports {s t : State} {fifo : List (List Sample)} (h : hasDelivered s t fifo) : t.ports = s.ports := by
  obtain ⟨n, rfl⟩ := h
  rfl

theorem hasDelivered.decoder {s t : State} {fifo : List (List Sample)} (h : hasDelivered s t fifo) :
    t.decoder = { s.decoder with fifo := fifo } := by
  obtain ⟨n, rfl⟩ := h
  rfl

/-- A sample shifted right by one is the half, rounded down (R79). -/
theorem halve_eq (x : Sample) : halve x = BitVec.ofInt 24 (x.toInt / 2) := by
  refine BitVec.eq_of_toInt_eq ?_
  rw [halve, BitVec.toInt_sshiftRight, Int.shiftRight_eq_div_pow, BitVec.toInt_ofInt]
  have h1 := x.toInt_lt
  have h2 := x.le_toInt
  norm_num at h1 h2
  rw [Int.bmod_eq_of_le (by omega) (by omega)]
  norm_num

/-! ### Searching -/

theorem State.searchFrame_nothing {s : State} {bs : List Byte} (hs : s.decoder.state = .searching)
    (hc : s.decoder.candidate = none) (hf : findSync bs 0 = none) : s.searchFrame bs = s := by
  rw [State.searchFrame, if_pos hs, hc]
  dsimp only
  rw [hf]

theorem State.searchFrame_found {s : State} {bs : List Byte} {k : Nat} (hs : s.decoder.state = .searching)
    (hc : s.decoder.candidate = none) (hf : findSync bs 0 = some k) : s.searchFrame bs = s.judgeFound k bs := by
  rw [State.searchFrame, if_pos hs, hc]
  dsimp only
  rw [hf]

theorem State.searchFrame_second {s : State} {cand : Byte × Half} (bs : List Byte) (hs : s.decoder.state = .searching)
    (hc : s.decoder.candidate = some cand) : s.searchFrame bs = s.judgeSecond cand bs := by
  rw [State.searchFrame, if_pos hs, hc]

/-- Settles O44: the rows of R77, and Read Decoder with its clear flag. -/
theorem framesFoundInSearching : Obligations.FramesFoundInSearching := by
  intro bs s d
  have hstep : exec (.frameFoundSearching bs) s = .next (s.searchFrame bs) := rfl
  rw [hstep]
  refine ⟨fun hs => congrArg _ (if_neg hs), fun hs hc => ⟨fun hf => ?_, fun k hf => ⟨fun h records hj => ?_, fun e hj => ?_⟩⟩,
    fun hs rate mask hc => ⟨fun h records hj hne => ?_, fun e hj => ?_, fun h records hj hr hm => ?_⟩,
    fun p h count ht hcount => ?_⟩
  · rw [State.searchFrame_nothing hs hc hf]
  · rw [State.searchFrame_found hs hc hf, State.judgeFound, hj]
    rfl
  · rw [State.searchFrame_found hs hc hf, State.judgeFound, hj]
    have hdrop : d.dropCandidate e (d.scanPos + k + 1) = { d with lastError := e, scanPos := d.scanPos + k + 1 } := by
      rw [DecoderRec.dropCandidate, ← hc]
    exact congrArg (fun x => Host.Outcome.next (s.setDecoder x)) hdrop
  · rw [State.searchFrame_second bs hs hc, State.judgeSecond, hj]
    dsimp only
    rw [if_neg fun e => hne ⟨congrArg Prod.fst e, congrArg Prod.snd e⟩]
    rfl
  · rw [State.searchFrame_second bs hs hc, State.judgeSecond, hj]
    rfl
  · have hlock : s.searchFrame bs = s.lock h records := by
      rw [State.searchFrame_second bs hs hc, State.judgeSecond, hj]
      dsimp only
      rw [if_pos (Prod.ext hr hm)]
    rw [hlock]
    obtain ⟨fifo, hd, hfifo⟩ := State.deliver_spec (s.setDecoder
      { d with state := .locked, good := countUp d.good, candidate := none, consecutiveBad := 0
               header := some h, repeatBuffer := some (decodeSamples h records), expected := some (d.scanPos + h.length)
               scanPos := d.scanPos + h.length }) h.rate (decodeSamples h records)
    have hraised : s.lock h records = (State.deliver _ h.rate (decodeSamples h records)).raiseDecoder decoderLock := rfl
    refine ⟨_, rfl, ?_⟩
    rw [hraised]
    generalize State.deliver _ h.rate (decodeSamples h records) = u at hd
    have hdec : (u.raiseDecoder decoderLock).decoder = u.decoder := (State.raiseDecoder_frame u _).1 .decoder (by decide)
    rw [hdec, hd.decoder]
    refine ⟨rfl, rfl, rfl, rfl, rfl, rfl, rfl, rfl, hfifo, State.raise_reported _ _ (by decide), ?_, ?_⟩
    · exact (portsRaised.of_ports_eq hd.ports).trans (State.raise_raises u _ _).1
    · exact (((State.setDecoder_frame s _).1.mono (by decide)).trans (hd.changes.mono (by decide))).trans
        ((State.raiseDecoder_frame u _).1.mono (by decide))
  · refine exec_takenAtOnce_kept rfl ht (portsKept_of_eq rfl) ?_
    have hclear : flagOf 1 = some true := rfl
    have hok : countOk count = true := decide_eq_true hcount
    simp only [runCmd, doReadDecoder, hclear, hok, if_true]
    rfl

/-! ### Locked and concealing -/

theorem State.takeFrame_eq {s : State} {old : FrameHeader} {pos : Nat} (bs : List Byte)
    (hs : s.decoder.state = .locked ∨ s.decoder.state = .concealing) (hh : s.decoder.header = some old)
    (he : s.decoder.expected = some pos) : s.takeFrame bs = s.judgeExpected old pos bs := by
  rcases hs with hs | hs <;> rw [State.takeFrame, hs, hh, he]

/-- The decoder record after a good frame in lock, but for the delivery queue (R78). -/
def DecoderRec.taken (d : DecoderRec) (h : FrameHeader) (pos : Nat) (f : DecodedFrame) : DecoderRec :=
  { d with state := .locked, good := countUp d.good, consecutiveBad := 0, header := some h, repeatBuffer := some f
           expected := some (pos + h.length), scanPos := pos + h.length }

/-- The decoder record after one of the first two bad frames in lock, but for the delivery queue (R79). -/
def DecoderRec.concealedAt (d : DecoderRec) (old : FrameHeader) (e : FrameError) (pos : Nat) : DecoderRec :=
  { d with state := .concealing, consecutiveBad := d.consecutiveBad + 1, bad := countUp d.bad
           concealed := countUp d.concealed, lastError := e, expected := some (pos + old.length)
           scanPos := pos + old.length }

theorem State.badFrame_first {s : State} (old : FrameHeader) (e : FrameError) (pos : Nat)
    (h : s.decoder.consecutiveBad = 0) : s.badFrame old e pos =
      (s.setDecoder (s.decoder.concealedAt old e pos)).deliver old.rate
        ((s.decoder.repeatBuffer.getD (silentFrame old.mask old.blocks)).halved) := by
  rw [DecoderRec.concealedAt, h]
  unfold State.badFrame
  dsimp only
  rw [h]
  rfl

theorem State.badFrame_second {s : State} (old : FrameHeader) (e : FrameError) (pos : Nat)
    (h : s.decoder.consecutiveBad = 1) : s.badFrame old e pos =
      (s.setDecoder (s.decoder.concealedAt old e pos)).deliverSilence old := by
  rw [DecoderRec.concealedAt, h]
  unfold State.badFrame
  dsimp only
  rw [h]
  rfl

theorem State.badFrame_third {s : State} (old : FrameHeader) (e : FrameError) (pos : Nat)
    (h : s.decoder.consecutiveBad = 2) : s.badFrame old e pos =
      (s.setDecoder { s.decoder with
        state := .searching, consecutiveBad := 0, repeatBuffer := none, expected := none, candidate := none
        lastError := e, bad := min (s.decoder.bad + 1) 65535, scanPos := pos + 1, fifo := [] }).raiseDecoder decoderLost := by
  unfold State.badFrame
  dsimp only
  rw [h]
  rfl

/-- Settles O45: a good frame in lock, and the first, second and third bad one. -/
theorem framesTakenInLock : Obligations.FramesTakenInLock := by
  intro bs old pos s d hs hh he
  have hstep : exec (.frameTakenLocked bs) s = .next (s.judgeExpected old pos bs) :=
    congrArg Host.Outcome.next (State.takeFrame_eq bs hs hh he)
  rw [hstep]
  refine ⟨fun h records hj => ⟨_, rfl, ?_⟩, fun e hj hlong => ⟨fun hn => ⟨_, rfl, ?_⟩, fun hn => ⟨_, rfl, ?_⟩⟩⟩
  · obtain ⟨fifo, hd, hfifo⟩ := State.deliver_spec (s.setDecoder (d.taken h pos (decodeSamples h records))) h.rate
      (decodeSamples h records)
    have hgood : s.judgeExpected old pos bs =
        if h.rate = old.rate ∧ h.mask = old.mask then
          (s.setDecoder (d.taken h pos (decodeSamples h records))).deliver h.rate (decodeSamples h records)
        else ((s.setDecoder (d.taken h pos (decodeSamples h records))).deliver h.rate
          (decodeSamples h records)).raiseDecoder decoderFormat := by
      rw [State.judgeExpected, hj]
      rfl
    rw [hgood]
    generalize State.deliver _ h.rate (decodeSamples h records) = u at hd
    have hchanges : onlyChanges [.decoder, .freeCount, .ports] s u :=
      ((State.setDecoder_frame s _).1.mono (by decide)).trans (hd.changes.mono (by decide))
    by_cases hsame : h.rate = old.rate ∧ h.mask = old.mask
    · rw [if_pos hsame, hd.decoder]
      refine ⟨rfl, rfl, rfl, rfl, rfl, rfl, rfl, rfl, hfifo, fun hne => ?_, fun _ _ => hd.ports,
        portsRaised.of_ports_eq hd.ports, hchanges⟩
      exact (hne.elim (fun e => e hsame.1) (fun e => e hsame.2)).elim
    · have hdec : (u.raiseDecoder decoderFormat).decoder = u.decoder :=
        (State.raiseDecoder_frame u _).1 .decoder (by decide)
      rw [if_neg hsame, hdec, hd.decoder]
      refine ⟨rfl, rfl, rfl, rfl, rfl, rfl, rfl, rfl, hfifo, fun _ => State.raise_reported _ _ (by decide), fun h1 h2 =>
        absurd ⟨h1, h2⟩ hsame, ?_, hchanges.trans ((State.raiseDecoder_frame u _).1.mono (by decide))⟩
      exact (portsRaised.of_ports_eq hd.ports).trans (State.raise_raises u _ _).1
  all_goals
    have hbad : s.judgeExpected old pos bs = s.badFrame old e pos := by
      rw [State.judgeExpected, hj]
      exact if_neg (Nat.not_lt.2 hlong)
    rw [hbad]
  · rcases (by omega : d.consecutiveBad = 0 ∨ d.consecutiveBad = 1) with h0 | h1
    · obtain ⟨fifo, hd, hfifo⟩ := State.deliver_spec (s.setDecoder (d.concealedAt old e pos)) old.rate
        ((d.repeatBuffer.getD (silentFrame old.mask old.blocks)).halved)
      rw [State.badFrame_first old e pos h0]
      generalize State.deliver _ old.rate _ = u at hd
      rw [hd.decoder]
      refine ⟨rfl, rfl, rfl, rfl, rfl, rfl, rfl, rfl, rfl, fun f hr _ hf => ?_, fun _ h1 => ?_, ?_⟩
      · rw [hfifo hr, hf]
        exact congrArg (fun g => queuedAfter d.fifo (f.channels.map fun xs => xs.map g)) (funext halve_eq)
      · exact absurd (h0.symm.trans h1) (by decide)
      · exact ((State.setDecoder_frame s _).1.mono (by decide)).trans hd.changes
    · obtain ⟨fifo, hd, hfifo⟩ := State.deliverSilence_spec (s.setDecoder (d.concealedAt old e pos)) old
      rw [State.badFrame_second old e pos h1]
      generalize State.deliverSilence _ old = u at hd
      rw [hd.decoder]
      refine ⟨rfl, rfl, rfl, rfl, rfl, rfl, rfl, rfl, rfl, fun f _ h0 _ => ?_, fun hr _ => hfifo hr, ?_⟩
      · exact absurd (h0.symm.trans h1) (by decide)
      · exact ((State.setDecoder_frame s _).1.mono (by decide)).trans hd.changes
  · rw [State.badFrame_third old e pos hn]
    refine ⟨(State.raiseDecoder_frame _ _).1 .decoder (by decide), State.raise_reported _ _ (by decide), ?_, ?_⟩
    · exact (State.raise_raises (s.setDecoder _) _ _).1
    · exact ((State.setDecoder_frame s _).1.mono (by decide)).trans ((State.raiseDecoder_frame _ _).1.mono (by decide))

end Sys2Proof.Machine

end

section
/-! PROOFS. The Input Receivers (R63, R65, R75, R76; O41). -/

open Sys2Proof Sys2Proof.Machine

namespace Sys2Proof.Machine

/-- A binding computed anew keeps the statuses computed, and every change of one has raised ZONE. -/
theorem State.refreshBinding_statuses {s u : State} (hu : u.statusesOk) (hz : ∀ z, (s.zone z).sameButStatus (u.zone z))
    (hc : ∀ z, (u.zone z).status ≠ (s.zone z).status → zoneReported u z) :
    u.refreshBinding.statusesOk ∧ ∀ z, (s.zone z).sameButStatus (u.refreshBinding.zone z) ∧
      ((u.refreshBinding.zone z).status ≠ (s.zone z).status → zoneReported u.refreshBinding z) := by
  refine ⟨?_, fun z => ⟨(hz z).trans (u.refreshBinding_sameButStatus z), fun hne => ?_⟩⟩
  · rw [State.refreshBinding]
    split
    · exact hu
    · exact State.refreshStatuses_ok _
  · by_cases hsame : (u.zone z).status = (s.zone z).status
    · rw [← hsame, State.refreshBinding] at hne
      rw [State.refreshBinding]
      split
      · next e => rw [if_pos e] at hne; exact absurd rfl hne
      · next e =>
        rw [if_neg e] at hne
        refine State.refreshStatuses_reported _ z fun e => hne (e.trans ?_)
        rw [State.raiseDecoder, State.zone_raise]
        rfl
    · exact reported.mono (hc z hsame) u.refreshBinding_raises.2

/-- The binding after a refresh is that of R75, and a change of it has started the decoder anew (R75, R76). -/
theorem State.refreshBinding_rebinds (u : State) :
    u.refreshBinding.bindingIs u.refreshBinding.decoder.binding ∧ rebinds u u.refreshBinding := by
  have hdec := u.refreshBinding_decoder
  have hbinding : u.refreshBinding.decoder.binding = u.computedBinding := by
    rw [hdec]
    split
    · next e => exact e.symm
    · rfl
  have hinputs : u.refreshBinding.inputs = u.inputs := u.refreshBinding_frame.1 .inputs (by decide)
  refine ⟨?_, fun hb => ?_, fun hb => ?_⟩
  · rw [State.bindingIs_iff, hbinding]
    exact (State.computedBinding_congr hinputs fun z => (u.refreshBinding_sameButStatus z).heard).symm
  · rw [hbinding] at hb
    rw [hdec, if_pos hb]
  · rw [hbinding] at hb
    rw [hdec, if_neg hb]
    refine ⟨rfl, ?_⟩
    rw [State.refreshBinding, if_neg hb]
    exact reported.mono (State.raise_reported _ _ (by decide)) (State.refreshStatuses_raises _).2

/-- A change of an input's state, with what follows it (R65, R76). -/
theorem State.changeInput_becomes (s : State) (i : Fin 8) (r : InputRec) : inputBecomes s (s.changeInput i r) i r := by
  obtain ⟨w, hw⟩ : ∃ w, w = (s.setInput (digital i) r).raiseInput (digital i) := ⟨_, rfl⟩
  obtain ⟨u, hu⟩ : ∃ u, u = w.refreshStatuses := ⟨_, rfl⟩
  have ht : s.changeInput i r = u.refreshBinding := by rw [hu, hw]; rfl
  have hzw (z : Zone) : w.zone z = s.zone z := by rw [hw, State.raiseInput, State.zone_raise]; rfl
  have hraised : reported w .input { EventDetail.zero with inputs := BitVec.ofNat 16 (2 ^ i.val) } := by
    rw [hw]; exact State.raise_reported _ _ (by decide)
  have hports : Raises s w := by
    rw [hw]; exact (Raises.of_ports_eq (s.setInput_ports _ _)).trans (State.raise_raises _ _ _)
  have hgrow : Raises w u.refreshBinding := by
    rw [hu]; exact w.refreshStatuses_raises.trans (State.refreshBinding_raises _)
  have hinputs : u.refreshBinding.inputs = (s.setInput (digital i) r).inputs := by
    rw [u.refreshBinding_frame.1 .inputs (by decide), hu, w.refreshStatuses_frame.1 .inputs (by decide), hw,
      (State.raiseInput_frame _ _).1 .inputs (by decide)]
  have hdecoder : u.decoder = s.decoder := by
    rw [hu, w.refreshStatuses_frame.1 .decoder (by decide), hw, (State.raiseInput_frame _ _).1 .decoder (by decide)]
    rfl
  have hsame (z : Zone) : (s.zone z).sameButStatus (u.zone z) := by
    rw [hu, ← hzw z]; exact w.refreshStatuses_sameButStatus z
  have hchanged (z : Zone) (hne : (u.zone z).status ≠ (s.zone z).status) : zoneReported u z := by
    rw [hu, ← hzw z] at hne
    rw [hu]
    exact w.refreshStatuses_reported z hne
  obtain ⟨hstatus, hzones⟩ := State.refreshBinding_statuses (hu ▸ w.refreshStatuses_ok) hsame hchanged
  obtain ⟨hbinding, hrebinds⟩ := u.refreshBinding_rebinds
  rw [ht]
  refine ⟨?_, fun j hj => ?_, hraised.mono hgrow.2, fun z => ⟨(hzones z).1, (State.statusIs_iff ..).2 (hstatus z), (hzones z).2⟩,
    hbinding, by rwa [rebinds, hdecoder] at hrebinds, (hports.trans hgrow).1, fun p hp => ?_⟩
  · rw [State.input, hinputs]; exact s.input_setInput_self _ _
  · rw [State.input, hinputs]; exact s.input_setInput_ne r hj
  · rw [← ht]
    by_cases hp' : p = .tuner
    · subst hp'
      rw [ht]
      refine u.refreshBinding_tuner.trans ?_
      rw [hu, w.refreshStatuses_frame.1 .tuner (by decide), hw, (State.raiseInput_frame _ _).1 .tuner (by decide)]
      rfl
    · exact (s.changeInput_frame i r).1 p fun hin => hp (by simp_all)

/-! ### Descriptors (R63) -/

/-- A valid descriptor gives the input its kind, mask and rate; one that is not valid gives none (R63). -/
theorem recordOf_twoChannel {d : Descriptor} (hr : d.rate.toNat ≤ 2) (hk : d.kind = .twoChannel) :
    recordOf d = some { state := .pcm2, mask := some 3, rate := some d.rate, timer := none, link := some d } := by
  rw [recordOf, if_neg (by omega), hk]

theorem recordOf_multichannel {d : Descriptor} (hr : d.rate.toNat ≤ 2) (hk : d.kind = .multichannel)
    (hm : d.mask &&& 3 = 3 ∧ d.mask.toNat < 1024) :
    recordOf d = some { state := if d.mask = 3 then .pcm2 else .pcmn, mask := some d.mask, rate := some d.rate,
                        timer := none, link := some d } := by
  rw [recordOf, if_neg (by omega), hk]
  exact if_pos ((maskValid_iff _).2 hm)

theorem recordOf_packed {d : Descriptor} (hr : d.rate.toNat ≤ 2) (hk : d.kind = .packed) :
    recordOf d = some { state := .packed, mask := none, rate := some d.rate, timer := none, link := some d } := by
  rw [recordOf, if_neg (by omega), hk]

theorem recordOf_invalid {d : Descriptor} (h : 2 < d.rate.toNat ∨ d.kind = .unknown ∨
    (d.kind = .multichannel ∧ ¬ (d.mask &&& 3 = 3 ∧ d.mask.toNat < 1024))) : recordOf d = none := by
  rw [recordOf]
  split
  · rfl
  · next hr =>
    obtain h | h | ⟨hk, hm⟩ := h
    · exact absurd h hr
    · rw [h]
    · rw [hk]; exact if_neg fun hv => hm ((maskValid_iff _).1 hv)

theorem State.readDescriptor_some {s : State} {i : Fin 8} {d : Descriptor} {r : InputRec} (h : recordOf d = some r) :
    s.readDescriptor i d = s.changeInput i r := by
  rw [State.readDescriptor, h]

theorem State.readDescriptor_none {s : State} {i : Fin 8} {d : Descriptor} (h : recordOf d = none) :
    s.readDescriptor i d = s.setInput (digital i) { InputRec.locking d with timer := none } := by
  rw [State.readDescriptor, h]

/-- Settles O41: the input's state and timer decide the row, and every row but the notes of LOCKING ends in one change of
the input, which the statuses, the binding and the decoder follow. -/
theorem inputsFollowTheirLinks : Obligations.InputsFollowTheirLinks := by
  intro i d s
  dsimp only
  have hreads (c : Instr) (hc : exec c s = .next (s.readDescriptor i d)) :
      (d.rate.toNat ≤ 2 → d.kind = .twoChannel → ∃ t, exec c s = .next t ∧ inputBecomes s t i
        { state := .pcm2, mask := some 3, rate := some d.rate, timer := none, link := some d }) ∧
      (d.rate.toNat ≤ 2 → d.kind = .multichannel → d.mask &&& 3 = 3 → d.mask.toNat < 1024 →
        ∃ t, exec c s = .next t ∧ inputBecomes s t i
          { state := if d.mask = 3 then .pcm2 else .pcmn, mask := some d.mask, rate := some d.rate,
            timer := none, link := some d }) ∧
      (d.rate.toNat ≤ 2 → d.kind = .packed → ∃ t, exec c s = .next t ∧ inputBecomes s t i
        { state := .packed, mask := none, rate := some d.rate, timer := none, link := some d }) ∧
      (2 < d.rate.toNat ∨ d.kind = .unknown ∨
          (d.kind = .multichannel ∧ ¬ (d.mask &&& 3 = 3 ∧ d.mask.toNat < 1024)) →
        exec c s = .next (s.setInput (digital i)
          { state := .locking, mask := none, rate := none, timer := none, link := some d })) := by
    rw [hc]
    refine ⟨fun hr hk => ⟨_, rfl, ?_⟩, fun hr hk h3 hm => ⟨_, rfl, ?_⟩, fun hr hk => ⟨_, rfl, ?_⟩, fun h => ?_⟩
    · rw [State.readDescriptor_some (recordOf_twoChannel hr hk)]; exact s.changeInput_becomes i _
    · rw [State.readDescriptor_some (recordOf_multichannel hr hk ⟨h3, hm⟩)]; exact s.changeInput_becomes i _
    · rw [State.readDescriptor_some (recordOf_packed hr hk)]; exact s.changeInput_becomes i _
    · rw [State.readDescriptor_none (recordOf_invalid h)]; rfl
  have harrival : exec (.signalArrival i d) s = .next (s.signalArrives i d) := rfl
  have hloss : exec (.signalLoss i) s = .next (s.signalLost i) := rfl
  have hchange : exec (.descriptorChange i d) s = .next (s.descriptorChanges i d) := rfl
  have hexpiry : exec (.lockTimerExpiry i) s = .next (s.lockTimerEnds i) := rfl
  refine ⟨fun hn => ⟨⟨_, harrival, ?_⟩, ?_, ?_, ?_⟩, fun hn => ⟨?_, _, hloss, ?_⟩, fun hn => ⟨⟨_, hchange, ?_⟩, ?_⟩,
    fun hl ht => ⟨?_, fun hd => hreads _ ?_⟩, fun hl ht => ⟨?_, hreads _ ?_⟩⟩
  · rw [State.signalArrives, if_pos hn]; exact s.changeInput_becomes i _
  · rw [hloss, State.signalLost, if_pos hn]
  · rw [hchange, State.descriptorChanges]; simp [hn]
  · rw [hexpiry, State.lockTimerEnds]; simp [hn]
  · rw [harrival, State.signalArrives, if_neg hn]
  · rw [State.signalLost, if_neg hn]; exact s.changeInput_becomes i _
  · have : s.descriptorChanges i d = s.changeInput i (InputRec.locking d) := by
      rw [State.descriptorChanges]
      obtain h | h | h := hn <;> simp [h]
    rw [this]; exact s.changeInput_becomes i _
  · rw [hexpiry, State.lockTimerEnds]
    obtain h | h | h := hn <;> simp [h]
  · rw [hchange, State.descriptorChanges]; simp [hl, Option.isSome_iff_ne_none, ht]
  · obtain ⟨n, hn⟩ := Option.ne_none_iff_exists'.1 ht
    rw [hexpiry, State.lockTimerEnds]; simp [hl, hn, hd]
  · rw [hexpiry, State.lockTimerEnds]; simp [hl, ht]
  · rw [hchange, State.descriptorChanges]; simp [hl, ht]

end Sys2Proof.Machine

end

section
/-! PROOFS. The full resets (R23, R61, R67, R85, R112, R138, R159, R173, R190, R191; O13). -/

open Sys2Proof Sys2Proof.Machine

namespace Sys2Proof.Machine

/-! ### The kinds that are raised -/

/-- On every port the kinds pending are those pending before and the listed ones. -/
def raisesOnly (ks : List EventKind) (s t : State) : Prop :=
  ∀ q k, ((t.port q).events.kind k).pending = true → ((s.port q).events.kind k).pending = true ∨ k ∈ ks

theorem raisesOnly.refl (ks : List EventKind) (s : State) : raisesOnly ks s s := fun _ _ => .inl

theorem raisesOnly.trans {ks : List EventKind} {s t u : State} (h1 : raisesOnly ks s t) (h2 : raisesOnly ks t u) :
    raisesOnly ks s u := fun q k h => (h2 q k h).elim (h1 q k) .inr

theorem raisesOnly.of_ports_eq {s t : State} (ks : List EventKind) (h : t.ports = s.ports) : raisesOnly ks s t :=
  fun q k hk => .inl (by rwa [State.port, h] at hk)

theorem State.raise_raisesOnly (s : State) {ks : List EventKind} {k : EventKind} (d : EventDetail) (hk : k ∈ ks) :
    raisesOnly ks s (s.raise k d) := by
  intro q j hj
  by_cases h : j = k
  · exact .inr (h ▸ hk)
  · rw [State.raise_port] at hj
    exact .inl ((congrArg (fun x => x.pending) (EventState.kind_setKind_ne _ _ h)).symm.trans hj)

/-! ### The part as a full reset leaves it, before its pins are taken -/

/-- The zones are in STANDBY, the DRAM holds no segment, nothing sounds, the decoder is not bound and the tuner is
PARKED: what an arrival on a line or a link then changes is its own record. -/
structure State.Bare (s : State) : Prop where
  standby : ∀ z, (s.zone z).power = .standby
  marks : ∀ z, (s.zone z).noOutput = false
  segments : s.delay.segments = []
  starved : s.delay.starved = []
  gains : s.mix.gains = Vector.replicate 13 GainRec.silent
  lanes : s.mix.lanes = Vector.replicate 13 (List.replicate 48 0)
  unbound : s.decoder.binding = none
  parked : s.tuner.state = .parked
  unused : s.tuner.op = none

theorem State.Bare.of_changes {s t : State} (h : s.Bare) (hc : onlyChanges [.outputs, .inputs, .ports] s t) : t.Bare := by
  have hz : t.zones = s.zones := hc .zones (by decide)
  have hd : t.delay = s.delay := hc .delay (by decide)
  have hm : t.mix = s.mix := hc .mix (by decide)
  have he : t.decoder = s.decoder := hc .decoder (by decide)
  have ht : t.tuner = s.tuner := hc .tuner (by decide)
  have hzone (z : Zone) : t.zone z = s.zone z := congrArg (PerZone.get · z) hz
  exact ⟨fun z => hzone z ▸ h.standby z, fun z => hzone z ▸ h.marks z, hd ▸ h.segments, hd ▸ h.starved, hm ▸ h.gains,
    hm ▸ h.lanes, he ▸ h.unbound, ht ▸ h.parked, ht ▸ h.unused⟩

theorem State.Bare.noteZone {s : State} (h : s.Bare) (z : Zone) : s.noteZone z = s := by
  have hlacks : s.lacksOutput z = false := by simp [State.lacksOutput, h.standby z]
  have hsame : ({ s.zone z with noOutput := false } : ZoneRec) = s.zone z := by rw [← h.marks z]
  rw [s.noteZone_eq, hlacks, hsame]
  cases z <;> rfl

theorem State.Bare.noteOutputs {s : State} (h : s.Bare) : s.noteOutputs = s := by
  rw [State.noteOutputs, h.noteZone, h.noteZone]

theorem State.Bare.leaveStarved {s : State} (h : s.Bare) (o : Fin 13) : s.leaveStarved o = s := by
  have hsame : ({ s.delay with starved := s.delay.starved.filter (fun q => q != o) } : DelayState) = s.delay := by
    conv_lhs => rw [h.starved, List.filter_nil, ← h.starved]
  rw [State.leaveStarved, hsame]
  rfl

theorem State.Bare.silenceGain {s : State} (h : s.Bare) (o : Fin 13) :
    s.setGain o { s.gain o with current := -161, target := -161 } = s := by
  have hgain : s.gain o = GainRec.silent := by simp [State.gain, h.gains]
  have hsame : s.mix.gains.set o GainRec.silent = s.mix.gains := by
    rw [h.gains]; exact Vector.ext fun i hi => by simp
  rw [hgain]
  change s.setMix { s.mix with gains := s.mix.gains.set o GainRec.silent } = s
  rw [hsame]
  rfl

theorem State.Bare.silenceLane {s : State} (h : s.Bare) (o : Fin 13) : s.silenceLane o = s := by
  have hsame : s.mix.lanes.set o (List.replicate 48 0) = s.mix.lanes := by
    rw [h.lanes]; exact Vector.ext fun i hi => by simp
  rw [State.silenceLane, hsame]
  rfl

theorem State.Bare.freeSegment {s : State} (h : s.Bare) (o : Fin 13) : s.freeSegment o = s := by
  rw [State.freeSegment, show s.delay.segment o = none by simp [DelayState.segment, h.segments]]

theorem State.Bare.setOut {s : State} (h : s.Bare) (o : Fin 13) (r : OutputRec) : (s.setOut o r).Bare :=
  h.of_changes ((s.setOut_frame o r).1.mono (by decide))

/-- An arrival on FLTn takes its output to FAULT (R56). -/
theorem State.Bare.faultOutput {s : State} (h : s.Bare) {n : Fin 11} (hn : (s.out (lineOutput n)).state ≠ .fault) :
    s.faultOutput n = (s.setOut (lineOutput n) { OutputRec.idle with state := .fault }).raiseFaultLine n := by
  rw [State.faultOutput]
  dsimp only
  rw [if_neg hn, h.leaveStarved, h.silenceGain, h.silenceLane, State.updateOut, (h.setOut _ _).noteOutputs,
    (h.setOut _ _).freeSegment]

/-- A thermal trip finds no zone to take to QUIETING (R11). -/
theorem State.Bare.thermalTrip {s : State} (h : s.Bare) : s.thermalTrip = s := by
  have htrip (z : Zone) : s.tripZone z = s := by rw [State.tripZone, h.standby z]
  have hbinding : s.refreshBinding = s := by
    rw [State.refreshBinding, if_pos]
    simp [State.computedBinding, State.packedSource, ZoneRec.isUp, h.standby, h.unbound]
  have htuner : s.refreshTuner = s := by
    simp [State.refreshTuner, State.tunerActive, State.tunerHeard, ZoneRec.isUp, h.standby, h.unused, h.parked]
  have hend (z : Zone) : s.endSilentRamp z = s := by
    rw [State.endSilentRamp, if_neg]; simp [h.standby z]
  have hfold : Zone.all.foldl State.tripZone s = s := by simp [Zone.all, htrip]
  rw [State.thermalTrip, hfold, State.reportQuieting, State.reportZones, hbinding, htuner]
  generalize Zone.all.filter (fun z => (s.zone z).power != .quieting) = l
  induction l with
  | nil => rfl
  | cons z l ih => rw [List.foldl_cons, hend, ih]

/-! ### Protection lines at the end of a full reset (R61) -/

/-- The level of a pin is the one at which its line is active. -/
abbrev Line.at (l : Line) (a : ActiveLevel) : Bool := l.pin == a.pin

theorem State.setFlt_changes (s : State) (n : Fin 11) (l : Line) : onlyChanges [.outputs, .ports] s (s.setFlt n l) :=
  (s.setOutputs_frame _).1.mono (by decide)

theorem State.setFlt_fltLine_self (s : State) (n : Fin 11) (l : Line) : (s.setFlt n l).fltLine n = l := by
  simp [State.setFlt, State.fltLine]

theorem State.setFlt_fltLine_ne (s : State) {n m : Fin 11} (l : Line) (h : m ≠ n) :
    (s.setFlt n l).fltLine m = s.fltLine m := by
  have : n.val ≠ m.val := fun e => h (Fin.ext e.symm)
  simp [State.setFlt, State.fltLine, this]

theorem lineOutput_ne {n m : Fin 11} (h : m ≠ n) : lineOutput m ≠ lineOutput n :=
  fun e => h (Fin.ext (congrArg (fun o : Fin 13 => o.val) e))

theorem ne_lineOutput {o : Fin 13} (n : Fin 11) (h : 11 ≤ o.val) : o ≠ lineOutput n :=
  fun e => absurd n.isLt (Nat.not_lt.2 (by rw [e] at h; exact h))

/-- What taking the fault lines of a list from their pins does: each active one has its output in FAULT and has raised
PROTECTION, and nothing else has changed. -/
structure FaultsTaken (l : List (Fin 11)) (s t : State) : Prop where
  changes : onlyChanges [.outputs, .ports] s t
  raises : Raises s t
  only : raisesOnly [.protection] s t
  rest : t.outputs = { s.outputs with flt := t.outputs.flt, outs := t.outputs.outs }
  sensed : ∀ n ∈ l, t.fltLine n = { s.fltLine n with active := (s.fltLine n).at s.outputs.fltLevel } ∧
    t.out (lineOutput n) =
      (if (s.fltLine n).pin = s.outputs.fltLevel.pin then { OutputRec.idle with state := .fault } else s.out (lineOutput n)) ∧
    ((s.fltLine n).pin = s.outputs.fltLevel.pin →
      reported t .protection { EventDetail.zero with outputs := outputBit (lineOutput n) })
  others : ∀ n ∉ l, t.fltLine n = s.fltLine n ∧ t.out (lineOutput n) = s.out (lineOutput n)
  inner : ∀ o : Fin 13, 11 ≤ o.val → t.out o = s.out o

theorem State.Bare.senseFlt {s : State} (h : s.Bare) {n : Fin 11} (hl : (s.fltLine n).active = false)
    (ho : (s.out (lineOutput n)).state ≠ .fault) : FaultsTaken [n] s (s.senseFlt n) := by
  by_cases hp : (s.fltLine n).pin = s.outputs.fltLevel.pin
  · obtain ⟨u, hu⟩ : ∃ u, u = s.setFlt n { s.fltLine n with active := true } := ⟨_, rfl⟩
    obtain ⟨v, hv⟩ : ∃ v, v = u.setOut (lineOutput n) { OutputRec.idle with state := .fault } := ⟨_, rfl⟩
    have hbare : u.Bare := h.of_changes (hu ▸ (s.setFlt_changes n _).mono (by decide))
    have hout (o : Fin 13) : u.out o = s.out o := by rw [hu]; rfl
    have hflt (m : Fin 11) : v.fltLine m = u.fltLine m := by rw [hv]; rfl
    have hsense : s.senseFlt n = v.raiseFaultLine n := by
      rw [State.senseFlt]
      simp only [hp, hl, beq_self_eq_true, Bool.true_eq_false, if_false, if_true]
      rw [State.fltArrives, ← hu, hbare.faultOutput (by rwa [hout]), ← hv]
    have hrest : (v.raiseFaultLine n).outputs = v.outputs := (v.raiseFaultLine_frame n).1 .outputs (by decide)
    have hlines (m : Fin 11) : (v.raiseFaultLine n).fltLine m = v.fltLine m := by rw [State.fltLine, hrest]; rfl
    have houts (o : Fin 13) : (v.raiseFaultLine n).out o = v.out o := by rw [State.out, hrest]; rfl
    have hports : v.ports = s.ports := by rw [hv, hu]; rfl
    rw [hsense]
    refine ⟨?_, (Raises.of_ports_eq hports).trans (v.raise_raises _ _),
      (raisesOnly.of_ports_eq _ hports).trans (v.raise_raisesOnly _ (by simp)), ?_, fun m hm => ?_, fun m hm => ?_, fun o ho => ?_⟩
    · refine onlyChanges.trans (t := u) (hu ▸ s.setFlt_changes n _) (onlyChanges.trans (t := v) ?_ ?_)
      · exact hv ▸ (u.setOut_frame _ _).1.mono (by decide)
      · exact (v.raiseFaultLine_frame n).1.mono (by decide)
    · rw [hrest, hv, hu]; rfl
    · obtain rfl : m = n := by simpa using hm
      refine ⟨?_, ?_, fun _ => State.raise_reported _ _ (by decide)⟩
      · rw [hlines, hflt, hu, State.setFlt_fltLine_self]; simp [hp]
      · rw [houts, hv, State.out_setOut_self, if_pos hp]
    · have hm' : m ≠ n := by simpa using hm
      exact ⟨by rw [hlines, hflt, hu, State.setFlt_fltLine_ne _ _ hm'],
        by rw [houts, hv, u.out_setOut_ne _ (lineOutput_ne hm'), hout]⟩
    · rw [houts, hv, u.out_setOut_ne _ (ne_lineOutput n ho), hout]
  · have hne : ((s.fltLine n).pin == s.outputs.fltLevel.pin) = false := beq_eq_false_iff_ne.2 hp
    have hsense : s.senseFlt n = s := by
      rw [State.senseFlt]
      simp only [hne, hl, if_true]
    rw [hsense]
    refine ⟨onlyChanges_refl _ s, .refl s, .refl _ s, rfl, fun m hm => ?_, fun m hm => ⟨rfl, rfl⟩, fun o ho => rfl⟩
    obtain rfl : m = n := by simpa using hm
    refine ⟨?_, (if_neg hp).symm, fun e => absurd e hp⟩
    rw [Line.at, hne, ← hl]

theorem FaultsTaken.append {l m : List (Fin 11)} {s t u : State} (h1 : FaultsTaken l s t) (h2 : FaultsTaken m t u)
    (hd : ∀ n ∈ l, n ∉ m) : FaultsTaken (l ++ m) s u := by
  have hlevel : t.outputs.fltLevel = s.outputs.fltLevel := by rw [h1.rest]
  refine ⟨h1.changes.trans h2.changes, h1.raises.trans h2.raises, h1.only.trans h2.only, by rw [h2.rest, h1.rest],
    fun n hn => ?_, fun n hn => ?_, fun o ho => (h2.inner o ho).trans (h1.inner o ho)⟩
  · by_cases hl : n ∈ l
    · obtain ⟨hline, hout, hrep⟩ := h1.sensed n hl
      obtain ⟨hline', hout'⟩ := h2.others n (hd n hl)
      exact ⟨hline'.trans hline, hout'.trans hout, fun hp => (hrep hp).mono h2.raises.2⟩
    · have hm : n ∈ m := (List.mem_append.1 hn).resolve_left hl
      obtain ⟨hline, hout⟩ := h1.others n hl
      have h := h2.sensed n hm
      rwa [hline, hout, hlevel] at h
  · obtain ⟨hl, hm⟩ := not_or.1 (fun e => hn (List.mem_append.2 e))
    obtain ⟨hline, hout⟩ := h1.others n hl
    obtain ⟨hline', hout'⟩ := h2.others n hm
    exact ⟨hline'.trans hline, hout'.trans hout⟩

theorem State.Bare.senseFlts {s : State} (h : s.Bare) (l : List (Fin 11)) (hnd : l.Nodup)
    (hl : ∀ n ∈ l, (s.fltLine n).active = false ∧ (s.out (lineOutput n)).state ≠ .fault) :
    FaultsTaken l s (l.foldl State.senseFlt s) := by
  induction l generalizing s with
  | nil =>
    exact ⟨onlyChanges_refl _ s, .refl s, .refl _ s, rfl, fun m hm => absurd hm List.not_mem_nil, fun m _ => ⟨rfl, rfl⟩,
      fun o _ => rfl⟩
  | cons n l ih =>
    obtain ⟨hn, hnd⟩ := List.nodup_cons.1 hnd
    have hfirst := h.senseFlt (hl n List.mem_cons_self).1 (hl n List.mem_cons_self).2
    have hrest : FaultsTaken l (s.senseFlt n) (l.foldl State.senseFlt (s.senseFlt n)) := by
      refine ih (h.of_changes (hfirst.changes.mono (by decide))) hnd fun m hm => ?_
      obtain ⟨hline, hout⟩ := hfirst.others m (by simp; rintro rfl; exact hn hm)
      rw [hline, hout]
      exact hl m (List.mem_cons_of_mem n hm)
    exact hfirst.append hrest (by simpa using hn)

/-- THW taken from its pin (R58, R61). -/
theorem State.senseThw_spec {s : State} (hl : s.outputs.thw.active = false) :
    Frame [.outputs, .ports] s s.senseThw ∧ Raises s s.senseThw ∧ raisesOnly [.protection] s s.senseThw ∧
    s.senseThw.outputs = { s.outputs with thw := { s.outputs.thw with active := s.outputs.thw.at s.outputs.thwLevel } } ∧
    (s.outputs.thw.pin = s.outputs.thwLevel.pin →
      reported s.senseThw .protection { EventDetail.zero with flags := 1 }) := by
  by_cases hp : s.outputs.thw.pin = s.outputs.thwLevel.pin
  · have hnow : (s.outputs.thw.pin == s.outputs.thwLevel.pin) = true := beq_iff_eq.2 hp
    have hsense : s.senseThw = (s.setThw { s.outputs.thw with active := true }).raiseThw := by
      rw [State.senseThw]
      simp only [hnow, hl, Bool.true_eq_false, if_false]
      rfl
    obtain ⟨u, hu⟩ : ∃ u, u = s.setThw { s.outputs.thw with active := true } := ⟨_, rfl⟩
    have hframe : Frame [.outputs, .ports] s u := hu ▸ (s.setOutputs_frame _).mono
    have hports : u.ports = s.ports := by rw [hu]; rfl
    rw [hsense, ← hu]
    refine ⟨hframe.trans (u.raiseThw_frame.mono), (Raises.of_ports_eq hports).trans (u.raise_raises _ _),
      (raisesOnly.of_ports_eq _ hports).trans (u.raise_raisesOnly _ (by simp)), ?_, fun _ => State.raise_reported _ _ (by decide)⟩
    rw [u.raiseThw_frame.1 .outputs (by decide), hu, Line.at, hp, beq_self_eq_true]
    rfl
  · have hne : (s.outputs.thw.pin == s.outputs.thwLevel.pin) = false := beq_eq_false_iff_ne.2 hp
    have hsense : s.senseThw = s := by
      rw [State.senseThw]
      simp only [hne, hl, if_true]
    rw [hsense]
    exact ⟨.refl .., .refl s, .refl _ s, by rw [Line.at, hne, ← hl], fun e => absurd e hp⟩

/-- THT taken from its pin: an arrival sets the latch, and finds no zone to trip (R11, R58, R61). -/
theorem State.Bare.senseTht {s : State} (h : s.Bare) (hl : s.outputs.tht.active = false) (hlatch : s.outputs.latch = false) :
    Frame [.outputs, .ports] s s.senseTht ∧ Raises s s.senseTht ∧ raisesOnly [.protection] s s.senseTht ∧
    s.senseTht.outputs =
      { s.outputs with
        tht := { s.outputs.tht with active := s.outputs.tht.at s.outputs.thtLevel }
        latch := s.outputs.tht.at s.outputs.thtLevel } ∧
    (s.outputs.tht.pin = s.outputs.thtLevel.pin →
      reported s.senseTht .protection { EventDetail.zero with flags := 2 }) := by
  by_cases hp : s.outputs.tht.pin = s.outputs.thtLevel.pin
  · obtain ⟨u, hu⟩ : ∃ u, u = (s.setTht { s.outputs.tht with active := true }).raiseTht := ⟨_, rfl⟩
    have hset : Frame [.outputs, .ports] s (s.setTht { s.outputs.tht with active := true }) := (s.setOutputs_frame _).mono
    have hframe : Frame [.outputs, .ports] s u := hu ▸ hset.trans (State.raiseTht_frame _).mono
    have houtputs : u.outputs = { s.outputs with tht := { s.outputs.tht with active := true } } := by
      rw [hu, (State.raiseTht_frame _).1 .outputs (by decide)]; rfl
    have hbare : (u.setOutputs { u.outputs with latch := true }).Bare :=
      h.of_changes ((hframe.1.trans ((u.setOutputs_frame _).1.mono (by decide))).mono (by decide))
    have hsense : s.senseTht = u.setOutputs { u.outputs with latch := true } := by
      rw [State.senseTht]
      simp only [hp, hl, beq_self_eq_true, Bool.true_eq_false, if_false, if_true]
      rw [State.thtArrives]
      simp only [← hu]
      rw [if_neg (by simp [houtputs, hlatch]), hbare.thermalTrip]
    have hraises : Raises s u := hu ▸ (Raises.of_ports_eq rfl).trans (State.raise_raises _ _ _)
    have honly : raisesOnly [.protection] s u := hu ▸ (raisesOnly.of_ports_eq _ rfl).trans (State.raise_raisesOnly _ _ (by simp))
    rw [hsense]
    refine ⟨hframe.trans (u.setOutputs_frame _).mono, hraises.trans (.of_ports_eq rfl), honly.trans (.of_ports_eq _ rfl), ?_,
      fun _ => ?_⟩
    · rw [State.setOutputs_outputs, houtputs, Line.at, hp, beq_self_eq_true]
    · exact hu ▸ State.raise_reported _ _ (by decide)
  · have hne : (s.outputs.tht.pin == s.outputs.thtLevel.pin) = false := beq_eq_false_iff_ne.2 hp
    have hsense : s.senseTht = s := by
      rw [State.senseTht]
      simp only [hne, hl, if_true]
    have htht : ({ s.outputs.tht with active := false } : Line) = s.outputs.tht := by rw [← hl]
    have hkept : ({ s.outputs with latch := false } : OutputUnit) = s.outputs := by rw [← hlatch]
    have hsame : ({ s.outputs with tht := { s.outputs.tht with active := false }, latch := false } : OutputUnit) = s.outputs := by
      rw [htht]; exact hkept
    rw [hsense]
    exact ⟨.refl .., .refl s, .refl _ s, by rw [Line.at, hne, hsame], fun e => absurd e hp⟩

/-- Every line taken from its pin in the part as a full reset leaves it (R61). -/
theorem State.Bare.senseAll {s : State} (h : s.Bare) (hflt : ∀ n, (s.fltLine n).active = false)
    (hthw : s.outputs.thw.active = false) (htht : s.outputs.tht.active = false) (hlatch : s.outputs.latch = false)
    (houts : ∀ o, s.out o = OutputRec.idle) :
    onlyChanges [.outputs, .ports] s s.senseAll ∧ Raises s s.senseAll ∧ raisesOnly [.protection] s s.senseAll ∧
    s.senseAll.outputs.assign = s.outputs.assign ∧
    linesTaken s s.senseAll s.outputs.fltLevel s.outputs.thwLevel s.outputs.thtLevel := by
  have hall (n : Fin 11) : n ∈ allFaultLines := by fin_cases n <;> decide
  have hfaults := h.senseFlts allFaultLines (by decide) fun n _ => ⟨hflt n, by rw [houts]; decide⟩
  rw [State.senseAll]
  generalize allFaultLines.foldl State.senseFlt s = u at hfaults
  have huw : u.outputs.thw = s.outputs.thw := by rw [hfaults.rest]
  have hut : u.outputs.tht = s.outputs.tht := by rw [hfaults.rest]
  have hul : u.outputs.latch = s.outputs.latch := by rw [hfaults.rest]
  have huf : u.outputs.fltLevel = s.outputs.fltLevel := by rw [hfaults.rest]
  have huwl : u.outputs.thwLevel = s.outputs.thwLevel := by rw [hfaults.rest]
  have hutl : u.outputs.thtLevel = s.outputs.thtLevel := by rw [hfaults.rest]
  have hua : u.outputs.assign = s.outputs.assign := by rw [hfaults.rest]
  obtain ⟨hwframe, hwraises, hwonly, hwout, hwrep⟩ := u.senseThw_spec (huw ▸ hthw)
  have hbare : u.senseThw.Bare := h.of_changes ((hfaults.changes.trans hwframe.1).mono (by decide))
  generalize u.senseThw = v at *
  obtain ⟨htframe, htraises, htonly, htout, htrep⟩ := hbare.senseTht (by rw [hwout]; exact hut ▸ htht)
    (by rw [hwout]; exact hul ▸ hlatch)
  generalize v.senseTht = t at *
  rw [hwout] at htout htrep
  simp only [huw, hut, huwl, hutl] at htout htrep hwrep
  have hline (n : Fin 11) : t.fltLine n = u.fltLine n := by rw [State.fltLine, htout]; rfl
  have hout (o : Fin 13) : t.out o = u.out o := by rw [State.out, htout]; rfl
  refine ⟨(hfaults.changes.trans hwframe.1).trans htframe.1, (hfaults.raises.trans hwraises).trans htraises,
    (hfaults.only.trans hwonly).trans htonly, by rw [htout, ← hua], ?_⟩
  refine ⟨by rw [htout, ← huf], by rw [htout, ← huwl], by rw [htout, ← hutl], fun n => ?_, fun o ho => ?_,
    by rw [htout], by rw [htout], by rw [htout], fun hp => (hwrep hp).mono htraises.2, htrep⟩
  · obtain ⟨hl, ho, hrep⟩ := hfaults.sensed n (hall n)
    exact ⟨(hline n).trans hl, (hout _).trans (ho.trans (by rw [houts])),
      fun hp => (hrep hp).mono (hwraises.2.trans htraises.2)⟩
  · rw [hout, hfaults.inner o ho, houts]

/-- The lines taken do not depend on what the pins' state was before, nor on what happens besides afterwards. -/
theorem linesTaken.mono {s s' t u : State} {f w h : ActiveLevel} (hl : linesTaken s t f w h)
    (hflt : ∀ n, (s'.fltLine n).pin = (s.fltLine n).pin) (hthw : s'.outputs.thw.pin = s.outputs.thw.pin)
    (htht : s'.outputs.tht.pin = s.outputs.tht.pin) (hout : u.outputs = t.outputs) (hev : eventsGrow t u) :
    linesTaken s' u f w h := by
  obtain ⟨h1, h2, h3, h4, h5, h6, h7, h8, h9, h10⟩ := hl
  refine ⟨hout ▸ h1, hout ▸ h2, hout ▸ h3, fun n => ?_, fun o ho => ?_, ?_, ?_, ?_, fun hp => ?_, fun hp => ?_⟩
  · obtain ⟨hline, ho, hrep⟩ := h4 n
    rw [hflt]
    exact ⟨by rw [← hline, State.fltLine, hout]; rfl, by rw [← ho, State.out, hout]; rfl, fun hp => (hrep hp).mono hev⟩
  · rw [← h5 o ho, State.out, hout]; rfl
  · rw [hout, h6, hthw]
  · rw [hout, h7, htht]
  · rw [hout, h8, htht]
  · exact (h9 (hthw ▸ hp)).mono hev
  · exact (h10 (htht ▸ hp)).mono hev

/-! ### Links at the end of a full reset (R67) -/

/-- The statuses are derived from the inputs without a link, with no event (R23). -/
theorem State.deriveStatuses_spec (s : State) :
    let t := Zone.all.foldl State.deriveStatus s
    onlyChanges [.zones] s t ∧ ∀ z, t.zone z = { s.zone z with status := s.statusOf (s.zone z).live } := by
  refine ⟨?_, fun z => ?_⟩
  · intro p hp
    cases p <;> first | rfl | exact absurd (by simp) hp
  · cases z <;> rfl

/-- A link that is present starts LOCKING: a signal arrival where every zone has the status of an input without a
signal and the decoder stays unbound (R63, R67). -/
theorem State.Bare.signalArrives {s : State} (h : s.Bare) (hs : s.statusesOk) {i : Fin 8} (d : Descriptor)
    (hi : (s.input (digital i)).state = .noSignal) :
    s.signalArrives i d = (s.setInput (digital i) (InputRec.locking d)).raiseInput (digital i) ∧
    (s.signalArrives i d).statusesOk := by
  obtain ⟨u, hu⟩ : ∃ u, u = (s.setInput (digital i) (InputRec.locking d)).raiseInput (digital i) := ⟨_, rfl⟩
  have hframe : onlyChanges [.inputs, .ports] s u := by
    rw [hu]
    exact ((s.setInput_frame _ _).1.mono (by decide)).trans ((State.raiseInput_frame _ _).1.mono (by decide))
  have hbare : u.Bare := h.of_changes (hframe.mono (by decide))
  have hinput (j : Fin 12) : u.input j = if j = digital i then InputRec.locking d else s.input j := by
    have hu' : u.inputs = (s.setInput (digital i) (InputRec.locking d)).inputs := by
      rw [hu, (State.raiseInput_frame _ _).1 .inputs (by decide)]
    rw [State.input, hu']
    split
    · next e => subst e; exact s.input_setInput_self _ _
    · next e => exact s.input_setInput_ne _ e
  have hok : u.statusesOk := by
    intro z
    have hzone : u.zone z = s.zone z := congrArg (PerZone.get · z) (hframe .zones (by decide))
    have hdec : u.decoder = s.decoder := hframe .decoder (by decide)
    have hstatus (src : Source) : u.statusOf src = s.statusOf src := by
      cases src with
      | tuner => rfl
      | input j =>
        by_cases hj : j = digital i
        · simp [State.statusOf, hinput, hj, InputRec.locking, hi]
        · have hb : u.boundTo j = s.boundTo j := by rw [State.boundTo, State.boundTo, hdec]
          simp only [State.statusOf, hinput, hj, hb, if_false]
    rw [hzone, hstatus]
    exact hs z
  have hstatuses : u.refreshStatuses = u := by
    have hone (z : Zone) : u.refreshStatus z = u := by rw [State.refreshStatus, hok z]; simp
    rw [State.refreshStatuses, hone, hone, hone]
  have hbinding : u.refreshBinding = u := by
    rw [State.refreshBinding, if_pos]
    simp [State.computedBinding, State.packedSource, ZoneRec.isUp, hbare.standby, hbare.unbound]
  rw [State.signalArrives, if_pos hi, State.changeInput, ← hu, hstatuses, hbinding]
  exact ⟨rfl, hok⟩

/-- A digital input at the end of a full reset, with its link (R67). -/
def State.takeLink (links : Vector InputRec 12) (s : State) (i : Fin 8) : State :=
  match (links[(digital i)]).link with
  | some d => s.signalArrives i d
  | none => s

/-- What taking the links of a list does: each link that is present has its input LOCKING and has raised INPUT, and
nothing else has changed. -/
structure LinksLocked (links : Vector InputRec 12) (l : List (Fin 8)) (s t : State) : Prop where
  changes : onlyChanges [.inputs, .ports] s t
  raises : Raises s t
  only : raisesOnly [.input] s t
  statuses : t.statusesOk
  absent : ∀ i ∈ l, (links[(digital i)]).link = none → t.input (digital i) = s.input (digital i)
  present : ∀ i ∈ l, ∀ d, (links[(digital i)]).link = some d → t.input (digital i) = InputRec.locking d ∧
    reported t .input { EventDetail.zero with inputs := BitVec.ofNat 16 (2 ^ i.val) }
  others : ∀ j, (∀ i ∈ l, j ≠ digital i) → t.input j = s.input j

theorem digital_inj {i j : Fin 8} (h : digital i = digital j) : i = j :=
  Fin.ext (congrArg (fun k : Fin 12 => k.val) h)

theorem State.Bare.takeLink {s : State} (h : s.Bare) (hs : s.statusesOk) (links : Vector InputRec 12) {i : Fin 8}
    (hi : (s.input (digital i)).state = .noSignal) : LinksLocked links [i] s (s.takeLink links i) := by
  rw [State.takeLink]
  split
  · next d hd =>
    obtain ⟨hsense, hok⟩ := h.signalArrives hs d hi
    obtain ⟨u, hu⟩ : ∃ u, u = s.setInput (digital i) (InputRec.locking d) := ⟨_, rfl⟩
    have hports : u.ports = s.ports := by rw [hu]; rfl
    have hset : Frame [.inputs, .ports] s u := hu ▸ (s.setInput_frame _ _).mono
    rw [← hu] at hsense
    rw [hsense] at hok ⊢
    have hinput (j : Fin 12) : (u.raiseInput (digital i)).input j = u.input j := by
      rw [State.input, (u.raiseInput_frame _).1 .inputs (by decide)]; rfl
    refine ⟨(hset.trans (u.raiseInput_frame _).mono).1, (Raises.of_ports_eq hports).trans (u.raise_raises _ _),
      (raisesOnly.of_ports_eq _ hports).trans (u.raise_raisesOnly _ (by simp)), hok, fun j hj hnone => ?_,
      fun j hj e he => ?_, fun j hj => ?_⟩
    · obtain rfl : j = i := by simpa using hj
      rw [hd] at hnone; contradiction
    · obtain rfl : j = i := by simpa using hj
      obtain rfl : e = d := Option.some.inj (he.symm.trans hd)
      refine ⟨?_, State.raise_reported _ _ (by decide)⟩
      rw [hinput, hu, State.input_setInput_self]
    · rw [hinput, hu, State.input_setInput_ne _ _ (hj i List.mem_cons_self)]
  · next hd =>
    refine ⟨onlyChanges_refl _ s, .refl s, .refl _ s, hs, fun _ _ _ => rfl, fun j hj e he => ?_, fun _ _ => rfl⟩
    obtain rfl : j = i := by simpa using hj
    rw [hd] at he; contradiction

theorem LinksLocked.append {links : Vector InputRec 12} {l m : List (Fin 8)} {s t u : State} (h1 : LinksLocked links l s t)
    (h2 : LinksLocked links m t u) (hd : ∀ i ∈ l, i ∉ m) : LinksLocked links (l ++ m) s u := by
  have hfirst (i : Fin 8) (hi : i ∈ l) : u.input (digital i) = t.input (digital i) :=
    h2.others _ fun j hj e => hd i hi (digital_inj e ▸ hj)
  have hsecond (i : Fin 8) (hi : i ∉ l) : t.input (digital i) = s.input (digital i) :=
    h1.others _ fun j hj e => hi (digital_inj e ▸ hj)
  refine ⟨h1.changes.trans h2.changes, h1.raises.trans h2.raises, h1.only.trans h2.only, h2.statuses, fun i hi hnone => ?_,
    fun i hi d hsome => ?_, fun j hj => ?_⟩
  · by_cases hl : i ∈ l
    · rw [hfirst i hl, h1.absent i hl hnone]
    · rw [h2.absent i ((List.mem_append.1 hi).resolve_left hl) hnone, hsecond i hl]
  · by_cases hl : i ∈ l
    · obtain ⟨hin, hrep⟩ := h1.present i hl d hsome
      exact ⟨(hfirst i hl).trans hin, hrep.mono h2.raises.2⟩
    · exact h2.present i ((List.mem_append.1 hi).resolve_left hl) d hsome
  · rw [h2.others j fun i hi => hj i (List.mem_append_right l hi), h1.others j fun i hi => hj i (List.mem_append_left m hi)]

theorem State.Bare.takeLinks {s : State} (h : s.Bare) (hs : s.statusesOk) (links : Vector InputRec 12) (l : List (Fin 8))
    (hnd : l.Nodup) (hl : ∀ i ∈ l, (s.input (digital i)).state = .noSignal) :
    LinksLocked links l s (l.foldl (State.takeLink links) s) := by
  induction l generalizing s with
  | nil =>
    exact ⟨onlyChanges_refl _ s, .refl s, .refl _ s, hs, fun _ _ _ => rfl, fun i hi => absurd hi List.not_mem_nil,
      fun _ _ => rfl⟩
  | cons i l ih =>
    obtain ⟨hi, hnd⟩ := List.nodup_cons.1 hnd
    have hfirst := h.takeLink hs links (hl i List.mem_cons_self)
    have hrest : LinksLocked links l (s.takeLink links i) (l.foldl (State.takeLink links) (s.takeLink links i)) := by
      refine ih (h.of_changes (hfirst.changes.mono (by decide))) hfirst.statuses hnd fun j hj => ?_
      have hne : digital j ≠ digital i := fun e => hi (digital_inj e ▸ hj)
      rw [hfirst.others (digital j) (by simpa using hne)]
      exact hl j (List.mem_cons_of_mem i hj)
    exact hfirst.append hrest (by simpa using hi)

theorem State.resetInputs_eq (s : State) :
    s.resetInputs = allDigital.foldl (State.takeLink s.inputs) (Zone.all.foldl State.deriveStatus { s with inputs := InputRec.table }) :=
  rfl

/-- The end of a full reset: the lines and the links are taken, the source statuses derived (R23, R61, R67). -/
theorem State.Bare.fullReset {s : State} (h : s.Bare) (hflt : ∀ n, (s.fltLine n).active = false)
    (hthw : s.outputs.thw.active = false) (htht : s.outputs.tht.active = false) (hlatch : s.outputs.latch = false)
    (houts : ∀ o, s.out o = OutputRec.idle) (hnone : ∀ q k, ((s.port q).events.kind k).pending = false) {t : State}
    (ht : t = s.senseAll.resetInputs) :
    onlyChanges [.zones, .outputs, .inputs, .ports] s t ∧ portsRaised s t ∧
    (∀ z, t.zone z = { s.zone z with status := (t.zone z).status } ∧ t.statusIs (t.zone z).live (t.zone z).status) ∧
    t.outputs.assign = s.outputs.assign ∧
    linesTaken s t s.outputs.fltLevel s.outputs.thwLevel s.outputs.thtLevel ∧ linksTaken s t := by
  obtain ⟨hchanges, hraises, honly, hassign, hlines⟩ := h.senseAll hflt hthw htht hlatch houts
  obtain ⟨u, hu⟩ : ∃ u, u = s.senseAll := ⟨_, rfl⟩
  rw [← hu] at hchanges hraises honly hassign hlines ht
  have hinputs : u.inputs = s.inputs := hchanges .inputs (by decide)
  obtain ⟨hderived, hzones⟩ := State.deriveStatuses_spec { u with inputs := InputRec.table }
  obtain ⟨v, hv⟩ : ∃ v, v = Zone.all.foldl State.deriveStatus { u with inputs := InputRec.table } := ⟨_, rfl⟩
  rw [State.resetInputs_eq, ← hv, hinputs] at ht
  rw [← hv] at hderived hzones
  have huv : onlyChanges [.zones, .inputs] u v :=
    onlyChanges.trans (t := { u with inputs := InputRec.table }) (fun p hp => by cases p <;> first | rfl | simp at hp)
      (hderived.mono (by decide))
  have hvinputs : v.inputs = InputRec.table := hderived .inputs (by decide)
  have hvports : v.ports = u.ports := huv .ports (by decide)
  have hzone (z : Zone) : v.zone z = { s.zone z with status := (v.zone z).status } ∧
      (v.zone z).status = v.statusOf (v.zone z).live := by
    have hz : u.zone z = s.zone z := congrArg (PerZone.get · z) (hchanges .zones (by decide))
    have hstatus : v.statusOf (u.zone z).live = ({ u with inputs := InputRec.table } : State).statusOf (u.zone z).live :=
      State.statusOf_congr (congrArg _ (hderived .decoder (by decide))) hvinputs _
    have h' := hzones z
    refine ⟨h'.trans ?_, ?_⟩
    · rw [h', ← hz]; rfl
    · rw [h']; exact hstatus.symm
  have hbare : v.Bare := by
    have hb : u.Bare := h.of_changes (hchanges.mono (by decide))
    refine ⟨fun z => ?_, fun z => ?_, ?_, ?_, ?_, ?_, ?_, ?_, ?_⟩
    · rw [(hzone z).1]; exact h.standby z
    · rw [(hzone z).1]; exact h.marks z
    · rw [huv .delay (by decide)]; exact hb.segments
    · rw [huv .delay (by decide)]; exact hb.starved
    · rw [huv .mix (by decide)]; exact hb.gains
    · rw [huv .mix (by decide)]; exact hb.lanes
    · rw [huv .decoder (by decide)]; exact hb.unbound
    · rw [huv .tuner (by decide)]; exact hb.parked
    · rw [huv .tuner (by decide)]; exact hb.unused
  have hquiet (i : Fin 8) : v.input (digital i) = InputRec.noSignal := by
    rw [State.input, hvinputs]; fin_cases i <;> rfl
  have hall (i : Fin 8) : i ∈ allDigital := by fin_cases i <;> decide
  have hlinks := hbare.takeLinks (fun z => (hzone z).2) s.inputs allDigital (by decide) fun i _ => by rw [hquiet]; rfl
  rw [← ht] at hlinks
  have hvt : onlyChanges [.zones, .outputs, .inputs, .ports] v t := hlinks.changes.mono (by decide)
  have huvt : onlyChanges [.zones, .outputs, .inputs, .ports] u t := (huv.mono (by decide)).trans hvt
  have hall' : Raises u t := (Raises.of_ports_eq hvports).trans hlinks.raises
  have htv (z : Zone) : t.zone z = v.zone z := congrArg (PerZone.get · z) (hlinks.changes .zones (by decide))
  refine ⟨onlyChanges.trans (hchanges.mono (by decide)) huvt, (hraises.trans hall').1, fun z => ⟨?_, ?_⟩, ?_, ?_, ?_, ?_, ?_⟩
  · rw [htv]; exact (hzone z).1
  · exact (State.statusIs_iff ..).2 (hlinks.statuses z)
  · rw [hlinks.changes .outputs (by decide), huv .outputs (by decide), hassign]
  · exact hlines.mono (fun _ => rfl) rfl rfl
      ((hlinks.changes .outputs (by decide)).trans (huv .outputs (by decide))) hall'.2
  · exact fun i => ⟨fun hn => (hlinks.absent i (hall i) hn).trans (hquiet i), fun d hd => hlinks.present i (hall i) d hd⟩
  · intro i hi
    rw [hlinks.others i fun j _ e => absurd j.isLt (Nat.not_lt.2 (by rw [e] at hi; exact hi)), State.input, hvinputs]
    revert hi
    fin_cases i <;> first | exact fun _ => rfl | exact fun hi => absurd hi (by decide)
  · intro q k hk
    obtain hk | hk := hlinks.only q k hk
    · obtain hk | hk := honly q k ((raisesOnly.of_ports_eq [] hvports q k hk).resolve_right List.not_mem_nil)
      · rw [hnone] at hk; contradiction
      · exact .inl (by simpa using hk)
    · exact .inr (by simpa using hk)

/-! ### The two full resets (R190, R191) -/

theorem unsensedFlt_getElem (v : Vector Line 11) (n : Fin 11) : (unsensedFlt v)[n] = (v[n]).unsensed := by
  fin_cases n <;> simp [unsensedFlt, allFaultLines]

theorem PortRec.reset_quiet (why : DetailReason) (k : EventKind) : ((PortRec.reset why).events.kind k).pending = false := by
  cases k <;> rfl

theorem PortRec.notify_of_disabled {r : PortRec} (h : r.events.notifyEnable = false) : r.notify = false := by
  rw [PortRec.notify, h, Bool.false_and]

/-- What a port's record is where it has met raisings alone since a full reset (R185, R191, R205). -/
theorem PortRec.fullReset_raised {r u : PortRec} {why : DetailReason} (h : (r.fullReset why).raisedFrom u) :
    u = { PortRec.reset why with prst := r.prst, events := u.events } ∧ u.events.enable = 0 ∧
    u.events.notifyEnable = false ∧ u.events.notifyOnPending = false ∧ u.notify = false := by
  obtain ⟨hu, henable, hnotify, hpending, -⟩ := h
  exact ⟨hu, henable, hnotify, hpending, PortRec.notify_of_disabled hnotify⟩

/-- POWER-ON before the pins are taken (R191). -/
def State.poweredOn (s : State) : State :=
  { State.reset with
    outputs := OutputUnit.reset.withPins s.outputs
    inputs := s.inputs
    delay := { DelayState.reset with dram := s.delay.dram }
    ports := s.resetPorts .powerOn
    freeCount := s.freeCount
    pending := s.pending }

/-- PART RESET before the pins are taken (R190). -/
def State.partCleared (s : State) : State :=
  { zones := ⟨s.zones.main.partReset, s.zones.z2.partReset, s.zones.z3.partReset⟩
    minute := s.minute
    outputs := s.outputs.partReset
    inputs := s.inputs
    decoder := DecoderRec.reset
    mix := s.mix.partReset
    delay := s.delay.partReset
    tuner := s.tuner.partReset
    slots := Vector.replicate 8 none
    ports := s.resetPorts .partReset
    freeCount := s.freeCount
    pending := s.pending }

theorem State.resetPorts_get (s : State) (why : DetailReason) (q : Port) :
    (s.resetPorts why).get q = (s.port q).fullReset why := by
  cases q <;> rfl

theorem State.poweredOn_bare (s : State) : s.poweredOn.Bare :=
  ⟨fun z => by cases z <;> rfl, fun z => by cases z <;> rfl, rfl, rfl, rfl, rfl, rfl, rfl, rfl⟩

theorem TunerRec.blendNow_eq (t : TunerRec) :
    t.blendNow = { t with blend := if t.band = .fm ∧ 40 ≤ t.quality then .stereo else .mono } := rfl

theorem State.partCleared_bare (s : State) : s.partCleared.Bare :=
  ⟨fun z => by cases z <;> rfl, fun z => by cases z <;> rfl, rfl, rfl, rfl, rfl, rfl, rfl, rfl⟩

/-- The DONE of Reset Part meets a port whose flags are CLEAR (R190, log 11). -/
theorem exec_resetPart {s : State} {p : Port} {h : FrameHead} (ht : serviceTaken s p h .resetPart)
    (hatt : (s.partReset.port p).attention = some .partReset)
    (hn : (s.partReset.port p).events.notifyOnPending = false) :
    exec (.resetPart p h) s = .next (s.partReset.closed p h .resetPart (Answer.plain .done)) := by
  obtain ⟨hprst, hnone, hl, hf⟩ := ht
  have hl4 : h.length = 4 := hl
  refine (exec_of_lengthOk .resetPart hprst (by omega) (by omega)).trans ?_
  rw [State.admitAttention_service rfl (.inl hnone) hf hl (u := s.partReset) (a := Answer.plain .done) rfl]
  have hevents : ({ (s.partReset.port p).events with
      notifyEnable := (s.partReset.port p).events.notifyEnable || (s.partReset.port p).events.notifyOnPending
      notifyOnPending := false } : EventState) = (s.partReset.port p).events := by
    rw [hn, Bool.or_false, ← hn]
  rw [State.closed, PortRec.answered, hevents, State.arm]
  simp [hnone, State.reply_eq, PortRec.repliedTo, hatt, State.drive]

/-- Settles O13: both full resets leave the part bare, and then take its lines and links. -/
theorem resetsReachEveryBlock : Obligations.ResetsReachEveryBlock := by
  refine ⟨fun p h s ht => ?_, fun s => ?_⟩
  · obtain ⟨hchanges, hraised, hzones, hassign, hlines, hlinks⟩ := s.partCleared_bare.fullReset
      (fun n => congrArg Line.active (unsensedFlt_getElem s.outputs.flt n)) rfl rfl rfl
      (fun o => by simp [State.out, State.partCleared, OutputUnit.partReset, OutputUnit.withPins])
      (fun q k => (congrArg (fun r : PortRec => (r.events.kind k).pending) (s.resetPorts_get .partReset q)).trans
        (PortRec.reset_quiet .partReset k)) (t := s.partReset) rfl
    have hport (q : Port) := PortRec.fullReset_raised (r := s.port q) (why := .partReset)
      (by have h := hraised q; rwa [State.port, show s.partCleared.ports.get q = _ from s.resetPorts_get .partReset q] at h)
    obtain ⟨hself, -, -, hpending, -⟩ := hport p
    have hexec := exec_resetPart ht (by rw [hself]; rfl) hpending
    generalize s.partReset = u at *
    have hanswered : (u.port p).answered h .resetPart (Answer.plain .done) =
        { u.port p with
          response := some { status := .done, tag := h.tag, code := 0x04, slot := none, data := [] }
          dataOut := List.replicate h.length 0xFF } := by
      rw [PortRec.answered, hpending, Bool.or_false, ← hpending]
      rfl
    have hgrown : eventsGrow u (u.closed p h .resetPart (Answer.plain .done)) := State.closed_grown u p h _ _
    obtain ⟨t, htdef⟩ : ∃ t, t = u.closed p h .resetPart (Answer.plain .done) := ⟨_, rfl⟩
    rw [← htdef] at hgrown hexec
    have hparts : onlyChanges [.ports] u t := htdef ▸ State.closed_onlyChanges u p h _ _
    have hne (q : Port) (hq : q ≠ p) : t.port q = u.port q := by rw [htdef, State.closed_port_ne _ _ _ _ hq]
    have hp : t.port p = _ := (congrArg (State.port · p) htdef).trans ((u.closed_port_self p h _ _).trans hanswered)
    have hkept (q : Port) : t.port q = { u.port q with response := (t.port q).response, dataOut := (t.port q).dataOut } := by
      by_cases hq : q = p
      · rw [hq, hp]
      · rw [hne q hq]
    have hzone (z : Zone) : t.zone z = u.zone z := congrArg (PerZone.get · z) (hparts .zones (by decide))
    refine ⟨t, hexec, by rw [hp], fun q hq => ?_, fun q => ?_, fun z => ⟨?_, ?_⟩, ?_, ?_, ?_, ⟨fun i => ?_, fun i hi => ?_, fun q k hk => ?_⟩,
      ?_, ?_, ?_, ?_, fun k => ?_, ?_, ?_⟩
    · rw [hne q hq, (hport q).1]; rfl
    · obtain ⟨hrec, henable, hnotify, hflag, -⟩ := hport q
      have hevents : (t.port q).events = (u.port q).events := by rw [hkept q]
      have hrest : t.port q =
          { PortRec.reset .partReset with
            prst := (s.port q).prst
            events := (u.port q).events
            response := (t.port q).response
            dataOut := (t.port q).dataOut } := (hkept q).trans (by rw [hrec])
      rw [hevents]
      refine ⟨?_, ?_, ?_, ?_, ?_, henable, hnotify, hflag, PortRec.notify_of_disabled (hevents ▸ hnotify), ?_, ?_⟩ <;>
        rw [hrest] <;> rfl
    · rw [hzone, (hzones z).1]; cases z <;> rfl
    · have h := (hzones z).2
      rw [State.statusIs_iff] at h ⊢
      rw [hzone, h]
      exact (State.statusOf_congr (congrArg _ (hparts .decoder (by decide))) (hparts .inputs (by decide)) _).symm
    · rw [hparts .minute (by decide), hchanges .minute (by decide)]; rfl
    · rw [hparts .outputs (by decide), hassign]; rfl
    · exact hlines.mono (fun n => (congrArg Line.pin (unsensedFlt_getElem s.outputs.flt n)).symm) rfl rfl
        (hparts .outputs (by decide)) hgrown
    · have hin : t.input (digital i) = u.input (digital i) := by rw [State.input, hparts .inputs (by decide)]; rfl
      rw [hin]
      exact ⟨(hlinks.1 i).1, fun d hd => ⟨((hlinks.1 i).2 d hd).1, ((hlinks.1 i).2 d hd).2.mono hgrown⟩⟩
    · rw [← hlinks.2.1 i hi, State.input, hparts .inputs (by decide)]; rfl
    · exact hlinks.2.2 q k (by rwa [hkept q] at hk)
    · rw [hparts .decoder (by decide), hchanges .decoder (by decide)]; rfl
    · rw [hparts .mix (by decide), hchanges .mix (by decide)]; rfl
    · rw [hparts .delay (by decide), hchanges .delay (by decide)]
      simp [State.partCleared, DelayState.partReset]
    · rw [hparts .tuner (by decide), hchanges .tuner (by decide)]; rfl
    · rw [State.slot, hparts .slots (by decide), hchanges .slots (by decide)]
      simp [State.partCleared]
    · rw [hparts .pending (by decide), hchanges .pending (by decide)]; rfl
    · rw [hparts .freeCount (by decide), hchanges .freeCount (by decide)]; rfl
  · obtain ⟨hchanges, hraised, hzones, hassign, hlines, hlinks⟩ := s.poweredOn_bare.fullReset
      (fun n => congrArg Line.active (unsensedFlt_getElem s.outputs.flt n)) rfl rfl rfl
      (fun o => by simp [State.out, State.poweredOn, OutputUnit.withPins, OutputUnit.reset])
      (fun q k => (congrArg (fun r : PortRec => (r.events.kind k).pending) (s.resetPorts_get .powerOn q)).trans
        (PortRec.reset_quiet .powerOn k)) (t := s.powerOn) rfl
    have hport (q : Port) := PortRec.fullReset_raised (r := s.port q) (why := .powerOn)
      (by have h := hraised q; rwa [State.port, show s.poweredOn.ports.get q = _ from s.resetPorts_get .powerOn q] at h)
    refine ⟨s.powerOn, rfl, fun z => ⟨(hzones z).1.trans ?_, (hzones z).2⟩, hchanges .minute (by decide), hchanges .mix (by decide),
      hchanges .decoder (by decide), hchanges .delay (by decide), hchanges .tuner (by decide), fun k => ?_, hassign, ?_, hlinks,
      hport, hchanges .freeCount (by decide), hchanges .pending (by decide)⟩
    · cases z <;> rfl
    · rw [State.slot, hchanges .slots (by decide)]
      simp [State.poweredOn, State.reset]
    · exact hlines.mono (fun n => (congrArg Line.pin (unsensedFlt_getElem s.outputs.flt n)).symm) rfl rfl rfl (.refl _)

end Sys2Proof.Machine

end

section
/-! PROOFS. The invariants of the part after POWER-ON (O57). -/

open Sys2Proof Sys2Proof.Machine

namespace Sys2Proof.Machine

/-- A segment in order has a page, and it and the target of its move lie within the DRAM (R113, R134). -/
theorem DelayState.segmentOk.inDram {d : DelayState} {g : Segment} (h : d.segmentOk g) :
    (1 ≤ g.count ∧ g.base + g.count ≤ 1024) ∧
      ∀ m, g.move = some m → m.target + g.count ≤ 1024 ∧ m.copied < g.count := by
  obtain ⟨-, htop, hlow, hhigh, -, -, hmove⟩ := h
  refine ⟨⟨by omega, htop⟩, fun m hm => ?_⟩
  obtain ⟨htarget, hcopied, -⟩ := hmove m hm
  exact ⟨by omega, hcopied⟩

theorem State.segmentsOk.inDram {s : State} (h : s.segmentsOk) : s.delay.inDram = true := by
  obtain ⟨-, -, hok, -⟩ := h
  rw [DelayState.inDram, List.all_eq_true]
  intro g hg
  obtain ⟨⟨hpage, htop⟩, hmove⟩ := (hok g hg).inDram
  have htop' : g.base + g.count ≤ pageTotal := htop
  cases hm : g.move with
  | none => simp [hpage, htop']
  | some m =>
    obtain ⟨htarget, hcopied⟩ := hmove m hm
    have htarget' : m.target + g.count ≤ pageTotal := htarget
    simp [hpage, htop', htarget', hcopied]

theorem reset_segmentsOk : State.reset.segmentsOk := by
  refine ⟨List.nodup_nil, .nil, fun g hg => absurd hg List.not_mem_nil, .nil, fun h => absurd rfl h, fun h => absurd rfl h⟩

theorem reset_tunerOk : State.reset.tunerOk := by
  have hnone (n : Fin 40) : TunerRec.reset.presets[n] = none := by simp [TunerRec.reset]
  exact ⟨⟨by decide, (fun k hk => nomatch hk), (fun k hk => nomatch hk), (fun e he => absurd he List.not_mem_nil),
    (fun n r hr => absurd (hr.symm.trans (hnone n)) (by simp))⟩, by decide, .nil, (fun k o hk => nomatch hk),
    (fun e l he => absurd he List.not_mem_nil), (fun n r l hr => absurd (hr.symm.trans (hnone n)) (by simp)), by decide,
    by decide⟩

theorem reset_followed : State.reset.followed :=
  State.reset.followed_of (by decide) (fun z => by cases z <;> decide) (by decide) (fun _ => by decide) (by decide)

/-- Settles O57. -/
theorem resetKeepsInvariants : Obligations.ResetKeepsInvariants := by
  refine ⟨fun p => ?_, by unfold State.bindingOk; decide, rfl, reset_segmentsOk, fun o => ?_, reset_tunerOk,
    reset_followed, fun z hz => ?_, rfl, fun s h => h.inDram⟩
  · cases p <;> exact ⟨by decide, by decide⟩
  · have hgain : State.reset.gain o = GainRec.silent := by simp [State.gain, State.reset, MixState.reset]
    rw [hgain]
    unfold GainRec.ok
    decide
  · have hstandby : (State.reset.zone z).power = .standby ∧ (State.reset.zone z).noOutput = false := by
      cases z <;> exact ⟨rfl, rfl⟩
    simp [State.noOutputIs, hstandby.1, hstandby.2]

end Sys2Proof.Machine

end

section
/-! PROOFS. The segment table, requests for new segments and the grant rule (R42, R113, R120, R122, R125, R131; O34). -/

open Sys2Proof Sys2Proof.Machine

namespace Sys2Proof.Machine

/-! ### The table by base page (R122) -/

theorem insertSegment_perm (g : Segment) (l : List Segment) : (insertSegment g l).Perm (g :: l) := by
  induction l with
  | nil => exact .refl _
  | cons h l ih =>
    rw [insertSegment]
    split
    · exact .refl _
    · exact (ih.cons h).trans (.swap g h l)

theorem insertSegment_sorted (g : Segment) {l : List Segment} (h : l.Pairwise (fun a b => a.base ≤ b.base)) :
    (insertSegment g l).Pairwise (fun a b => a.base ≤ b.base) := by
  induction l with
  | nil => exact List.pairwise_singleton _ _
  | cons a l ih =>
    obtain ⟨ha, hl⟩ := List.pairwise_cons.1 h
    rw [insertSegment]
    split
    · next hlt =>
      refine List.pairwise_cons.2 ⟨fun b hb => ?_, h⟩
      obtain rfl | hb := List.mem_cons.1 hb
      · exact hlt.le
      · exact hlt.le.trans (ha b hb)
    · next hge =>
      refine List.pairwise_cons.2 ⟨fun b hb => ?_, ih hl⟩
      obtain rfl | hb := List.mem_cons.1 ((insertSegment_perm g l).mem_iff.1 hb)
      · exact Nat.not_lt.1 hge
      · exact ha b hb

theorem DelayState.segment_eq_none_iff {d : DelayState} {o : Fin 13} :
    d.segment o = none ↔ ∀ g ∈ d.segments, g.output ≠ o := by
  simp [DelayState.segment]

theorem DelayState.segment_mem {d : DelayState} {o : Fin 13} {g : Segment} (h : d.segment o = some g) :
    g ∈ d.segments ∧ g.output = o :=
  ⟨List.mem_of_find?_eq_some h, by simpa using List.find?_some h⟩

/-! ### First fit (R125) -/

theorem firstFit_eq_some_iff {ok : Nat → Bool} {n b : Nat} (hok : ∀ p, ok p = true → p < 1024) (hn : 0 < n) :
    firstFit ok n = some b ↔
      (∀ i, i < n → ok (b + i) = true) ∧ ∀ b', b' < b → ¬ ∀ i, i < n → ok (b' + i) = true := by
  have hall (c : Nat) : ((List.range n).all fun i => ok (c + i)) = true ↔ ∀ i, i < n → ok (c + i) = true := by
    simp [List.all_eq_true, List.mem_range]
  rw [firstFit, List.find?_range_eq_some]
  simp only [List.mem_range, hall, Bool.not_eq_true', ← Bool.not_eq_true]
  refine ⟨fun ⟨h1, _, h3⟩ => ⟨h1, h3⟩, fun ⟨h1, h3⟩ => ⟨h1, ?_, h3⟩⟩
  have := hok _ (h1 (n - 1) (by omega))
  have hp : pageTotal = 1024 := rfl
  omega

theorem firstFit_eq_none_iff {ok : Nat → Bool} {n : Nat} (hok : ∀ p, ok p = true → p < 1024) (hn : 0 < n) :
    firstFit ok n = none ↔ ∀ b, ¬ ∀ i, i < n → ok (b + i) = true := by
  refine ⟨fun h b hb => ?_, fun h => ?_⟩
  · have hlt := hok _ (hb (n - 1) (by omega))
    have hp : pageTotal = 1024 := rfl
    have := List.find?_eq_none.1 h b (List.mem_range.2 (by omega))
    exact this (List.all_eq_true.2 fun i hi => hb i (List.mem_range.1 hi))
  · refine List.find?_eq_none.2 fun b _ hb => h b fun i hi => ?_
    exact List.all_eq_true.1 hb i (List.mem_range.2 hi)

theorem pagesFor_pos (t : Nat) : 0 < pagesFor t := by
  rw [pagesFor]; omega

theorem DelayState.pageFree_lt {d : DelayState} {p : Nat} (h : d.pageFree p = true) : p < 1024 := by
  simp only [DelayState.pageFree, Bool.and_eq_true, decide_eq_true_eq] at h
  exact h.1.1

theorem inPages_iff {b n p : Nat} : inPages b n p = true ↔ b ≤ p ∧ p < b + n := by
  simp [inPages]

/-- The runs of a request as the model lists them. -/
def runsOf (reqs : List (Fin 13 × Nat)) (bases : List Nat) : List (Fin 13 × Nat × Nat × Nat) :=
  List.zipWith (fun r b => (r.1, r.2, b, pagesFor r.2)) reqs bases

/-- The model places a request exactly where `placedAt` does. -/
theorem placeRuns_eq_some_iff {d : DelayState} {placed : List (Nat × Nat)} {ok : Nat → Bool}
    (hok : ∀ p, ok p = true ↔ d.pageFree p = true ∧ ∀ r ∈ placed, ¬ (r.1 ≤ p ∧ p < r.1 + r.2))
    {reqs : List (Fin 13 × Nat)} {runs : List (Fin 13 × Nat × Nat × Nat)} :
    placeRuns ok reqs = some runs ↔ ∃ bases, placedAt d placed reqs bases ∧ runs = runsOf reqs bases := by
  induction reqs generalizing placed ok runs with
  | nil =>
    refine ⟨fun h => ⟨[], trivial, (Option.some.inj h).symm⟩, fun ⟨bases, hb, hr⟩ => ?_⟩
    cases bases with
    | nil => rw [hr]; rfl
    | cons b bases => exact absurd hb id
  | cons r reqs ih =>
    obtain ⟨o, t⟩ := r
    have hfree (b : Nat) : (∀ i, i < pagesFor t → ok (b + i) = true) ↔ freeRun d placed (pagesFor t) b :=
      forall₂_congr fun i _ => hok _
    have hlt (p : Nat) (hp : ok p = true) : p < 1024 := DelayState.pageFree_lt ((hok p).1 hp).1
    have hfit (b : Nat) := firstFit_eq_some_iff (b := b) hlt (pagesFor_pos t)
    simp only [hfree] at hfit
    have hnext (b : Nat) (p : Nat) : (ok p && !inPages b (pagesFor t) p) = true ↔
        d.pageFree p = true ∧ ∀ r ∈ (b, pagesFor t) :: placed, ¬ (r.1 ≤ p ∧ p < r.1 + r.2) := by
      rw [Bool.and_eq_true, hok, Bool.not_eq_true', ← Bool.not_eq_true, inPages_iff, List.forall_mem_cons]
      tauto
    rw [placeRuns]
    refine ⟨fun h => ?_, fun ⟨bases, hb, hr⟩ => ?_⟩
    · split at h
      · cases h
      · next b hb =>
        obtain ⟨l, hl, rfl⟩ := Option.map_eq_some_iff.1 h
        obtain ⟨bases, hbases, rfl⟩ := (ih (hnext b)).1 hl
        obtain ⟨hrun, hlow⟩ := (hfit b).1 hb
        exact ⟨b :: bases, ⟨hrun, hlow, hbases⟩, rfl⟩
    · cases bases with
      | nil => exact absurd hb id
      | cons b bases =>
        obtain ⟨hrun, hlow, hbases⟩ := hb
        rw [(hfit b).2 ⟨hrun, hlow⟩]
        dsimp only
        rw [(ih (hnext b)).2 ⟨bases, hbases, rfl⟩, hr]
        rfl

/-! ### New segments (R123, R125) -/

/-- A segment is created as a cleared line at its run. -/
theorem DelayState.create_eq (d : DelayState) (r : Fin 13 × Nat) (b : Nat) :
    d.create r.1 r.2 b (pagesFor r.2) = d.clearLine (newSegment r b) := by
  simp only [DelayState.create, newSegment, DelayState.clearLine, pageWords, Nat.mul_comm]

/-- The words of a segment's run. -/
abbrev Segment.hasWord (g : Segment) (a : Nat) : Prop := 256 * g.base ≤ a ∧ a < 256 * (g.base + g.count)

/-- What creating one segment does to a table that holds none of its output. -/
theorem DelayState.clearLine_new {d : DelayState} {r : Fin 13 × Nat} {b : Nat} (h : d.segment r.1 = none) :
    (d.clearLine (newSegment r b)).segments = insertSegment (newSegment r b) d.segments ∧
    ∀ a, Dram.read (d.clearLine (newSegment r b)).dram a =
      if (newSegment r b).hasWord a then 0 else Dram.read d.dram a := by
  refine ⟨?_, fun a => ?_⟩
  · have hfilter : d.segments.filter (fun h => h.output != r.1) = d.segments :=
      List.filter_eq_self.2 fun g hg => by simpa using DelayState.segment_eq_none_iff.1 h g hg
    change insertSegment { newSegment r b with writePos := b * pageWords } _ = _
    rw [show ({ newSegment r b with writePos := b * pageWords } : Segment) = newSegment r b by
      simp [newSegment, pageWords, Nat.mul_comm]]
    exact congrArg _ hfilter
  · have hword : (newSegment r b).hasWord a ↔
        (newSegment r b).base * pageWords ≤ a ∧ a < (newSegment r b).base * pageWords + (newSegment r b).count * pageWords := by
      rw [Segment.hasWord, pageWords, ← Nat.add_mul, Nat.mul_comm 256, Nat.mul_comm 256]
    simp only [hword]
    exact Dram.read_clear ..

/-- The table after the segments of a placed request have been created. -/
theorem DelayState.creates_granted {reqs : List (Fin 13 × Nat)} {bases : List Nat} {d : DelayState}
    (hnd : (reqs.map (·.1)).Nodup) (hnone : ∀ r ∈ reqs, d.segment r.1 = none) :
    requestGranted d reqs bases ((runsOf reqs bases).foldl (fun d (o, t, b, n) => d.create o t b n) d) := by
  induction reqs generalizing bases d with
  | nil => exact ⟨rfl, .refl _, id, fun a => by simp [runsOf]⟩
  | cons r reqs ih =>
    cases bases with
    | nil => exact ⟨rfl, .refl _, id, fun a => by simp [runsOf]⟩
    | cons b bases =>
      obtain ⟨hr, hnd⟩ := List.nodup_cons.1 hnd
      obtain ⟨hsegments, hread⟩ := DelayState.clearLine_new (b := b) (hnone r List.mem_cons_self)
      have hstep : (runsOf (r :: reqs) (b :: bases)).foldl (fun d (o, t, b, n) => d.create o t b n) d =
          (runsOf reqs bases).foldl (fun d (o, t, b, n) => d.create o t b n) (d.clearLine (newSegment r b)) :=
        congrArg (fun e => (runsOf reqs bases).foldl (fun d (o, t, b, n) => d.create o t b n) e) (d.create_eq r b)
      rw [hstep]
      obtain ⟨hrest, hperm, hsorted, hwords⟩ := ih (bases := bases) (d := d.clearLine (newSegment r b)) hnd fun q hq => by
        rw [DelayState.segment_eq_none_iff, hsegments]
        intro g hg
        obtain rfl | hg := List.mem_cons.1 ((insertSegment_perm _ _).mem_iff.1 hg)
        · exact fun e => hr (List.mem_map.2 ⟨q, hq, e.symm⟩)
        · exact DelayState.segment_eq_none_iff.1 (hnone q (List.mem_cons_of_mem r hq)) g hg
      refine ⟨hrest.trans rfl, ?_, fun h => hsorted ?_, fun a => ?_⟩
      · refine hperm.trans ?_
        rw [hsegments]
        exact ((insertSegment_perm _ _).append_left _).trans List.perm_middle
      · rw [hsegments]; exact insertSegment_sorted _ h
      · rw [hwords, hread, List.zipWith_cons_cons]
        simp only [List.mem_cons, exists_eq_or_imp, Segment.hasWord]
        by_cases hnew : 256 * (newSegment r b).base ≤ a ∧ a < 256 * ((newSegment r b).base + (newSegment r b).count)
        · simp [hnew]
        · simp [hnew]

/-! ### Requests (R125) -/

/-- The tests of a request in their order, and its answer. -/
theorem DelayState.request_spec (d : DelayState) {reqs : List (Fin 13 × Nat)} (hne : reqs ≠ []) :
    let pages := (reqs.map (fun r => pagesFor r.2)).sum
    (d.state = .initializing ∨ d.compaction ≠ none → d.request reqs = .error .memoryBusy) ∧
    (d.compaction = none → (d.state = .uninit ∨ d.state = .fault → d.request reqs = .error .notReady) ∧
      (d.state = .ready →
        (d.freePages < pages → d.request reqs = .error .noDelayMemory) ∧
        (pages ≤ d.freePages →
          ((¬ ∃ bases, placedAt d [] reqs bases) → d.request reqs = .error .fragmented) ∧
          (∀ bases, placedAt d [] reqs bases → d.request reqs =
            .ok ((runsOf reqs bases).foldl (fun d (o, t, b, n) => d.create o t b n) d))))) := by
  have hplace := fun runs => placeRuns_eq_some_iff (d := d) (placed := []) (ok := d.pageFree) (by simp) (reqs := reqs)
    (runs := runs)
  refine ⟨fun h => ?_, fun hc => ⟨fun h => ?_, fun h => ⟨fun hp => ?_, fun hp => ⟨fun hno => ?_, fun bases hb => ?_⟩⟩⟩⟩
  · rw [DelayState.request, if_neg hne, DelayState.takesRequests, if_pos (by simpa [Option.isSome_iff_ne_none] using h)]
  · have : d.takesRequests = .error .notReady := by
      rw [DelayState.takesRequests]
      obtain h | h := h <;> simp [h, hc]
    rw [DelayState.request, if_neg hne, this]
  all_goals
    have htakes : d.takesRequests = .ok () := by simp [DelayState.takesRequests, h, hc]
    rw [DelayState.request, if_neg hne, htakes]
    dsimp only
  · rw [if_pos hp]
  · rw [if_neg (Nat.not_lt.2 hp)]
    have : placeRuns d.pageFree reqs = none := by
      by_contra hsome
      obtain ⟨runs, hruns⟩ := Option.ne_none_iff_exists'.1 hsome
      obtain ⟨bases, hbases, -⟩ := (hplace runs).1 hruns
      exact hno ⟨bases, hbases⟩
    rw [this]
  · rw [if_neg (Nat.not_lt.2 hp), (hplace _).2 ⟨bases, hb, rfl⟩]

/-! ### Starved outputs (R131) -/

/-- A granted retry: the output leaves the starved list and is GRANTED with the new segment. -/
theorem State.retryOne_ok {s : State} {o : Fin 13} {z : Zone} {r : Role} {d : DelayState} (ho : o ∈ s.delay.starved)
    (hz : (s.out o).zone = some z) (hr : (s.out o).role = some r) (hup : (s.zone z).isUp = true)
    (hd : s.delay.request [(o, s.totalDelay z r)] = .ok d) :
    s.retryOne o = (((s.setDelay d).leaveStarved o).becomeGranted o z r).raiseChannel o channelStarved := by
  rw [State.retryOne, hz, hr]
  dsimp only
  rw [if_pos (by simpa [hup] using ho), State.requestOne, hd]
  rfl

theorem State.retryOne_error {s : State} {o : Fin 13} {z : Zone} {r : Role} {e : Status}
    (hz : (s.out o).zone = some z) (hr : (s.out o).role = some r)
    (he : s.delay.request [(o, s.totalDelay z r)] = .error e) : s.retryOne o = s := by
  rw [State.retryOne, hz, hr]
  dsimp only
  rw [State.requestOne, he]
  split <;> rfl

theorem State.retryOne_down {s : State} {o : Fin 13} {z : Zone} {r : Role}
    (hz : (s.out o).zone = some z) (hr : (s.out o).role = some r) (hup : (s.zone z).isUp = false) : s.retryOne o = s := by
  rw [State.retryOne, hz, hr]
  dsimp only
  rw [if_neg (by simp [hup])]

theorem ZoneRec.isUp_iff (r : ZoneRec) : r.isUp = true ↔ r.power = .waking ∨ r.power = .on := by
  simp [ZoneRec.isUp]

/-! ### The grant rule (R42) -/

theorem State.mainClaims_iff (s : State) (w : Position) :
    s.mainClaims w = true ↔ ((s.zone .main).power = .waking ∨ (s.zone .main).power = .on) ∧ (s.speaker w).size ≠ .none := by
  simp [State.mainClaims, ZoneRec.isUp_iff]

theorem State.grantRule_fixed (s : State) {o : Fin 13} {w : Position} (h : fixedPosition o = some w) :
    s.grantRule o = if s.mainClaims w = true then some (.main, .pos w) else none := by
  rw [State.grantRule, h]

/-- What MAIN would be given by an entry of the assignment table. -/
def State.mainGrant (s : State) (e : AssignEntry) : Option (Zone × Role) :=
  (e.mainRole.position.filter s.mainClaims).map (fun p => (.main, .pos p))

/-- What a remote zone would be given by an entry of the assignment table. -/
def State.remoteGrant (s : State) (e : AssignEntry) : Option (Zone × Role) :=
  e.remoteRole.zone.filter (fun zr => (s.zone zr.1).isUp)

theorem fixedPosition_assign {o : Fin 13} {k : Fin 6} (h : o.val = k.val + 5) :
    fixedPosition o = none ∧ assignIndex o = k := by
  refine ⟨?_, Fin.ext (by rw [assignIndex]; simp; omega)⟩
  rw [fixedPosition, h]
  fin_cases k <;> rfl

theorem State.grantRule_assign (s : State) {o : Fin 13} {k : Fin 6} (h : o.val = k.val + 5) :
    s.grantRule o = match s.remoteGrant s.outputs.assign[k] with
      | some r => if (s.outputs.assign[k]).priority = .remoteFirst ∨ s.mainGrant s.outputs.assign[k] = none then some r
          else s.mainGrant s.outputs.assign[k]
      | none => s.mainGrant s.outputs.assign[k] := by
  obtain ⟨hfixed, hindex⟩ := fixedPosition_assign h
  subst hindex
  rw [State.grantRule, hfixed]
  rfl

theorem State.mainGrant_eq (s : State) (e : AssignEntry) :
    (∀ w, e.mainRole.position = some w → s.mainClaims w = true → s.mainGrant e = some (.main, .pos w)) ∧
    ((¬ ∃ w, e.mainRole.position = some w ∧ s.mainClaims w = true) → s.mainGrant e = none) := by
  refine ⟨fun w hw hc => by rw [State.mainGrant, hw, Option.filter_some, if_pos hc]; rfl, fun h => ?_⟩
  rw [State.mainGrant]
  cases hp : e.mainRole.position with
  | none => rfl
  | some w => rw [Option.filter_some, if_neg fun hc => h ⟨w, hp, hc⟩]; rfl

theorem State.remoteGrant_eq (s : State) (e : AssignEntry) :
    (∀ z r, e.remoteRole.zone = some (z, r) → (s.zone z).isUp = true → s.remoteGrant e = some (z, r)) ∧
    ((¬ ∃ z r, e.remoteRole.zone = some (z, r) ∧ (s.zone z).isUp = true) → s.remoteGrant e = none) := by
  refine ⟨fun z r hw hc => by rw [State.remoteGrant, hw, Option.filter_some]; exact if_pos hc, fun h => ?_⟩
  rw [State.remoteGrant]
  cases hp : e.remoteRole.zone with
  | none => rfl
  | some zr => rw [Option.filter_some]; exact if_neg fun hc => h ⟨zr.1, zr.2, hp, hc⟩

/-- Settles O34. -/
theorem grantRule : Obligations.GrantRule := by
  refine ⟨fun s o => ⟨fun w hw => ⟨fun hup hsize => ?_, fun h => ?_⟩, fun k hk => ?_⟩, fun s z r => ⟨fun hz => ?_, ?_⟩,
    fun t => ?_, fun d reqs => ⟨fun h => ?_, fun hne => ?_⟩, fun s o z r ho hz hr => ⟨fun hp => ?_, fun hp => ⟨fun e he => ?_, fun d hd => ?_⟩⟩⟩
  · rw [s.grantRule_fixed hw, if_pos ((s.mainClaims_iff w).2 ⟨hup, hsize⟩)]
  · rw [s.grantRule_fixed hw, if_neg]
    rw [s.mainClaims_iff]
    rintro ⟨hup, hsize⟩
    exact h.elim (fun hn => hn hup) (fun hn => hsize hn)
  · have hmain := s.mainGrant_eq s.outputs.assign[k]
    have hremote := s.remoteGrant_eq s.outputs.assign[k]
    simp only [s.mainClaims_iff, ZoneRec.isUp_iff] at hmain hremote
    rw [s.grantRule_assign hk]
    refine ⟨fun z r hzr hup hpri => ?_, fun w hw hclaims hpri => ?_, fun hno hnone => ?_⟩
    · rw [hremote.1 z r hzr hup]
      refine if_pos (hpri.imp id fun hno => hmain.2 fun ⟨w, hw, hup, hsize⟩ => hno ⟨hup, w, hw, hsize⟩)
    · have hgrant : s.mainGrant s.outputs.assign[k] = some (.main, .pos w) := by
        obtain ⟨hup, w', hw', hsize⟩ := hclaims
        obtain rfl : w' = w := Option.some.inj (hw'.symm.trans hw)
        exact hmain.1 w' hw ⟨hup, hsize⟩
      rw [hgrant]
      split
      · next zr hzr =>
        refine if_neg ?_
        obtain hn | hm := hpri
        · rw [hremote.2 hn] at hzr; contradiction
        · rw [hm]; simp
      · rfl
    · rw [hremote.2 hnone]
      exact hmain.2 fun ⟨w, hw, hup, hsize⟩ => hno ⟨hup, w, hw, hsize⟩
  · unfold State.totalDelay
    cases z
    · exact absurd rfl hz
    · rfl
    · rfl
  · rintro w dref rfl rfl hdref
    rw [State.totalDelay, hdref, Option.getD_some]
    refine ⟨fun h => ?_, fun h => ?_⟩
    · rw [distanceDelay, if_pos h]; rfl
    · rw [distanceDelay, if_neg (Nat.not_lt.2 h)]
  · rw [pagesFor]; omega
  · rw [DelayState.request, if_pos h]
  · obtain ⟨hbusy, htaken⟩ := d.request_spec hne
    refine ⟨hbusy, fun hc => ⟨(htaken hc).1, fun hready => ⟨((htaken hc).2 hready).1, fun hpages => ?_⟩⟩⟩
    obtain ⟨hfragmented, hplaced⟩ := ((htaken hc).2 hready).2 hpages
    exact ⟨hfragmented, fun bases hb hnd hnone => ⟨_, hplaced bases hb, DelayState.creates_granted hnd hnone⟩⟩
  · refine State.retryOne_down hz hr ?_
    obtain hp | hp := hp <;> simp [ZoneRec.isUp, hp]
  · exact State.retryOne_error hz hr he
  · have hquiet := s.retryOne_quiet o
    have hstep := State.retryOne_ok ho hz hr ((ZoneRec.isUp_iff _).2 hp) hd
    obtain ⟨u, hu⟩ : ∃ u, u = (s.setDelay d).leaveStarved o := ⟨_, rfl⟩
    obtain ⟨v, hv⟩ : ∃ v, v = u.becomeGranted o z r := ⟨_, rfl⟩
    have hout (q : Fin 13) : (v.raiseChannel o channelStarved).out q = v.out q := by
      rw [State.out, (v.raiseChannel_frame _ _).1 .outputs (by decide)]; rfl
    rw [← hu, ← hv] at hstep
    rw [hstep] at hquiet ⊢
    refine ⟨?_, ?_, fun q hq => ?_, State.raise_reported _ _ (by decide), hquiet.raised, ?_⟩
    · have hstarved : d.starved = s.delay.starved := by rw [DelayState.request_keeps hd]
      have hdelay : u.delay = { d with starved := d.starved.filter (fun q => q != o) } := by rw [hu]; rfl
      rw [(v.raiseChannel_frame _ _).1 .delay (by decide), hv, State.becomeGranted, (u.updateOut_frame _ _).1 .delay (by decide),
        hdelay, hstarved]
      exact congrArg (fun l => ({ d with starved := l } : DelayState)) (List.filter_congr fun q _ => by simp [bne, beq_eq_decide])
    · rw [hout, hv, State.becomeGranted, State.updateOut_out_self]; rfl
    · rw [hout, hv, State.becomeGranted, State.updateOut_out_ne _ _ hq, hu]; rfl
    · refine onlyChanges.trans (t := u) ?_ (onlyChanges.trans (t := v) ?_ ?_)
      · rw [hu]; exact ((s.setDelay_frame d).1.mono (by decide)).trans ((State.setDelay_frame _ _).1.mono (by decide))
      · rw [hv]; exact (u.updateOut_frame _ _).1.mono (by decide)
      · exact (v.raiseChannel_frame _ _).1.mono (by decide)

end Sys2Proof.Machine

end

section
/-! PROOFS. Regrants of outputs, and what is built on them: Clear Fault, Set Assignment, the end of a handover (R40, R43 to
R49, R59; O35, O39, O40). -/

open Sys2Proof Sys2Proof.Machine

namespace Sys2Proof.Machine

/-! ### Placing an output in a zone (R44) -/

theorem DelayState.creates_starved (l : List (Fin 13)) (runs : List (Fin 13 × Nat × Nat × Nat)) (d : DelayState) :
    runs.foldl (fun d (o, t, b, n) => d.create o t b n) { d with starved := l } =
      { runs.foldl (fun d (o, t, b, n) => d.create o t b n) d with starved := l } := by
  induction runs generalizing d with
  | nil => rfl
  | cons r runs ih => exact ih (d.create r.1 r.2.1 r.2.2.1 r.2.2.2)

/-- The starved list does not enter into a request. -/
theorem DelayState.request_starved (d : DelayState) (l : List (Fin 13)) (reqs : List (Fin 13 × Nat)) :
    ({ d with starved := l } : DelayState).request reqs = (d.request reqs).map (fun e => { e with starved := l }) := by
  have hplaces (runs : Option (List (Fin 13 × Nat × Nat × Nat))) :
      (match runs with
        | none => (.error .fragmented : Except Status DelayState)
        | some runs => .ok (runs.foldl (fun d (o, t, b, n) => d.create o t b n) { d with starved := l })) =
      (match runs with
        | none => (.error .fragmented : Except Status DelayState)
        | some runs => .ok (runs.foldl (fun d (o, t, b, n) => d.create o t b n) d)).map (fun e : DelayState => { e with starved := l }) := by
    cases runs with
    | none => rfl
    | some runs => exact congrArg Except.ok (DelayState.creates_starved l runs d)
  unfold DelayState.request
  have htakes : ({ d with starved := l } : DelayState).takesRequests = d.takesRequests := rfl
  rw [htakes]
  by_cases hreqs : reqs = []
  · rw [if_pos hreqs, if_pos hreqs]; rfl
  · rw [if_neg hreqs, if_neg hreqs]
    cases d.takesRequests with
    | error e => rfl
    | ok y =>
      dsimp only
      have hpages : ({ d with starved := l } : DelayState).freePages = d.freePages := rfl
      rw [hpages]
      split
      · rfl
      · exact hplaces _

theorem State.placeInZone_ok {s : State} {o : Fin 13} {z : Zone} {r : Role} {d : DelayState}
    (h : s.delay.request [(o, s.totalDelay z r)] = .ok d) :
    s.placeInZone o z r = ((s.setDelay d).becomeGranted o z r, true) := by
  rw [State.placeInZone, State.requestOne, h]; rfl

theorem State.placeInZone_error {s : State} {o : Fin 13} {z : Zone} {r : Role} {e : Status}
    (h : s.delay.request [(o, s.totalDelay z r)] = .error e) :
    s.placeInZone o z r = (s.becomeStarved o z r, false) := by
  rw [State.placeInZone, State.requestOne, h]; rfl

theorem State.updateOut_delay (s : State) (o : Fin 13) (r : OutputRec) : (s.updateOut o r).delay = s.delay :=
  (s.updateOut_frame o r).1 .delay (by decide)

theorem State.raiseChannel_delay (s : State) (o : Fin 13) (n : Byte) : (s.raiseChannel o n).delay = s.delay :=
  (s.raiseChannel_frame o n).1 .delay (by decide)

theorem State.raiseChannel_out (s : State) (o q : Fin 13) (n : Byte) : (s.raiseChannel o n).out q = s.out q := by
  rw [State.out, (s.raiseChannel_frame o n).1 .outputs (by decide)]; rfl

theorem State.raiseChannel_reported (s : State) (o : Fin 13) (n : Byte) :
    reported (s.raiseChannel o n) .channel { EventDetail.zero with outputs := outputBit o, reasons := n } :=
  State.raise_reported _ _ (by decide)

theorem State.becomeGranted_out (s : State) (o : Fin 13) (z : Zone) (r : Role) :
    (s.becomeGranted o z r).out o = grantedRec o z r := s.updateOut_out_self ..

theorem State.becomeGranted_out_ne (s : State) {o q : Fin 13} (z : Zone) (r : Role) (h : q ≠ o) :
    (s.becomeGranted o z r).out q = s.out q := s.updateOut_out_ne _ h

theorem State.becomeGranted_delay (s : State) (o : Fin 13) (z : Zone) (r : Role) :
    (s.becomeGranted o z r).delay = s.delay := s.updateOut_delay ..

theorem mem_allOutputs (o : Fin 13) : o ∈ allOutputs := by
  fin_cases o <;> decide

/-- An output that becomes STARVED: its record, its place on the starved list, and the events (R44, R131). -/
theorem State.becomeStarved_spec (s : State) (o : Fin 13) (z : Zone) (r : Role) :
    let t := s.becomeStarved o z r
    t.delay = { s.delay with starved := t.delay.starved } ∧ (∀ q, q ∈ t.delay.starved ↔ q = o ∨ q ∈ s.delay.starved) ∧
    t.out o = starvedRec z r ∧ (∀ q, q ≠ o → t.out q = s.out q) ∧
    reported t .memory { EventDetail.zero with reasons := 4 } ∧
    reported t .channel { EventDetail.zero with outputs := outputBit o, reasons := 2 } := by
  obtain ⟨u, hu⟩ : ∃ u, u = s.updateOut o (starvedRec z r) := ⟨_, rfl⟩
  obtain ⟨v, hv⟩ : ∃ v, v = u.addStarved o := ⟨_, rfl⟩
  have ht : s.becomeStarved o z r = v.raiseChannel o channelStarved := by rw [hv, hu]; rfl
  have hud : u.delay = s.delay := hu ▸ s.updateOut_delay o _
  have hvd : v.delay = { s.delay with starved := allOutputs.filter (fun q => q == o || s.delay.starved.contains q) } := by
    rw [hv, State.addStarved, (State.raiseMemory_frame _ _).1 .delay (by decide), hud]; rfl
  have hvo (q : Fin 13) : v.out q = u.out q := by
    rw [hv, State.addStarved, State.out, (State.raiseMemory_frame _ _).1 .outputs (by decide)]; rfl
  rw [ht]
  dsimp only
  rw [State.raiseChannel_delay, hvd]
  refine ⟨rfl, fun q => ?_, ?_, fun q hq => ?_, ?_, State.raiseChannel_reported _ _ _⟩
  · simp [mem_allOutputs]
  · rw [State.raiseChannel_out, hvo, hu, State.updateOut_out_self]
  · rw [State.raiseChannel_out, hvo, hu, State.updateOut_out_ne _ _ hq]
  · exact reported.mono (hv ▸ State.raise_reported _ _ (by decide)) (v.raise_raises _ _).2

/-- Two details reported are reported together. -/
theorem reported.merge {t : State} {k : EventKind} {d e : EventDetail} (h1 : reported t k d) (h2 : reported t k e) :
    reported t k (d.merge e) := fun q => ⟨(h1 q).1, by
  rw [← EventDetail.merge_assoc, (h1 q).2, (h2 q).2]⟩

theorem channelReasons_merge (o : Fin 13) :
    ({ EventDetail.zero with outputs := outputBit o, reasons := 1 } : EventDetail).merge
      { EventDetail.zero with outputs := outputBit o, reasons := 2 } =
    { EventDetail.zero with outputs := outputBit o, reasons := 3 } := by
  simp [EventDetail.merge, EventDetail.zero]

/-! ### Regrants (R43) -/

theorem State.totalDelay_congr {s t : State} (hz : ∀ z, (t.zone z).lipSync = (s.zone z).lipSync)
    (hd : t.delay.dref = s.delay.dref) (hs : ∀ p, t.speaker p = s.speaker p) (z : Zone) (r : Role) :
    t.totalDelay z r = s.totalDelay z r := by
  simp only [State.totalDelay, hz, hd, hs]

theorem OutStep.totalDelay {s t : State} (h : OutStep s t) (z : Zone) (r : Role) : t.totalDelay z r = s.totalDelay z r := by
  obtain ⟨-, -, -, hdref⟩ := h.delay
  have hmix : t.mix = s.mix := h.frame.1 .mix (by decide)
  exact State.totalDelay_congr (fun z => by rw [h.zones z]) hdref (fun p => by rw [State.speaker, hmix]; rfl) z r

/-- What the answer to an output's request makes of it, the memory being that of `u` but for the starved list. -/
theorem State.placeInZone_placed {u v : State} {o : Fin 13} {z : Zone} {r : Role} {old : List (Fin 13)}
    (hd : v.delay = { u.delay with starved := old }) (ht : v.totalDelay z r = u.totalDelay z r) :
    (∀ d, u.delay.request [(o, u.totalDelay z r)] = .ok d →
      v.placeInZone o z r = ((v.setDelay { d with starved := old }).becomeGranted o z r, true)) ∧
    (∀ e, u.delay.request [(o, u.totalDelay z r)] = .error e →
      v.placeInZone o z r = (v.becomeStarved o z r, false)) := by
  refine ⟨fun d h => State.placeInZone_ok ?_, fun e h => State.placeInZone_error (e := e) ?_⟩ <;>
    (rw [hd, ht, DelayState.request_starved, h]; rfl)

/-- A direct grant (R44). -/
theorem State.directGrant_spec (u : State) (o : Fin 13) (z : Zone) (x : Role) :
    let t := u.directGrant o z x
    (∀ q, q ≠ o → t.out q = u.out q) ∧
    (u.delay.segment o ≠ none → t.delay = u.delay ∧ t.out o = grantedRec o z x ∧
      reported t .channel { EventDetail.zero with outputs := outputBit o, reasons := 1 }) ∧
    (u.delay.segment o = none → placedOr u t o z x u.delay.starved 1 2) := by
  dsimp only
  by_cases hseg : u.delay.segment o = none
  · have hunheld : ¬ (u.delay.segment o).isSome = true := by simp [hseg]
    obtain ⟨hok, herror⟩ := State.placeInZone_placed (u := u) (v := u) (o := o) (z := z) (r := x) (old := u.delay.starved) rfl rfl
    have hcase : (∃ d, u.delay.request [(o, u.totalDelay z x)] = .ok d) ∨
        ∃ e, u.delay.request [(o, u.totalDelay z x)] = .error e := by
      cases u.delay.request [(o, u.totalDelay z x)] <;> simp
    obtain ⟨d, hd⟩ | ⟨e, he⟩ := hcase
    · have ht : u.directGrant o z x =
          ((u.setDelay { d with starved := u.delay.starved }).becomeGranted o z x).raiseChannel o channelHandover := by
        rw [State.directGrant, if_neg hunheld, hok d hd]; rfl
      rw [ht]
      refine ⟨fun q hq => ?_, fun hn => absurd hseg hn, fun _ => ⟨fun d' hd' => ?_, fun e he => ?_⟩⟩
      · rw [State.raiseChannel_out, State.becomeGranted_out_ne _ _ _ hq]; rfl
      · obtain rfl : d = d' := Except.ok.inj (hd.symm.trans hd')
        refine ⟨?_, ?_, State.raiseChannel_reported _ _ _⟩
        · rw [State.raiseChannel_delay, State.becomeGranted_delay]; rfl
        · rw [State.raiseChannel_out, State.becomeGranted_out]
      · rw [hd] at he; cases he
    · have ht : u.directGrant o z x = u.becomeStarved o z x := by
        rw [State.directGrant, if_neg hunheld, herror e he]; rfl
      obtain ⟨h1, h2, h3, h4, h5, h6⟩ := u.becomeStarved_spec o z x
      rw [ht]
      exact ⟨h4, fun hn => absurd hseg hn, fun _ => ⟨fun d hd => (by rw [he] at hd; cases hd), fun _ _ => ⟨h1, h2, h3, h5, h6⟩⟩⟩
  · have ht : u.directGrant o z x = (u.becomeGranted o z x).raiseChannel o channelHandover := by
      rw [State.directGrant, if_pos (Option.isSome_iff_ne_none.2 hseg)]
    rw [ht]
    refine ⟨fun q hq => ?_, fun _ => ⟨?_, ?_, State.raiseChannel_reported _ _ _⟩, fun hn => absurd hn hseg⟩
    · rw [State.raiseChannel_out, State.becomeGranted_out_ne _ _ _ hq]
    · rw [State.raiseChannel_delay, State.becomeGranted_delay]
    · rw [State.raiseChannel_out, State.becomeGranted_out]

/-- An output without a segment goes through REALLOCATE from STARVED (R47, R49, R53). -/
theorem State.reallocate_starved_spec {u : State} {o : Fin 13} (hseg : u.delay.segment o = none) :
    let t := u.reallocate o true
    QuietStep u t ∧ (∀ q, q ≠ o → t.out q = u.out q) ∧
    (u.grantRule o = none → t.out o = OutputRec.idle ∧ t.delay = u.delay ∧
      reported t .channel { EventDetail.zero with outputs := outputBit o, reasons := 1 }) ∧
    (∀ z x, u.grantRule o = some (z, x) → placedOr u t o z x u.delay.starved 3 3) := by
  dsimp only
  obtain ⟨v, hv⟩ : ∃ v, v = u.enterReallocate o true := ⟨_, rfl⟩
  obtain ⟨w, hw⟩ : ∃ w, w = v.setOut o { v.out o with segment := false } := ⟨_, rfl⟩
  have hvq : QuietStep u v := hv ▸ u.enterReallocate_quiet o true
  have hwq : QuietStep u w := hvq.trans (hw ▸ v.setOut_quiet o _)
  have hvd : v.delay = u.delay := by
    rw [hv, State.enterReallocate]; exact State.raiseChannel_delay _ _ _
  have hwd : w.delay = u.delay := by rw [hw]; exact hvd
  have hfree : v.freeSegment o = v := by rw [State.freeSegment, hvd, hseg]
  have hvo (q : Fin 13) (hq : q ≠ o) : v.out q = u.out q := by
    rw [hv, State.enterReallocate]
    exact (State.raiseChannel_out _ _ _ _).trans (State.out_setOut_ne _ _ hq)
  have hwo (q : Fin 13) (hq : q ≠ o) : w.out q = u.out q := by
    rw [hw, State.out_setOut_ne _ _ hq, hvo q hq]
  have hraised : reported w .channel { EventDetail.zero with outputs := outputBit o, reasons := 1 } := by
    refine reported.mono (s := v) ?_ (hw ▸ eventsGrow.of_ports_eq rfl)
    rw [hv, State.enterReallocate]
    exact State.raiseChannel_reported _ _ _
  cases hg : u.grantRule o with
  | none =>
    have ht : u.reallocate o true = (w.becomeIdle o).raiseChannel o channelHandover := by
      rw [State.reallocate, ← hv, hfree, ← hw, hg]
    rw [ht]
    refine ⟨hwq.trans ((w.becomeIdle_quiet o).trans (State.raise_quiet _ _ _)), fun q hq => ?_, fun _ => ⟨?_, ?_, State.raiseChannel_reported _ _ _⟩,
      (fun z x hn => nomatch hn)⟩
    · rw [State.raiseChannel_out, State.becomeIdle, State.updateOut_out_ne _ _ hq, hwo q hq]
    · rw [State.raiseChannel_out, State.becomeIdle, State.updateOut_out_self]
    · rw [State.raiseChannel_delay, State.becomeIdle, State.updateOut_delay, hwd]
  | some zr =>
    obtain ⟨z, x⟩ := zr
    obtain ⟨hok, herror⟩ := State.placeInZone_placed (u := u) (v := w) (o := o) (z := z) (r := x) (old := u.delay.starved) hwd
      (hwq.totalDelay z x)
    have hplace := w.placeInZone_quiet o z x
    have hcase : (∃ d, u.delay.request [(o, u.totalDelay z x)] = .ok d) ∨
        ∃ e, u.delay.request [(o, u.totalDelay z x)] = .error e := by
      cases u.delay.request [(o, u.totalDelay z x)] <;> simp
    obtain ⟨d, hd⟩ | ⟨e, he⟩ := hcase
    · obtain ⟨y, hy⟩ : ∃ y, y = (w.setDelay { d with starved := u.delay.starved }).becomeGranted o z x := ⟨_, rfl⟩
      have ht : u.reallocate o true = (y.raiseChannel o channelHandover).raiseChannel o channelStarved := by
        rw [State.reallocate, ← hv, hfree, ← hw, hg]
        dsimp only
        rw [hok d hd, hy]
        rfl
      rw [hok d hd, ← hy] at hplace
      rw [ht]
      refine ⟨hwq.trans (hplace.trans ((State.raise_quiet _ _ _).trans (State.raise_quiet _ _ _))), fun q hq => ?_,
        (fun hn => nomatch hn), fun z' x' hzx => ?_⟩
      · rw [State.raiseChannel_out, State.raiseChannel_out, hy, State.becomeGranted_out_ne _ _ _ hq]
        exact hwo q hq
      · obtain ⟨rfl, rfl⟩ : z = z' ∧ x = x' := by simpa using hzx
        refine ⟨fun d' hd' => ?_, fun e he => by rw [hd] at he; cases he⟩
        obtain rfl : d = d' := Except.ok.inj (hd.symm.trans hd')
        refine ⟨?_, ?_, ?_⟩
        · rw [State.raiseChannel_delay, State.raiseChannel_delay, hy, State.becomeGranted_delay]; rfl
        · rw [State.raiseChannel_out, State.raiseChannel_out, hy, State.becomeGranted_out]
        · rw [← channelReasons_merge]
          exact (reported.mono (State.raiseChannel_reported _ _ _) (State.raise_raises _ _ _).2).merge
            (State.raiseChannel_reported _ _ _)
    · have ht : u.reallocate o true = w.becomeStarved o z x := by
        rw [State.reallocate, ← hv, hfree, ← hw, hg]
        dsimp only
        rw [herror e he]
        rfl
      rw [herror e he] at hplace
      obtain ⟨h1, h2, h3, h4, h5, h6⟩ := w.becomeStarved_spec o z x
      rw [hwd] at h1 h2
      rw [ht]
      refine ⟨hwq.trans hplace, fun q hq => (h4 q hq).trans (hwo q hq), (fun hn => nomatch hn), fun z' x' hzx => ?_⟩
      obtain ⟨rfl, rfl⟩ : z = z' ∧ x = x' := by simpa using hzx
      refine ⟨fun d hd => (by rw [he] at hd; cases hd), fun _ _ => ⟨h1, h2, h3, h5, ?_⟩⟩
      rw [← channelReasons_merge]
      exact (hraised.mono hplace.grown).merge h6

/-- The model's test of an output's own grant. -/
theorem State.ownGrant_iff (u : State) (o : Fin 13) :
    ((u.grantRule o).isSome && (u.out o).zone == (u.grantRule o).map (·.1) && (u.out o).role == (u.grantRule o).map (·.2)) =
      true ↔ u.ownGrant o := by
  simp [State.ownGrant, Option.isSome_iff_ne_none, and_assoc]

theorem State.zoneQuieting_iff (u : State) (o : Fin 13) :
    u.zoneQuieting (u.out o) = true ↔ ∃ z, (u.out o).zone = some z ∧ (u.zone z).power = .quieting := by
  unfold State.zoneQuieting
  cases (u.out o).zone <;> simp

/-- What a regrant does by the state of the output. -/
theorem State.regrant_cases (u : State) (o : Fin 13) :
    ((u.out o).state = .fault → u.regrant o = u) ∧
    ((u.out o).state = .idle → (u.grantRule o = none → u.regrant o = u) ∧
      ∀ z x, u.grantRule o = some (z, x) → u.regrant o = u.directGrant o z x) ∧
    ((u.out o).state = .granted → (u.grantStays o → u.regrant o = u) ∧
      (¬ u.grantStays o → u.regrant o = u.startHandover o (u.grantRule o))) ∧
    ((u.out o).state = .starved → (u.grantStays o → u.regrant o = u) ∧
      (¬ u.grantStays o → u.regrant o = (u.leaveStarved o).reallocate o true)) ∧
    ((u.out o).state = .handover → (u.ownGrant o → u.regrant o = u.abandonHandover o) ∧
      (¬ u.ownGrant o → u.regrant o = u.setOut o { u.out o with target := some ((u.grantRule o).map (·.1)) })) := by
  have hown := u.ownGrant_iff o
  have hquiet := u.zoneQuieting_iff o
  have hstays : u.grantStays o → u.ownGrant o ∨
      ((u.grantRule o).isNone && u.zoneQuieting (u.out o)) = true := by
    rintro (h | ⟨hn, hz⟩)
    · exact .inl h
    · exact .inr (by rw [hn, hquiet.2 hz]; rfl)
  have hmoves : ¬ u.grantStays o → ¬ u.ownGrant o ∧
      ¬ ((u.grantRule o).isNone && u.zoneQuieting (u.out o)) = true := by
    refine fun h => ⟨fun ho => h (.inl ho), fun hq => h (.inr ?_)⟩
    rw [Bool.and_eq_true, Option.isNone_iff_eq_none, hquiet] at hq
    exact hq
  have hnot : ¬ u.ownGrant o → ¬ ((u.grantRule o).isSome && (u.out o).zone == (u.grantRule o).map (·.1) &&
      (u.out o).role == (u.grantRule o).map (·.2)) = true := fun h hb => h (hown.1 hb)
  refine ⟨fun h => ?_, fun h => ⟨fun hg => ?_, fun z x hg => ?_⟩, fun h => ⟨fun hs => ?_, fun hs => ?_⟩,
    fun h => ⟨fun hs => ?_, fun hs => ?_⟩, fun h => ⟨fun ho => ?_, fun ho => ?_⟩⟩ <;>
    rw [State.regrant] <;> simp only [h]
  · rw [hg]
  · rw [hg]
  · obtain ho | hq := hstays hs
    · rw [if_pos (hown.2 ho)]
    · rw [if_pos hq, ite_self]
  · rw [if_neg (hnot (hmoves hs).1), if_neg (hmoves hs).2]
  · obtain ho | hq := hstays hs
    · rw [if_pos (hown.2 ho)]
    · rw [if_pos hq, ite_self]
  · rw [if_neg (hnot (hmoves hs).1), if_neg (hmoves hs).2]
  · rw [if_pos (hown.2 ho)]
  · rw [if_neg (hnot ho)]

theorem State.leaveStarved_delay (u : State) (o : Fin 13) :
    (u.leaveStarved o).delay = { u.delay with starved := u.delay.starved.filter (fun q => decide (q ≠ o)) } :=
  congrArg (fun l => ({ u.delay with starved := l } : DelayState)) (List.filter_congr fun q _ => by simp [bne, beq_eq_decide])

theorem QuietStep.changes {s t : State} (h : QuietStep s t) : onlyChanges [.zones, .outputs, .delay, .ports] s t := by
  intro p hp
  by_cases hs : p = .slots
  · subst hs; exact h.slots
  · exact h.frame.1 p fun hin => hp (by simp [outputParts] at hin; simp; tauto)

/-- A regrant where the output, if it is STARVED, holds no segment, ends no long operation. -/
theorem State.regrant_quiet {u : State} {o : Fin 13} (h : (u.out o).state = .starved → u.delay.segment o = none) :
    QuietStep u (u.regrant o) := by
  obtain ⟨hfault, hidle, hgranted, hstarved, hhandover⟩ := u.regrant_cases o
  cases hs : (u.out o).state with
  | fault => rw [hfault hs]; exact .refl u
  | idle =>
    cases hg : u.grantRule o with
    | none => rw [(hidle hs).1 hg]; exact .refl u
    | some zx => rw [(hidle hs).2 _ _ hg]; exact u.directGrant_quiet o _ _
  | granted =>
    by_cases hst : u.grantStays o
    · rw [(hgranted hs).1 hst]; exact .refl u
    · rw [(hgranted hs).2 hst]; exact u.startHandover_quiet o _
  | starved =>
    by_cases hst : u.grantStays o
    · rw [(hstarved hs).1 hst]; exact .refl u
    · rw [(hstarved hs).2 hst]
      have hseg : (u.leaveStarved o).delay.segment o = none := h hs
      exact (u.leaveStarved_quiet o).trans (State.reallocate_starved_spec hseg).1
  | handover =>
    by_cases ho : u.ownGrant o
    · rw [(hhandover hs).1 ho]; exact u.abandonHandover_quiet o
    · rw [(hhandover hs).2 ho]; exact u.setOut_quiet o _

theorem placedOr_leaveStarved {u t : State} {o : Fin 13} {z : Zone} {x : Role} {old : List (Fin 13)} {a b : Byte}
    (h : placedOr (u.leaveStarved o) t o z x (u.leaveStarved o).delay.starved a b)
    (hold : (u.leaveStarved o).delay.starved = old) : placedOr u t o z x old a b := by
  obtain ⟨hok, herror⟩ := h
  have hreq (reqs : List (Fin 13 × Nat)) : (u.leaveStarved o).delay.request reqs =
      (u.delay.request reqs).map (fun e => { e with starved := (u.leaveStarved o).delay.starved }) :=
    DelayState.request_starved u.delay _ reqs
  have htotal : (u.leaveStarved o).totalDelay z x = u.totalDelay z x := (u.leaveStarved_quiet o).totalDelay z x
  rw [htotal, hreq] at hok herror
  refine ⟨fun d hd => ?_, fun e he => ?_⟩
  · obtain ⟨h1, h2, h3⟩ := hok { d with starved := (u.leaveStarved o).delay.starved } (by rw [hd]; rfl)
    exact ⟨h1.trans (by rw [← hold]), h2, h3⟩
  · obtain ⟨h1, h2, h3⟩ := herror e (by rw [he]; rfl)
    exact ⟨h1, fun q => (h2 q).trans (by rw [hold]), h3⟩

/-- What one output's regrant does (R43). -/
theorem State.regrant_regrants (u : State) (o : Fin 13) : regrants u (u.regrant o) o := by
  obtain ⟨hfault, hidle, hgranted, hstarved, hhandover⟩ := u.regrant_cases o
  refine ⟨?_, fun hseg => ?_⟩
  · rintro (h | ⟨h, hg⟩ | ⟨h | h, hst⟩)
    · exact hfault h
    · exact (hidle h).1 hg
    · exact (hgranted h).1 hst
    · exact (hstarved h).1 hst
  have hquiet := State.regrant_quiet hseg
  refine ⟨fun q hq => ?_, hquiet.zones, hquiet.raised, hquiet.changes, hquiet.outputs, fun z x h hg => ?_, fun h hst => ?_, fun h hst => ?_, fun h => ?_⟩
  · cases hs : (u.out o).state with
    | fault => rw [hfault hs]
    | idle =>
      cases hg : u.grantRule o with
      | none => rw [(hidle hs).1 hg]
      | some zx => rw [(hidle hs).2 _ _ hg]; exact (u.directGrant_spec o _ _).1 q hq
    | granted =>
      by_cases hst : u.grantStays o
      · rw [(hgranted hs).1 hst]
      · rw [(hgranted hs).2 hst, State.startHandover, State.raiseChannel_out, State.updateOut_out_ne _ _ hq]
    | starved =>
      by_cases hst : u.grantStays o
      · rw [(hstarved hs).1 hst]
      · rw [(hstarved hs).2 hst]
        obtain ⟨-, hout, -⟩ := State.reallocate_starved_spec (u := u.leaveStarved o) (o := o) (hseg hs)
        exact hout q hq
    | handover =>
      by_cases ho : u.ownGrant o
      · rw [(hhandover hs).1 ho, State.abandonHandover, State.raiseChannel_out, State.updateOut_out_ne _ _ hq]
      · rw [(hhandover hs).2 ho, State.out_setOut_ne _ _ hq]
  · rw [(hidle h).2 z x hg]
    exact (u.directGrant_spec o z x).2
  · rw [(hgranted h).2 hst]
    refine ⟨?_, State.raiseChannel_reported _ _ _, ?_⟩
    · rw [State.startHandover, State.raiseChannel_delay, State.updateOut_delay]
    · rw [State.startHandover, State.raiseChannel_out, State.updateOut_out_self]
  · rw [(hstarved h).2 hst]
    obtain ⟨-, -, hnone, hsome⟩ := State.reallocate_starved_spec (u := u.leaveStarved o) (o := o) (hseg h)
    have hrule : (u.leaveStarved o).grantRule o = u.grantRule o := rfl
    rw [hrule] at hnone hsome
    refine ⟨fun hg => ?_, fun z x hg => ?_⟩
    · obtain ⟨h1, h2, h3⟩ := hnone hg
      exact ⟨h1, h3, h2.trans (u.leaveStarved_delay o)⟩
    · exact placedOr_leaveStarved (hsome z x hg) (congrArg DelayState.starved (u.leaveStarved_delay o))
  · refine ⟨?_, fun ho => ?_, fun ho => ?_⟩
    · by_cases ho : u.ownGrant o
      · rw [(hhandover h).1 ho, State.abandonHandover, State.raiseChannel_delay, State.updateOut_delay]
      · rw [(hhandover h).2 ho]; rfl
    · rw [(hhandover h).1 ho]
      refine ⟨State.raiseChannel_reported _ _ _, ?_⟩
      rw [State.abandonHandover, State.raiseChannel_out, State.updateOut_out_self]
      rfl
    · rw [(hhandover h).2 ho, State.out_setOut_self]

/-! ### Clear Fault (R59) -/

theorem State.grantRule_congr {s t : State} (hz : ∀ z, (t.zone z).power = (s.zone z).power)
    (ha : t.outputs.assign = s.outputs.assign) (hs : ∀ p, t.speaker p = s.speaker p) (o : Fin 13) :
    t.grantRule o = s.grantRule o := by
  have hup (z : Zone) : (t.zone z).isUp = (s.zone z).isUp := by rw [ZoneRec.isUp, ZoneRec.isUp, hz]
  have hclaims : t.mainClaims = s.mainClaims := funext fun p => by rw [State.mainClaims, State.mainClaims, hup, hs]
  simp only [State.grantRule, hclaims, ha, hup]

theorem OutStep.speaker {s t : State} (h : OutStep s t) (p : Position) : t.speaker p = s.speaker p := by
  rw [State.speaker, show t.mix = s.mix from h.frame.1 .mix (by decide)]; rfl

theorem OutStep.grantRule {s t : State} (h : OutStep s t) (o : Fin 13) : t.grantRule o = s.grantRule o :=
  State.grantRule_congr (fun z => by rw [h.zones z]) (by rw [h.outputs]) h.speaker o

/-- A direct grant ends in GRANTED or STARVED (R44). -/
theorem State.directGrant_ends (u : State) (o : Fin 13) (z : Zone) (x : Role) :
    (u.directGrant o z x).out o = grantedRec o z x ∨ (u.directGrant o z x).out o = starvedRec z x := by
  obtain ⟨-, hheld, hplaced⟩ := u.directGrant_spec o z x
  by_cases hseg : u.delay.segment o = none
  · obtain ⟨hok, herror⟩ := hplaced hseg
    cases hr : u.delay.request [(o, u.totalDelay z x)] with
    | ok d => exact .inl (hok d hr).2.1
    | error e => exact .inr (herror e hr).2.2.1
  · exact .inl (hheld hseg).2.1

theorem runCmd_clearOutput {s : State} {p : Port} {h : FrameHead} {name : Byte} {n : Fin 11} (hn : name.toNat = n.val + 1) :
    runCmd (unlinked p h) (.clearFault name) s = clearOutput n s := by
  have hne : name ≠ 0 := by rintro rfl; simp at hn
  change doClearFault (unlinked p h) name s = _
  rw [doClearFault, if_neg hne, dif_pos (by omega)]
  exact congrArg (clearOutput · s) (Fin.ext (by simp [hn]))

/-- Settles O39. -/
theorem clearFaultReturnsAnOutput : Obligations.ClearFaultReturnsAnOutput := by
  intro p h name s ht same
  have hsame (a : Answer) (hr : runCmd (unlinked p h) (.clearFault name) s = (a, s)) : same a :=
    exec_takenAtOnce_same rfl ht hr
  refine ⟨fun hb => hsame _ ?_, fun h0 => ?_, fun n hn => ?_⟩
  · have h0 : name ≠ 0 := by rintro rfl; simp at hb
    change doClearFault (unlinked p h) name s = _
    rw [doClearFault, if_neg h0, dif_neg (by omega)]
  · have hrun : runCmd (unlinked p h) (.clearFault name) s = clearThermal s := if_pos h0
    refine ⟨fun ha => hsame _ (hrun.trans ?_), fun ha hl => hsame _ (hrun.trans ?_), fun ha hl => ?_⟩
    · rw [clearThermal, if_pos ha]
    · rw [clearThermal, if_neg (by simp [ha]), if_neg (by simp [hl])]
    · refine exec_takenAtOnce_kept (u := (s.setOutputs { s.outputs with latch := false }).raiseTht) rfl ht ?_ (hrun.trans ?_)
      · exact (s.setOutputs_frame _).2.trans (State.raiseTht_frame _).2
      · rw [clearThermal, if_neg (by simp [ha]), if_pos hl]
  · have hrun := runCmd_clearOutput (s := s) (p := p) (h := h) hn
    intro o
    refine ⟨fun ha => hsame _ (hrun.trans ?_), fun ha hst => hsame _ (hrun.trans ?_), fun ha hst => ?_⟩
    · rw [clearOutput, if_pos ha]
    · rw [clearOutput, if_neg (by simp [ha]), if_neg hst]
    · obtain ⟨u, hu⟩ : ∃ u, u = (s.becomeIdle o).raiseFaultLine n := ⟨_, rfl⟩
      have huquiet : QuietStep s u := hu ▸ (s.becomeIdle_quiet o).trans (State.raise_quiet _ _ _)
      have huo (q : Fin 13) : u.out q = (s.becomeIdle o).out q := by
        rw [hu, State.out, (State.raiseFaultLine_frame _ n).1 .outputs (by decide)]; rfl
      have hself : u.out o = OutputRec.idle := (huo o).trans (s.updateOut_out_self o _)
      have hidle : (u.out o).state = .idle := by rw [hself]; rfl
      have hrule : u.grantRule o = s.grantRule o := huquiet.toOutStep.grantRule o
      have hquiet : QuietStep s (u.regrant o) := huquiet.trans (State.regrant_quiet fun e => by rw [hidle] at e; cases e)
      obtain ⟨hnone, hsome⟩ := (u.regrant_cases o).2.1 hidle
      obtain ⟨-, hrest⟩ := u.regrant_regrants o
      obtain ⟨hothers, -⟩ := hrest fun e => by rw [hidle] at e; cases e
      refine ⟨(u.regrant o).closed p h (.clearFault name) (Answer.plain .done), exec_takenAtOnce_kept rfl ht hquiet.frame.2 (hrun.trans ?_),
        fun hg => ?_, fun z r hg => ?_, fun q hq => ?_, ?_, ?_, ?_⟩
      · rw [clearOutput, if_neg (by simp [ha]), if_pos hst, hu]
      · exact (congrArg (State.out · o) (hnone (hrule.trans hg))).trans hself
      · have hends := u.directGrant_ends o z r
        rw [← hsome z r (hrule.trans hg)] at hends
        obtain he | he := hends
        · exact ⟨.inl (congrArg OutputRec.state he), congrArg OutputRec.zone he, congrArg OutputRec.role he⟩
        · exact ⟨.inr (congrArg OutputRec.state he), congrArg OutputRec.zone he, congrArg OutputRec.role he⟩
      · exact (hothers q hq).trans ((huo q).trans (s.updateOut_out_ne _ hq))
      · have hraised : reported u .protection { EventDetail.zero with outputs := outputBit o } :=
          hu ▸ State.raise_reported _ _ (by decide)
        exact (hraised.mono (State.regrant_free u o).1.grown).mono (State.closed_grown _ p h _ _)
      · rw [State.closed_port_self]; rfl
      · exact onlyChanges.trans hquiet.changes ((State.closed_onlyChanges _ p h _ _).mono (by decide))

/-! ### Set Assignment (R40) -/

theorem mainRoleOf_eq_none_iff (b : Byte) : mainRoleOf b = none ↔ 5 ≤ b.toNat := by
  unfold mainRoleOf
  split <;> simp_all; omega

theorem remoteRoleOf_eq_none_iff (b : Byte) : remoteRoleOf b = none ↔ 5 ≤ b.toNat := by
  unfold remoteRoleOf
  split <;> simp_all; omega

theorem priorityOf_eq_none_iff (b : Byte) : priorityOf b = none ↔ 2 ≤ b.toNat := by
  unfold priorityOf
  split <;> simp_all; omega

theorem mem_assignEntries (j : Fin 6) : j ∈ ([0, 1, 2, 3, 4, 5] : List (Fin 6)) := by
  fin_cases j <;> decide

theorem State.mainRoleTaken_iff (s : State) (k : Fin 6) (m : MainRole) :
    s.mainRoleTaken k m = true ↔ m ≠ .none ∧ ∃ j : Fin 6, j ≠ k ∧ (s.outputs.assign[j]).mainRole = m := by
  rw [State.mainRoleTaken, Bool.and_eq_true, bne_iff_ne, List.any_eq_true]
  simp only [mem_assignEntries, true_and, Bool.and_eq_true, bne_iff_ne, beq_iff_eq]

theorem State.remoteRoleTaken_iff (s : State) (k : Fin 6) (r : RemoteRole) :
    s.remoteRoleTaken k r = true ↔ r ≠ .none ∧ ∃ j : Fin 6, j ≠ k ∧ (s.outputs.assign[j]).remoteRole = r := by
  rw [State.remoteRoleTaken, Bool.and_eq_true, bne_iff_ne, List.any_eq_true]
  simp only [mem_assignEntries, true_and, Bool.and_eq_true, bne_iff_ne, beq_iff_eq]

/-- The record that a passed Set Assignment takes, with the regrant of its output (R40). -/
theorem runCmd_setAssignment {s : State} {p : Port} {h : FrameHead} {a b c d : Byte} {k : Fin 6} (hk : a.toNat = k.val + 6) :
    (mainRoleOf b = none → runCmd (unlinked p h) (.setAssignment a b c d) s = (Answer.badParam 1, s)) ∧
    (mainRoleOf b ≠ none → remoteRoleOf c = none →
      runCmd (unlinked p h) (.setAssignment a b c d) s = (Answer.badParam 2, s)) ∧
    (mainRoleOf b ≠ none → remoteRoleOf c ≠ none → priorityOf d = none →
      runCmd (unlinked p h) (.setAssignment a b c d) s = (Answer.badParam 3, s)) ∧
    (∀ m r pr, mainRoleOf b = some m → remoteRoleOf c = some r → priorityOf d = some pr →
      runCmd (unlinked p h) (.setAssignment a b c d) s =
        if s.mainRoleTaken k m = true then (Answer.badParam 1, s)
        else if s.remoteRoleTaken k r = true then (Answer.badParam 2, s)
        else if s.delay.compaction.isSome = true then (Answer.plain .memoryBusy, s)
        else if (⟨m, r, pr⟩ : AssignEntry) = s.outputs.assign[k] then (Answer.plain .doneNoChange, s)
        else (Answer.plain .done,
          (s.setOutputs { s.outputs with assign := s.outputs.assign.set k ⟨m, r, pr⟩ }).regrant (assignOutput k))) := by
  have hentry : assignableOf a = some k := by
    rw [assignableOf, dif_pos (by omega)]
    exact congrArg some (Fin.ext (by simp [hk]))
  refine ⟨fun hb => ?_, fun hb hc => ?_, fun hb hc hd => ?_, fun m r pr hm hr hpr => ?_⟩ <;>
    change doSetAssignment (unlinked p h) a b c d s = _
  · simp only [doSetAssignment, hentry, hb]
  · obtain ⟨m, hm⟩ := Option.ne_none_iff_exists'.1 hb
    simp only [doSetAssignment, hentry, hm, hc]
  · obtain ⟨m, hm⟩ := Option.ne_none_iff_exists'.1 hb
    obtain ⟨r, hr⟩ := Option.ne_none_iff_exists'.1 hc
    simp only [doSetAssignment, hentry, hm, hr, hd]
  · simp only [doSetAssignment, hentry, hm, hr, hpr]

/-- Settles O35: the tests, then one regrant, of which `regrants` says what it does. -/
theorem setAssignmentRegrants : Obligations.SetAssignmentRegrants := by
  intro p h a b c d s ht same
  have hsame (x : Answer) (hr : runCmd (unlinked p h) (.setAssignment a b c d) s = (x, s)) : same x :=
    exec_takenAtOnce_same rfl ht hr
  refine ⟨fun ha => hsame _ ?_, fun k hk => ?_⟩
  · have hnone : assignableOf a = none := dif_neg (by omega)
    change doSetAssignment (unlinked p h) a b c d s = _
    simp only [doSetAssignment, hnone]
  obtain ⟨hmain, hremote, hpriority, hrun⟩ := runCmd_setAssignment (s := s) (p := p) (h := h) (b := b) (c := c) (d := d) hk
  simp only [ne_eq, mainRoleOf_eq_none_iff, remoteRoleOf_eq_none_iff, priorityOf_eq_none_iff, not_le] at hmain hremote hpriority
  refine ⟨fun hb => hsame _ (hmain hb), fun hb hc => hsame _ (hremote hb hc), fun hb hc hd => hsame _ (hpriority hb hc hd),
    fun m r pr hm hr hpr => ?_⟩
  have hrun := hrun m r pr hm hr hpr
  intro mTaken rTaken e u o
  have hmt : s.mainRoleTaken k m = true ↔ mTaken := s.mainRoleTaken_iff k m
  have hrt : s.remoteRoleTaken k r = true ↔ rTaken := s.remoteRoleTaken_iff k r
  refine ⟨fun hmT => hsame _ (hrun.trans (if_pos (hmt.2 hmT))), fun hmT hrT => hsame _ (hrun.trans ?_), fun hmT hrT hcomp => hsame _ (hrun.trans ?_),
    fun hmT hrT hcomp => ?_⟩
  · rw [if_neg (mt hmt.1 hmT), if_pos (hrt.2 hrT)]
  · rw [if_neg (mt hmt.1 hmT), if_neg (mt hrt.1 hrT), if_pos (Option.isSome_iff_ne_none.2 hcomp)]
  rw [if_neg (mt hmt.1 hmT), if_neg (mt hrt.1 hrT), if_neg (by simp [hcomp])] at hrun
  refine ⟨fun he => hsame _ (hrun.trans (if_pos he)), fun he => ?_⟩
  rw [if_neg he] at hrun
  have hstep : OutStep u (u.regrant o) := (u.regrant_free o).1
  have hframe : Frame outputParts s (u.regrant o) := Frame.trans (s.setOutputs_frame _).mono hstep.frame
  obtain ⟨t, htdef⟩ : ∃ t, t = (u.regrant o).closed p h (.setAssignment a b c d) (Answer.plain .done) := ⟨_, rfl⟩
  have hgrown : eventsGrow (u.regrant o) t := htdef ▸ State.closed_grown _ p h _ _
  have hto (q : Fin 13) : t.out q = (u.regrant o).out q := by rw [htdef]; rfl
  have htd : t.delay = (u.regrant o).delay := by rw [htdef]; rfl
  obtain ⟨hwell, hrest⟩ := u.regrant_regrants o
  obtain ⟨-, -, hgranted, -, -⟩ := u.regrant_cases o
  have hval : o.val = k.val + 5 := rfl
  have hlt : o.val < 11 := by omega
  have hrec (z : Zone) (x : Role) : grantedRec o z x =
      { state := .granted, phase := none, zone := some z, role := some x, target := none, segment := true, relay := true,
        relayOpenTimer := none } := by simp [grantedRec, hlt]
  refine ⟨t, ?_, ?_, ?_, ?_, ?_, fun y => ?_, ?_⟩
  · rw [htdef]
    exact exec_takenAtOnce_kept rfl ht hframe.2 hrun
  · rw [htdef]; exact congrArg OutputUnit.assign hstep.outputs
  · rw [htdef, State.closed_port_self]; rfl
  · have hlatch : (u.regrant o).outputs.latch = u.outputs.latch := by rw [hstep.outputs]
    rw [htdef]; exact hlatch
  · have hflt : (u.regrant o).outputs.flt = u.outputs.flt := by rw [hstep.outputs]
    rw [htdef]; exact hflt
  · have hz : t.zone y = { s.zone y with noOutput := (t.zone y).noOutput } := by rw [htdef]; exact hstep.zones y
    rw [hz]; exact ⟨rfl, rfl⟩
  intro g own stays raised granted starved
  have hstays : stays ↔ u.grantStays o := Iff.rfl
  have hown : own ↔ u.ownGrant o := Iff.rfl
  have hplaced (z : Zone) (x : Role) (old : List (Fin 13)) (n1 n2 : Byte)
      (hp : placedOr u (u.regrant o) o z x old n1 n2) :
      (∀ d', s.delay.request [(o, s.totalDelay z x)] = .ok d' →
        t.delay = { d' with starved := old } ∧ granted z x ∧ raised n1) ∧
      (∀ e', s.delay.request [(o, s.totalDelay z x)] = .error e' → starved z x ∧ raised n2) := by
    obtain ⟨hok, herror⟩ := hp
    refine ⟨fun d' hd' => ?_, fun e' he' => ?_⟩
    · obtain ⟨h1, h2, h3⟩ := hok d' hd'
      exact ⟨htd.trans h1, (hto o).trans (h2.trans (hrec z x)), h3.mono hgrown⟩
    · obtain ⟨h1, h2, h3, h4, h5⟩ := herror e' he'
      exact ⟨⟨(hto o).trans h3, by rw [htd]; exact (h2 o).2 (.inl rfl), h4.mono hgrown⟩, h5.mono hgrown⟩
  refine ⟨fun hseg => ?_, fun hst hno hnq => ?_, ?_⟩
  · obtain ⟨hothers, -, -, -, -, hidle, hgrant, hstarved, hhandover⟩ := hrest fun e => hseg (.inl e)
    have hsame' (hw : u.wellGranted o) : t.out o = s.out o ∧ t.delay = s.delay := by
      rw [hto, htd, hwell hw]; exact ⟨rfl, rfl⟩
    refine ⟨fun q hq => (hto q).trans (hothers q hq), fun hf => hsame' (hf.imp_right .inl), fun hst hs =>
      hsame' (.inr (.inr ⟨hst, hstays.1 hs⟩)), fun z x hst hg => ?_, fun hst hs hg => ?_, fun z x hst hs hg => ?_, fun hst => ?_⟩
    · obtain ⟨hok, herror⟩ := hplaced z x _ 1 2 ((hidle z x hst hg).2 (hseg (.inr hst)))
      refine ⟨fun d' hd' => ?_, herror⟩
      obtain ⟨h1, h2, h3⟩ := hok d' hd'
      have hkept : d'.starved = s.delay.starved := by rw [DelayState.request_keeps hd']
      exact ⟨h1.trans (congrArg (fun l => ({ d' with starved := l } : DelayState)) hkept.symm), h2, h3⟩
    · obtain ⟨h1, h2, h3⟩ := (hstarved hst (mt hstays.2 hs)).1 hg
      exact ⟨(hto o).trans h1, h2.mono hgrown, htd.trans h3⟩
    · obtain ⟨hok, herror⟩ := hplaced z x _ 3 3 ((hstarved hst (mt hstays.2 hs)).2 z x hg)
      refine ⟨fun d' hd' => ?_, herror⟩
      obtain ⟨h1, h2, h3⟩ := hok d' hd'
      exact ⟨h2, h3, h1⟩
    · obtain ⟨h1, h2, h3⟩ := hhandover hst
      refine ⟨htd.trans h1, fun ho => ?_, fun ho => (hto o).trans (h3 (mt hown.2 ho))⟩
      obtain ⟨h4, h5⟩ := h2 (hown.1 ho)
      exact ⟨h4.mono hgrown, (hto o).trans (h5.trans (by simp only [decide_eq_true hlt]; rfl))⟩
  · have hmoves : ¬ u.grantStays o := by
      rintro (⟨h1, h2, h3⟩ | hq)
      · exact hno ⟨h2, h3, h1⟩
      · exact hnq hq
    rw [hto, (hgranted hst).2 hmoves]
    refine ⟨?_, ?_⟩
    · rw [State.startHandover, State.raiseChannel_out, State.updateOut_out_self]; rfl
    · refine reported.mono ?_ hgrown
      rw [(hgranted hst).2 hmoves]
      exact State.raiseChannel_reported _ _ _
  · rw [htdef]
    exact onlyChanges.trans (hframe.1.mono (by decide)) ((State.closed_onlyChanges _ p h _ _).mono (by decide))

end Sys2Proof.Machine

end

section
/-! PROOFS. Freeings with their retries, and the arrivals and departures of fault lines (R45, R47, R54 to R56, R130, R131, R135;
O37, O40). -/

open Sys2Proof Sys2Proof.Machine

namespace Sys2Proof.Machine

/-! ### What a freeing leaves in the memory (R130) -/

/-- A granted request has placed its segments (R125). -/
theorem DelayState.request_ok {d d' : DelayState} {reqs : List (Fin 13 × Nat)} (h : d.request reqs = .ok d') :
    (reqs = [] ∧ d' = d) ∨ (reqs ≠ [] ∧ d.state = .ready ∧ d.compaction = none ∧ ∃ bases, placedAt d [] reqs bases ∧
      d' = (runsOf reqs bases).foldl (fun d (o, t, b, n) => d.create o t b n) d) := by
  by_cases hne : reqs = []
  · rw [DelayState.request, if_pos hne] at h
    exact .inl ⟨hne, (Except.ok.inj h).symm⟩
  · obtain ⟨hbusy, htaken⟩ := d.request_spec hne
    have hc : d.compaction = none := by
      by_contra hc
      rw [hbusy (.inr hc)] at h; cases h
    obtain ⟨hunready, hready⟩ := htaken hc
    have hstate : d.state = .ready := by
      cases hs : d.state with
      | ready => rfl
      | initializing => rw [hbusy (.inl hs)] at h; cases h
      | uninit => rw [hunready (.inl hs)] at h; cases h
      | fault => rw [hunready (.inr hs)] at h; cases h
    obtain ⟨hfull, hplaced⟩ := hready hstate
    refine .inr ⟨hne, hstate, hc, ?_⟩
    by_cases hpages : d.freePages < (reqs.map (fun r => pagesFor r.2)).sum
    · rw [hfull hpages] at h; cases h
    · obtain ⟨hfragmented, hok⟩ := hplaced (Nat.not_lt.1 hpages)
      by_cases hex : ∃ bases, placedAt d [] reqs bases
      · obtain ⟨bases, hb⟩ := hex
        rw [hok bases hb] at h
        exact ⟨bases, hb, (Except.ok.inj h).symm⟩
      · rw [hfragmented hex] at h; cases h

theorem DelayState.clearLine_segment_ne (d : DelayState) {o : Fin 13} (g : Segment) (h : o ≠ g.output) :
    (d.clearLine g).segment o = d.segment o :=
  DelayState.segment_setSegment_ne _ { g with writePos := g.base * pageWords } h

/-- A request of another output keeps an output's segment. -/
theorem DelayState.request_segment_ne {d d' : DelayState} {o q : Fin 13} {t : Nat} (h : d.request [(q, t)] = .ok d')
    (hne : o ≠ q) : d'.segment o = d.segment o := by
  obtain ⟨hnil, -⟩ | ⟨-, -, -, bases, -, rfl⟩ := DelayState.request_ok h
  · exact absurd hnil (List.cons_ne_nil _ _)
  · cases bases with
    | nil => rfl
    | cons b bases => exact d.clearLine_segment_ne _ hne

theorem State.retryOne_cases (s : State) (q : Fin 13) :
    s.retryOne q = s ∨ ∃ z r d, q ∈ s.delay.starved ∧ s.delay.request [(q, s.totalDelay z r)] = .ok d ∧
      s.retryOne q = (((s.setDelay d).leaveStarved q).becomeGranted q z r).raiseChannel q channelStarved := by
  rw [State.retryOne.eq_def]
  split
  · next z r hz hr =>
    split
    · next hup =>
      have hin : q ∈ s.delay.starved := by simp at hup; exact hup.1
      cases hd : s.delay.request [(q, s.totalDelay z r)] with
      | error e => rw [State.requestOne, hd]; exact .inl rfl
      | ok d => rw [State.requestOne, hd]; exact .inr ⟨z, r, d, hin, hd, rfl⟩
    · exact .inl rfl
  · exact .inl rfl

theorem State.granted_delay (u : State) (q : Fin 13) (z : Zone) (r : Role) (n : Byte) :
    ((u.becomeGranted q z r).raiseChannel q n).delay = u.delay := by
  rw [State.raiseChannel_delay, State.becomeGranted_delay]

theorem State.granted_out_ne (u : State) {o q : Fin 13} (z : Zone) (r : Role) (n : Byte) (h : o ≠ q) :
    ((u.becomeGranted q z r).raiseChannel q n).out o = u.out o := by
  rw [State.raiseChannel_out, State.becomeGranted_out_ne _ _ _ h]

/-- What a retry leaves of an output that is not on the starved list. -/
structure RetryKeeps (o : Fin 13) (s t : State) : Prop where
  segment : s.delay.segment o = none → t.delay.segment o = none
  starved : ∀ q, q ∈ t.delay.starved → q ∈ s.delay.starved
  out : t.out o = s.out o

theorem State.retryOne_keeps {s : State} {o : Fin 13} (q : Fin 13) (ho : o ∉ s.delay.starved) : RetryKeeps o s (s.retryOne q) := by
  obtain h | ⟨z, r, d, hq, hd, h⟩ := s.retryOne_cases q
  · rw [h]; exact ⟨id, fun _ => id, rfl⟩
  · have hne : o ≠ q := fun e => ho (e ▸ hq)
    have hkept : d.starved = s.delay.starved := by rw [DelayState.request_keeps hd]
    rw [h]
    refine ⟨fun hs => ?_, fun p hp => ?_, ?_⟩
    · rw [State.granted_delay]
      exact (DelayState.request_segment_ne hd hne).trans hs
    · rw [State.granted_delay] at hp
      exact hkept ▸ (List.mem_filter.1 hp).1
    · rw [State.granted_out_ne _ _ _ _ hne]; rfl

theorem State.retries_keep {s : State} {o : Fin 13} (l : List (Fin 13)) (ho : o ∉ s.delay.starved) :
    RetryKeeps o s (l.foldl State.retryOne s) := by
  induction l generalizing s with
  | nil => exact ⟨id, fun _ => id, rfl⟩
  | cons q l ih =>
    have h1 := s.retryOne_keeps q ho
    have h2 := ih fun hin => ho (h1.starved o hin)
    exact ⟨fun hs => h2.segment (h1.segment hs), fun p hp => h1.starved p (h2.starved p hp), h2.out.trans h1.out⟩

theorem State.setDelay_keeps {s : State} {o : Fin 13} {d : DelayState} (hs : s.delay.segment o = none → d.segment o = none)
    (hd : d.starved = s.delay.starved) : RetryKeeps o s (s.setDelay d) :=
  ⟨hs, fun _ h => hd ▸ h, rfl⟩

theorem RetryKeeps.trans {o : Fin 13} {s t u : State} (h1 : RetryKeeps o s t) (h2 : RetryKeeps o t u) : RetryKeeps o s u :=
  ⟨fun hs => h2.segment (h1.segment hs), fun q hq => h1.starved q (h2.starved q hq), h2.out.trans h1.out⟩

theorem State.endCompaction_keeps {s : State} {o : Fin 13} (c : CompactionRec) (ho : o ∉ s.delay.starved) :
    RetryKeeps o s (s.endCompaction c) := by
  have hpass := State.retries_keep (s := s.setDelay { s.delay with compaction := none }) s.delay.starved ho
  have hparts (v : State) (k : Fin 8) (st : Status) (r : List Byte) : RetryKeeps o v (v.complete k st r) := by
    have hf := (v.complete_frame k st r).1
    have hd : (v.complete k st r).delay = v.delay := hf .delay (by decide)
    exact ⟨by rw [hd]; exact id, fun q hq => hd ▸ hq, by rw [State.out, hf .outputs (by decide)]; rfl⟩
  have hset : RetryKeeps o s (s.setDelay { s.delay with compaction := none }) := ⟨id, fun _ => id, rfl⟩
  exact (hset.trans hpass).trans (hparts _ _ _ _)

/-- An examination keeps an output without a segment so. -/
theorem DelayState.examine_segment_none (fuel : Nat) (d : DelayState) (c : CompactionRec) {o : Fin 13}
    (h : d.segment o = none) : (DelayState.examine fuel d c).1.segment o = none := by
  induction fuel generalizing c with
  | zero => exact h
  | succ fuel ih =>
    unfold DelayState.examine
    split
    · exact h
    · next g hg =>
      have hne : o ≠ g.output := fun e =>
        DelayState.segment_eq_none_iff.1 h g (List.mem_of_find?_eq_some hg) e.symm
      dsimp only
      split
      · exact ih _
      · split
        · exact Eq.trans (DelayState.segment_setSegment_ne _ { g with move := some _ } hne)
            (show DelayState.segment { d with compaction := _ } o = none from h)
        · exact ih _

theorem State.continueCompaction_keeps {s : State} {o : Fin 13} (c : CompactionRec) (ho : o ∉ s.delay.starved) : RetryKeeps o s (s.continueCompaction c) := by
  unfold State.continueCompaction
  split
  · exact s.endCompaction_keeps c ho
  · have hkeeps := DelayState.examine_keeps (examineFuel s.delay) s.delay c
    have hstarved : (DelayState.examine (examineFuel s.delay) s.delay c).1.starved = s.delay.starved := by rw [hkeeps]
    have hstep := s.setDelay_keeps (o := o) (DelayState.examine_segment_none _ _ c) hstarved
    dsimp only
    split
    · exact hstep.trans (State.endCompaction_keeps _ (hstarved ▸ ho))
    · exact hstep

theorem DelayState.removeSegment_segment_self (d : DelayState) (o : Fin 13) : (d.removeSegment o).segment o = none := by
  rw [DelayState.segment_eq_none_iff]
  intro g hg
  simpa using (List.mem_filter.1 hg).2

theorem DelayState.removeSegment_eq (d : DelayState) (o : Fin 13) :
    d.removeSegment o = { d with segments := d.segments.filter (fun g => decide (g.output ≠ o)) } :=
  congrArg (fun l => ({ d with segments := l } : DelayState)) (List.filter_congr fun g _ => by simp [bne, beq_eq_decide])

theorem DelayState.removeSegment_none {d : DelayState} {o : Fin 13} (h : d.segment o = none) : d.removeSegment o = d := by
  have : d.segments.filter (fun g => g.output != o) = d.segments :=
    List.filter_eq_self.2 fun g hg => by simpa using DelayState.segment_eq_none_iff.1 h g hg
  rw [DelayState.removeSegment, this]

/-- A freeing of an output that is not on the starved list (R130): its segment is gone, the starved list loses outputs
alone, and no output but one on the starved list is retried. -/
theorem State.freeSegment_spec {s : State} {o : Fin 13} (ho : o ∉ s.delay.starved) :
    let t := s.freeSegment o
    t.delay.segment o = none ∧ (∀ q, q ∈ t.delay.starved → q ∈ s.delay.starved) ∧
    (∀ q, q ∉ s.delay.starved → t.out q = s.out q) ∧
    ((∀ c, s.delay.compaction = some c → c.current ≠ some o) → (s.delay.starved = [] ∨ s.delay.compaction ≠ none) →
      t.delay = { s.delay with segments := s.delay.segments.filter (fun g => decide (g.output ≠ o)) }) := by
  dsimp only
  cases hseg : s.delay.segment o with
  | none =>
    have ht : s.freeSegment o = s := by rw [State.freeSegment, hseg]
    rw [ht]
    refine ⟨hseg, fun _ => id, fun _ _ => rfl, fun _ _ => ?_⟩
    rw [← DelayState.removeSegment_eq, DelayState.removeSegment_none hseg]
  | some g =>
    have hnone := s.delay.removeSegment_segment_self o
    obtain hc | ⟨c, hc⟩ := Option.eq_none_or_eq_some s.delay.compaction
    · have ht : s.freeSegment o = s.delay.starved.foldl State.retryOne (s.setDelay (s.delay.removeSegment o)) := by
        rw [State.freeSegment, hseg]
        dsimp only
        rw [show (s.setDelay (s.delay.removeSegment o)).delay.compaction = none from hc]
        rfl
      have hkeeps (q : Fin 13) (hq : q ∉ s.delay.starved) :=
        State.retries_keep (s := s.setDelay (s.delay.removeSegment o)) s.delay.starved hq
      rw [ht]
      refine ⟨(hkeeps o ho).segment hnone, (hkeeps o ho).starved, fun q hq => (hkeeps q hq).out, fun _ hst => ?_⟩
      have hnil : s.delay.starved = [] := hst.resolve_right fun h => h hc
      have hfold : s.delay.starved.foldl State.retryOne (s.setDelay (s.delay.removeSegment o)) =
          s.setDelay (s.delay.removeSegment o) := by rw [hnil]; rfl
      rw [hfold]
      exact s.delay.removeSegment_eq o
    · by_cases hcur : c.current = some o
      · have ht : s.freeSegment o = (s.setDelay (s.delay.removeSegment o)).continueCompaction { c with current := none } := by
          rw [State.freeSegment, hseg]
          dsimp only
          rw [show (s.setDelay (s.delay.removeSegment o)).delay.compaction = some c from hc]
          exact if_pos hcur
        have hkeeps (q : Fin 13) (hq : q ∉ s.delay.starved) : RetryKeeps q (s.setDelay (s.delay.removeSegment o))
            ((s.setDelay (s.delay.removeSegment o)).continueCompaction { c with current := none }) :=
          State.continueCompaction_keeps _ hq
        rw [ht]
        exact ⟨(hkeeps o ho).segment hnone, (hkeeps o ho).starved, fun q hq => (hkeeps q hq).out,
          fun h => absurd hcur (h c hc)⟩
      · have ht : s.freeSegment o = s.setDelay (s.delay.removeSegment o) := by
          rw [State.freeSegment, hseg]
          dsimp only
          rw [show (s.setDelay (s.delay.removeSegment o)).delay.compaction = some c from hc]
          exact if_neg hcur
        rw [ht]
        exact ⟨hnone, fun _ => id, fun _ _ => rfl, fun _ _ => s.delay.removeSegment_eq o⟩

/-! ### Fault lines (R54 to R56) -/

theorem State.setFlt_setFlt (s : State) (n : Fin 11) (a b : Line) : (s.setFlt n a).setFlt n b = s.setFlt n b := by
  simp [State.setFlt, State.setOutputs]

/-- The state in which an output has fallen to FAULT, its segment not yet freed (R56). -/
def State.fallen (s : State) (o : Fin 13) : State :=
  (((s.leaveStarved o).setGain o { s.gain o with current := -161, target := -161 }).silenceLane o).updateOut o
    { OutputRec.idle with state := .fault }

theorem State.faultOutput_eq (s : State) {n : Fin 11} (h : (s.out (lineOutput n)).state ≠ .fault) :
    s.faultOutput n = ((s.fallen (lineOutput n)).freeSegment (lineOutput n)).raiseFaultLine n := if_neg h

/-- The mix after an output has fallen: its gain and its lane are silent (R56). -/
def MixState.fallen (m : MixState) (o : Fin 13) : MixState :=
  { m with
    gains := m.gains.set o { m.gains[o] with current := -161, target := -161 }
    lanes := m.lanes.set o (List.replicate 48 0) }

/-- What a fall changes before the freeing. -/
structure Falls (o : Fin 13) (s t : State) : Prop where
  mix : t.mix = s.mix.fallen o
  delay : t.delay = { s.delay with starved := s.delay.starved.filter (fun q => decide (q ≠ o)) }
  self : t.out o = { OutputRec.idle with state := .fault }
  others : ∀ q, q ≠ o → t.out q = s.out q
  outputs : t.outputs = { s.outputs with outs := t.outputs.outs }
  zones : ∀ z, t.zone z = { s.zone z with noOutput := (t.zone z).noOutput }
  noted : ∀ z, (t.zone z).noOutput = true → (s.zone z).noOutput = true ∨ noOutputReported t z
  raises : Raises s t
  kept : portsKept s t
  changes : onlyChanges [.zones, .outputs, .mix, .delay, .ports] s t

theorem State.fallen_falls (s : State) (o : Fin 13) : Falls o s (s.fallen o) := by
  obtain ⟨v, hv⟩ : ∃ v, v = ((s.leaveStarved o).setGain o { s.gain o with current := -161, target := -161 }).silenceLane o := ⟨_, rfl⟩
  have hquiet : QuietStep v (s.fallen o) := hv ▸ State.updateOut_quiet _ o _
  have hparts : onlyChanges [.mix, .delay] s v := by
    intro p hp
    rw [hv]
    cases p <;> first | rfl | exact absurd (by simp) hp
  have hports : v.ports = s.ports := hparts .ports (by decide)
  have hzone (z : Zone) : v.zone z = s.zone z := congrArg (PerZone.get · z) (hparts .zones (by decide))
  have hout (q : Fin 13) : v.out q = s.out q := by rw [State.out, hparts .outputs (by decide)]; rfl
  refine ⟨?_, ?_, ?_, fun q hq => ?_, ?_, fun z => ?_, fun z hz => ?_, (Raises.of_ports_eq hports).trans hquiet.raises,
    (portsKept_of_eq hports).trans hquiet.frame.2, ?_⟩
  · rw [hquiet.frame.1 .mix (by decide), hv]; rfl
  · have : (s.fallen o).delay = v.delay := by rw [hv]; exact State.updateOut_delay _ o _
    rw [this, hv]; exact s.leaveStarved_delay o
  · exact State.updateOut_out_self _ o _
  · rw [← hout q, hv]; exact State.updateOut_out_ne _ _ hq
  · rw [hquiet.outputs, hparts .outputs (by decide)]
  · rw [hquiet.zones z, hzone]
  · exact (hquiet.noted z hz).imp_left (by rw [hzone]; exact id)
  · have h1 : onlyChanges [.zones, .outputs, .mix, .delay, .ports] s v := hparts.mono (by decide)
    have h2 : onlyChanges [.zones, .outputs, .mix, .delay, .ports] v (s.fallen o) := by
      rw [hv]; exact (State.updateOut_frame _ o _).1.mono (by decide)
    exact h1.trans h2

theorem MixState.fallen_gain {o : Fin 13} {s t : State} (h : t.mix = s.mix.fallen o) :
    (t.gain o).current = -161 ∧ (t.gain o).target = -161 ∧ t.mix.lanes[o] = List.replicate 48 0 ∧
    ∀ q, q ≠ o → t.gain q = s.gain q ∧ t.mix.lanes[q] = s.mix.lanes[q] := by
  have hgain (q : Fin 13) : t.gain q = t.mix.gains[q] := rfl
  refine ⟨?_, ?_, ?_, fun q hq => ?_⟩
  · simp [hgain, h, MixState.fallen]
  · simp [hgain, h, MixState.fallen]
  · simp [h, MixState.fallen]
  · have hne : o.val ≠ q.val := fun e => hq (Fin.ext e.symm)
    simp [h, MixState.fallen, hne, State.gain]

/-- An output of a fault line that falls, with the freeing and the event (R55, R56). -/
theorem State.faultOutput_spec (s : State) {n : Fin 11} (h : (s.out (lineOutput n)).state ≠ .fault) :
    let o := lineOutput n
    let t := s.faultOutput n
    t.out o = { OutputRec.idle with state := .fault } ∧ t.mix = s.mix.fallen o ∧ t.delay.segment o = none ∧
    o ∉ t.delay.starved ∧ (∀ q, q ∈ t.delay.starved → q ∈ s.delay.starved) ∧
    (∀ q, q ≠ o → q ∉ s.delay.starved → t.out q = s.out q) ∧
    t.outputs = { s.outputs with outs := t.outputs.outs } ∧
    (∀ z, t.zone z = { s.zone z with noOutput := (t.zone z).noOutput }) ∧
    (∀ z, (t.zone z).noOutput = true → (s.zone z).noOutput = true ∨ noOutputReported t z) ∧
    (s.delay.compaction = none → t.slots = s.slots ∧ portsRaised s t ∧ t.delay.compaction = none ∧
      (s.delay.starved = [] → t.delay = { s.delay with segments := s.delay.segments.filter (fun g => decide (g.output ≠ o)) })) ∧
    reported t .protection { EventDetail.zero with outputs := outputBit o } ∧ eventsGrow s t ∧ portsKept s t ∧
    onlyChanges [.zones, .outputs, .mix, .delay, .slots, .ports] s t := by
  dsimp only
  rw [s.faultOutput_eq h, State.raiseFaultLine]
  have hf := s.fallen_falls (lineOutput n)
  generalize s.fallen (lineOutput n) = v at hf
  generalize lineOutput n = o at *
  have ho : o ∉ v.delay.starved := by rw [hf.delay]; simp
  have hsub (q : Fin 13) (hq : q ∈ v.delay.starved) : q ∈ s.delay.starved := by
    rw [hf.delay] at hq; exact (List.mem_filter.1 hq).1
  obtain ⟨hseg, hstarved, hout, hdelay⟩ := State.freeSegment_spec ho
  obtain ⟨hstep, hquiet⟩ := v.freeSegment_free o
  generalize v.freeSegment o = w at *
  have hraise := State.raise_quiet w .protection { EventDetail.zero with outputs := outputBit o }
  have hreported : reported (w.raise .protection { EventDetail.zero with outputs := outputBit o }) .protection
      { EventDetail.zero with outputs := outputBit o } := State.raise_reported _ _ (by decide)
  have hparts := (State.raise_frame w .protection { EventDetail.zero with outputs := outputBit o }).1
  generalize w.raise .protection { EventDetail.zero with outputs := outputBit o } = t at *
  have htd : t.delay = w.delay := hparts .delay (by decide)
  have hto (q : Fin 13) : t.out q = w.out q := by rw [State.out, hparts .outputs (by decide)]; rfl
  have hall : OutStep v t := hstep.trans hraise.toOutStep
  refine ⟨?_, ?_, ?_, ?_, fun q hq => ?_, fun q hq hs => ?_, ?_, fun z => ?_, fun z hz => ?_, fun hc => ?_, hreported,
    hf.raises.2.trans hall.grown, hf.kept.trans hall.frame.2, ?_⟩
  · rw [hto, hout o ho, hf.self]
  · rw [hall.frame.1 .mix (by decide), hf.mix]
  · rw [htd]; exact hseg
  · rw [htd]; exact fun hin => ho (hstarved o hin)
  · rw [htd] at hq; exact hsub q (hstarved q hq)
  · rw [hto, hout q fun hin => hs (hsub q hin), hf.others q hq]
  · rw [hall.outputs, hf.outputs]
  · rw [hall.zones z, hf.zones z]
  · exact (hall.noted z hz).elim (fun hv => (hf.noted z hv).imp_right (reported.mono · hall.grown)) .inr
  · have hvc : v.delay.compaction = none := by rw [hf.delay]; exact hc
    have hq : QuietStep v t := (hquiet hvc).trans hraise
    refine ⟨?_, hf.raises.1.trans hq.raised, hq.compaction.trans hvc, fun hs => ?_⟩
    · rw [hq.slots, hf.changes .slots (by decide)]
    · have hvs : v.delay.starved = [] := by rw [hf.delay, hs]; rfl
      rw [htd, hdelay (fun c hc' => by rw [hvc] at hc'; cases hc') (.inl hvs), hf.delay]
      simp [hs]
  · have h1 : onlyChanges [.zones, .outputs, .mix, .delay, .slots, .ports] s v := hf.changes.mono (by decide)
    have h2 : onlyChanges [.zones, .outputs, .mix, .delay, .slots, .ports] v t := hall.frame.1.mono (by decide)
    exact h1.trans h2

/-- Settles O37. -/
theorem faultLines : Obligations.FaultLines := by
  intro n s o
  have harrival : exec (.faultLineArrival n) s = .next (s.fltPinActive n) := rfl
  have hdeparture : exec (.faultLineDeparture n) s = .next (s.fltPinInactive n) := rfl
  refine ⟨fun ha => ⟨?_, ?_⟩, fun ha => ⟨?_, fun hst => ?_, fun hst => ?_⟩⟩
  · rw [harrival, State.fltPinActive, if_pos ha]
  · rw [hdeparture, State.fltPinInactive, if_pos ha, State.fltDeparts, State.setFlt_setFlt, State.setFlt_fltLine_self]
  · rw [hdeparture, State.fltPinInactive, if_neg (by simp [ha])]
  all_goals
    have hline : s.fltPinActive n = (s.setFlt n { pin := s.outputs.fltLevel.pin, active := true }).faultOutput n := by
      rw [State.fltPinActive, if_neg (by simp [ha]), State.fltArrives, State.setFlt_setFlt, State.setFlt_fltLine_self]
    rw [harrival, hline]
  · exact congrArg Host.Outcome.next (if_pos hst)
  · obtain ⟨u, hu⟩ : ∃ u, u = s.setFlt n { pin := s.outputs.fltLevel.pin, active := true } := ⟨_, rfl⟩
    have huo (q : Fin 13) : u.out q = s.out q := by rw [hu]; rfl
    have hud : u.delay = s.delay := by rw [hu]; rfl
    have hum : u.mix = s.mix := by rw [hu]; rfl
    have huz (z : Zone) : u.zone z = s.zone z := by rw [hu]; rfl
    have hports : u.ports = s.ports := by rw [hu]; rfl
    rw [← hu]
    have huout : u.outputs = { s.outputs with flt := u.outputs.flt } := by rw [hu]; rfl
    obtain ⟨h1, h2, h3, h4, -, h6, h7, h8, -, h10, h11, -, -, h14⟩ := u.faultOutput_spec (n := n) (by rw [huo]; exact hst)
    generalize u.faultOutput n = t at *
    have hflt (m : Fin 11) : t.fltLine m = u.fltLine m := by rw [State.fltLine, h7]; rfl
    obtain ⟨hcurrent, htarget, hlane, hothers⟩ := MixState.fallen_gain (h2.trans (congrArg (MixState.fallen · o) hum))
    refine ⟨t, rfl, ?_, h1, hcurrent, htarget, hlane, h3, h4, fun m hm => ?_, fun z => ?_, ?_, fun q hq hs => ?_, ?_, hothers,
      fun hc => ?_, h11, ?_⟩
    · rw [hflt, hu, State.setFlt_fltLine_self]
    · rw [hflt, hu, State.setFlt_fltLine_ne _ _ hm]
    · rw [h8 z, huz]
    · rw [h7, huout]
    · rw [h6 q hq (by rw [hud]; exact hs), huo]
    · rw [h2, hum]; rfl
    · obtain ⟨hslots, hraised, -, hdelay⟩ := h10 (by rw [hud]; exact hc)
      refine ⟨hslots.trans (by rw [hu]; rfl), (portsRaised.of_ports_eq hports).trans hraised, fun hs => ?_⟩
      rw [hdelay (by rw [hud]; exact hs), hud]
    · have h15 : onlyChanges [.zones, .outputs, .mix, .delay, .slots, .ports] s u :=
        hu ▸ (s.setFlt_changes n _).mono (by decide)
      exact h15.trans h14

/-! ### A freeing and the record of an output that is not retried

REALLOCATE writes the output's record before it frees its segment (R47): the freeing does not see it. -/

/-- Two records of an output that NO_OUTPUT does not tell apart (R51). -/
abbrev OutputRec.sameGrant (r u : OutputRec) : Prop := ∀ z, r.grantedTo z = u.grantedTo z

theorem State.setOut_lacksOutput {s : State} {o : Fin 13} {r : OutputRec} (h : r.sameGrant (s.out o)) (z : Zone) :
    (s.setOut o r).lacksOutput z = s.lacksOutput z := by
  refine State.lacksOutput_congr rfl fun q => ?_
  by_cases hq : q = o
  · subst hq; rw [State.out_setOut_self]; exact h z
  · rw [State.out_setOut_ne _ _ hq]

theorem State.setOut_noteZone {s : State} {o : Fin 13} {r : OutputRec} (h : r.sameGrant (s.out o)) (z : Zone) :
    (s.setOut o r).noteZone z = (s.noteZone z).setOut o r := by
  rw [State.noteZone_eq, State.noteZone_eq, State.setOut_lacksOutput h]
  change State.setZone (if (s.lacksOutput z && !(s.zone z).noOutput) = true then (s.setOut o r).raiseNoOutput z else s.setOut o r)
    z { s.zone z with noOutput := s.lacksOutput z } = _
  split <;> rfl

theorem State.setOut_noteOutputs {s : State} {o : Fin 13} {r : OutputRec} (h : r.sameGrant (s.out o)) :
    (s.setOut o r).noteOutputs = s.noteOutputs.setOut o r := by
  rw [State.noteOutputs, State.setOut_noteZone h, State.setOut_noteZone (by rwa [State.noteZone_out])]
  rfl

theorem State.setOut_comm (s : State) {o q : Fin 13} (r u : OutputRec) (h : o ≠ q) :
    (s.setOut o r).setOut q u = (s.setOut q u).setOut o r := by
  have hne : o.val ≠ q.val := fun e => h (Fin.ext e)
  exact congrArg (fun v => ({ s with outputs := { s.outputs with outs := v } } : State)) (Vector.set_comm _ _ hne)

theorem State.setOut_updateOut {s : State} {o q : Fin 13} {r : OutputRec} (h : r.sameGrant (s.out o)) (hne : o ≠ q) (u : OutputRec) :
    (s.setOut o r).updateOut q u = (s.updateOut q u).setOut o r := by
  rw [State.updateOut, State.setOut_comm _ _ _ hne, State.setOut_noteOutputs (by rwa [State.out_setOut_ne _ _ hne])]
  rfl

theorem State.setOut_raiseChannel (s : State) (o q : Fin 13) (r : OutputRec) (n : Byte) :
    (s.setOut o r).raiseChannel q n = (s.raiseChannel q n).setOut o r := rfl

theorem State.setOut_retryOne {s : State} {o q : Fin 13} {r : OutputRec} (h : r.sameGrant (s.out o)) (hne : o ≠ q) :
    (s.setOut o r).retryOne q = (s.retryOne q).setOut o r := by
  have hgranted (d : DelayState) (z : Zone) (x : Role) :
      ((((s.setOut o r).setDelay d).leaveStarved q).becomeGranted q z x).raiseChannel q channelStarved =
        ((((s.setDelay d).leaveStarved q).becomeGranted q z x).raiseChannel q channelStarved).setOut o r :=
    (congrArg (State.raiseChannel · q channelStarved)
      (State.setOut_updateOut (s := (s.setDelay d).leaveStarved q) h hne (grantedRec q z x))).trans
      (State.setOut_raiseChannel _ _ _ _ _)
  have hout : (s.setOut o r).out q = s.out q := s.out_setOut_ne r (Ne.symm hne)
  cases hz : (s.out q).zone with
  | none =>
    have h1 (v : State) (hv : (v.out q).zone = none) : v.retryOne q = v := by rw [State.retryOne.eq_def, hv]
    rw [h1 s hz, h1 (s.setOut o r) (by rw [hout]; exact hz)]
  | some z =>
    cases hx : (s.out q).role with
    | none =>
      have h1 (v : State) (hv : (v.out q).role = none) : v.retryOne q = v := by
        rw [State.retryOne.eq_def, hv]; split <;> first | contradiction | rfl
      rw [h1 s hx, h1 (s.setOut o r) (by rw [hout]; exact hx)]
    | some x =>
      by_cases hin : q ∈ s.delay.starved
      · by_cases hup : (s.zone z).isUp = true
        · cases hd : s.delay.request [(q, s.totalDelay z x)] with
          | error e =>
            rw [State.retryOne_error hz hx hd, State.retryOne_error (s := s.setOut o r) (by rw [hout]; exact hz) (by rw [hout]; exact hx) hd]
          | ok d =>
            rw [State.retryOne_ok hin hz hx hup hd,
              State.retryOne_ok (s := s.setOut o r) hin (by rw [hout]; exact hz) (by rw [hout]; exact hx) hup hd, hgranted]
        · have hdown : (s.zone z).isUp = false := by simpa using hup
          rw [State.retryOne_down hz hx hdown, State.retryOne_down (s := s.setOut o r) (by rw [hout]; exact hz) (by rw [hout]; exact hx) hdown]
      · have h1 (v : State) (hv : q ∉ v.delay.starved) : v.retryOne q = v := by
          obtain h | ⟨z, r, d, hq, -, -⟩ := v.retryOne_cases q
          · exact h
          · exact absurd hq hv
        rw [h1 s hin, h1 (s.setOut o r) hin]

theorem State.setOut_retries {s : State} {o : Fin 13} {r : OutputRec} (h : r.sameGrant (s.out o)) {l : List (Fin 13)} (ho : o ∉ l) :
    l.foldl State.retryOne (s.setOut o r) = (l.foldl State.retryOne s).setOut o r := by
  induction l generalizing s with
  | nil => rfl
  | cons q l ih =>
    have hne : o ≠ q := fun e => ho (e ▸ List.mem_cons_self)
    have hout : (s.retryOne q).out o = s.out o := by
      obtain hr | ⟨z, x, d, -, -, hr⟩ := s.retryOne_cases q
      · rw [hr]
      · rw [hr, State.granted_out_ne _ _ _ _ hne]; rfl
    rw [List.foldl_cons, List.foldl_cons, State.setOut_retryOne h hne,
      ih (by rwa [hout]) fun hin => ho (List.mem_cons_of_mem q hin)]

theorem State.setOut_complete (s : State) (o : Fin 13) (r : OutputRec) (k : Fin 8) (st : Status) (res : List Byte) :
    (s.setOut o r).complete k st res = (s.complete k st res).setOut o r :=
  calc (s.setOut o r).complete k st res = ((s.complete k st res).onto s).setOut o r := State.complete_onto s (s.setOut o r) k st res
    _ = (s.complete k st res).setOut o r := by rw [State.complete_onto_self]

theorem State.setOut_endCompaction {s : State} {o : Fin 13} {r : OutputRec} (h : r.sameGrant (s.out o))
    (ho : o ∉ s.delay.starved) (c : CompactionRec) :
    (s.setOut o r).endCompaction c = (s.endCompaction c).setOut o r := by
  have hpass : ((s.setOut o r).setDelay { s.delay with compaction := none }).retryPass =
      (s.setDelay { s.delay with compaction := none }).retryPass.setOut o r :=
    State.setOut_retries (s := s.setDelay { s.delay with compaction := none }) h ho
  rw [State.endCompaction, show (s.setOut o r).delay = s.delay from rfl, hpass]
  exact State.setOut_complete _ o r _ _ _

theorem State.setOut_continueCompaction {s : State} {o : Fin 13} {r : OutputRec} (h : r.sameGrant (s.out o))
    (ho : o ∉ s.delay.starved) (c : CompactionRec) :
    (s.setOut o r).continueCompaction c = (s.continueCompaction c).setOut o r := by
  have hkeeps := DelayState.examine_keeps (examineFuel s.delay) s.delay c
  have hstarved : (DelayState.examine (examineFuel s.delay) s.delay c).1.starved = s.delay.starved := by rw [hkeeps]
  unfold State.continueCompaction
  rw [show (s.setOut o r).delay = s.delay from rfl]
  split
  · exact State.setOut_endCompaction h ho c
  · dsimp only
    split
    · exact State.setOut_endCompaction (s := s.setDelay (DelayState.examine (examineFuel s.delay) s.delay c).1) h (hstarved ▸ ho) _
    · rfl

/-- The freeing of a segment does not see the record of an output that is not on the starved list. -/
theorem State.setOut_freeSegment {s : State} {o : Fin 13} {r : OutputRec} (h : r.sameGrant (s.out o))
    (ho : o ∉ s.delay.starved) (q : Fin 13) : (s.setOut o r).freeSegment q = (s.freeSegment q).setOut o r := by
  unfold State.freeSegment
  rw [show (s.setOut o r).delay = s.delay from rfl]
  split
  · rfl
  · dsimp only
    rw [show ((s.setOut o r).setDelay (s.delay.removeSegment q)).delay.compaction = (s.setDelay (s.delay.removeSegment q)).delay.compaction from rfl]
    split
    · exact State.setOut_retries (s := s.setDelay (s.delay.removeSegment q)) h ho
    · split
      · exact State.setOut_continueCompaction (s := s.setDelay (s.delay.removeSegment q)) h ho _
      · rfl

/-! ### The end of a handover (R45, R47) -/

/-- An output in REALLOCATE, its old segment freed (R47). -/
def State.reallocating (s : State) (o : Fin 13) : State :=
  let v := (s.enterReallocate o false).freeSegment o
  v.setOut o { v.out o with segment := false }

theorem State.reallocate_eq (s : State) (o : Fin 13) :
    (s.grantRule o = none → s.reallocate o false = ((s.reallocating o).becomeIdle o).raiseChannel o channelHandover) ∧
    (∀ z r, s.grantRule o = some (z, r) → ∀ d, (s.reallocating o).delay.request [(o, (s.reallocating o).totalDelay z r)] = .ok d →
      s.reallocate o false = (((s.reallocating o).setDelay d).becomeGranted o z r).raiseChannel o channelHandover) ∧
    (∀ z r, s.grantRule o = some (z, r) → ∀ e, (s.reallocating o).delay.request [(o, (s.reallocating o).totalDelay z r)] = .error e →
      s.reallocate o false = (s.reallocating o).becomeStarved o z r) := by
  refine ⟨fun hg => ?_, fun z r hg d hd => ?_, fun z r hg e he => ?_⟩ <;> rw [State.reallocate, hg]
  · rfl
  · dsimp only
    rw [show ((s.enterReallocate o false).freeSegment o).setOut o
      { ((s.enterReallocate o false).freeSegment o).out o with segment := false } = s.reallocating o from rfl,
      State.placeInZone_ok hd]
    rfl
  · dsimp only
    rw [show ((s.enterReallocate o false).freeSegment o).setOut o
      { ((s.enterReallocate o false).freeSegment o).out o with segment := false } = s.reallocating o from rfl,
      State.placeInZone_error he]
    rfl

/-- Where the output is not on the starved list, its own record is all that the freeing leaves to REALLOCATE. -/
theorem State.reallocating_freed {s : State} {o : Fin 13} (hst : (s.out o).state = .handover) (ho : o ∉ s.delay.starved) :
    ∃ r, s.reallocating o = (s.freeSegment o).setOut o r := by
  obtain ⟨r, hr, henter⟩ : ∃ r : OutputRec, r.state = .handover ∧ s.enterReallocate o false = s.setOut o r := ⟨_, rfl, rfl⟩
  have hgrant : r.sameGrant (s.out o) := fun z => by rw [OutputRec.grantedTo, OutputRec.grantedTo, hr, hst]; rfl
  refine ⟨{ r with segment := false }, ?_⟩
  have hfree : (s.enterReallocate o false).freeSegment o = (s.freeSegment o).setOut o r := by
    rw [henter, State.setOut_freeSegment hgrant ho]
  rw [State.reallocating, hfree]
  dsimp only
  rw [State.out_setOut_self]
  simp [State.setOut]

/-- Settles O40. -/
theorem relayOpenEndsInReallocate : Obligations.RelayOpenEndsInReallocate := by
  intro o s
  have hexec : exec (.relayOpenExpiry o) s = .next (s.relayOpenExpires o) := rfl
  refine ⟨fun hn => ?_, fun hst hph => ⟨s.reallocate o false, ?_, ?_⟩⟩
  · rw [hexec, State.relayOpenExpires, if_neg hn]
  · rw [hexec, State.relayOpenExpires, if_pos ⟨hst, hph⟩]
  obtain ⟨hnone, hok, herror⟩ := s.reallocate_eq o
  have hstep : OutStep s (s.reallocate o false) := (s.reallocate_free o false).1
  have hcase (z : Zone) (r : Role) :
      (∃ d, (s.reallocating o).delay.request [(o, (s.reallocating o).totalDelay z r)] = .ok d) ∨
      ∃ e, (s.reallocating o).delay.request [(o, (s.reallocating o).totalDelay z r)] = .error e := by
    cases (s.reallocating o).delay.request [(o, (s.reallocating o).totalDelay z r)] <;> simp
  refine ⟨fun hg => ?_, fun z r hg => ?_, fun ho => ?_, fun z => by rw [hstep.zones z], hstep.frame.1.mono (by decide)⟩
  · rw [hnone hg]
    exact ⟨(State.raiseChannel_out _ _ _ _).trans (State.updateOut_out_self _ _ _), State.raiseChannel_reported _ _ _⟩
  · obtain ⟨d, hd⟩ | ⟨e, he⟩ := hcase z r
    · rw [hok z r hg d hd]
      exact .inl ⟨(State.raiseChannel_out _ _ _ _).trans (State.becomeGranted_out _ _ _ _), State.raiseChannel_reported _ _ _⟩
    · obtain ⟨-, hstarved, hout, -, -, hraised⟩ := (s.reallocating o).becomeStarved_spec o z r
      rw [herror z r hg e he]
      exact .inr ⟨hout, (hstarved o).2 (.inl rfl), hraised⟩
  · intro u
    obtain ⟨r', hr'⟩ := State.reallocating_freed hst ho
    obtain ⟨hseg, -, hout, hdelay⟩ := State.freeSegment_spec ho
    have hud : (s.reallocating o).delay = u.delay := by rw [hr']; rfl
    have hut (z : Zone) (r : Role) : (s.reallocating o).totalDelay z r = u.totalDelay z r := by rw [hr']; rfl
    have huo (q : Fin 13) (hq : q ≠ o) : (s.reallocating o).out q = u.out q := by rw [hr', State.out_setOut_ne _ _ hq]
    simp only [hud, hut] at hok herror hcase
    have hothers (q : Fin 13) (hq : q ≠ o) : (s.reallocate o false).out q = u.out q := by
      cases hg : s.grantRule o with
      | none =>
        rw [hnone hg, State.raiseChannel_out, State.becomeIdle, State.updateOut_out_ne _ _ hq, huo q hq]
      | some zr =>
        obtain ⟨d, hd⟩ | ⟨e, he⟩ := hcase zr.1 zr.2
        · rw [hok _ _ hg d hd, State.raiseChannel_out, State.becomeGranted_out_ne _ _ _ hq]
          exact huo q hq
        · obtain ⟨-, -, -, hrest, -⟩ := (s.reallocating o).becomeStarved_spec o zr.1 zr.2
          rw [herror _ _ hg e he, hrest q hq, huo q hq]
    refine ⟨hseg, hdelay, fun q hq => ⟨hothers q hq, fun hs => (hothers q hq).trans (hout q hs)⟩, fun hg => ?_, fun z r hg =>
      ⟨fun d hd => ?_, fun e he => ?_⟩⟩
    · rw [hnone hg, State.raiseChannel_delay, State.becomeIdle, State.updateOut_delay, hud]
    · rw [hok z r hg d hd]
      refine ⟨?_, ?_⟩
      · rw [State.raiseChannel_out, State.becomeGranted_out]; rfl
      · rw [State.raiseChannel_delay, State.becomeGranted_delay]; rfl
    · obtain ⟨h1, h2, h3, -, h5, -⟩ := (s.reallocating o).becomeStarved_spec o z r
      rw [herror z r hg e he, h3]
      rw [hud] at h1 h2
      exact ⟨rfl, h1, h2, h5⟩

end Sys2Proof.Machine

end

section
/-! PROOFS. The Zone Controller's transitions: edits of one zone's record, what follows them, and the entries into QUIETING (R3,
R6 to R11, R21, R51, R52; O22, O23, O25, O38). -/

open Sys2Proof Sys2Proof.Machine

namespace Sys2Proof.Machine

/-! ### Records that differ in derived fields alone -/

theorem ZoneRec.sameButDerived.refl (r : ZoneRec) : r.sameButDerived r := rfl

theorem ZoneRec.sameButDerived.trans {r u v : ZoneRec} (h1 : r.sameButDerived u) (h2 : u.sameButDerived v) :
    r.sameButDerived v := by
  rw [ZoneRec.sameButDerived] at *
  rw [h2, h1]

theorem ZoneRec.sameButStatus.derived {r u : ZoneRec} (h : r.sameButStatus u) : r.sameButDerived u := by
  rw [ZoneRec.sameButStatus] at h
  rw [ZoneRec.sameButDerived, h]

theorem ZoneRec.sameButDerived.of_noOutput {r u : ZoneRec} (h : u = { r with noOutput := u.noOutput }) : r.sameButDerived u := by
  rw [ZoneRec.sameButDerived, h]

/-! ### Edits of one zone's record -/

/-- The record of one zone has been rewritten to `r`, the statuses and the no-output marks being kept up; the other zones
keep theirs. -/
structure Edits (z : Zone) (r : ZoneRec) (s t : State) : Prop where
  self : r.sameButDerived (t.zone z)
  others : ∀ y, y ≠ z → (s.zone y).sameButDerived (t.zone y)
  tracks : Tracks s t
  noted : ∀ y, (t.zone y).noOutput = true → (s.zone y).noOutput = true ∨ noOutputReported t y
  changes : onlyChanges [.zones, .slots, .ports] s t

theorem Edits.out {z : Zone} {r : ZoneRec} {s t : State} (h : Edits z r s t) (o : Fin 13) : t.out o = s.out o := by
  rw [State.out, h.changes .outputs (by decide)]; rfl

theorem Edits.trans {z : Zone} {r v : ZoneRec} {s t u : State} (h1 : Edits z r s t) (h2 : Edits z v t u) : Edits z v s u where
  self := h2.self
  others := fun y hy => (h1.others y hy).trans (h2.others y hy)
  tracks := h1.tracks.trans h2.tracks
  noted := fun y hy => (h2.noted y hy).elim (fun h => (h1.noted y h).imp_right (reported.mono · h2.tracks.grown)) .inr
  changes := h1.changes.trans h2.changes

/-- A record rewritten with the source and the mark that it had. -/
theorem State.setZone_edits {s : State} {z : Zone} {r : ZoneRec} (hl : r.live = (s.zone z).live)
    (hst : r.status = (s.zone z).status) (hn : r.noOutput = (s.zone z).noOutput) : Edits z r s (s.setZone z r) where
  self := by rw [State.zone_setZone_self]; rfl
  others := fun y hy => by rw [State.zone_setZone_ne _ _ hy]; rfl
  tracks := .of_same rfl rfl rfl (eventsGrow.of_ports_eq (s.setZone_ports z r)) fun y => by
    by_cases hy : y = z
    · subst hy; rw [State.zone_setZone_self]; exact ⟨hl, hst⟩
    · rw [State.zone_setZone_ne _ _ hy]; exact ⟨rfl, rfl⟩
  noted := fun y hy => .inl (by
    by_cases h : y = z
    · subst h; rw [State.zone_setZone_self] at hy; rwa [← hn]
    · rwa [State.zone_setZone_ne _ _ h] at hy)
  changes := (s.setZone_frame z r).1.mono (by decide)

theorem State.raiseZone_edits (s : State) (z : Zone) : Edits z (s.zone z) s (s.raiseZone z) where
  self := by rw [State.zone_raiseZone]; rfl
  others := fun y _ => by rw [State.zone_raiseZone]; rfl
  tracks := .of_same ((s.raiseZone_frame z).1 .decoder (by decide)) ((s.raiseZone_frame z).1 .tuner (by decide))
    ((s.raiseZone_frame z).1 .inputs (by decide)) (s.raiseZone_raises z).2 fun y => by rw [State.zone_raiseZone]; exact ⟨rfl, rfl⟩
  noted := fun y hy => .inl (by rwa [State.zone_raiseZone] at hy)
  changes := (s.raiseZone_frame z).1.mono (by decide)

/-- The watch for NO_OUTPUT and the event, after a record has been rewritten (R3, R51). -/
theorem State.watchZone_edits (s : State) (z : Zone) : Edits z (s.zone z) s ((s.noteOutputs).raiseZone z) ∧
    zoneReported ((s.noteOutputs).raiseZone z) z ∧ ((s.noteOutputs).raiseZone z).noOutputMarked := by
  have hq := s.noteOutputs_quiet
  have he := s.noteOutputs.raiseZone_edits z
  have hs := hq.settled
  refine ⟨⟨?_, fun y hy => ?_, hs.tracks.trans he.tracks, fun y hy => ?_, ?_⟩,
    State.raiseZone_reported _ z, ?_⟩
  · exact (hq.sameButDerived z).trans he.self
  · exact (hq.sameButDerived y).trans (he.others y hy)
  · exact (he.noted y hy).elim (fun h => (hq.noted y h).imp_right (reported.mono · he.tracks.grown)) .inr
  · exact ((s.noteOutputs_frame).1.mono (by decide)).trans he.changes
  · exact State.raise_marked _ _ s.noteOutputs_marked

theorem State.setPower_edits (s : State) (z : Zone) (w : Power) :
    Edits z { s.zone z with power := w } s (s.setPower z w) ∧ zoneReported (s.setPower z w) z ∧
    (s.setPower z w).noOutputMarked := by
  have h1 : Edits z { s.zone z with power := w } s (s.setZone z { s.zone z with power := w }) := State.setZone_edits rfl rfl rfl
  obtain ⟨h2, h3, h4⟩ := (s.setZone z { s.zone z with power := w }).watchZone_edits z
  rw [State.zone_setZone_self] at h2
  exact ⟨h1.trans h2, h3, h4⟩

/-- A zone enters QUIETING, its ramp stage before it (R7). -/
theorem State.quietZone_edits (s : State) (z : Zone) (k : Option (Fin 8)) :
    Edits z ((s.zone z).quieted k False) s (s.quietZone z k) ∧ zoneReported (s.quietZone z k) z ∧
    (s.quietZone z k).noOutputMarked := by
  obtain ⟨r, hr⟩ : ∃ r : ZoneRec, r = { s.zone z with
      live := (s.zone z).waiting.getD (s.zone z).live, waiting := none, sleepTimer := 0, opSlot := k, wakeTimer := none
      quietStage := some .ramp } := ⟨_, rfl⟩
  obtain ⟨u, hu⟩ : ∃ u, u = (s.setZone z r).setPower z .quieting := ⟨_, rfl⟩
  have ht : s.quietZone z k = u.refreshStatus z := by rw [hu, hr]; rfl
  obtain ⟨hpower, hreported, hmarked⟩ := (s.setZone z r).setPower_edits z .quieting
  rw [State.zone_setZone_self, ← hu] at hpower
  rw [← hu] at hreported hmarked
  have hkeep (y : Zone) := u.refreshStatus_sameButStatus z y
  have hother (y : Zone) (hy : y ≠ z) : (s.zone y).sameButDerived (u.zone y) := by
    have h := hpower.others y hy
    rwa [State.zone_setZone_ne _ _ hy] at h
  have hsetdec : (s.setZone z r).decoder = s.decoder := rfl
  have hsetports : (s.setZone z r).ports = s.ports := s.setZone_ports z r
  have hgrown : eventsGrow s u := (eventsGrow.of_ports_eq hsetports).trans hpower.tracks.grown
  have hstatus (y : Zone) : (u.zone y).status = (s.zone y).status ∧ (y ≠ z → (u.zone y).live = (s.zone y).live) := by
    have hq := (((s.setZone z r).setZone z { (s.setZone z r).zone z with power := .quieting }).noteOutputs_quiet).zones y
    have hzone : u.zone y = { ((s.setZone z r).setZone z { (s.setZone z r).zone z with power := .quieting }).zone y with
        noOutput := (u.zone y).noOutput } := by
      rw [hu, State.setPower_eq, State.zone_raiseZone]; exact hq
    rw [hzone]
    by_cases hy : y = z
    · subst hy; rw [State.zone_setZone_self, State.zone_setZone_self, hr]; exact ⟨rfl, fun h => absurd rfl h⟩
    · rw [State.zone_setZone_ne _ _ hy, State.zone_setZone_ne _ _ hy]; exact ⟨rfl, fun _ => rfl⟩
  have hnoted (y : Zone) (hy : (u.zone y).noOutput = true) : (s.zone y).noOutput = true ∨ noOutputReported u y := by
    refine (hpower.noted y hy).imp_left fun h => ?_
    by_cases hyz : y = z
    · subst hyz; rw [State.zone_setZone_self, hr] at h; exact h
    · rwa [State.zone_setZone_ne _ _ hyz] at h
  have hraises := u.refreshStatus_raises z
  rw [ht]
  refine ⟨⟨?_, fun y hy => (hother y hy).trans (hkeep y).derived, ?_, fun y hy => ?_, ?_⟩, hreported.mono hraises.2, ?_⟩
  · refine ZoneRec.sameButDerived.trans (u := { r with power := .quieting }) ?_ (hpower.self.trans (hkeep z).derived)
    rw [hr]; rfl
  · exact Tracks.refreshStatus ((hpower.changes .decoder (by decide)).trans rfl) ((hpower.changes .tuner (by decide)).trans rfl)
      ((hpower.changes .inputs (by decide)).trans rfl) hgrown (fun y hy => ⟨(hstatus y).2 hy, (hstatus y).1⟩) (hstatus z).1
  · have hn : ((u.refreshStatus z).zone y).noOutput = (u.zone y).noOutput := by
      have h := hkeep y
      rw [ZoneRec.sameButStatus] at h
      rw [h]
    exact (hnoted y (hn ▸ hy)).imp_right (reported.mono · hraises.2)
  · exact (((s.setZone_frame z r).1.mono (by decide) : onlyChanges [.zones, .slots, .ports] _ _).trans hpower.changes).trans
      ((u.refreshStatus_frame z).1.mono (by decide))
  · refine State.noOutputMarked_congr (fun y => ?_) (fun o y => ?_) hmarked
    · have h := hkeep y
      rw [ZoneRec.sameButStatus] at h
      rw [h]; exact ⟨rfl, rfl⟩
    · rw [State.out, (u.refreshStatus_frame z).1 .outputs (by decide)]; rfl

/-! ### The ends of silent ramp stages (R8, R52) -/

/-- A zone that enters its relay stage at once. -/
def State.rampDone (s : State) (z : Zone) : Prop :=
  (s.zone z).power = .quieting ∧ (s.zone z).quietStage = some .ramp ∧ s.allSilent z

/-- The zones of `E` have entered their relay stage, opening the relays of their outputs; nothing else has changed. -/
structure RampEnds (E : Zone → Prop) (s t : State) : Prop where
  zones : ∀ z, (E z → t.zone z = { s.zone z with quietStage := some .relay, relayTimer := some 20 }) ∧
    (¬ E z → t.zone z = s.zone z)
  outputs : t.outputs = { s.outputs with outs := t.outputs.outs }
  outs : ∀ o, ((∃ z, E z ∧ (s.out o).grantedTo z = true) → t.out o = { s.out o with relay := false }) ∧
    ((¬ ∃ z, E z ∧ (s.out o).grantedTo z = true) → t.out o = s.out o)
  changes : onlyChanges [.zones, .outputs] s t

theorem RampEnds.of_eq {E : Zone → Prop} (s : State) (h : ∀ z, ¬ E z) : RampEnds E s s where
  zones := fun z => ⟨fun hz => absurd hz (h z), fun _ => rfl⟩
  outputs := rfl
  outs := fun _ => ⟨fun ⟨z, hz, _⟩ => absurd hz (h z), fun _ => rfl⟩
  changes := (Frame.refl _ s).1

theorem RampEnds.granted {E : Zone → Prop} {s t : State} (h : RampEnds E s t) (o : Fin 13) (z : Zone) :
    (t.out o).grantedTo z = (s.out o).grantedTo z := by
  by_cases he : ∃ y, E y ∧ (s.out o).grantedTo y = true
  · rw [(h.outs o).1 he]; rfl
  · rw [(h.outs o).2 he]

theorem RampEnds.allSilent {E : Zone → Prop} {s t : State} (h : RampEnds E s t) (z : Zone) :
    t.allSilent z ↔ s.allSilent z := by
  have hmix : t.mix = s.mix := h.changes .mix (by decide)
  refine forall_congr' fun o => ?_
  rw [h.granted, State.gain, State.gain, hmix]

theorem RampEnds.trans {D E : Zone → Prop} {s t u : State} (h1 : RampEnds D s t) (h2 : RampEnds E t u) :
    RampEnds (fun z => D z ∨ E z) s u where
  zones := fun z => by
    obtain ⟨hd, hd'⟩ := h1.zones z
    obtain ⟨he, he'⟩ := h2.zones z
    refine ⟨fun h => ?_, fun h => ?_⟩
    · by_cases hD : D z
      · by_cases hE : E z
        · rw [he hE, hd hD]
        · rw [he' hE, hd hD]
      · rw [he (h.resolve_left hD), hd' hD]
    · rw [he' fun hE => h (.inr hE), hd' fun hD => h (.inl hD)]
  outputs := by rw [h2.outputs, h1.outputs]
  outs := fun o => by
    obtain ⟨hd, hd'⟩ := h1.outs o
    obtain ⟨he, he'⟩ := h2.outs o
    simp only [h1.granted] at he he'
    refine ⟨fun ⟨z, h, hg⟩ => ?_, fun h => ?_⟩
    · by_cases hD : ∃ y, D y ∧ (s.out o).grantedTo y = true
      · by_cases hE : ∃ y, E y ∧ (s.out o).grantedTo y = true
        · rw [he hE, hd hD]
        · rw [he' hE, hd hD]
      · rw [he ⟨z, h.resolve_left fun hz => hD ⟨z, hz, hg⟩, hg⟩, hd' hD]
    · rw [he' fun ⟨z, hz, hg⟩ => h ⟨z, .inr hz, hg⟩, hd' fun ⟨z, hz, hg⟩ => h ⟨z, .inl hz, hg⟩]
  changes := h1.changes.trans h2.changes

theorem RampEnds.congr {D E : Zone → Prop} {s t : State} (h : RampEnds D s t) (he : ∀ z, D z ↔ E z) : RampEnds E s t := by
  obtain rfl : D = E := funext fun z => propext (he z)
  exact h

theorem State.zoneSilent_iff (s : State) (z : Zone) : s.zoneSilent z = true ↔ s.allSilent z := by
  have hall : ∀ o, o ∈ allOutputs := by decide
  simp only [State.zoneSilent, State.grantedOutputs, List.all_eq_true, List.mem_filter, beq_iff_eq, State.allSilent]
  exact ⟨fun h o ho => h o ⟨hall o, ho⟩, fun h o ho => h o ho.2⟩

theorem State.openRelays_out (s : State) (z : Zone) (o : Fin 13) :
    (s.openRelays z).out o = if (s.out o).grantedTo z = true then { s.out o with relay := false } else s.out o := by
  have hfold (l : List (Fin 13)) (s : State) :
      (l.foldl (fun s o => if (s.out o).grantedTo z then s.setOut o { s.out o with relay := false } else s) s).out o =
        if o ∈ l ∧ (s.out o).grantedTo z = true then { s.out o with relay := false } else s.out o := by
    induction l generalizing s with
    | nil => simp
    | cons q l ih =>
      rw [List.foldl_cons, ih]
      by_cases hq : o = q
      · subst hq
        by_cases hg : (s.out o).grantedTo z = true
        · rw [if_pos hg, State.out_setOut_self, if_pos (c := o ∈ o :: l ∧ _) ⟨List.mem_cons_self, hg⟩]
          exact ite_id _
        · simp [hg]
      · have hout : (if (s.out q).grantedTo z = true then s.setOut q { s.out q with relay := false } else s).out o =
            s.out o := by
          split
          · exact s.out_setOut_ne _ hq
          · rfl
        simp only [hout, List.mem_cons, hq, false_or]
  rw [State.openRelays, hfold]
  simp only [mem_allOutputs, true_and]

theorem State.endSilentRamp_ends (s : State) (z : Zone) :
    RampEnds (fun y => y = z ∧ s.rampDone z) s (s.endSilentRamp z) := by
  unfold State.endSilentRamp
  by_cases h : (s.zone z).power = .quieting ∧ (s.zone z).quietStage = some .ramp ∧ s.zoneSilent z = true
  · have hdone : s.rampDone z := ⟨h.1, h.2.1, (s.zoneSilent_iff z).1 h.2.2⟩
    rw [if_pos h]
    obtain ⟨u, hu⟩ : ∃ u, u = s.setZone z { s.zone z with quietStage := some .relay, relayTimer := some 20 } := ⟨_, rfl⟩
    have hopen : onlyChanges [.outputs] u (u.openRelays z) := (State.openRelays_frame u z).1
    have hzone (y : Zone) : (u.openRelays z).zone y = u.zone y := by rw [State.zone, hopen .zones (by decide)]; rfl
    have hout (o : Fin 13) : u.out o = s.out o := by rw [hu]; rfl
    have houter : (u.openRelays z).outputs = { u.outputs with outs := (u.openRelays z).outputs.outs } :=
      (State.openRelays_quiet u z).outputs
    have hstart : s.startRelayStage z = u.openRelays z := by rw [hu]; rfl
    rw [hstart]
    refine ⟨fun y => ⟨fun hy => ?_, fun hy => ?_⟩, houter.trans (by rw [hu]; rfl), fun o => ⟨fun ⟨y, hy, hg⟩ => ?_, fun ho => ?_⟩, ?_⟩
    · rw [hzone, hu, hy.1, State.zone_setZone_self]
    · rw [hzone, hu, State.zone_setZone_ne _ _ fun e => hy ⟨e, hdone⟩]
    · rw [u.openRelays_out, hout, if_pos (hy.1 ▸ hg)]
    · rw [u.openRelays_out, hout, if_neg fun hg => ho ⟨z, ⟨rfl, hdone⟩, hg⟩]
    · exact ((hu ▸ (s.setZone_frame z _).1.mono (by decide) : onlyChanges [.zones, .outputs] s u)).trans
        (hopen.mono (by decide))
  · rw [if_neg h]
    exact .of_eq s fun y hy => h ⟨hy.2.1, hy.2.2.1, (s.zoneSilent_iff z).2 hy.2.2.2⟩

theorem State.endSilentRamps_ends (l : List Zone) (s : State) :
    RampEnds (fun y => y ∈ l ∧ s.rampDone y) s (l.foldl State.endSilentRamp s) := by
  induction l generalizing s with
  | nil => exact .of_eq s fun y h => nomatch h.1
  | cons z l ih =>
    have h1 := s.endSilentRamp_ends z
    refine (h1.trans (ih _)).congr fun y => ?_
    have hsilent := h1.allSilent y
    obtain ⟨hend, hstay⟩ := h1.zones y
    by_cases hy : y = z ∧ s.rampDone z
    · obtain ⟨rfl, hd⟩ := hy
      simp [hd]
    · have hdone : (s.endSilentRamp z).rampDone y ↔ s.rampDone y := by
        unfold State.rampDone
        rw [hstay hy, hsilent]
      rw [hdone, List.mem_cons]
      constructor
      · rintro (h | h)
        · exact absurd h hy
        · exact ⟨.inr h.1, h.2⟩
      · rintro ⟨rfl | hm, hd⟩
        · exact .inl ⟨rfl, hd⟩
        · exact .inr ⟨hm, hd⟩

theorem RampEnds.ports {E : Zone → Prop} {s t : State} (h : RampEnds E s t) : t.ports = s.ports :=
  h.changes .ports (by decide)

theorem RampEnds.settled {E : Zone → Prop} {s t : State} (h : RampEnds E s t) : Settled s t where
  decoder := h.changes .decoder (by decide)
  tuner := h.changes .tuner (by decide)
  inputs := h.changes .inputs (by decide)
  zones := fun z => by
    by_cases hz : E z
    · rw [(h.zones z).1 hz]; exact ⟨rfl, rfl, rfl⟩
    · rw [(h.zones z).2 hz]; exact ⟨rfl, rfl, rfl⟩
  grown := .of_ports_eq h.ports

/-- What the reports of the zones' entries into QUIETING make of the state `u` after the entries, the zones of `E`
going on into their relay stage. -/
structure QuietReport (E : Zone → Prop) (u t : State) : Prop where
  ends : ∀ z, E z → ({ u.zone z with quietStage := some .relay, relayTimer := some 20 } : ZoneRec).sameButStatus (t.zone z)
  stays : ∀ z, ¬ E z → (u.zone z).sameButStatus (t.zone z)
  outputs : t.outputs = { u.outputs with outs := t.outputs.outs }
  opens : ∀ o, (∃ z, E z ∧ (u.out o).grantedTo z = true) → t.out o = { u.out o with relay := false }
  keeps : ∀ o, (¬ ∃ z, E z ∧ (u.out o).grantedTo z = true) → t.out o = u.out o
  raises : Raises u t
  follows : ∀ {s}, Tracks s u → followsOn s t
  changes : onlyChanges [.zones, .outputs, .decoder, .tuner, .ports] u t

theorem State.reportQuieting_report (before u : State) :
    QuietReport (fun z => (before.zone z).power ≠ .quieting ∧ u.rampDone z) u (before.reportQuieting u) := by
  obtain ⟨v, hv⟩ : ∃ v, v = u.reportZones := ⟨_, rfl⟩
  have hframe : onlyChanges reportParts u v := hv ▸ u.reportZones_frame.1
  have hzone (y : Zone) : (u.zone y).sameButStatus (v.zone y) := hv ▸ u.reportZones_sameButStatus y
  have hraises : Raises u v := hv ▸ u.reportZones_raises
  have houts : v.outputs = u.outputs := hframe .outputs (by decide)
  have hout (o : Fin 13) : v.out o = u.out o := by rw [State.out, houts]; rfl
  have hdone (y : Zone) : v.rampDone y ↔ u.rampDone y := by
    have h := hzone y
    have hmix : v.mix = u.mix := hframe .mix (by decide)
    rw [ZoneRec.sameButStatus] at h
    simp only [State.rampDone, State.allSilent, hout, State.gain, hmix]
    rw [h]
  have hends : RampEnds (fun z => (before.zone z).power ≠ .quieting ∧ u.rampDone z) v (before.reportQuieting u) := by
    have hall (z : Zone) : z ∈ Zone.all := by cases z <;> decide
    rw [State.reportQuieting, ← hv]
    refine (State.endSilentRamps_ends _ v).congr fun z => ?_
    rw [hdone, List.mem_filter, bne_iff_ne]
    simp only [hall, true_and]
  refine ⟨fun z hz => ?_, fun z hz => ?_, ?_, fun o ho => ?_, fun o ho => ?_, ?_, fun h => ?_, ?_⟩
  · have h := hzone z
    rw [ZoneRec.sameButStatus] at h
    rw [(hends.zones z).1 hz, ZoneRec.sameButStatus, h]
  · rw [(hends.zones z).2 hz]; exact hzone z
  · rw [hends.outputs, houts]
  · rw [← hout]
    refine (hends.outs o).1 ?_
    rwa [hout]
  · rw [← hout]
    refine (hends.outs o).2 ?_
    rwa [hout]
  · exact hraises.trans (.of_ports_eq hends.ports)
  · exact (hv ▸ followsOn_reportZones h : followsOn _ v).then hends.settled
  · exact (hframe.mono (by decide)).trans (hends.changes.mono (by decide))

/-! ### One zone's entry into QUIETING (R7, R8) -/

theorem ZoneRec.quieted_silent {r : ZoneRec} {k : Option (Fin 8)} {c : Prop} [Decidable c] (h : c) :
    ({ r.quieted k False with quietStage := some .relay, relayTimer := some 20 } : ZoneRec) = r.quieted k c := by
  simp [ZoneRec.quieted, h]

theorem ZoneRec.quieted_sounding {r : ZoneRec} {k : Option (Fin 8)} {c : Prop} [Decidable c] (h : ¬ c) :
    r.quieted k False = r.quieted k c := by
  simp [ZoneRec.quieted, h]

theorem ZoneRec.sameButDerived.relay {r u : ZoneRec} (h : r.sameButDerived u) :
    ({ r with quietStage := some .relay, relayTimer := some 20 } : ZoneRec).sameButDerived
      { u with quietStage := some .relay, relayTimer := some 20 } := by
  rw [ZoneRec.sameButDerived] at *
  rw [h]

theorem ZoneRec.sameButDerived.power {r u : ZoneRec} (h : r.sameButDerived u) : u.power = r.power := by
  rw [ZoneRec.sameButDerived] at h
  rw [h]

theorem ZoneRec.sameButDerived.quietStage {r u : ZoneRec} (h : r.sameButDerived u) : u.quietStage = r.quietStage := by
  rw [ZoneRec.sameButDerived] at h
  rw [h]

theorem Edits.allSilent {z : Zone} {r : ZoneRec} {s t : State} (h : Edits z r s t) (y : Zone) :
    t.allSilent y ↔ s.allSilent y := by
  have hmix : t.mix = s.mix := h.changes .mix (by decide)
  simp only [State.allSilent, h.out, State.gain, hmix]

/-- What the entries and the reports of one zone leave, where the zone's record had become `r` in QUIETING and its ramp
stage before the reports. -/
structure QuietEntry (z : Zone) (r : ZoneRec) (s t : State) : Prop where
  self : (if s.allSilent z then { r with quietStage := some .relay, relayTimer := some 20 } else r).sameButDerived (t.zone z)
  others : ∀ y, y ≠ z → (s.zone y).sameButDerived (t.zone y)
  outputs : t.outputs = { s.outputs with outs := t.outputs.outs }
  outs : ∀ o, t.out o = if s.allSilent z ∧ (s.out o).grantedTo z = true then { s.out o with relay := false } else s.out o
  follows : followsOn s t
  noted : ∀ y, (t.zone y).noOutput = true → (s.zone y).noOutput = true ∨ noOutputReported t y
  changes : onlyChanges [.zones, .outputs, .decoder, .tuner, .slots, .ports] s t

theorem ZoneRec.sameButStatus.noOutput {r u : ZoneRec} (h : r.sameButStatus u) : u.noOutput = r.noOutput := by
  rw [ZoneRec.sameButStatus] at h
  rw [h]

theorem Edits.quietEntry {z : Zone} {r : ZoneRec} {s u : State} (h : Edits z r s u) (hp : (s.zone z).power ≠ .quieting)
    (hq : r.power = .quieting) (hr : r.quietStage = some .ramp) : QuietEntry z r s (s.reportQuieting u) := by
  have hreport := s.reportQuieting_report u
  have hdone (y : Zone) : ((s.zone y).power ≠ .quieting ∧ u.rampDone y) ↔ (y = z ∧ s.allSilent z) := by
    unfold State.rampDone
    rw [h.allSilent]
    by_cases hy : y = z
    · subst hy
      rw [h.self.power, h.self.quietStage]
      simp [hp, hq, hr]
    · rw [(h.others y hy).power]
      simp only [hy, false_and, iff_false]
      rintro ⟨h1, h2, -⟩
      exact h1 h2
  have houter : u.outputs = s.outputs := h.changes .outputs (by decide)
  refine ⟨?_, fun y hy => ?_, ?_, fun o => ?_, hreport.follows h.tracks, fun y hy => ?_, ?_⟩
  · split
    · next hs => exact h.self.relay.trans (hreport.ends z ((hdone z).2 ⟨rfl, hs⟩)).derived
    · next hs => exact h.self.trans (hreport.stays z fun he => hs ((hdone z).1 he).2).derived
  · exact (h.others y hy).trans (hreport.stays y fun he => hy ((hdone y).1 he).1).derived
  · rw [hreport.outputs, houter]
  · split
    · next hs =>
      rw [hreport.opens o ⟨z, (hdone z).2 ⟨rfl, hs.1⟩, by rw [h.out]; exact hs.2⟩, h.out]
    · next hs =>
      rw [hreport.keeps o, h.out]
      rintro ⟨y, hy, hg⟩
      obtain ⟨rfl, hsil⟩ := (hdone y).1 hy
      rw [h.out] at hg
      exact hs ⟨hsil, hg⟩
  · have hno : ((s.reportQuieting u).zone y).noOutput = (u.zone y).noOutput := by
      by_cases hy : (s.zone y).power ≠ .quieting ∧ u.rampDone y
      · exact (hreport.ends y hy).noOutput
      · exact (hreport.stays y hy).noOutput
    exact (h.noted y (hno ▸ hy)).imp_right (reported.mono · hreport.raises.2)
  · exact (h.changes.mono (by decide)).trans (hreport.changes.mono (by decide))

theorem State.enterQuieting_entry (s : State) (z : Zone) (k : Option (Fin 8)) (hp : (s.zone z).power ≠ .quieting) :
    QuietEntry z ((s.zone z).quieted k False) s (s.enterQuieting z k) ∧ zoneReported (s.enterQuieting z k) z := by
  obtain ⟨hedit, hzone, -⟩ := s.quietZone_edits z k
  exact ⟨hedit.quietEntry hp rfl rfl, reported.mono hzone (s.reportQuieting_report _).raises.2⟩

/-- The record that the entry leaves, by the outputs of the zone (R8). -/
theorem QuietEntry.quieted {z : Zone} {r : ZoneRec} {k : Option (Fin 8)} {s t : State}
    (h : QuietEntry z (r.quieted k False) s t) : (r.quieted k (s.allSilent z)).sameButDerived (t.zone z) := by
  have hself := h.self
  split at hself
  · next hs => rwa [ZoneRec.quieted_silent hs] at hself
  · next hs => rwa [ZoneRec.quieted_sounding hs] at hself

/-! ### Edits of every zone's record -/

/-- The record of every zone has been rewritten by `f`, the statuses and the no-output marks being kept up. -/
structure EditsAll (f : Zone → ZoneRec → ZoneRec) (s t : State) : Prop where
  zones : ∀ y, (f y (s.zone y)).sameButDerived (t.zone y)
  tracks : Tracks s t
  noted : ∀ y, (t.zone y).noOutput = true → (s.zone y).noOutput = true ∨ noOutputReported t y
  changes : onlyChanges [.zones, .slots, .ports] s t

theorem EditsAll.out {f : Zone → ZoneRec → ZoneRec} {s t : State} (h : EditsAll f s t) (o : Fin 13) : t.out o = s.out o := by
  rw [State.out, h.changes .outputs (by decide)]; rfl

theorem EditsAll.allSilent {f : Zone → ZoneRec → ZoneRec} {s t : State} (h : EditsAll f s t) (y : Zone) :
    t.allSilent y ↔ s.allSilent y := by
  have hmix : t.mix = s.mix := h.changes .mix (by decide)
  simp only [State.allSilent, h.out, State.gain, hmix]

/-- Edits of the three zones, one after another. -/
theorem EditsAll.fold {f : ZoneRec → ZoneRec} {act : State → Zone → State}
    (hf : ∀ r u : ZoneRec, r.sameButDerived u → (f r).sameButDerived (f u))
    (hact : ∀ s z, Edits z (f (s.zone z)) s (act s z)) (s : State) :
    EditsAll (fun _ => f) s ([Zone.main, .z2, .z3].foldl act s) := by
  have h1 := hact s .main
  have h2 := hact (act s .main) .z2
  have h3 := hact (act (act s .main) .z2) .z3
  refine ⟨fun y => ?_, (h1.tracks.trans h2.tracks).trans h3.tracks, fun y hy => ?_, (h1.changes.trans h2.changes).trans h3.changes⟩
  · cases y
    · exact (h1.self.trans (h2.others _ (by decide))).trans (h3.others _ (by decide))
    · exact ((hf _ _ (h1.others _ (by decide))).trans h2.self).trans (h3.others _ (by decide))
    · exact (hf _ _ ((h1.others _ (by decide)).trans (h2.others _ (by decide)))).trans h3.self
  · rcases h3.noted y hy with hy | hy
    · rcases h2.noted y hy with hy | hy
      · exact (h1.noted y hy).imp_right (reported.mono · (h2.tracks.grown.trans h3.tracks.grown))
      · exact .inr (reported.mono hy h3.tracks.grown)
    · exact .inr hy

/-- What is raised for a zone that is acted on stands after the other zones. -/
theorem reported_fold {C : ZoneRec → Prop} {act : State → Zone → State} {f : ZoneRec → ZoneRec}
    (hc : ∀ r u : ZoneRec, r.sameButDerived u → C r → C u) (hact : ∀ s z, Edits z (f (s.zone z)) s (act s z))
    (hr : ∀ s z, C (s.zone z) → zoneReported (act s z) z) (s : State) (y : Zone) (hy : C (s.zone y)) :
    zoneReported ([Zone.main, .z2, .z3].foldl act s) y := by
  have h1 := hact s .main
  have h2 := hact (act s .main) .z2
  have h3 := hact (act (act s .main) .z2) .z3
  cases y
  · exact reported.mono (hr _ _ hy) (h2.tracks.grown.trans h3.tracks.grown)
  · exact reported.mono (hr _ _ (hc _ _ (h1.others _ (by decide)) hy)) h3.tracks.grown
  · exact hr _ _ (hc _ _ ((h1.others _ (by decide)).trans (h2.others _ (by decide))) hy)

/-! ### Zone Standby in ON (R7, R8, R52) -/

theorem State.setSlot_settled (s : State) (k : Fin 8) (b : Slot) : Settled s (s.setSlot k b) :=
  ⟨rfl, rfl, rfl, fun _ => ⟨rfl, rfl, rfl⟩, .of_ports_eq rfl⟩

theorem State.setSlot_raises (s : State) (k : Fin 8) (b : Slot) : Raises s (s.setSlot k b) := .of_ports_eq rfl

/-- Settles O22. -/
theorem zoneStandbyQuiets : Obligations.ZoneStandbyQuiets := by
  intro p h zone z s k ht hz hon hk
  obtain ⟨u, hu⟩ : ∃ u, u = s.setSlot k (unlinkedSlot .zoneStandby (some (z.code.zeroExtend 16)) p h) := ⟨_, rfl⟩
  have hzones : u.zones = s.zones := by rw [hu]; rfl
  have hzone (y : Zone) : u.zone y = s.zone y := congrArg (·.get y) hzones
  have hsettled : Settled s u := hu ▸ s.setSlot_settled k _
  have hraises : Raises s u := hu ▸ s.setSlot_raises k _
  have hout (o : Fin 13) : u.out o = s.out o := by rw [hu]; rfl
  have hsilent : u.allSilent z ↔ s.allSilent z := by rw [hu]; exact Iff.rfl
  have hrun : runCmd (unlinked p h) (.zoneStandby zone) s = (Answer.acceptedIn k, u.enterQuieting z (some k)) := by
    simp only [runCmd, doZoneStandby]
    rw [withZone_some s _ hz, hu]
    simp only [hon, hk]
    rfl
  obtain ⟨hentry, hreported⟩ := u.enterQuieting_entry z (some k) (by rw [hzone, hon]; decide)
  obtain ⟨v, hv⟩ : ∃ v, v = u.enterQuieting z (some k) := ⟨_, rfl⟩
  rw [← hv] at hrun hentry hreported
  have hslots : v.slots = u.slots := hv ▸ (u.enterQuieting_slots z (some k)).1
  have hkept : portsKept s v := by
    have := doZoneStandby_kept (unlinked p h) zone s
    rw [show doZoneStandby (unlinked p h) zone s = _ from hrun] at this
    exact this
  have hclosed := v.closed_settled p h (.zoneStandby zone) (Answer.acceptedIn k)
  refine ⟨_, exec_takenAtOnce_kept rfl ht hkept hrun, ?_, ?_, fun j hj => ?_, ?_, fun y hy => ?_, ?_, ?_, fun o => ?_, ?_, ?_⟩
  · have h := hentry.quieted
    rw [hzone, ZoneRec.sameButDerived] at h
    refine h.trans ?_
    simp only [ZoneRec.quieted, hsilent]
    rfl
  · change v.slot k = _
    rw [State.slot, hslots, hu]
    exact s.slot_setSlot_self k _
  · change v.slot j = _
    rw [State.slot, hslots, hu]
    exact s.slot_setSlot_ne _ hj
  · exact reported.mono hreported hclosed.grown
  · have h := hentry.others y hy
    rwa [hzone] at h
  · exact followsOn.after hsettled (hentry.follows.then hclosed)
  · have h := hentry.outputs
    rw [hu] at h
    exact h
  · have h := hentry.outs o
    simp only [hsilent, hout] at h
    exact h
  · exact onlyReplied_closed (hraises.trans (hv ▸ (u.enterQuieting_slots z (some k)).2)).1
  · exact (((hu ▸ (s.setSlot_frame k _).1 : onlyChanges [.slots] s u).mono (by decide)).trans
      (hentry.changes.mono (by decide))).trans ((v.closed_onlyChanges p h _ _).mono (by decide))

end Sys2Proof.Machine

end

section
/-! PROOFS. The minute events, the ends of wakes and the thermal trip (R6 to R8, R11, R21, R50 to R52; O25, O23, O38). -/

open Sys2Proof Sys2Proof.Machine

namespace Sys2Proof.Machine

/-! ### Entries of several zones, and their reports -/

/-- What the entries and the reports leave of the zones, where `f` had rewritten every record before the reports and the
zones of `E` have gone on into their relay stage. -/
structure QuietAll (f : Zone → ZoneRec → ZoneRec) (E : Zone → Prop) (s t : State) : Prop where
  ends : ∀ z, E z →
    ({ f z (s.zone z) with quietStage := some .relay, relayTimer := some 20 } : ZoneRec).sameButDerived (t.zone z)
  stays : ∀ z, ¬ E z → (f z (s.zone z)).sameButDerived (t.zone z)
  outputs : t.outputs = { s.outputs with outs := t.outputs.outs }
  opens : ∀ o, (∃ z, E z ∧ (s.out o).grantedTo z = true) → t.out o = { s.out o with relay := false }
  keeps : ∀ o, (¬ ∃ z, E z ∧ (s.out o).grantedTo z = true) → t.out o = s.out o
  follows : followsOn s t
  noted : ∀ y, (t.zone y).noOutput = true → (s.zone y).noOutput = true ∨ noOutputReported t y
  changes : onlyChanges [.zones, .outputs, .decoder, .tuner, .slots, .ports] s t

/-- A zone enters QUIETING by a rewriting of its record, and its outputs are silent. -/
def State.quietsAtOnce (s : State) (f : Zone → ZoneRec → ZoneRec) (z : Zone) : Prop :=
  (s.zone z).power ≠ .quieting ∧ (f z (s.zone z)).power = .quieting ∧ s.allSilent z

theorem EditsAll.quietAll {f : Zone → ZoneRec → ZoneRec} {s u : State} (h : EditsAll f s u)
    (hr : ∀ z, (s.zone z).power ≠ .quieting → (f z (s.zone z)).power = .quieting →
      (f z (s.zone z)).quietStage = some .ramp) :
    QuietAll f (s.quietsAtOnce f) s (s.reportQuieting u) := by
  have hreport := s.reportQuieting_report u
  have hdone (z : Zone) : ((s.zone z).power ≠ .quieting ∧ u.rampDone z) ↔ s.quietsAtOnce f z := by
    unfold State.rampDone State.quietsAtOnce
    rw [h.allSilent, (h.zones z).power, (h.zones z).quietStage]
    exact and_congr_right fun hq => and_congr_right fun hp => by simp [hr z hq hp]
  have hgranted (o : Fin 13) : (∃ z, ((s.zone z).power ≠ .quieting ∧ u.rampDone z) ∧ (u.out o).grantedTo z = true) ↔
      ∃ z, s.quietsAtOnce f z ∧ (s.out o).grantedTo z = true :=
    exists_congr fun z => by rw [hdone, h.out]
  have houter : u.outputs = s.outputs := h.changes .outputs (by decide)
  refine ⟨fun z hz => ?_, fun z hz => ?_, ?_, fun o ho => ?_, fun o ho => ?_, hreport.follows h.tracks, fun y hy => ?_, ?_⟩
  · exact (h.zones z).relay.trans (hreport.ends z ((hdone z).2 hz)).derived
  · exact (h.zones z).trans (hreport.stays z fun he => hz ((hdone z).1 he)).derived
  · rw [hreport.outputs, houter]
  · rw [hreport.opens o ((hgranted o).2 ho), h.out]
  · rw [hreport.keeps o fun he => ho ((hgranted o).1 he), h.out]
  · have hno : ((s.reportQuieting u).zone y).noOutput = (u.zone y).noOutput := by
      by_cases hy : (s.zone y).power ≠ .quieting ∧ u.rampDone y
      · exact (hreport.ends y hy).noOutput
      · exact (hreport.stays y hy).noOutput
    exact (h.noted y (hno ▸ hy)).imp_right (reported.mono · hreport.raises.2)
  · exact (h.changes.mono (by decide)).trans (hreport.changes.mono (by decide))

/-- An edit of one zone, as an edit of every zone. -/
theorem Edits.all {z : Zone} {r : ZoneRec} {s t : State} (h : Edits z r s t) :
    EditsAll (fun y v => if y = z then r else v) s t where
  zones := fun y => by
    split
    · next e => rw [e]; exact h.self
    · next e => exact h.others y e
  tracks := h.tracks
  noted := h.noted
  changes := h.changes

/-- Slots that have not changed need not be listed. -/
theorem onlyChanges.but_slots {ps : List Part} {s t : State} (h : onlyChanges (.slots :: ps) s t) (hs : t.slots = s.slots) :
    onlyChanges ps s t := by
  intro q hq
  by_cases hslots : q = .slots
  · subst hslots; exact hs
  · exact h q (by simp [hq, hslots])

/-! ### Sleep timers (R21) -/

/-- The record of a zone whose sleep timer has reached 0, before the reports. -/
def ZoneRec.sleepEnded (r : ZoneRec) : ZoneRec :=
  match r.power, r.pendingPower with
  | .on, _ => r.quieted none False
  | .waking, none => { r with sleepTimer := 0, pendingPower := some .standby, pendingSlot := none }
  | _, _ => { r with sleepTimer := 0 }

theorem ZoneRec.sleepEnded_congr {r u : ZoneRec} (h : r.sameButDerived u) : r.sleepEnded.sameButDerived u.sleepEnded := by
  rw [ZoneRec.sameButDerived] at h
  rw [h, ZoneRec.sameButDerived]
  cases hp : r.power <;> cases hw : r.pendingPower <;> simp [ZoneRec.sleepEnded, hp, hw, ZoneRec.quieted]

theorem ZoneRec.sleepEnded_on {r : ZoneRec} (h : r.power = .on) : r.sleepEnded = r.quieted none False := by
  rw [ZoneRec.sleepEnded, h]

theorem ZoneRec.sleepEnded_waking {r : ZoneRec} (h : r.power = .waking) (hw : r.pendingPower = none) :
    r.sleepEnded = { r with sleepTimer := 0, pendingPower := some .standby, pendingSlot := none } := by
  rw [ZoneRec.sleepEnded, h, hw]

theorem ZoneRec.sleepEnded_else {r : ZoneRec} (h : r.power ≠ .on) (hw : ¬ (r.power = .waking ∧ r.pendingPower = none)) :
    r.sleepEnded = { r with sleepTimer := 0 } := by
  unfold ZoneRec.sleepEnded
  split
  · next e => exact absurd e h
  · next e1 e2 => exact absurd ⟨e1, e2⟩ hw
  · rfl

/-- A rewritten record with its event. -/
theorem State.rewrite_edits {s : State} {z : Zone} {r : ZoneRec} (hl : r.live = (s.zone z).live)
    (hst : r.status = (s.zone z).status) (hn : r.noOutput = (s.zone z).noOutput) :
    Edits z r s ((s.setZone z r).raiseZone z) := by
  have h := (s.setZone z r).raiseZone_edits z
  rw [State.zone_setZone_self] at h
  exact (State.setZone_edits hl hst hn).trans h

theorem State.expireSleep_eq (s : State) (z : Zone) {v : State}
    (hv : v = (s.setZone z { s.zone z with sleepTimer := 0 }).raiseZone z) : s.expireSleep z =
      if (s.zone z).power = .on then v.quietZone z none
      else if (s.zone z).power = .waking ∧ (s.zone z).pendingPower = none then v.setPending z .standby none else v := by
  subst hv
  unfold State.expireSleep
  split
  · next e => rw [if_pos e]
  · next e1 e2 => rw [if_neg (by rw [e1]; decide), if_pos ⟨e1, e2⟩]
  · next e1 e2 => rw [if_neg (fun e => e1 e), if_neg fun e => e2 e.1 e.2]

theorem State.expireSleep_edits (s : State) (z : Zone) :
    Edits z (s.zone z).sleepEnded s (s.expireSleep z) ∧ zoneReported (s.expireSleep z) z := by
  obtain ⟨v, hv⟩ : ∃ v, v = (s.setZone z { s.zone z with sleepTimer := 0 }).raiseZone z := ⟨_, rfl⟩
  have hzero : Edits z { s.zone z with sleepTimer := 0 } s v := hv ▸ State.rewrite_edits rfl rfl rfl
  have hreported : zoneReported v z := hv ▸ State.raiseZone_reported _ z
  have hzone : v.zone z = { s.zone z with sleepTimer := 0 } := by
    rw [hv, State.zone_raiseZone, State.zone_setZone_self]
  rw [s.expireSleep_eq z hv]
  split
  · next hon =>
    obtain ⟨hquiet, hrep, -⟩ := v.quietZone_edits z none
    rw [ZoneRec.sleepEnded_on hon]
    rw [hzone] at hquiet
    exact ⟨hzero.trans hquiet, hrep⟩
  · next hon =>
    split
    · next hw =>
      have hpending : Edits z { v.zone z with pendingPower := some .standby, pendingSlot := none } v
        (v.setPending z .standby none) := State.rewrite_edits rfl rfl rfl
      rw [ZoneRec.sleepEnded_waking hw.1 hw.2]
      rw [hzone] at hpending
      exact ⟨hzero.trans hpending, reported.mono hreported hpending.tracks.grown⟩
    · next hw =>
      rw [ZoneRec.sleepEnded_else hon hw]
      exact ⟨hzero, hreported⟩

/-- The record of a zone after a minute event, before the reports (R21). -/
def ZoneRec.minutePassed (r : ZoneRec) : ZoneRec :=
  if r.sleepTimer = 1 then r.sleepEnded else { r with sleepTimer := r.sleepTimer - 1 }

theorem ZoneRec.minutePassed_congr {r u : ZoneRec} (h : r.sameButDerived u) :
    r.minutePassed.sameButDerived u.minutePassed := by
  have hsleep : u.sleepTimer = r.sleepTimer := by
    rw [ZoneRec.sameButDerived] at h
    rw [h]
  unfold ZoneRec.minutePassed
  rw [hsleep]
  split
  · exact ZoneRec.sleepEnded_congr h
  · rw [ZoneRec.sameButDerived] at *
    rw [h]

theorem State.minuteOfZone_edits (s : State) (z : Zone) : Edits z (s.zone z).minutePassed s (s.minuteOfZone z) ∧
    ((s.zone z).sleepTimer = 1 → zoneReported (s.minuteOfZone z) z) := by
  unfold State.minuteOfZone ZoneRec.minutePassed
  cases hn : (s.zone z).sleepTimer with
  | zero =>
    have hsame : ({ s.zone z with sleepTimer := 0 } : ZoneRec) = s.zone z := by rw [← hn]
    refine ⟨⟨?_, fun y _ => .refl _, .refl s, fun y hy => .inl hy, (Frame.refl _ s).1⟩, fun h => absurd h (by decide)⟩
    rw [if_neg (by decide)]
    exact (congrArg (·.sameButDerived (s.zone z)) hsame).mpr (.refl _)
  | succ n =>
    cases n with
    | zero => exact ⟨(s.expireSleep_edits z).1, fun _ => (s.expireSleep_edits z).2⟩
    | succ n =>
      rw [if_neg (by omega)]
      exact ⟨State.setZone_edits rfl rfl rfl, fun h => absurd h (by omega)⟩

/-! What expires raises events alone. -/

theorem State.expireSleep_raises (s : State) (z : Zone) :
    Raises s (s.expireSleep z) ∧ (s.expireSleep z).slots = s.slots := by
  obtain ⟨v, hv⟩ : ∃ v, v = (s.setZone z { s.zone z with sleepTimer := 0 }).raiseZone z := ⟨_, rfl⟩
  have hraises : Raises s v := hv ▸ (s.setZone_raises z _).trans (State.raiseZone_raises _ z)
  have hslots : v.slots = s.slots := hv ▸ ((s.setZone_frame z _).comp (State.raiseZone_frame _ z)).1 .slots (by decide)
  rw [s.expireSleep_eq z hv]
  split
  · exact ⟨hraises.trans (v.quietZone_raises z none), ((v.quietZone_frame z none).1 .slots (by decide)).trans hslots⟩
  · split
    · exact ⟨hraises.trans ((v.setZone_raises z _).trans (State.raiseZone_raises _ z)),
        ((v.setPending_frame z .standby none).1 .slots (by decide)).trans hslots⟩
    · exact ⟨hraises, hslots⟩

theorem State.minuteOfZone_raises (s : State) (z : Zone) :
    Raises s (s.minuteOfZone z) ∧ (s.minuteOfZone z).slots = s.slots := by
  unfold State.minuteOfZone
  split
  · exact ⟨.refl s, rfl⟩
  · exact s.expireSleep_raises z
  · exact ⟨s.setZone_raises z _, rfl⟩

/-! ### The record that an expiry leaves -/

theorem ZoneRec.sleepEnded_quiets {r : ZoneRec} (h : r.power ≠ .quieting) :
    (r.sleepEnded.power = .quieting ↔ r.power = .on) ∧ (r.power = .on → r.sleepEnded.quietStage = some .ramp) := by
  by_cases hon : r.power = .on
  · rw [ZoneRec.sleepEnded_on hon]; exact ⟨⟨fun _ => hon, fun _ => rfl⟩, fun _ => rfl⟩
  · have hpower : r.sleepEnded.power = r.power := by
      by_cases hw : r.power = .waking ∧ r.pendingPower = none
      · rw [ZoneRec.sleepEnded_waking hw.1 hw.2]
      · rw [ZoneRec.sleepEnded_else hon hw]
    rw [hpower]
    exact ⟨⟨fun e => absurd e h, fun e => absurd e hon⟩, fun e => absurd e hon⟩

theorem ZoneRec.minutePassed_quiets {r : ZoneRec} (h : r.power ≠ .quieting) :
    (r.minutePassed.power = .quieting ↔ r.sleepTimer = 1 ∧ r.power = .on) ∧
    (r.minutePassed.power = .quieting → r.minutePassed.quietStage = some .ramp) := by
  unfold ZoneRec.minutePassed
  obtain ⟨hquiet, hstage⟩ := ZoneRec.sleepEnded_quiets h
  split
  · next hn => exact ⟨hquiet.trans ⟨fun e => ⟨hn, e⟩, fun e => e.2⟩, fun e => hstage (hquiet.1 e)⟩
  · next hn => exact ⟨⟨fun e => absurd e h, fun e => absurd e.1 hn⟩, fun e => absurd e h⟩

/-- The zone's record after its sleep timer has reached 0 and the reports (R21). -/
def ZoneRec.slept (r : ZoneRec) (silent : Prop) [Decidable silent] : ZoneRec :=
  if r.power = .on then r.quieted none silent
  else if r.power = .waking ∧ r.pendingPower = none then
    { r with sleepTimer := 0, pendingPower := some .standby, pendingSlot := none }
  else { r with sleepTimer := 0 }

theorem ZoneRec.slept_of_ends {r u : ZoneRec} {c : Prop} [Decidable c]
    (h1 : r.power = .on → c → ({ r.sleepEnded with quietStage := some .relay, relayTimer := some 20 } : ZoneRec).sameButDerived u)
    (h2 : ¬ (r.power = .on ∧ c) → r.sleepEnded.sameButDerived u) : (r.slept c).sameButDerived u := by
  unfold ZoneRec.slept
  split
  · next hon =>
    rw [ZoneRec.sleepEnded_on hon] at h1 h2
    by_cases hc : c
    · have h := h1 hon hc
      rwa [ZoneRec.quieted_silent hc] at h
    · have h := h2 fun h => hc h.2
      rwa [ZoneRec.quieted_sounding hc] at h
  · next hon =>
    have h := h2 fun h => hon h.1
    split
    · next hw => rwa [ZoneRec.sleepEnded_waking hw.1 hw.2] at h
    · next hw => rwa [ZoneRec.sleepEnded_else hon hw] at h

/-! ### MINUTE_EVENT and SLEEP_TIMER_EXPIRY (R21) -/

/-- The minute divider starts its next minute. -/
def State.nextMinute (s : State) : State := { s with minute := { ms := 0, count := min (s.minute.count + 1) 65535 } }

/-- The zones after a minute event, before the reports. -/
def State.minutesPassed (s : State) : State := [Zone.main, .z2, .z3].foldl State.minuteOfZone s.nextMinute

theorem State.minuteEvent_eq (s : State) : s.minuteEvent = s.nextMinute.reportQuieting s.minutesPassed := rfl

theorem State.minutesPassed_edits (s : State) :
    EditsAll (fun _ => ZoneRec.minutePassed) s.nextMinute s.minutesPassed :=
  .fold (fun _ _ => ZoneRec.minutePassed_congr) (fun u z => (u.minuteOfZone_edits z).1) s.nextMinute

theorem State.minutesPassed_reported (s : State) (z : Zone) (h : (s.zone z).sleepTimer = 1) :
    zoneReported s.minutesPassed z := by
  refine reported_fold (C := fun r => r.sleepTimer = 1) (fun r u hru hr => ?_) (fun u z => (u.minuteOfZone_edits z).1)
    (fun u z => (u.minuteOfZone_edits z).2) s.nextMinute z h
  rw [ZoneRec.sameButDerived] at hru
  rw [hru]; exact hr

theorem State.minutesPassed_raises (s : State) : Raises s s.minutesPassed ∧ s.minutesPassed.slots = s.slots := by
  obtain ⟨h1, e1⟩ := s.nextMinute.minuteOfZone_raises .main
  obtain ⟨h2, e2⟩ := (s.nextMinute.minuteOfZone .main).minuteOfZone_raises .z2
  obtain ⟨h3, e3⟩ := ((s.nextMinute.minuteOfZone .main).minuteOfZone .z2).minuteOfZone_raises .z3
  exact ⟨(((Raises.of_ports_eq rfl : Raises s s.nextMinute).trans h1).trans h2).trans h3, ((e3.trans e2).trans e1).trans rfl⟩

theorem State.nextMinute_settled (s : State) : Settled s s.nextMinute :=
  ⟨rfl, rfl, rfl, fun _ => ⟨rfl, rfl, rfl⟩, .of_ports_eq rfl⟩

theorem State.nextMinute_changes (s : State) : onlyChanges [.minute] s s.nextMinute := by
  intro q hq; cases q <;> first | exact absurd (by decide) hq | rfl

/-- What a minute event leaves. -/
theorem State.minuteEvent_quietAll (s : State) : QuietAll (fun _ => ZoneRec.minutePassed)
    (fun z => (s.zone z).sleepTimer = 1 ∧ (s.zone z).power = .on ∧ s.allSilent z) s.nextMinute s.minuteEvent := by
  have hquiet : s.nextMinute.quietsAtOnce (fun _ => ZoneRec.minutePassed) =
      fun z => (s.zone z).sleepTimer = 1 ∧ (s.zone z).power = .on ∧ s.allSilent z := by
    funext z
    refine propext ⟨fun ⟨h1, h2, h3⟩ => ?_, fun ⟨h1, h2, h3⟩ => ?_⟩
    · obtain ⟨hn, hp⟩ := (ZoneRec.minutePassed_quiets h1).1.1 h2
      exact ⟨hn, hp, h3⟩
    · have hne : (s.zone z).power ≠ .quieting := by rw [h2]; decide
      exact ⟨hne, (ZoneRec.minutePassed_quiets hne).1.2 ⟨h1, h2⟩, h3⟩
  have h := s.minutesPassed_edits.quietAll fun z hp => (ZoneRec.minutePassed_quiets hp).2
  rwa [hquiet] at h

theorem State.minuteEvent_taken (s : State) : s.minuteEvent.minute = s.nextMinute.minute ∧ Raises s s.minuteEvent ∧
    s.minuteEvent.slots = s.slots := by
  obtain ⟨hraises, hslots⟩ := s.minutesPassed_raises
  obtain ⟨e, hr⟩ := State.reportQuieting_slots s.nextMinute s.minutesPassed
  exact ⟨s.minuteEvent_quietAll.changes .minute (by decide), hraises.trans hr, e.trans hslots⟩

theorem State.sleepExpiry_eq {s : State} {z : Zone} (h : (s.zone z).sleepTimer ≠ 0) :
    s.sleepExpiry z = s.reportQuieting (s.expireSleep z) := if_neg h

/-- What the expiry of one sleep timer leaves. -/
theorem State.sleepExpiry_quietAll {s : State} {z : Zone} (h : (s.zone z).sleepTimer ≠ 0) :
    QuietAll (fun y v => if y = z then (s.zone z).sleepEnded else v)
      (fun y => y = z ∧ (s.zone z).power = .on ∧ s.allSilent z) s (s.sleepExpiry z) := by
  have hedits := (s.expireSleep_edits z).1.all
  have hquiet : s.quietsAtOnce (fun y v => if y = z then (s.zone z).sleepEnded else v) =
      fun y => y = z ∧ (s.zone z).power = .on ∧ s.allSilent z := by
    funext y
    unfold State.quietsAtOnce
    beta_reduce
    by_cases hy : y = z
    · subst hy
      rw [if_pos rfl]
      refine propext ⟨fun ⟨h1, h2, h3⟩ => ⟨rfl, (ZoneRec.sleepEnded_quiets h1).1.1 h2, h3⟩, fun ⟨_, h2, h3⟩ => ?_⟩
      have hne : (s.zone y).power ≠ .quieting := by rw [h2]; decide
      exact ⟨hne, (ZoneRec.sleepEnded_quiets hne).1.2 h2, h3⟩
    · rw [if_neg hy]
      exact propext ⟨fun ⟨h1, h2, _⟩ => absurd h2 h1, fun h => absurd h.1 hy⟩
  have hall := hedits.quietAll fun y hp hq => ?_
  · rw [hquiet] at hall
    rwa [State.sleepExpiry_eq h]
  · by_cases hy : y = z
    · subst hy
      rw [if_pos rfl] at *
      exact (ZoneRec.sleepEnded_quiets hp).2 ((ZoneRec.sleepEnded_quiets hp).1.1 hq)
    · rw [if_neg hy] at hq
      exact absurd hq hp

/-- Settles O25. -/
theorem minuteEventsCountDown : Obligations.MinuteEventsCountDown := by
  intro s expired opens
  refine ⟨?_, fun z => ⟨fun h => ?_, fun h => ?_⟩⟩
  · have hquiet := s.minuteEvent_quietAll
    obtain ⟨hminute, hraises, hslots⟩ := s.minuteEvent_taken
    have hreported (z : Zone) (h : (s.zone z).sleepTimer = 1) : zoneReported s.minuteEvent z :=
      reported.mono (s.minutesPassed_reported z h) (State.reportQuieting_slots s.nextMinute s.minutesPassed).2.2
    refine ⟨s.minuteEvent, rfl, hminute, fun z hz => ?_, fun z hz => ⟨?_, hreported z hz⟩, hquiet.outputs, fun o => ⟨?_, ?_⟩,
      followsOn.after s.nextMinute_settled hquiet.follows, hraises.1, ?_⟩
    · have h := hquiet.stays z fun h => hz h.1
      rwa [show ZoneRec.minutePassed (s.nextMinute.zone z) = _ from if_neg hz] at h
    · have hends := hquiet.ends z
      have hstays := hquiet.stays z
      rw [show ZoneRec.minutePassed (s.nextMinute.zone z) = (s.zone z).sleepEnded from if_pos hz] at hends hstays
      exact ZoneRec.slept_of_ends (fun h1 h2 => hends ⟨hz, h1, h2⟩) fun h => hstays fun h' => h h'.2
    · rintro ⟨z, hn, hp, hs, hg⟩
      exact hquiet.opens o ⟨z, ⟨hn, hp, hs⟩, hg⟩
    · intro ho
      exact hquiet.keeps o fun ⟨z, ⟨hn, hp, hs⟩, hg⟩ => ho ⟨z, hn, hp, hs, hg⟩
    · refine onlyChanges.but_slots ?_ hslots
      exact (s.nextMinute_changes.mono (by decide)).trans (hquiet.changes.mono (by decide))
  · exact congrArg Host.Outcome.next (if_pos h)
  · have hquiet := State.sleepExpiry_quietAll h
    obtain ⟨hedits, hreported⟩ := s.expireSleep_edits z
    obtain ⟨hraises, hslots⟩ := s.expireSleep_raises z
    obtain ⟨hslots', hraises'⟩ := s.reportQuieting_slots (s.expireSleep z)
    rw [← State.sleepExpiry_eq h] at hslots' hraises'
    refine ⟨s.sleepExpiry z, rfl, ?_, reported.mono hreported hraises'.2, fun y hy => ?_, hquiet.outputs,
      fun o => ⟨fun ⟨hp, hs, hg⟩ => hquiet.opens o ⟨z, ⟨rfl, hp, hs⟩, hg⟩, fun ho => hquiet.keeps o ?_⟩,
      hquiet.follows, (hraises.trans hraises').1, ?_⟩
    · have hends := hquiet.ends z
      have hstays := hquiet.stays z
      rw [if_pos rfl] at hends hstays
      exact ZoneRec.slept_of_ends (fun h1 h2 => hends ⟨rfl, h1, h2⟩) fun h => hstays fun h' => h h'.2
    · have hstays := hquiet.stays y fun h => hy h.1
      rwa [if_neg hy] at hstays
    · rintro ⟨y, ⟨rfl, hp, hs⟩, hg⟩
      exact ho ⟨hp, hs, hg⟩
    · exact onlyChanges.but_slots (hquiet.changes.mono (by decide)) (hslots'.trans hslots)

end Sys2Proof.Machine

end

section
/-! PROOFS. Ends of operations among raisings of events, the ends of wakes and the thermal trip (R6 to R8, R11, R194;
O23, O38). -/

open Sys2Proof Sys2Proof.Machine

namespace Sys2Proof.Machine

/-! ### Ends of operations among raisings (R194) -/

/-- The slots are the same and the ports have met nothing but raisings. -/
def Meets (v t : State) : Prop := t.slots = v.slots ∧ portsRaised v t

theorem PortRec.raisedFrom.refl (r : PortRec) : r.raisedFrom r := ⟨rfl, rfl, rfl, rfl, fun _ => id⟩

theorem Meets.refl (s : State) : Meets s s := ⟨rfl, fun _ => .refl _⟩

theorem Meets.trans {s t u : State} (h1 : Meets s t) (h2 : Meets t u) : Meets s u :=
  ⟨h2.1.trans h1.1, h1.2.trans h2.2⟩

theorem Raises.meets {s t : State} (h : Raises s t) (hs : t.slots = s.slots) : Meets s t := ⟨hs, h.1⟩

theorem Meets.slot {v t : State} (h : Meets v t) (k : Fin 8) : t.slot k = v.slot k := by
  rw [State.slot, h.1]; rfl

theorem Meets.port {v t : State} (h : Meets v t) (q : Port) : ∃ e, t.port q = { v.port q with events := e } :=
  ⟨_, (h.2 q).1⟩

theorem Meets.setSlot {v t : State} (h : Meets v t) (k : Fin 8) (b : Slot) : Meets (v.setSlot k b) (t.setSlot k b) :=
  ⟨by rw [State.setSlot, State.setSlot, h.1], h.2⟩

theorem Meets.setPort {v t : State} (h : Meets v t) (p : Port) {r u : PortRec} (hr : r.raisedFrom u) :
    Meets (v.setPort p r) (t.setPort p u) := by
  refine ⟨h.1, fun q => ?_⟩
  by_cases hq : q = p
  · subst hq; rwa [State.port_setPort_self, State.port_setPort_self]
  · rw [State.port_setPort_ne _ _ hq, State.port_setPort_ne _ _ hq]; exact h.2 q

/-- An edit of a port's record that does not look at the events keeps the raisings. -/
theorem PortRec.raisedFrom.edit {r u : PortRec} {f : PortRec → PortRec} (h : r.raisedFrom u)
    (hf : ∀ (r : PortRec) e, f { r with events := e } = { f r with events := e }) (he : ∀ r, (f r).events = r.events) :
    (f r).raisedFrom (f u) := by
  obtain ⟨h1, h2, h3, h4, h5⟩ := h
  refine ⟨?_, ?_, ?_, ?_, ?_⟩
  · rw [he u]
    exact (congrArg f h1).trans (hf r u.events)
  all_goals simpa only [he]

theorem Meets.endSlotChains {v t : State} (h : Meets v t) (p : Port) : Meets (v.endSlotChains p) (t.endSlotChains p) := by
  rw [State.endSlotChains_eq, State.endSlotChains_eq]
  generalize allSlots = l
  induction l generalizing v t with
  | nil => exact h
  | cons k l ih =>
    refine ih ?_
    beta_reduce
    rw [h.slot k]
    exact h.setSlot k _

theorem Meets.endChain {v t : State} (h : Meets v t) (p : Port) : Meets (v.endChain p) (t.endChain p) :=
  Meets.endSlotChains (h.setPort p (PortRec.raisedFrom.edit
    (f := fun r => { r with
      chain := .none, hold := none, completions := r.completions.map (fun c => { c with heldBack := false }) })
    (h.2 p) (fun _ _ => rfl) fun _ => rfl)) p

theorem Meets.offered {v t : State} (h : Meets v t) (k : Fin 8) (b : SlotBody) (st : Status) (r : List Byte) :
    Meets (v.offered k b st r) (t.offered k b st r) := by
  obtain ⟨e, he⟩ := h.port b.port
  have horder : t.nextOrder b.port = v.nextOrder b.port := by rw [State.nextOrder, h.1]; rfl
  have hleft : t.slotLeft k b st r = v.slotLeft k b st r := by rw [State.slotLeft, he, horder]; rfl
  have hqueue : t.queueAfter k b st r = v.queueAfter k b st r := by rw [State.queueAfter, he]; rfl
  unfold State.offered
  rw [hleft, hqueue]
  exact (h.setSlot k _).setPort b.port (PortRec.raisedFrom.edit (f := fun u => { u with completions := v.queueAfter k b st r })
    (h.2 b.port) (fun _ _ => rfl) fun _ => rfl)

theorem Meets.endHold {v t : State} (h : Meets v t) (p : Port) (k : Fin 8) (st : Status) :
    Meets (v.endHold p k st) (t.endHold p k st) := by
  obtain ⟨e, he⟩ := h.port p
  by_cases hc : (v.port p).chain = .holding ∧ ∃ link, (v.port p).hold = some ⟨k, link⟩
  · obtain ⟨hc, link, hh⟩ := hc
    have hc' : (t.port p).chain = .holding := by rw [he]; exact hc
    have hh' : (t.port p).hold = some ⟨k, link⟩ := by rw [he]; exact hh
    cases link with
    | true =>
      rw [State.endHold_linked st hc hh, State.endHold_linked st hc' hh']
      exact h.setPort p (PortRec.raisedFrom.edit
        (f := fun u => { u with chain := if st = .done then .open else .broken, hold := none }) (h.2 p) (fun _ _ => rfl)
        fun _ => rfl)
    | false =>
      rw [State.endHold_last st hc hh, State.endHold_last st hc' hh']
      exact h.endChain p
  · rw [State.endHold_of_not_holding st hc, State.endHold_of_not_holding st (by rw [he]; exact hc)]
    exact h

/-- The end of an operation does not look at the events. -/
theorem Meets.complete {v t : State} (h : Meets v t) (k : Fin 8) (st : Status) (r : List Byte) :
    Meets (v.complete k st r) (t.complete k st r) := by
  cases hk : v.slot k with
  | none => rw [State.complete_none hk, State.complete_none ((h.slot k).trans hk)]; exact h
  | some b =>
    rw [State.complete_eq hk, State.complete_eq ((h.slot k).trans hk)]
    exact (h.offered k b st r).endHold b.port k st

theorem Meets.completeOpt {v t : State} (h : Meets v t) (k : Option (Fin 8)) (st : Status) (r : List Byte) :
    Meets (v.completeOpt k st r) (t.completeOpt k st r) := by
  cases k with
  | none => exact h
  | some k => exact h.complete k st r

/-- An operation ended, whatever was raised before and after. -/
theorem slotEnded_of_meets {s t : State} {k : Option (Fin 8)} {st : Status} {r : List Byte}
    (h : Meets (s.completeOpt k st r) t) : slotEnded s t k st r := by
  refine ⟨h.1, h.2, fun hk => ?_, fun j b hk hb => ?_⟩
  · subst hk; exact h.1
  · subst hk
    refine slotPosted_of_complete hb h.1 fun q => ?_
    obtain ⟨e, he⟩ := h.port q
    rw [he]; rfl

/-- Operations ended one after another. -/
def State.cancelAll (s : State) (ks : List (Fin 8)) : State := ks.foldl (fun u k => u.complete k .cancelled []) s

theorem State.cancelAll_append (s : State) (ks ls : List (Fin 8)) :
    s.cancelAll (ks ++ ls) = (s.cancelAll ks).cancelAll ls := List.foldl_append

theorem State.cancelAll_toList (s : State) (k : Option (Fin 8)) : s.cancelAll k.toList = s.completeOpt k .cancelled [] := by
  cases k <;> rfl

theorem Meets.cancelAll {v t : State} (h : Meets v t) (ks : List (Fin 8)) : Meets (v.cancelAll ks) (t.cancelAll ks) := by
  induction ks generalizing v t with
  | nil => exact h
  | cons k ks ih => exact ih (h.complete k .cancelled [])

/-- What each of several operations that end without obstacle leaves (R194). -/
theorem State.cancelAll_posts (ks : List (Fin 8)) (s : State) (hn : ks.Nodup)
    (hr : ∀ q, (s.port q).chain ≠ .holding ∧ (s.port q).completions.length +
      (ks.filterMap fun k => (s.slot k).bind fun b =>
        if b.port = q then some (slotRecord k b .cancelled []) else none).length ≤ 8) :
    (∀ k, (s.cancelAll ks).slot k = if k ∈ ks then none else s.slot k) ∧
    (∀ q, ((s.cancelAll ks).port q).completions = (s.port q).completions ++
      ks.filterMap fun k => (s.slot k).bind fun b =>
        if b.port = q then some (slotRecord k b .cancelled []) else none) := by
  induction ks generalizing s with
  | nil => exact ⟨fun k => by simp [State.cancelAll], fun q => by simp [State.cancelAll]⟩
  | cons j ks ih =>
    obtain ⟨hj, hn⟩ := List.nodup_cons.1 hn
    obtain ⟨t, ht⟩ : ∃ t, t = s.complete j .cancelled [] := ⟨_, rfl⟩
    have hstep : s.cancelAll (j :: ks) = t.cancelAll ks := by rw [ht]; rfl
    have hrec (q : Port) : ∃ l : List Completion, l = (ks.filterMap fun k => (s.slot k).bind fun b =>
        if b.port = q then some (slotRecord k b .cancelled []) else none) := ⟨_, rfl⟩
    have hsame (hs : ∀ k, k ≠ j → t.slot k = s.slot k) (q : Port) : (ks.filterMap fun k => (t.slot k).bind fun b =>
        if b.port = q then some (slotRecord k b .cancelled []) else none) =
        (ks.filterMap fun k => (s.slot k).bind fun b =>
          if b.port = q then some (slotRecord k b .cancelled []) else none) :=
      List.filterMap_congr fun k hk => by rw [hs k fun e => hj (e ▸ hk)]
    cases hb : s.slot j with
    | none =>
      have hts : t = s := ht.trans (State.complete_none hb _ _)
      subst hts
      have hh := ih t hn fun q => by
        have := hr q
        rwa [List.filterMap_cons_none (by rw [hb]; rfl)] at this
      rw [hstep]
      refine ⟨fun k => ?_, fun q => ?_⟩
      · rw [hh.1 k]
        by_cases hk : k = j
        · subst hk; simp [hj, hb]
        · simp [hk]
      · rw [hh.2 q, List.filterMap_cons_none (by rw [hb]; rfl)]
    | some b =>
      have hroom : (s.port b.port).completions.length < 8 := by
        have := (hr b.port).2
        rw [List.filterMap_cons_some (b := slotRecord j b .cancelled []) (by rw [hb]; simp)] at this
        simp only [List.length_cons] at this
        omega
      have hpost : t = _ := ht.trans (State.complete_posts ⟨hb, hroom, (hr b.port).1⟩ .cancelled [])
      have hslot (k : Fin 8) (hk : k ≠ j) : t.slot k = s.slot k := by
        rw [hpost, State.slot_setSlot_ne _ _ hk]; rfl
      have hslotj : t.slot j = none := by rw [hpost, State.slot_setSlot_self]
      have hport : (t.port b.port).completions = (s.port b.port).completions ++ [slotRecord j b .cancelled []] ∧
          (t.port b.port).chain = (s.port b.port).chain := by
        rw [hpost]
        change ((s.setPort b.port _).port b.port).completions = _ ∧ ((s.setPort b.port _).port b.port).chain = _
        rw [State.port_setPort_self]
        exact ⟨rfl, rfl⟩
      have hports (q : Port) (hq : q ≠ b.port) : t.port q = s.port q := by
        rw [hpost]
        exact State.port_setPort_ne _ _ hq
      have hh := ih t hn fun q => by
        have := hr q
        rw [hsame hslot q]
        by_cases hq : q = b.port
        · subst hq
          rw [List.filterMap_cons_some (b := slotRecord j b .cancelled []) (by rw [hb]; simp)] at this
          rw [hport.1, hport.2]
          simp only [List.length_append, List.length_cons, List.length_nil] at this ⊢
          exact ⟨this.1, by omega⟩
        · rw [List.filterMap_cons_none (by rw [hb]; simp [Ne.symm hq])] at this
          rw [hports q hq]
          exact this
      rw [hstep]
      refine ⟨fun k => ?_, fun q => ?_⟩
      · rw [hh.1 k]
        by_cases hk : k = j
        · subst hk; simp [hslotj]
        · simp [hk, hslot k hk]
      · rw [hh.2 q, hsame hslot q]
        by_cases hq : q = b.port
        · subst hq
          rw [hport.1, List.filterMap_cons_some (b := slotRecord j b .cancelled []) (by rw [hb]; simp)]
          simp
        · rw [hports q hq, List.filterMap_cons_none (by rw [hb]; simp [Ne.symm hq])]

theorem slotsCancelled_of_meets {s t : State} {ks : List (Fin 8)} (h : Meets (s.cancelAll ks) t) : slotsCancelled s t ks := by
  refine ⟨h.1, h.2, fun hn hr => ?_⟩
  obtain ⟨hslot, hport⟩ := s.cancelAll_posts ks hn hr
  refine ⟨fun k => (h.slot k).trans (hslot k), fun q => ?_⟩
  obtain ⟨e, he⟩ := h.port q
  rw [he]
  exact hport q

/-! ### The thermal trip (R7, R8, R11) -/

/-- The record of a zone that a trip has acted on, before the reports. -/
def ZoneRec.tripped (r : ZoneRec) : ZoneRec :=
  match r.power with
  | .standby => r
  | .waking => r.withoutPending.quieted none False
  | .on => r.quieted none False
  | .quieting => r.withoutPending

/-- The slots that a trip cancels of one zone. -/
def ZoneRec.tripCancels (r : ZoneRec) : List (Fin 8) :=
  (if (r.power = .waking ∨ r.power = .quieting) ∧ r.pendingPower ≠ none then r.pendingSlot.toList else []) ++
    (if r.power = .waking then r.opSlot.toList else [])

theorem ZoneRec.withoutPending_congr {r u : ZoneRec} (h : r.sameButDerived u) :
    r.withoutPending.sameButDerived u.withoutPending := by
  have hp : u.pendingPower = r.pendingPower := by rw [ZoneRec.sameButDerived] at h; rw [h]
  unfold ZoneRec.withoutPending
  rw [hp]
  split
  · exact h
  · rw [ZoneRec.sameButDerived] at *
    rw [h]

theorem ZoneRec.quieted_congr {r u : ZoneRec} (h : r.sameButDerived u) (k : Option (Fin 8)) (c : Prop) [Decidable c] :
    (r.quieted k c).sameButDerived (u.quieted k c) := by
  rw [ZoneRec.sameButDerived] at *
  rw [h]
  rfl

theorem ZoneRec.tripped_congr {r u : ZoneRec} (h : r.sameButDerived u) : r.tripped.sameButDerived u.tripped := by
  unfold ZoneRec.tripped
  rw [h.power]
  split
  · exact h
  · exact ZoneRec.quieted_congr (ZoneRec.withoutPending_congr h) none False
  · exact ZoneRec.quieted_congr h none False
  · exact ZoneRec.withoutPending_congr h

theorem ZoneRec.tripCancels_congr {r u : ZoneRec} (h : r.sameButDerived u) : u.tripCancels = r.tripCancels := by
  rw [ZoneRec.sameButDerived] at h
  rw [h]
  rfl

theorem State.completeOpt_edits (s : State) (z : Zone) (k : Option (Fin 8)) (st : Status) (r : List Byte) :
    Edits z (s.zone z) s (s.completeOpt k st r) where
  self := by rw [s.completeOpt_zone]; rfl
  others := fun y _ => by rw [s.completeOpt_zone]; rfl
  tracks := .of_same ((s.completeOpt_frame k st r).1 .decoder (by decide)) ((s.completeOpt_frame k st r).1 .tuner (by decide))
    ((s.completeOpt_frame k st r).1 .inputs (by decide)) (.of_events_eq (s.completeOpt_events k st r)) fun y => by
      rw [s.completeOpt_zone]; exact ⟨rfl, rfl⟩
  noted := fun y hy => .inl (by rwa [s.completeOpt_zone] at hy)
  changes := (s.completeOpt_frame k st r).1.mono (by decide)

theorem State.removePending_edits (s : State) (z : Zone) :
    Edits z { s.zone z with pendingPower := none, pendingSlot := none } s (s.removePending z) ∧
    zoneReported (s.removePending z) z ∧
    Meets (s.cancelAll (s.zone z).pendingSlot.toList) (s.removePending z) := by
  have h1 : Edits z { s.zone z with pendingPower := none, pendingSlot := none } s (s.unpended z) :=
    State.rewrite_edits rfl rfl rfl
  have h2 := (s.unpended z).completeOpt_edits z (s.zone z).pendingSlot .cancelled []
  rw [s.unpended_zone_self] at h2
  rw [s.removePending_eq, State.cancelAll_toList]
  exact ⟨h1.trans h2, reported.mono (State.raiseZone_reported _ z) h2.tracks.grown,
    ((s.unpended_raises z).meets ((s.unpended_frame z).1 .slots (by decide))).completeOpt _ _ _⟩

/-- A pending command, where there is one, is removed. -/
def State.dropPending (s : State) (z : Zone) : State :=
  if (s.zone z).pendingPower.isSome then s.removePending z else s

theorem State.dropPending_edits (s : State) (z : Zone) :
    Edits z (s.zone z).withoutPending s (s.dropPending z) ∧
    ((s.zone z).pendingPower ≠ none → zoneReported (s.dropPending z) z) ∧
    Meets (s.cancelAll (if (s.zone z).pendingPower ≠ none then (s.zone z).pendingSlot.toList else [])) (s.dropPending z) := by
  obtain ⟨h1, h2, h3⟩ := s.removePending_edits z
  unfold State.dropPending ZoneRec.withoutPending
  by_cases h : (s.zone z).pendingPower = none
  · rw [if_pos h, if_neg (by simp [h]), if_neg (by simp [h])]
    exact ⟨⟨.refl _, fun _ _ => .refl _, .refl s, fun _ hy => .inl hy, (Frame.refl _ s).1⟩, fun h' => absurd h h', .refl s⟩
  · rw [if_neg h, if_pos (Option.isSome_iff_ne_none.2 h), if_pos h]
    exact ⟨h1, fun _ => h2, h3⟩

theorem State.tripZone_eq (s : State) (z : Zone) : s.tripZone z =
    match (s.zone z).power with
    | .standby => s
    | .waking => ((s.dropPending z).completeOpt ((s.dropPending z).zone z).opSlot .cancelled []).quietZone z none
    | .on => s.quietZone z none
    | .quieting => s.dropPending z := rfl

/-- What a trip does to one zone, before the reports. -/
theorem State.tripZone_edits (s : State) (z : Zone) :
    Edits z (s.zone z).tripped s (s.tripZone z) ∧
    ((s.zone z).power = .waking ∨ (s.zone z).power = .on ∨
      ((s.zone z).power = .quieting ∧ (s.zone z).pendingPower ≠ none) → zoneReported (s.tripZone z) z) ∧
    Meets (s.cancelAll (s.zone z).tripCancels) (s.tripZone z) := by
  have hdrop := s.dropPending_edits z
  rw [s.tripZone_eq]
  unfold ZoneRec.tripped ZoneRec.tripCancels
  generalize hr : s.zone z = r at hdrop ⊢
  obtain ⟨hedit, hreported, hmeets⟩ := hdrop
  cases hp : r.power
  case standby =>
    refine ⟨⟨hr ▸ .refl _, fun _ _ => .refl _, .refl s, fun _ hy => .inl hy, (Frame.refl _ s).1⟩, ?_, .refl s⟩
    rintro (h | h | ⟨h, -⟩) <;> exact nomatch h
  case waking =>
    obtain ⟨v, hv⟩ : ∃ v, v = (s.dropPending z).completeOpt ((s.dropPending z).zone z).opSlot .cancelled [] := ⟨_, rfl⟩
    have hop : ((s.dropPending z).zone z).opSlot = r.opSlot := by
      have h := hedit.self
      rw [ZoneRec.sameButDerived] at h
      rw [h]
      unfold ZoneRec.withoutPending
      split <;> rfl
    have hended := hv ▸ (s.dropPending z).completeOpt_edits z ((s.dropPending z).zone z).opSlot .cancelled []
    obtain ⟨hquiet, hrep, -⟩ := v.quietZone_edits z none
    have hzone : v.zone z = (s.dropPending z).zone z := by rw [hv, State.completeOpt_zone]
    have hself : (r.withoutPending.quieted none False).sameButDerived ((v.zone z).quieted none False) := by
      have h := hedit.self
      rw [ZoneRec.sameButDerived] at h
      rw [hzone, h]
      rfl
    have hall := (hedit.trans hended).trans hquiet
    rw [← hv]
    refine ⟨⟨hself.trans hall.self, hall.others, hall.tracks, hall.noted, hall.changes⟩, fun _ => hrep, ?_⟩
    have hmv : Meets (s.cancelAll ((if r.pendingPower ≠ none then r.pendingSlot.toList else []) ++ r.opSlot.toList)) v := by
      rw [State.cancelAll_append, hv, hop, ← State.cancelAll_toList]
      exact hmeets.cancelAll _
    have hmq : Meets v (v.quietZone z none) :=
      (v.quietZone_raises z none).meets ((v.quietZone_frame z none).1 .slots (by decide))
    simpa using hmv.trans hmq
  case on =>
    obtain ⟨hquiet, hrep, -⟩ := s.quietZone_edits z none
    refine ⟨hr ▸ hquiet, fun _ => hrep, ?_⟩
    simpa [State.cancelAll] using
      (s.quietZone_raises z none).meets ((s.quietZone_frame z none).1 .slots (by decide))
  case quieting =>
    refine ⟨hedit, ?_, ?_⟩
    · rintro (h | h | ⟨-, h⟩)
      · exact nomatch h
      · exact nomatch h
      · exact hreported h
    · simpa using hmeets

/-- The zones after a trip, before the reports. -/
def State.zonesTrippedNow (s : State) : State := [Zone.main, .z2, .z3].foldl State.tripZone s

theorem State.zonesTrippedNow_edits (s : State) : EditsAll (fun _ => ZoneRec.tripped) s s.zonesTrippedNow :=
  .fold (fun _ _ => ZoneRec.tripped_congr) (fun u z => (u.tripZone_edits z).1) s

theorem State.tripCancels_eq (s : State) : s.tripCancels =
    (s.zone .main).tripCancels ++ (s.zone .z2).tripCancels ++ (s.zone .z3).tripCancels := by
  simp only [State.tripCancels, ZoneRec.tripCancels, List.map_cons, List.map_nil, List.flatten_cons, List.flatten_nil,
    List.append_nil, List.append_assoc]

theorem State.zonesTrippedNow_meets (s : State) : Meets (s.cancelAll s.tripCancels) s.zonesTrippedNow := by
  obtain ⟨h1, -, m1⟩ := s.tripZone_edits .main
  obtain ⟨h2, -, m2⟩ := (s.tripZone .main).tripZone_edits .z2
  obtain ⟨h3, -, m3⟩ := ((s.tripZone .main).tripZone .z2).tripZone_edits .z3
  rw [ZoneRec.tripCancels_congr (h1.others .z2 (by decide))] at m2
  rw [ZoneRec.tripCancels_congr ((h1.others .z3 (by decide)).trans (h2.others .z3 (by decide)))] at m3
  rw [s.tripCancels_eq, State.cancelAll_append, State.cancelAll_append]
  exact (((m1.cancelAll _).trans m2).cancelAll _).trans m3

theorem State.zonesTrippedNow_reported (s : State) (z : Zone) (h : (s.zone z).power = .waking ∨ (s.zone z).power = .on ∨
    ((s.zone z).power = .quieting ∧ (s.zone z).pendingPower ≠ none)) : zoneReported s.zonesTrippedNow z := by
  refine reported_fold (C := fun r => r.power = .waking ∨ r.power = .on ∨ (r.power = .quieting ∧ r.pendingPower ≠ none))
    (fun r u hru hr => ?_) (fun u z => (u.tripZone_edits z).1) (fun u z => (u.tripZone_edits z).2.1) s z h
  rw [ZoneRec.sameButDerived] at hru
  rw [hru]; exact hr

theorem ZoneRec.withoutPending_power (r : ZoneRec) : r.withoutPending.power = r.power := by
  unfold ZoneRec.withoutPending
  split <;> rfl

theorem ZoneRec.tripped_quiets {r : ZoneRec} (h : r.power ≠ .quieting) :
    (r.tripped.power = .quieting ↔ r.power = .waking ∨ r.power = .on) ∧
    (r.tripped.power = .quieting → r.tripped.quietStage = some .ramp) := by
  unfold ZoneRec.tripped
  cases hp : r.power
  case standby => simp [hp]
  case waking => simp [ZoneRec.quieted]
  case on => simp [ZoneRec.quieted]
  case quieting => exact absurd hp h

/-- What a trip leaves. -/
theorem State.thermalTrip_quietAll (s : State) : QuietAll (fun _ => ZoneRec.tripped)
    (fun z => ((s.zone z).power = .waking ∨ (s.zone z).power = .on) ∧ s.allSilent z) s s.thermalTrip := by
  have hquiet : s.quietsAtOnce (fun _ => ZoneRec.tripped) =
      fun z => ((s.zone z).power = .waking ∨ (s.zone z).power = .on) ∧ s.allSilent z := by
    funext z
    refine propext ⟨fun ⟨h1, h2, h3⟩ => ⟨(ZoneRec.tripped_quiets h1).1.1 h2, h3⟩, fun ⟨h2, h3⟩ => ?_⟩
    have hne : (s.zone z).power ≠ .quieting := by rcases h2 with h2 | h2 <;> rw [h2] <;> decide
    exact ⟨hne, (ZoneRec.tripped_quiets hne).1.2 h2, h3⟩
  have h := s.zonesTrippedNow_edits.quietAll fun z hp => (ZoneRec.tripped_quiets hp).2
  rwa [hquiet] at h

theorem State.thermalTrip_meets (s : State) : Meets (s.cancelAll s.tripCancels) s.thermalTrip := by
  obtain ⟨hslots, hraises⟩ := s.reportQuieting_slots s.zonesTrippedNow
  exact s.zonesTrippedNow_meets.trans (hraises.meets hslots)

theorem State.thermalTrip_reported (s : State) (z : Zone) (h : (s.zone z).power = .waking ∨ (s.zone z).power = .on ∨
    ((s.zone z).power = .quieting ∧ (s.zone z).pendingPower ≠ none)) : zoneReported s.thermalTrip z :=
  reported.mono (s.zonesTrippedNow_reported z h) (s.reportQuieting_slots s.zonesTrippedNow).2.2

theorem QuietAll.granted {f : Zone → ZoneRec → ZoneRec} {E : Zone → Prop} {s t : State} (h : QuietAll f E s t) (o : Fin 13)
    (z : Zone) : (t.out o).grantedTo z = (s.out o).grantedTo z := by
  by_cases he : ∃ y, E y ∧ (s.out o).grantedTo y = true
  · rw [h.opens o he]; rfl
  · rw [h.keeps o he]

theorem QuietAll.allSilent {f : Zone → ZoneRec → ZoneRec} {E : Zone → Prop} {s t : State} (h : QuietAll f E s t)
    (z : Zone) : t.allSilent z ↔ s.allSilent z := by
  have hmix : t.mix = s.mix := h.changes .mix (by decide)
  refine forall_congr' fun o => ?_
  rw [h.granted, State.gain, State.gain, hmix]

theorem State.thermalTrip_zonesTripped (s : State) : zonesTripped s s.thermalTrip := by
  intro z
  have hquiet := s.thermalTrip_quietAll
  have hends := hquiet.ends z
  have hstays := hquiet.stays z
  have hsilent := hquiet.allSilent z
  refine ⟨fun hp => ?_, fun hp => ⟨?_, fun hw => s.thermalTrip_reported z (.inr (.inr ⟨hp, hw⟩))⟩,
    fun hp => ⟨?_, s.thermalTrip_reported z (.inl hp)⟩, fun hp => ⟨?_, s.thermalTrip_reported z (.inr (.inl hp))⟩⟩
  · have h := hstays (by simp [hp])
    rwa [ZoneRec.tripped, hp] at h
  · have h := hstays (by simp [hp])
    rwa [ZoneRec.tripped, hp] at h
  · simp only [ZoneRec.tripped, hp] at hends hstays
    by_cases hs : s.allSilent z
    · have h := hends ⟨.inl trivial, hs⟩
      rwa [ZoneRec.quieted_silent (hsilent.2 hs)] at h
    · have h := hstays fun h => hs h.2
      rwa [ZoneRec.quieted_sounding fun h => hs (hsilent.1 h)] at h
  · simp only [ZoneRec.tripped, hp] at hends hstays
    by_cases hs : s.allSilent z
    · have h := hends ⟨.inr trivial, hs⟩
      rwa [ZoneRec.quieted_silent (hsilent.2 hs)] at h
    · have h := hstays fun h => hs h.2
      rwa [ZoneRec.quieted_sounding fun h => hs (hsilent.1 h)] at h

theorem State.thermalTrip_opens (s : State) (o : Fin 13) :
    (opensAtTrip s s.thermalTrip o → s.thermalTrip.out o = { s.out o with relay := false }) ∧
    (¬ opensAtTrip s s.thermalTrip o → s.thermalTrip.out o = s.out o) := by
  have hquiet := s.thermalTrip_quietAll
  have hiff : opensAtTrip s s.thermalTrip o ↔
      ∃ z, (((s.zone z).power = .waking ∨ (s.zone z).power = .on) ∧ s.allSilent z) ∧ (s.out o).grantedTo z = true :=
    exists_congr fun z => by rw [hquiet.allSilent]; tauto
  rw [hiff]
  exact ⟨hquiet.opens o, hquiet.keeps o⟩

/-! ### The thermal lines (R54, R58) -/

theorem onlyChanges.zone {ps : List Part} {s t : State} (h : onlyChanges ps s t) (hp : Part.zones ∉ ps) (z : Zone) :
    t.zone z = s.zone z := by
  rw [State.zone, h .zones hp]; rfl

/-- THT is active, and the latch has been set. -/
def State.latched (s : State) : State :=
  ((s.setTht { s.outputs.tht with active := true }).raiseTht).setOutputs
    { ((s.setTht { s.outputs.tht with active := true }).raiseTht).outputs with latch := true }

theorem State.thtArrives_eq {s : State} (h : s.outputs.latch = false) : s.thtArrives = s.latched.thermalTrip :=
  if_neg fun e : s.outputs.latch = true => by rw [h] at e; cases e

theorem State.latched_frame (s : State) : Frame [.outputs, .ports] s s.latched :=
  (((s.setOutputs_frame _).mono : Frame [.outputs, .ports] _ _).trans (State.raise_frame _ _ _).mono).trans
    (State.setOutputs_frame _ _).mono

theorem State.latched_raises (s : State) : Raises s s.latched :=
  (Raises.of_ports_eq rfl : Raises s (s.setTht { s.outputs.tht with active := true })).trans
    ((State.raise_raises _ _ _).trans (.of_ports_eq rfl))

theorem State.latched_outputs (s : State) : s.latched.outputs =
    { s.outputs with tht := { s.outputs.tht with active := true }, latch := true } := by
  have hframe := (State.raise_frame (s.setTht { s.outputs.tht with active := true }) .protection
    { EventDetail.zero with flags := 2 }).1 .outputs (by decide)
  change ({ ((s.setTht { s.outputs.tht with active := true }).raise .protection
    { EventDetail.zero with flags := 2 }).outputs with latch := true } : OutputUnit) = _
  rw [hframe]
  rfl

theorem State.latched_reported (s : State) : reported s.latched .protection { EventDetail.zero with flags := 2 } :=
  reported.mono (State.raise_reported _ _ (by decide)) (.of_ports_eq rfl)

theorem onlyChanges.settled {ps : List Part} {s t : State} (h : onlyChanges ps s t) (hg : eventsGrow s t)
    (hp : (ps.contains .zones || ps.contains .decoder || ps.contains .tuner || ps.contains .inputs) = false := by decide) :
    Settled s t := by
  simp only [Bool.or_eq_false_iff, List.contains_eq_mem, decide_eq_false_iff_not] at hp
  obtain ⟨⟨⟨h1, h2⟩, h3⟩, h4⟩ := hp
  exact ⟨h .decoder h2, h .tuner h3, h .inputs h4, fun z => by rw [h.zone h1]; exact ⟨rfl, rfl, rfl⟩, hg⟩

/-- A first trip: the latch is set, then the zones are acted on (R11, R58). -/
structure Trips (s t : State) : Prop where
  outputs : t.outputs = { s.outputs with tht := { s.outputs.tht with active := true }, latch := true, outs := t.outputs.outs }
  zones : zonesTripped s t
  follows : followsOn s t
  outs : ∀ o, (opensAtTrip s t o → t.out o = { s.out o with relay := false }) ∧ (¬ opensAtTrip s t o → t.out o = s.out o)
  meets : Meets (s.cancelAll s.tripCancels) t
  reported : reported t .protection { EventDetail.zero with flags := 2 }
  changes : onlyChanges [.zones, .outputs, .decoder, .tuner, .slots, .ports] s t

theorem State.thtArrives_trips {s : State} (h : s.outputs.latch = false) : Trips s s.thtArrives := by
  rw [State.thtArrives_eq h]
  obtain ⟨u, hu⟩ : ∃ u, u = s.latched := ⟨_, rfl⟩
  have hframe : Frame [.outputs, .ports] s u := hu ▸ s.latched_frame
  have hraises : Raises s u := hu ▸ s.latched_raises
  have hunit : u.outputs = { s.outputs with tht := { s.outputs.tht with active := true }, latch := true } :=
    hu ▸ s.latched_outputs
  have hreported := hu ▸ s.latched_reported
  rw [← hu]
  have hquiet := u.thermalTrip_quietAll
  have hzone : u.zones = s.zones := hframe.1 .zones (by decide)
  have hzones (z : Zone) : u.zone z = s.zone z := congrArg (·.get z) hzone
  have hout (o : Fin 13) : u.out o = s.out o := by rw [State.out, hunit]; rfl
  have hslots : u.slots = s.slots := hframe.1 .slots (by decide)
  have hcancels : u.tripCancels = s.tripCancels := by rw [State.tripCancels, State.tripCancels]; simp only [hzones]
  have htripped := u.thermalTrip_zonesTripped
  have hopens := u.thermalTrip_opens
  have hmeets := u.thermalTrip_meets
  refine ⟨?_, fun z => ?_, followsOn.after (hframe.1.settled hraises.2) hquiet.follows, fun o => ?_, ?_, ?_, ?_⟩
  · rw [hquiet.outputs, hunit]
  · have := htripped z
    rwa [hzones] at this
  · have := hopens o
    simp only [opensAtTrip, hzones, hout] at this
    exact this
  · rw [hcancels] at hmeets
    exact ((hraises.meets hslots).cancelAll _).trans hmeets
  · refine reported.mono (reported.mono hreported ?_) (u.reportQuieting_slots u.zonesTrippedNow).2.2
    exact u.zonesTrippedNow_edits.tracks.grown
  · exact (hframe.1.mono (by decide)).trans hquiet.changes

/-! ### The thermal lines (R54, R58) -/

/-- Settles O38. -/
theorem thermalLines : Obligations.ThermalLines := by
  intro s
  refine ⟨fun h => ⟨?_, ?_⟩, fun h => ⟨?_, ?_⟩, fun h => ⟨?_, ?_⟩, fun h => ?_⟩
  · exact congrArg Host.Outcome.next (if_neg (by rw [h]; decide))
  · exact congrArg Host.Outcome.next (if_neg (by rw [h]; decide))
  · exact congrArg Host.Outcome.next (if_pos h)
  · exact congrArg Host.Outcome.next (if_pos h)
  · exact congrArg Host.Outcome.next (if_pos h)
  · exact congrArg Host.Outcome.next (if_pos h)
  · intro u
    obtain ⟨v, hv⟩ : ∃ v, v = s.setTht { s.outputs.tht with pin := s.outputs.thtLevel.pin } := ⟨_, rfl⟩
    have harrives : s.thtPinActive = v.thtArrives := hv ▸ if_neg (by rw [h]; decide)
    refine ⟨congrArg Host.Outcome.next (if_neg (by rw [h]; decide)), fun hl => ?_, fun hl => ?_⟩
    · exact congrArg Host.Outcome.next (harrives.trans (hv ▸ if_pos hl))
    · have htrips := State.thtArrives_trips (s := v) (by rw [hv]; exact hl)
      rw [← harrives] at htrips
      have hset : Frame [.outputs] s v := hv ▸ s.setOutputs_frame _
      have hzones (z : Zone) : v.zone z = s.zone z := by rw [hv]; rfl
      have hout (o : Fin 13) : v.out o = s.out o := by rw [hv]; rfl
      have houter := htrips.outputs
      have hopens := htrips.outs
      have htripped := htrips.zones
      have hmeets := htrips.meets
      refine ⟨s.thtPinActive, rfl, ?_, fun z => ?_,
        followsOn.after (hset.1.settled (hv ▸ .of_ports_eq rfl)) htrips.follows, fun o => ?_, slotsCancelled_of_meets ?_,
        htrips.reported, (hset.1.mono (by decide)).trans htrips.changes⟩
      · rw [hv] at houter
        exact houter
      · have := htripped z
        rwa [hzones] at this
      · have := hopens o
        simp only [opensAtTrip, hzones, hout] at this
        exact this
      · have hsv : Meets s v := ⟨by rw [hv]; rfl, (Raises.of_ports_eq (by rw [hv]; rfl) : Raises s v).1⟩
        have hcancels : v.tripCancels = s.tripCancels := by rw [hv]; rfl
        rw [hcancels] at hmeets
        exact (hsv.cancelAll _).trans hmeets

end Sys2Proof.Machine

end

section
/-! PROOFS. Set Protection Levels (R57): why O36 fails of a state whose starved list names an output in FAULT. -/

open Sys2Proof Sys2Proof.Machine

namespace Sys2Proof.Machine

/-! A retry of the starved list looks at the zone and the role that an output's record names, and not at its state. Where
an output in FAULT stands on the list with a zone and a role, the freeing of another output's segment grants it; the next
fault line, in the order of the lines, then takes it to FAULT and silences its gain. -/

/-- MAIN is ON, O1 holds the only segment, and O2 is in FAULT on the starved list, its gain at 0; every line is at its
inactive level. -/
def faultedOnStarvedList : State :=
  let s := State.reset.setPort .a { State.reset.port .a with attention := none, detail := none }
  let held : Segment := { output := 0, base := 0, count := 1, delay := 0, writePos := 0, change := none, move := none }
  let memory := s.setDelay { s.delay with state := .ready, starved := [1], segments := [held] }
  let heard := memory.setZone .main { memory.zone .main with power := .on }
  (heard.setOut 1 { heard.out 1 with state := .fault, zone := some .main, role := some (.pos .fr) }).setGain 1
    { heard.gain 1 with current := 0 }

/-- The command that turns the active level of the fault lines round: every fault line arrives. -/
def allLinesArrive : FrameHead := { length := 7, tag := 0, flags := 0 }

theorem faultedOnStarvedList_takes : takenAtOnce faultedOnStarvedList .a allLinesArrive (.setProtectionLevels 1 0 0) := by
  unfold takenAtOnce
  decide +kernel

/-- The gain of O2 as the command leaves it. -/
theorem faultedOnStarvedList_silenced : (match exec (.setProtectionLevels .a allLinesArrive 1 0 0) faultedOnStarvedList with
    | .next t => decide ((t.gain 1).current = -161)
    | _ => false) = true := by
  decide +kernel

theorem faultedOnStarvedList_facts : activeLevelOf 1 = some .high ∧ activeLevelOf 0 = some .low ∧
    faultedOnStarvedList.outputs.fltLevel = .low ∧ (faultedOnStarvedList.out 1).state = .fault ∧
    (faultedOnStarvedList.gain 1).current = 0 := by
  decide +kernel

/-- Refutes O36: O2 does not fall, being in FAULT, and yet its gain does not stay as it was. -/
theorem not_protectionLevelsMoveTheLines : ¬ Obligations.ProtectionLevelsMoveTheLines := by
  intro h
  obtain ⟨hhigh, hlow, hlevel, hfault, hgain⟩ := faultedOnStarvedList_facts
  obtain ⟨-, -, -, hmoves⟩ := h .a allLinesArrive 1 0 0 faultedOnStarvedList faultedOnStarvedList_takes
  obtain ⟨t, hexec, -, -, -, -, -, -, -, -, -, -, -, -, hkeeps, -⟩ :=
    (hmoves .high .low .low hhigh hlow hlow).2 (by rw [hlevel]; rintro ⟨e, -⟩; exact nomatch e)
  obtain ⟨hsame, -⟩ := hkeeps 1 (by
    rintro ⟨n, hn, -, hne⟩
    exact hne hfault)
  have hsilent := faultedOnStarvedList_silenced
  rw [hexec] at hsilent
  have hcurrent : (t.gain 1).current = -161 := of_decide_eq_true hsilent
  rw [hsame, hgain] at hcurrent
  exact absurd hcurrent (by decide)

end Sys2Proof.Machine

end

section
/-! PROOFS. Wakes (R4, R5, R43, R44, R121, R125; O19). -/

open Sys2Proof Sys2Proof.Machine

namespace Sys2Proof.Machine

/-! ### The entry into WAKING (R5) -/

/-- The zone's record as it enters WAKING. -/
def ZoneRec.waking (r : ZoneRec) (k : Option (Fin 8)) : ZoneRec :=
  { r with power := .waking, opSlot := k, wakeTimer := some 120 }

/-- A zone has entered WAKING, before its grants. -/
def State.wakingNow (s : State) (z : Zone) (k : Option (Fin 8)) : State :=
  (s.setZone z { s.zone z with opSlot := k, wakeTimer := some 120 }).setPower z .waking

theorem State.enterWaking_eq (s : State) (z : Zone) (k : Option (Fin 8)) :
    s.enterWaking z k = (s.wakingNow z k).regrantAll.reportZones := rfl

theorem State.wakingNow_edits (s : State) (z : Zone) (k : Option (Fin 8)) :
    Edits z ((s.zone z).waking k) s (s.wakingNow z k) ∧ zoneReported (s.wakingNow z k) z := by
  have h1 : Edits z { s.zone z with opSlot := k, wakeTimer := some 120 } s
      (s.setZone z { s.zone z with opSlot := k, wakeTimer := some 120 }) := State.setZone_edits rfl rfl rfl
  obtain ⟨h2, h3, -⟩ := (s.setZone z { s.zone z with opSlot := k, wakeTimer := some 120 }).setPower_edits z .waking
  rw [State.zone_setZone_self] at h2
  exact ⟨h1.trans h2, h3⟩

/-- What an entry into WAKING leaves of the zones, and what follows it. -/
structure WakeEntry (z : Zone) (k : Option (Fin 8)) (s t : State) : Prop where
  self : ((s.zone z).waking k).sameButDerived (t.zone z)
  others : ∀ y, y ≠ z → (s.zone y).sameButDerived (t.zone y)
  reported : zoneReported t z
  follows : followsOn s t
  noted : ∀ y, (t.zone y).noOutput = true → (s.zone y).noOutput = true ∨ noOutputReported t y
  changes : onlyChanges [.zones, .outputs, .delay, .decoder, .tuner, .slots, .ports] s t

theorem State.enterWaking_entry (s : State) (z : Zone) (k : Option (Fin 8)) : WakeEntry z k s (s.enterWaking z k) := by
  obtain ⟨hedits, hreported⟩ := s.wakingNow_edits z k
  obtain ⟨u, hu⟩ : ∃ u, u = s.wakingNow z k := ⟨_, rfl⟩
  rw [s.enterWaking_eq, ← hu]
  rw [← hu] at hedits hreported
  have hstep := (u.regrantAll_free).1
  obtain ⟨v, hv⟩ : ∃ v, v = u.regrantAll := ⟨_, rfl⟩
  rw [← hv] at hstep ⊢
  have hraises := v.reportZones_raises
  have hstatus (y : Zone) := v.reportZones_sameButStatus y
  refine ⟨(hedits.self.trans (hstep.sameButDerived z)).trans (hstatus z).derived, fun y hy => ?_,
    reported.mono hreported (hstep.grown.trans hraises.2), followsOn_reportZones (hedits.tracks.trans hstep.settled.tracks),
    fun y hy => ?_, ?_⟩
  · exact ((hedits.others y hy).trans (hstep.sameButDerived y)).trans (hstatus y).derived
  · rw [(hstatus y).noOutput] at hy
    rcases hstep.noted y hy with hy | hy
    · exact (hedits.noted y hy).imp_right (reported.mono · (hstep.grown.trans hraises.2))
    · exact .inr (reported.mono hy hraises.2)
  · exact ((hedits.changes.mono (by decide)).trans (hstep.frame.1.mono (by decide))).trans (v.reportZones_frame.1.mono (by decide))

/-! ### The grants of an entry (R43, R44) -/

/-- No STARVED output holds a segment. -/
def State.starvedBare (s : State) : Prop := ∀ o, (s.out o).state = .starved → s.delay.segment o = none

/-- What a regrant leaves of the other outputs. -/
theorem State.regrant_others {u : State} (h : u.starvedBare) {o q : Fin 13} (hq : q ≠ o) :
    (u.regrant o).out q = u.out q ∧ (u.regrant o).delay.segment q = u.delay.segment q := by
  obtain ⟨hwell, hmoves⟩ := u.regrant_regrants o
  obtain ⟨houts, -, -, -, -, hidle, hgranted, hstarved, hhandover⟩ := hmoves (h o)
  have hplaced {z : Zone} {x : Role} {old : List (Fin 13)} {a b : Byte} (hp : placedOr u (u.regrant o) o z x old a b) :
      (u.regrant o).delay.segment q = u.delay.segment q := by
    obtain ⟨hok, herror⟩ := hp
    cases hr : u.delay.request [(o, u.totalDelay z x)] with
    | ok d =>
      rw [(hok d hr).1]
      exact (DelayState.request_segment_ne hr hq : d.segment q = _)
    | error e => rw [(herror e hr).1]; rfl
  refine ⟨houts q hq, ?_⟩
  by_cases hw : u.wellGranted o
  · rw [hwell hw]
  · have hne : ¬ ((u.out o).state = .fault ∨ ((u.out o).state = .idle ∧ u.grantRule o = none) ∨
      (((u.out o).state = .granted ∨ (u.out o).state = .starved) ∧ u.grantStays o)) := hw
    cases hs : (u.out o).state with
    | fault => exact absurd (.inl hs) hne
    | idle =>
      cases hg : u.grantRule o with
      | none => exact absurd (.inr (.inl ⟨hs, hg⟩)) hne
      | some zx =>
        obtain ⟨hheld, hnew⟩ := hidle zx.1 zx.2 hs hg
        by_cases hseg : u.delay.segment o = none
        · exact hplaced (hnew hseg)
        · rw [(hheld hseg).1]
    | granted => rw [(hgranted hs fun hst => hne (.inr (.inr ⟨.inl hs, hst⟩))).1]
    | starved =>
      obtain ⟨hout, hin⟩ := hstarved hs fun hst => hne (.inr (.inr ⟨.inr hs, hst⟩))
      cases hg : u.grantRule o with
      | none => rw [(hout hg).2.2]; rfl
      | some zx => exact hplaced (hin zx.1 zx.2 hg)
    | handover => rw [(hhandover hs).1]

/-- A regrant leaves no segment with a STARVED output. -/
theorem State.regrant_starvedBare {u : State} (h : u.starvedBare) (o : Fin 13) : (u.regrant o).starvedBare := by
  intro q hq
  by_cases hqo : q = o
  · subst hqo
    obtain ⟨hwell, hmoves⟩ := u.regrant_regrants q
    obtain ⟨-, -, -, -, -, hidle, hgranted, hstarved, hhandover⟩ := hmoves (h q)
    have hplaced {z : Zone} {x : Role} {old : List (Fin 13)} {a b : Byte} (hp : placedOr u (u.regrant q) q z x old a b)
        (hn : u.delay.segment q = none) : (u.regrant q).delay.segment q = none := by
      obtain ⟨hok, herror⟩ := hp
      cases hr : u.delay.request [(q, u.totalDelay z x)] with
      | ok d =>
        rw [(hok d hr).2.1] at hq
        exact absurd hq (by simp [grantedRec])
      | error e => rw [(herror e hr).1]; exact hn
    by_cases hw : u.wellGranted q
    · rw [hwell hw] at hq ⊢; exact h q hq
    · have hne : ¬ ((u.out q).state = .fault ∨ ((u.out q).state = .idle ∧ u.grantRule q = none) ∨
        (((u.out q).state = .granted ∨ (u.out q).state = .starved) ∧ u.grantStays q)) := hw
      cases hs : (u.out q).state with
      | fault => exact absurd (.inl hs) hne
      | idle =>
        cases hg : u.grantRule q with
        | none => exact absurd (.inr (.inl ⟨hs, hg⟩)) hne
        | some zx =>
          obtain ⟨hheld, hnew⟩ := hidle zx.1 zx.2 hs hg
          by_cases hseg : u.delay.segment q = none
          · exact hplaced (hnew hseg) hseg
          · rw [(hheld hseg).2.1] at hq
            exact absurd hq (by simp [grantedRec])
      | granted =>
        rw [(hgranted hs fun hst => hne (.inr (.inr ⟨.inl hs, hst⟩))).2.2] at hq
        exact absurd hq (by simp)
      | starved =>
        obtain ⟨hout, hin⟩ := hstarved hs fun hst => hne (.inr (.inr ⟨.inr hs, hst⟩))
        cases hg : u.grantRule q with
        | none =>
          rw [(hout hg).1] at hq
          exact absurd hq (by simp [OutputRec.idle])
        | some zx => exact hplaced (hin zx.1 zx.2 hg) (h q hs)
      | handover =>
        obtain ⟨hdelay, hown, hother⟩ := hhandover hs
        by_cases ho : u.ownGrant q
        · rw [(hown ho).2] at hq
          exact absurd hq (by simp)
        · rw [hother ho] at hq
          exact absurd (hs.symm.trans hq) (by decide)
  · obtain ⟨hout, hseg⟩ := State.regrant_others h hqo
    rw [hout] at hq
    rw [hseg]
    exact h q hq

/-- Regrants of other outputs. -/
theorem State.regrants_others {u : State} (h : u.starvedBare) {q : Fin 13} {l : List (Fin 13)} (hq : q ∉ l) :
    (l.foldl State.regrant u).out q = u.out q ∧ (l.foldl State.regrant u).delay.segment q = u.delay.segment q ∧
    (l.foldl State.regrant u).starvedBare ∧ OutStep u (l.foldl State.regrant u) := by
  induction l generalizing u with
  | nil => exact ⟨rfl, rfl, h, .refl u⟩
  | cons o l ih =>
    obtain ⟨hne, hl⟩ := not_or.1 (fun e => hq (List.mem_cons.2 e))
    obtain ⟨h1, h2⟩ := State.regrant_others h hne
    obtain ⟨h3, h4, h5, h6⟩ := ih (State.regrant_starvedBare h o) hl
    exact ⟨h3.trans h1, h4.trans h2, h5, (u.regrant_free o).1.trans h6⟩

/-- After every output has been regranted each one is as its own regrant leaves it, in a state that holds what it held and
gives what the rule gave. -/
theorem State.regrantAll_reaches {u : State} (h : u.starvedBare) (o : Fin 13) :
    ∃ v, v.out o = u.out o ∧ v.delay.segment o = u.delay.segment o ∧ v.starvedBare ∧ OutStep u v ∧
      u.regrantAll.out o = (v.regrant o).out o ∧ u.regrantAll.delay.segment o = (v.regrant o).delay.segment o := by
  obtain ⟨l1, l2, hl⟩ := List.append_of_mem (mem_allOutputs o)
  have hn : allOutputs.Nodup := by decide
  rw [hl] at hn
  have h1 : o ∉ l1 := fun e => (List.nodup_append.1 hn).2.2 o e o List.mem_cons_self rfl
  have h2 : o ∉ l2 := (List.nodup_cons.1 (List.nodup_append.1 hn).2.1).1
  obtain ⟨hout, hseg, hbare, hstep⟩ := State.regrants_others h h1
  obtain ⟨hout', hseg', -, -⟩ := State.regrants_others (State.regrant_starvedBare hbare o) h2
  refine ⟨l1.foldl State.regrant u, hout, hseg, hbare, hstep, ?_, ?_⟩
  · rw [State.regrantAll, hl, List.foldl_append]; exact hout'
  · rw [State.regrantAll, hl, List.foldl_append]; exact hseg'

/-! ### What a wake asks for (R5, R121, R125) -/

/-- A fold that takes the largest of what the elements give. -/
theorem foldl_max_spec {α : Type} (f : α → Nat) (l : List α) (m : Nat) :
    m ≤ l.foldl (fun m a => max m (f a)) m ∧ (∀ a ∈ l, f a ≤ l.foldl (fun m a => max m (f a)) m) ∧
    (l.foldl (fun m a => max m (f a)) m = m ∨ ∃ a ∈ l, f a = l.foldl (fun m a => max m (f a)) m) := by
  induction l generalizing m with
  | nil => exact ⟨le_refl m, fun a h => absurd h List.not_mem_nil, .inl rfl⟩
  | cons a l ih =>
    obtain ⟨h1, h2, h3⟩ := ih (max m (f a))
    rw [List.foldl_cons]
    refine ⟨(le_max_left m (f a)).trans h1, fun b hb => ?_, ?_⟩
    · obtain rfl | hb := List.mem_cons.1 hb
      · exact (le_max_right m (f b)).trans h1
      · exact h2 b hb
    · rcases h3 with h3 | ⟨b, hb, h3⟩
      · rw [h3]
        rcases le_total (f a) m with hm | hm
        · exact .inl (max_eq_left hm)
        · exact .inr ⟨a, List.mem_cons_self, (max_eq_right hm).symm⟩
      · exact .inr ⟨b, List.mem_cons_of_mem a hb, h3⟩

/-- The distance of the position that an output, not in FAULT, would serve for MAIN in WAKING. -/
def State.wakeDistance (s : State) (o : Fin 13) : Option Nat :=
  if (s.out o).state = .fault then none
  else
    match (s.asWaking .main).grantRule o with
    | some (.main, .pos p) => some (s.speaker p).distance
    | _ => none

theorem State.wakeReference_eq (s : State) : s.wakeReference =
    allOutputs.foldl (fun m o => max m ((s.wakeDistance o).getD 0)) 0 := by
  unfold State.wakeReference
  congr 1
  funext m o
  unfold State.wakeDistance
  split
  · exact (Nat.max_zero m).symm
  · generalize (s.asWaking .main).grantRule o = g
    rcases g with _ | ⟨_ | _ | _, _ | _⟩ <;> simp

theorem State.wakeDistance_eq_some {s : State} {o : Fin 13} {n : Nat} : s.wakeDistance o = some n ↔
    ∃ p, ((s.out o).state ≠ .fault ∧ (s.asWaking .main).grantRule o = some (.main, .pos p)) ∧ (s.speaker p).distance = n := by
  unfold State.wakeDistance
  split
  · next hf => exact ⟨fun h => (nomatch h), fun ⟨p, ⟨hp, _⟩, _⟩ => absurd hf hp⟩
  · next hf =>
    split
    · next p hg =>
      refine ⟨fun h => ⟨p, ⟨hf, hg⟩, Option.some.inj h⟩, fun ⟨q, ⟨_, hq⟩, hd⟩ => ?_⟩
      rw [hg] at hq
      obtain rfl : p = q := by injection hq with hq; injection hq with _ hq; injection hq
      rw [hd]
    · next hno => exact ⟨fun h => (nomatch h), fun ⟨q, ⟨_, hq⟩, _⟩ => absurd hq (hno q)⟩

/-- The state with the Dref of a wake is the one that the statements name. -/
theorem State.withReference_eq {s : State} {z : Zone} {dref : Option Nat} (h : s.wakeDref z dref) :
    s.withReference z = s.setDelay { s.delay with dref := dref } := by
  obtain ⟨hremote, hmain⟩ := h
  by_cases hz : z = .main
  · subst hz
    obtain ⟨m, rfl, hle, heq⟩ := hmain rfl
    obtain ⟨-, hbound, hreach⟩ := foldl_max_spec (fun o => (s.wakeDistance o).getD 0) allOutputs 0
    rw [← s.wakeReference_eq] at hbound hreach
    have hm : s.wakeReference = m := by
      apply le_antisymm
      · rcases hreach with h0 | ⟨o, -, ho⟩
        · rw [h0]; exact Nat.zero_le m
        · cases hd : s.wakeDistance o with
          | none => rw [hd] at ho; rw [← ho]; exact Nat.zero_le m
          | some n =>
            rw [hd] at ho
            obtain ⟨p, hp, hn⟩ := State.wakeDistance_eq_some.1 hd
            rw [← ho, Option.getD_some, ← hn]
            exact hle p ⟨o, hp⟩
      · rcases heq with h0 | ⟨p, ⟨o, hp⟩, hd⟩
        · rw [h0]; exact Nat.zero_le _
        · have h := hbound o (mem_allOutputs o)
          rwa [State.wakeDistance_eq_some.2 ⟨p, hp, hd⟩] at h
    rw [← hm]
    rfl
  · rw [hremote hz]
    cases z with
    | main => exact absurd rfl hz
    | z2 => rfl
    | z3 => rfl

theorem State.mem_directOutputs {s : State} {z : Zone} {o : Fin 13} {r : Role} : (o, r) ∈ s.directOutputs z ↔
    (s.out o).state = .idle ∧ (s.asWaking z).grantRule o = some (z, r) := by
  unfold State.directOutputs
  rw [List.mem_filterMap]
  constructor
  · rintro ⟨q, -, h⟩
    split at h
    · next hi =>
      split at h
      · next y x hg =>
        split at h
        · next hy =>
          injection h with h
          injection h with h1 h2
          subst h1 h2 hy
          exact ⟨hi, hg⟩
        · cases h
      · cases h
    · cases h
  · rintro ⟨hi, hg⟩
    exact ⟨o, mem_allOutputs o, by rw [if_pos hi, hg]; exact if_pos rfl⟩

theorem State.directOutputs_sorted (s : State) (z : Zone) : (s.directOutputs z).Pairwise (fun a b => a.1 < b.1) := by
  unfold State.directOutputs
  rw [List.pairwise_filterMap]
  have hs : allOutputs.Pairwise (· < ·) := by decide
  have hfst {o : Fin 13} {a : Fin 13 × Role} (h : (if (s.out o).state = .idle then
      match (s.asWaking z).grantRule o with
      | some (y, r) => if y = z then some (o, r) else none
      | none => none
    else none) = some a) : a.1 = o := by
    split at h
    · split at h
      · split at h
        · cases h; rfl
        · cases h
      · cases h
    · cases h
  exact hs.imp fun hlt a ha b hb => by rwa [hfst ha, hfst hb]

theorem List.eq_of_sorted_fst {l m : List (Fin 13 × Nat)} (hl : l.Pairwise (fun a b => a.1 < b.1))
    (hm : m.Pairwise (fun a b => a.1 < b.1)) (h : ∀ a, a ∈ l ↔ a ∈ m) : l = m := by
  have hnodup {k : List (Fin 13 × Nat)} (hk : k.Pairwise (fun a b => a.1 < b.1)) : k.Nodup :=
    hk.imp fun hlt e => absurd hlt (by rw [e]; exact lt_irrefl _)
  exact ((List.perm_ext_iff_of_nodup (hnodup hl) (hnodup hm)).2 h).eq_of_pairwise
    (fun a b _ _ hab hba => absurd (hab.trans hba) (lt_irrefl _)) hl hm

/-- The requests of a wake are those that the statement lists. -/
theorem State.asksFor_eq {s : State} {z : Zone} {dref : Option Nat} {reqs : List (Fin 13 × Nat)} (h : s.asksFor z dref reqs) :
    (s.directOutputs z).map (fun (o, r) => (o, (s.setDelay { s.delay with dref := dref }).totalDelay z r)) = reqs := by
  obtain ⟨hsorted, hmem⟩ := h
  refine List.eq_of_sorted_fst (List.pairwise_map.2 ((s.directOutputs_sorted z).imp id)) (List.pairwise_map.1 hsorted) ?_
  rintro ⟨o, n⟩
  rw [hmem, List.mem_map]
  constructor
  · rintro ⟨⟨q, r⟩, hq, he⟩
    obtain ⟨hi, hg⟩ := State.mem_directOutputs.1 hq
    injection he with h1 h2
    subst h1
    exact ⟨hi, r, hg, h2.symm⟩
  · rintro ⟨hi, r, hg, rfl⟩
    exact ⟨(o, r), State.mem_directOutputs.2 ⟨hi, hg⟩, rfl⟩

/-! ### The segments of a granted request (R125) -/

theorem DelayState.clearLine_has (d : DelayState) (g : Segment) : (d.clearLine g).segment g.output ≠ none := by
  intro h
  rw [DelayState.segment_eq_none_iff] at h
  exact h { g with writePos := g.base * pageWords } ((insertSegment_perm _ _).mem_iff.2 List.mem_cons_self) rfl

theorem DelayState.clearLine_still {d : DelayState} {o : Fin 13} (g : Segment) (h : d.segment o ≠ none) :
    (d.clearLine g).segment o ≠ none := by
  by_cases ho : o = g.output
  · subst ho; exact d.clearLine_has g
  · rwa [d.clearLine_segment_ne g ho]

/-- A granted request has left a segment with each output that it names, and none with the others. -/
theorem DelayState.creates_segment {reqs : List (Fin 13 × Nat)} {bases : List Nat} {d : DelayState} {o : Fin 13}
    (hlen : reqs.length = bases.length) :
    let e := (runsOf reqs bases).foldl (fun d (o, t, b, n) => d.create o t b n) d
    (d.segment o ≠ none ∨ o ∈ reqs.map (·.1) → e.segment o ≠ none) ∧ (o ∉ reqs.map (·.1) → e.segment o = d.segment o) := by
  induction reqs generalizing bases d with
  | nil => exact ⟨fun h => h.elim id fun h => (nomatch h), fun _ => rfl⟩
  | cons r reqs ih =>
    cases bases with
    | nil => cases hlen
    | cons b bases =>
      obtain ⟨h1, h2⟩ := ih (d := d.clearLine (newSegment r b)) (Nat.succ.inj hlen)
      have hstep : (runsOf (r :: reqs) (b :: bases)).foldl (fun d (o, t, b, n) => d.create o t b n) d =
          (runsOf reqs bases).foldl (fun d (o, t, b, n) => d.create o t b n) (d.clearLine (newSegment r b)) :=
        congrArg (fun e => (runsOf reqs bases).foldl (fun d (o, t, b, n) => d.create o t b n) e) (d.create_eq r b)
      dsimp only
      rw [hstep]
      refine ⟨fun h => ?_, fun h => ?_⟩
      · rcases h with h | h
        · exact h1 (.inl (DelayState.clearLine_still _ h))
        · obtain rfl | h := List.mem_cons.1 h
          · exact h1 (.inl (d.clearLine_has (newSegment r b)))
          · exact h1 (.inr h)
      · obtain ⟨hne, hnot⟩ := not_or.1 (fun e => h (List.mem_cons.2 e))
        exact (h2 hnot).trans (d.clearLine_segment_ne (newSegment r b) hne)

theorem placedAt_length {d : DelayState} {placed : List (Nat × Nat)} {reqs : List (Fin 13 × Nat)} {bases : List Nat}
    (h : placedAt d placed reqs bases) : reqs.length = bases.length := by
  induction reqs generalizing placed bases with
  | nil =>
    cases bases with
    | nil => rfl
    | cons b bases => exact absurd h id
  | cons r reqs ih =>
    cases bases with
    | nil => exact absurd h id
    | cons b bases => exact congrArg Nat.succ (ih h.2.2)

theorem DelayState.request_segments {d d' : DelayState} {reqs : List (Fin 13 × Nat)} {o : Fin 13}
    (h : d.request reqs = .ok d') :
    (o ∈ reqs.map (·.1) → d'.segment o ≠ none) ∧ (o ∉ reqs.map (·.1) → d'.segment o = d.segment o) := by
  obtain ⟨rfl, rfl⟩ | ⟨-, -, -, bases, hb, rfl⟩ := DelayState.request_ok h
  · exact ⟨fun h => (nomatch h), fun _ => rfl⟩
  · obtain ⟨h1, h2⟩ := DelayState.creates_segment (d := d) (o := o) (placedAt_length hb)
    exact ⟨fun h => h1 (.inr h), h2⟩

/-! ### Zone On in STANDBY (R4, R5) -/

theorem State.wakeTests_spec (s : State) :
    (s.outputs.latch = true → s.wakeTests = .error .isProtected) ∧
    (s.outputs.latch = false →
      (s.delay.state = .initializing ∨ s.delay.compaction ≠ none → s.wakeTests = .error .memoryBusy) ∧
      (s.delay.compaction = none → (s.delay.state = .uninit ∨ s.delay.state = .fault → s.wakeTests = .error .notReady) ∧
        (s.delay.state = .ready → s.wakeTests = .ok ()))) := by
  unfold State.wakeTests DelayState.takesRequests
  refine ⟨fun h => if_pos h, fun h => ?_⟩
  rw [if_neg (by simp [h])]
  refine ⟨fun hb => ?_, fun hc => ⟨fun hn => ?_, fun hr => ?_⟩⟩
  · exact if_pos (by simpa [Option.isSome_iff_ne_none] using hb)
  · rcases hn with hn | hn <;> simp [hn, hc]
  · simp [hr, hc]

theorem runCmd_zoneOn_standby {s : State} {p : Port} {h : FrameHead} {zone : Byte} {z : Zone} (hz : zoneOf zone = some z)
    (hp : (s.zone z).power = .standby) :
    runCmd (unlinked p h) (.zoneOn zone) s = wakeFromStandby (unlinked p h) z s := by
  simp only [runCmd, doZoneOn]
  rw [withZone_some s _ hz]
  simp only [hp]

/-- The outputs of a zone that wakes, where no STARVED output holds a segment: each IDLE one that it gets has the
segment of the wake's request, and one GRANTED elsewhere begins its handover (R5, R43, R44). -/
theorem State.enterWaking_grants {s : State} {z : Zone} (k : Option (Fin 8)) (hbare : s.starvedBare) {o : Fin 13} {r : Role}
    (hg : (s.asWaking z).grantRule o = some (z, r)) :
    ((s.out o).state = .idle → s.delay.segment o ≠ none →
      (s.enterWaking z k).out o = grantedRec o z r ∧ (s.enterWaking z k).delay.segment o = s.delay.segment o) ∧
    ((s.out o).state = .granted → (s.out o).zone ≠ some z → (s.enterWaking z k).out o =
      { s.out o with state := .handover, phase := some .rampDown, target := some (some z) }) := by
  obtain ⟨hedits, -⟩ := s.wakingNow_edits z k
  obtain ⟨u, hu⟩ : ∃ u, u = s.wakingNow z k := ⟨_, rfl⟩
  rw [← hu] at hedits
  have hdelay : u.delay = s.delay := hedits.changes .delay (by decide)
  have hunit : u.outputs = s.outputs := hedits.changes .outputs (by decide)
  have hmix : u.mix = s.mix := hedits.changes .mix (by decide)
  have hubare : u.starvedBare := fun q hq => by
    rw [hedits.out] at hq
    rw [hdelay]
    exact hbare q hq
  have hrule : u.grantRule o = some (z, r) := by
    rw [← hg]
    refine State.grantRule_congr (fun y => ?_) (by rw [hunit]; rfl) (fun w => by rw [State.speaker, hmix]; rfl) o
    by_cases hy : y = z
    · subst hy
      rw [hedits.self.power, State.asWaking, State.zone_setZone_self]
      rfl
    · rw [(hedits.others y hy).power, State.asWaking, State.zone_setZone_ne _ _ hy]
  obtain ⟨v, hvout, hvseg, hvbare, hstep, hout, hseg⟩ := State.regrantAll_reaches hubare o
  have hvrule : v.grantRule o = some (z, r) := (hstep.grantRule o).trans hrule
  obtain ⟨-, hmoves⟩ := v.regrant_regrants o
  obtain ⟨-, -, -, -, -, hidle, hgranted, -, -⟩ := hmoves (hvbare o)
  have houts : (s.enterWaking z k).out o = (v.regrant o).out o := by
    rw [s.enterWaking_eq, ← hu, ← hout, State.out, (State.reportZones_frame _).1 .outputs (by decide)]
    rfl
  have hsegs : (s.enterWaking z k).delay.segment o = (v.regrant o).delay.segment o := by
    rw [s.enterWaking_eq, ← hu, ← hseg, (State.reportZones_frame _).1 .delay (by decide)]
  rw [hedits.out] at hvout
  rw [hdelay] at hvseg
  refine ⟨fun hi hs => ?_, fun hi hzone => ?_⟩
  · obtain ⟨hheld, -⟩ := hidle z r (by rw [hvout]; exact hi) hvrule
    obtain ⟨hd, ho, -⟩ := hheld (by rw [hvseg]; exact hs)
    rw [houts, hsegs, hd, hvseg]
    exact ⟨ho, rfl⟩
  · have hstays : ¬ v.grantStays o := by
      rintro (⟨-, h, -⟩ | ⟨h, -⟩)
      · rw [hvout, hvrule] at h
        exact hzone h
      · rw [hvrule] at h
        cases h
    rw [houts, (hgranted (by rw [hvout]; exact hi) hstays).2.2, hvout, hvrule]
    rfl

theorem wakeFromStandby_accepted {x : Ctx} {z : Zone} {s u : State} {k : Fin 8} (ht : s.wakeTests = .ok ())
    (hk : s.freeSlot = some k) (hr : s.wakeRequest z = .ok u) : wakeFromStandby x z s =
      (Answer.acceptedIn k, (u.takeSlot k .zoneOn (zoneTarget z) x).enterWaking z (some k)) := by
  rw [wakeFromStandby, ht]
  dsimp only
  rw [hk]
  dsimp only
  rw [hr]

/-- Settles O19. -/
theorem zoneOnTestsAndWakes : Obligations.ZoneOnTestsAndWakes := by
  refine ⟨fun p h zone z s u k ht hz hp hl hr hc hk hreq => ?_, fun z s dref reqs hasks hdref => ?_, fun p h zone s ht => ?_⟩
  · obtain ⟨d, hd, hud⟩ := State.wakeRequest_eq_ok hreq
    have hdelay : u.delay = d := by rw [hud]; rfl
    obtain ⟨v, hv⟩ : ∃ v, v = u.setSlot k (unlinkedSlot .zoneOn (some (z.code.zeroExtend 16)) p h) := ⟨_, rfl⟩
    have hrun : runCmd (unlinked p h) (.zoneOn zone) s = (Answer.acceptedIn k, v.enterWaking z (some k)) := by
      rw [runCmd_zoneOn_standby hz hp, wakeFromStandby_accepted (((s.wakeTests_spec.2 hl).2 hc).2 hr) hk hreq,
        State.takeSlot_unlinked, hv]
      rfl
    have hvc : v.delay.compaction = none := by
      rw [hv]
      exact (State.wakeRequest_delay hreq).1.trans hc
    have hslots := State.enterWaking_slots (s := v) z (some k) hvc
    have hentry := v.enterWaking_entry z (some k)
    have hgrants {o : Fin 13} {r : Role} := State.enterWaking_grants (s := v) (z := z) (o := o) (r := r) (some k)
    have hkept := runCmd_kept (unlinked p h) (c := .zoneOn zone) s rfl
    rw [hrun] at hkept
    dsimp only at hkept
    generalize v.enterWaking z (some k) = w at hrun hslots hentry hkept hgrants
    obtain ⟨hslots, hraises⟩ := hslots
    have hzone (y : Zone) : v.zone y = s.zone y := by rw [hv, hud]; rfl
    have hsv : onlyChanges [.delay, .slots] s v := by
      have h1 : onlyChanges [.delay, .slots] s u := by rw [hud]; exact (s.setDelay_frame d).1.mono
      have h2 : onlyChanges [.delay, .slots] u v := by rw [hv]; exact (u.setSlot_frame k _).1.mono
      exact h1.trans h2
    have hvports : v.ports = s.ports := hsv .ports (by decide)
    have hclosed := w.closed_settled p h (.zoneOn zone) (Answer.acceptedIn k)
    refine ⟨_, exec_takenAtOnce_kept rfl ht hkept hrun, ?_, ?_, fun j hj => ?_, ?_, fun y hy => ?_, ?_, ?_, ?_,
      fun hbare o r hg => ?_⟩
    · have h := hentry.self
      rwa [hzone, ZoneRec.sameButDerived] at h
    · change w.slot k = _
      rw [State.slot, hslots, hv]
      exact u.slot_setSlot_self k _
    · change w.slot j = _
      rw [State.slot, hslots, hv, hud]
      exact State.slot_setSlot_ne _ _ hj
    · exact reported.mono hentry.reported hclosed.grown
    · have h := hentry.others y hy
      rwa [hzone] at h
    · exact (followsOn.after (hsv.settled (.of_ports_eq hvports)) hentry.follows).then hclosed
    · exact onlyReplied_closed ((Raises.of_ports_eq hvports).trans hraises).1
    · exact ((hsv.mono (by decide)).trans (hentry.changes.mono (by decide))).trans
        ((w.closed_onlyChanges p h _ _).mono (by decide))
    · have hsegs (q : Fin 13) : (q ∈ (s.directOutputs z).map (·.1) → v.delay.segment q ≠ none) ∧
          (q ∉ (s.directOutputs z).map (·.1) → v.delay.segment q = s.delay.segment q) := by
        obtain ⟨h1, h2⟩ := DelayState.request_segments (o := q) hd
        rw [List.map_map] at h1 h2
        have hvd : v.delay = d := by rw [hv, ← hdelay]; rfl
        rw [hvd]
        refine ⟨h1, fun h => (h2 h).trans ?_⟩
        cases z <;> rfl
      have hout (q : Fin 13) : v.out q = s.out q := by rw [hv, hud]; rfl
      have hvbare : v.starvedBare := fun q hq => by
        rw [hout] at hq
        refine ((hsegs q).2 fun hin => ?_).trans (hbare q hq)
        obtain ⟨⟨q', x⟩, hm, rfl⟩ := List.mem_map.1 hin
        exact absurd (hq.symm.trans (State.mem_directOutputs.1 hm).1) (by decide)
      have hvg : (v.asWaking z).grantRule o = some (z, r) := by
        rw [← hg]
        have hunit : v.outputs = s.outputs := hsv .outputs (by decide)
        have hmix : v.mix = s.mix := hsv .mix (by decide)
        refine State.grantRule_congr (fun y => ?_) (by rw [State.asWaking, State.setZone_outputs, hunit]; rfl)
          (fun w => by rw [State.speaker, State.asWaking, State.setZone_mix, hmix]; rfl) o
        by_cases hy : y = z
        · subst hy; rw [State.asWaking, State.zone_setZone_self, State.zone_setZone_self]
        · rw [State.asWaking, State.zone_setZone_ne _ _ hy, State.zone_setZone_ne _ _ hy, hzone]
      obtain ⟨hidle, hgranted⟩ := hgrants hvbare hvg
      rw [hout] at hidle hgranted
      refine ⟨fun hi => ?_, hgranted⟩
      have hsome := (hsegs o).1 (List.mem_map.2 ⟨(o, r), State.mem_directOutputs.2 ⟨hi, hg⟩, rfl⟩)
      obtain ⟨ho, hs⟩ := hidle hi hsome
      have hvu : v.delay = u.delay := by rw [hv]; rfl
      refine ⟨ho, ?_, ?_⟩
      · exact hs.trans (by rw [hvu])
      · exact fun e => hsome (hs.symm.trans e)
  · have hwake : s.wakeRequest z =
        (({ s.delay with dref := dref } : DelayState).request reqs).map (s.setDelay { s.delay with dref := dref }).setDelay := by
      rw [State.wakeRequest, State.withReference_eq hdref]
      dsimp only
      rw [State.asksFor_eq hasks]
      rfl
    rw [hwake]
    exact ⟨fun e he => by rw [he]; rfl, fun d hd => by rw [hd]; rfl⟩
  · intro same
    refine ⟨fun hz => ?_, fun z hz hp => ?_⟩
    · refine exec_takenAtOnce_same rfl ht ?_
      simp only [runCmd, doZoneOn]
      exact withZone_none s _ (zoneOf_eq_none hz)
    · have hrun := runCmd_zoneOn_standby (p := p) (h := h) hz hp
      have hrefused {e : Status} (hw : s.wakeTests = .error e) : same (Answer.plain e) :=
        exec_takenAtOnce_same rfl ht (by rw [hrun, wakeFromStandby, hw])
      obtain ⟨hprotected, htests⟩ := s.wakeTests_spec
      refine ⟨fun hl => hrefused (hprotected hl), fun hl => ⟨fun hb => hrefused ((htests hl).1 hb), fun hc =>
        ⟨fun hn => hrefused (((htests hl).2 hc).1 hn), fun hr => ⟨fun hf => ?_, fun e hf he => ?_⟩⟩⟩⟩
      · exact exec_takenAtOnce_same rfl ht (by rw [hrun, wakeFromStandby, ((htests hl).2 hc).2 hr, hf])
      · obtain ⟨k, hk⟩ := Option.ne_none_iff_exists'.1 hf
        refine exec_takenAtOnce_same rfl ht ?_
        rw [hrun, wakeFromStandby, ((htests hl).2 hc).2 hr, hk]
        dsimp only
        rw [he]

end Sys2Proof.Machine

end

section
/-! PROOFS. The end of a wake (R6): the entry into ON, which the derived state does not notice, and the pending STANDBY
that takes the zone on to QUIETING. -/

open Sys2Proof Sys2Proof.Machine

namespace Sys2Proof.Machine

/-! ### Reports that find everything in order -/

/-- Reports change nothing where the derived state is in order already (R75, R141). -/
theorem State.reportZones_of_followed {s : State} (h : s.followed) : s.reportZones = s := by
  obtain ⟨hb, -, hparked, -, hbusy⟩ := h
  rw [State.bindingIs_iff] at hb
  rw [State.reportZones, State.refreshBinding, if_pos hb.symm, State.refreshTuner]
  rw [← s.tunerActive_iff] at hparked
  split
  · next ha => rw [if_neg fun hp => hparked.1 hp ha]
  · next ha =>
    have hp := hparked.2 ha
    simp only [hp]

/-- From `s` to `t` every zone that listens goes on to listen, to the same source with the same status, and the decoder,
the tuner and the inputs are kept. -/
structure HearsOn (s t : State) : Prop where
  tracks : Tracks s t
  zones : ∀ z, (t.zone z).isUp = (s.zone z).isUp ∧ (t.zone z).live = (s.zone z).live

theorem State.computedBinding_of_hears {s t : State} (hi : t.inputs = s.inputs)
    (hz : ∀ z, (t.zone z).isUp = (s.zone z).isUp ∧ (t.zone z).live = (s.zone z).live) :
    t.computedBinding = s.computedBinding := by
  have hp (z : Zone) : t.packedSource z = s.packedSource z := by
    obtain ⟨h1, h2⟩ := hz z
    rw [State.packedSource, State.packedSource, h1, h2]
    simp only [State.input_congr hi]
  simp only [State.computedBinding, hp]

theorem State.listened_of_hears {s t : State}
    (hz : ∀ z, (t.zone z).isUp = (s.zone z).isUp ∧ (t.zone z).live = (s.zone z).live) : t.listened ↔ s.listened := by
  rw [State.listened_iff, State.listened_iff, State.tunerHeard, State.tunerHeard]
  simp only [hz]

theorem HearsOn.followed {s t : State} (h : HearsOn s t) (hs : s.followed) : t.followed := by
  obtain ⟨hb, hst, htuner⟩ := hs
  refine ⟨?_, t.statusesOk_iff.1 (h.tracks.statuses (s.statusesOk_iff.2 hst)), ?_⟩
  · rw [State.bindingIs_iff] at *
    rw [h.tracks.decoder, hb, State.computedBinding_of_hears h.tracks.inputs h.zones]
  · unfold State.tunerFollows
    rw [h.tracks.tuner, State.listened_of_hears h.zones]
    exact htuner

/-! ### The entry into ON (R6) -/

/-- A zone whose wake has ended, before its reports. -/
def State.wokenUp (s : State) (z : Zone) : State :=
  (s.setZone z { s.zone z with wakeTimer := none, opSlot := none }).setPower z .on

/-- The record of a zone whose wake has ended. -/
def ZoneRec.wokenUp (r : ZoneRec) : ZoneRec := { r with power := .on, wakeTimer := none, opSlot := none }

theorem State.wokenUp_edits (s : State) (z : Zone) : Edits z (s.zone z).wokenUp s (s.wokenUp z) ∧
    zoneReported (s.wokenUp z) z ∧ (s.wokenUp z).noOutputMarked := by
  obtain ⟨u, hu⟩ : ∃ u, u = s.setZone z { s.zone z with wakeTimer := none, opSlot := none } := ⟨_, rfl⟩
  have h1 : Edits z { s.zone z with wakeTimer := none, opSlot := none } s u := hu ▸ State.setZone_edits rfl rfl rfl
  obtain ⟨h2, h3, h4⟩ := u.setPower_edits z .on
  rw [show u.zone z = { s.zone z with wakeTimer := none, opSlot := none } by rw [hu, State.zone_setZone_self]] at h2
  rw [show s.wokenUp z = u.setPower z .on by rw [hu]; rfl]
  exact ⟨h1.trans h2, h3, h4⟩

theorem State.wokenUp_meets (s : State) (z : Zone) : Meets s (s.wokenUp z) :=
  ((Raises.of_ports_eq (s.setZone_ports z _)).trans (State.setPower_raises _ z .on)).meets
    ((State.setPower_frame _ z .on).1 .slots (by decide))

/-- A zone in WAKING listens as one in ON does (R75, R141). -/
theorem State.wokenUp_hears (s : State) {z : Zone} (hw : (s.zone z).power = .waking) : HearsOn s (s.wokenUp z) := by
  obtain ⟨hedits, -, -⟩ := s.wokenUp_edits z
  refine ⟨hedits.tracks, fun y => ?_⟩
  by_cases hy : y = z
  · subst hy
    have h := hedits.self
    rw [ZoneRec.sameButDerived] at h
    rw [ZoneRec.isUp, ZoneRec.isUp, h, ZoneRec.wokenUp, hw]
    exact ⟨rfl, rfl⟩
  · have h := hedits.others y hy
    rw [ZoneRec.sameButDerived] at h
    rw [ZoneRec.isUp, ZoneRec.isUp, h]
    exact ⟨rfl, rfl⟩

/-- The zone is in ON and its operation has ended. -/
def State.wakeEnded (s : State) (z : Zone) : State := (s.wokenUp z).reportZones.completeOpt (s.zone z).opSlot .done []

/-- What the entry into ON leaves. -/
structure WakeEnd (z : Zone) (s t : State) : Prop where
  edits : Edits z (s.zone z).wokenUp s (s.wokenUp z)
  self : (s.zone z).wokenUp.sameButDerived (t.zone z)
  others : ∀ y, y ≠ z → (s.zone y).sameButDerived (t.zone y)
  mark : z ≠ .main → ((t.zone z).noOutput = true ↔ ∀ o, (s.out o).grantedTo z = false)
  raised : z ≠ .main → (s.zone z).noOutput = false → (∀ o, (s.out o).grantedTo z = false) → noOutputReported t z
  reported : zoneReported t z
  grown : eventsGrow s t
  ended : Meets (s.completeOpt (s.zone z).opSlot .done []) t
  changes : onlyChanges [.zones, .decoder, .tuner, .slots, .ports] s t

theorem State.completeOpt_grown (s : State) (k : Option (Fin 8)) (st : Status) (r : List Byte) :
    eventsGrow s (s.completeOpt k st r) := .of_events_eq (s.completeOpt_events k st r)

theorem State.wakeEnded_end (s : State) (z : Zone) : WakeEnd z s (s.wakeEnded z) := by
  obtain ⟨hedits, hzone, hmarked⟩ := s.wokenUp_edits z
  obtain ⟨v, hv⟩ : ∃ v, v = (s.wokenUp z).reportZones := ⟨_, rfl⟩
  have hvzone (y : Zone) : ((s.wokenUp z).zone y).sameButStatus (v.zone y) := hv ▸ (s.wokenUp z).reportZones_sameButStatus y
  have hraises : Raises (s.wokenUp z) v := hv ▸ (s.wokenUp z).reportZones_raises
  have hframe : onlyChanges reportParts (s.wokenUp z) v := hv ▸ (s.wokenUp z).reportZones_frame.1
  obtain ⟨t, ht⟩ : ∃ t, t = v.completeOpt (s.zone z).opSlot .done [] := ⟨_, rfl⟩
  have htzone (y : Zone) : t.zone y = v.zone y := ht ▸ v.completeOpt_zone _ _ _ y
  have hgrown : eventsGrow (s.wokenUp z) t := hraises.2.trans (ht ▸ v.completeOpt_grown _ _ _)
  have hself : (s.zone z).wokenUp.sameButDerived (t.zone z) := by
    rw [htzone]; exact hedits.self.trans (hvzone z).derived
  have hon : ((s.wokenUp z).zone z).power = .on := by
    have h := hedits.self
    rw [ZoneRec.sameButDerived] at h
    rw [h]; rfl
  have hmark (hz : z ≠ .main) : ((s.wokenUp z).zone z).noOutput = true ↔ ∀ o, (s.out o).grantedTo z = false := by
    rw [hmarked z hz, State.noOutputIs]
    simp only [hon, true_and, hedits.out]
  rw [State.wakeEnded, ← hv, ← ht]
  refine ⟨hedits, hself, fun y hy => ?_, fun hz => ?_, fun hz hn hg => ?_, reported.mono hzone hgrown,
    hedits.tracks.grown.trans hgrown, ?_, ?_⟩
  · rw [htzone]; exact (hedits.others y hy).trans (hvzone y).derived
  · rw [htzone, (hvzone z).noOutput]; exact hmark hz
  · refine reported.mono ((hedits.noted z ((hmark hz).2 hg)).resolve_left ?_) hgrown
    rw [hn]; exact Bool.false_ne_true
  · rw [ht]
    exact ((s.wokenUp_meets z).trans (hraises.meets (hframe .slots (by decide)))).completeOpt _ _ _
  · rw [ht]
    refine (((hedits.changes.mono (by decide)).trans (hframe.mono (by decide)))).trans
      ((v.completeOpt_frame _ _ _).1.mono (by decide))

/-- Where the derived state was in order, the entry into ON and the end of its slot leave it so. -/
theorem State.wakeEnded_eq {s : State} {z : Zone} (hw : (s.zone z).power = .waking) (hs : s.followed) :
    s.wakeEnded z = (s.wokenUp z).completeOpt (s.zone z).opSlot .done [] := by
  rw [State.wakeEnded, State.reportZones_of_followed ((s.wokenUp_hears hw).followed hs)]

theorem State.completeOpt_settled (s : State) (k : Option (Fin 8)) (st : Status) (r : List Byte) :
    Settled s (s.completeOpt k st r) := by
  have hframe := (s.completeOpt_frame k st r).1
  refine ⟨hframe .decoder (by decide), hframe .tuner (by decide), hframe .inputs (by decide), fun z => ?_,
    s.completeOpt_grown k st r⟩
  rw [s.completeOpt_zone]
  exact ⟨rfl, rfl, rfl⟩

theorem State.wakeEnded_follows (s : State) (z : Zone) : followsOn s (s.wakeEnded z) :=
  (followsOn_reportZones (s.wokenUp_edits z).1.tracks).then (State.completeOpt_settled _ _ _ _)

/-! ### The pending STANDBY (R6, R7) -/

/-- The zone without its pending STANDBY, whose slot becomes the operation slot. -/
def State.standbyTaken (s : State) (z : Zone) : State :=
  s.setZone z { s.zone z with pendingPower := none, pendingSlot := none }

theorem State.completeWake_eq {s : State} {z : Zone} (hw : (s.zone z).power = .waking) : s.completeWake z =
    if ((s.wakeEnded z).zone z).pendingPower = some .standby then
      ((s.wakeEnded z).standbyTaken z).enterQuieting z ((s.wakeEnded z).zone z).pendingSlot
    else s.wakeEnded z := by
  rw [State.completeWake, if_pos hw]
  rfl

theorem WakeEnd.pending {z : Zone} {s t : State} (h : WakeEnd z s t) :
    (t.zone z).pendingPower = (s.zone z).pendingPower ∧ (t.zone z).pendingSlot = (s.zone z).pendingSlot ∧
    (t.zone z).power = .on := by
  have hself := h.self
  rw [ZoneRec.sameButDerived] at hself
  rw [hself]
  exact ⟨rfl, rfl, rfl⟩

/-- The reports of the QUIETING follow the whole of the step, for those of the entry into ON find nothing to do. -/
theorem State.quietedAtWake_follows {s : State} {z : Zone} (hw : (s.zone z).power = .waking) (k : Option (Fin 8)) :
    followsOn s (((s.wakeEnded z).standbyTaken z).enterQuieting z k) := by
  intro hs
  obtain ⟨w, hwe⟩ : ∃ w, w = (s.wakeEnded z).standbyTaken z := ⟨_, rfl⟩
  have hwoken : Tracks s (s.wakeEnded z) := by
    rw [State.wakeEnded_eq hw hs]
    exact (s.wokenUp_edits z).1.tracks.trans (State.completeOpt_settled _ _ _ _).tracks
  have htaken : Tracks (s.wakeEnded z) w := by
    rw [hwe]
    exact (State.setZone_edits (r := { (s.wakeEnded z).zone z with pendingPower := none, pendingSlot := none }) rfl rfl rfl).tracks
  rw [← hwe]
  exact (w.reportQuieting_report (w.quietZone z k)).follows
    ((hwoken.trans htaken).trans (w.quietZone_edits z k).1.tracks) hs

/-- The step of a WAKING zone without a pending STANDBY. -/
theorem exec_wakeCompletion_on {z : Zone} {s : State} (hw : (s.zone z).power = .waking)
    (hp : (s.zone z).pendingPower ≠ some .standby) :
    ∃ t, exec (.wakeCompletion z) s = .next t ∧
      t.zone z = { s.zone z with power := .on, wakeTimer := none, opSlot := none
                                 status := (t.zone z).status, noOutput := (t.zone z).noOutput } ∧
      slotEnded s t (s.zone z).opSlot .done [] ∧ (∀ y, y ≠ z → (s.zone y).sameButDerived (t.zone y)) ∧
      followsOn s t ∧ (z ≠ .main → ((t.zone z).noOutput = true ↔ ∀ o, (s.out o).grantedTo z = false)) ∧
      (z ≠ .main → (s.zone z).noOutput = false → (∀ o, (s.out o).grantedTo z = false) → noOutputReported t z) ∧
      zoneReported t z ∧ onlyChanges [.zones, .decoder, .tuner, .slots, .ports] s t := by
  have hend := s.wakeEnded_end z
  refine ⟨s.wakeEnded z, ?_, hend.self, slotEnded_of_meets hend.ended, hend.others, s.wakeEnded_follows z, hend.mark,
    hend.raised, hend.reported, hend.changes⟩
  change Host.Outcome.next (s.completeWake z) = _
  rw [State.completeWake_eq hw, if_neg (by rw [hend.pending.1]; exact hp)]

/-- The step of a WAKING zone that holds a pending STANDBY. -/
theorem exec_wakeCompletion_standby {z : Zone} {s : State} (hw : (s.zone z).power = .waking)
    (hp : (s.zone z).pendingPower = some .standby) :
    ∃ t, exec (.wakeCompletion z) s = .next t ∧
      t.zone z = { (s.zone z).quieted (s.zone z).pendingSlot (s.allSilent z) with
        pendingPower := none, pendingSlot := none, status := (t.zone z).status
        noOutput := (t.zone z).noOutput } ∧
      slotEnded s t (s.zone z).opSlot .done [] ∧ (∀ y, y ≠ z → (s.zone y).sameButDerived (t.zone y)) ∧
      followsOn s t ∧ (z ≠ .main → (t.zone z).noOutput = false) ∧
      (z ≠ .main → (s.zone z).noOutput = false → (∀ o, (s.out o).grantedTo z = false) → noOutputReported t z) ∧
      t.outputs = { s.outputs with outs := t.outputs.outs } ∧
      (∀ o, t.out o = (if s.allSilent z ∧ (s.out o).grantedTo z = true then { s.out o with relay := false }
        else s.out o)) ∧
      zoneReported t z ∧ onlyChanges [.zones, .outputs, .decoder, .tuner, .slots, .ports] s t := by
  have hend := s.wakeEnded_end z
  obtain ⟨hpending, hslot, hon⟩ := hend.pending
  obtain ⟨w, hwe⟩ : ∃ w, w = (s.wakeEnded z).standbyTaken z := ⟨_, rfl⟩
  have houtputs : w.outputs = s.outputs := by rw [hwe]; exact hend.changes .outputs (by decide)
  have hmix : w.mix = s.mix := by rw [hwe]; exact hend.changes .mix (by decide)
  have hout (o : Fin 13) : w.out o = s.out o := by rw [State.out, houtputs]; rfl
  have hsilent : w.allSilent z ↔ s.allSilent z := by simp only [State.allSilent, hout, State.gain, hmix]
  have hself : w.zone z = { (s.wakeEnded z).zone z with pendingPower := none, pendingSlot := none } := by
    rw [hwe, State.standbyTaken, State.zone_setZone_self]
  have hothers (y : Zone) (hy : y ≠ z) : w.zone y = (s.wakeEnded z).zone y := by
    rw [hwe, State.standbyTaken, State.zone_setZone_ne _ _ hy]
  have hchanges : onlyChanges [.zones, .decoder, .tuner, .slots, .ports] s w := by
    rw [hwe]
    exact hend.changes.trans ((State.setZone_frame _ z _).1.mono (by decide))
  obtain ⟨hentry, hreported⟩ := w.enterQuieting_entry z (s.zone z).pendingSlot (by rw [hself, hon]; decide)
  have hfollows : followsOn s (w.enterQuieting z (s.zone z).pendingSlot) := hwe ▸ State.quietedAtWake_follows hw _
  obtain ⟨hslots, hraises⟩ := w.enterQuieting_slots z (s.zone z).pendingSlot
  have hmarked := w.quietZone_edits z (s.zone z).pendingSlot
  have hreport := w.reportQuieting_report (w.quietZone z (s.zone z).pendingSlot)
  obtain ⟨t, ht⟩ : ∃ t, t = w.enterQuieting z (s.zone z).pendingSlot := ⟨_, rfl⟩
  have hwgrown : eventsGrow (s.wakeEnded z) w := by rw [hwe]; exact .of_ports_eq rfl
  rw [← ht] at hentry hreported hfollows hslots hraises
  refine ⟨t, ?_, ?_, ?_, fun y hy => ?_, hfollows, fun hz => ?_, fun hz hn hg => ?_, ?_, fun o => ?_, hreported, ?_⟩
  · change Host.Outcome.next (s.completeWake z) = _
    rw [State.completeWake_eq hw, if_pos (by rw [hpending]; exact hp), hslot, ← hwe, ht]
  · have h := hentry.quieted
    have hwoken := hend.self
    rw [ZoneRec.sameButDerived] at h hwoken
    rw [h, hself, hwoken]
    simp only [ZoneRec.quieted, hsilent]
    rfl
  · exact slotEnded_of_meets (hend.ended.trans ((Meets.refl _).trans
      ⟨hslots.trans (by rw [hwe]; rfl), (Raises.of_ports_eq (by rw [hwe]; rfl)).1.trans hraises.1⟩))
  · have h := hentry.others y hy
    rw [hothers y hy] at h
    exact (hend.others y hy).trans h
  · obtain ⟨hedits, -, hmark⟩ := hmarked
    have hzone : (t.zone z).noOutput = ((w.quietZone z (s.zone z).pendingSlot).zone z).noOutput := by
      rw [ht, State.enterQuieting]
      by_cases hE : (w.zone z).power ≠ .quieting ∧ (w.quietZone z (s.zone z).pendingSlot).rampDone z
      · exact (hreport.ends z hE).noOutput
      · exact (hreport.stays z hE).noOutput
    rw [hzone, Bool.eq_false_iff]
    intro hno
    obtain ⟨hpower, -⟩ := (hmark z hz).1 hno
    have hq := hedits.self
    rw [ZoneRec.sameButDerived] at hq
    rw [hq] at hpower
    exact nomatch (show Power.quieting = .on from hpower)
  · exact reported.mono (hend.raised hz hn hg) (hwgrown.trans hraises.2)
  · rw [hentry.outputs, houtputs]
  · rw [hentry.outs o]
    simp only [hsilent, hout]
  · exact (hchanges.mono (by decide)).trans hentry.changes

end Sys2Proof.Machine

end

section
/-! PROOFS. The Delay Memory Controller's own operations keep the DRAM's list in its form and the segment table in order
(R113, R122 to R136). -/

open Sys2Proof Sys2Proof.Machine

namespace Sys2Proof.Machine

/-! ### The table in order -/

/-- A segment in order, over the bad rows and the output whose segment the compaction moves. -/
structure Segment.Fits (bad : List Nat) (cur : Option (Fin 13)) (g : Segment) : Prop where
  long : pagesFor g.delay ≤ g.count
  top : g.base + g.count ≤ 1024
  low : 256 * g.base ≤ g.writePos
  high : g.writePos < 256 * (g.base + g.count)
  good : ∀ p, p < 1024 → g.holds p → bad.contains (p / 4) = false
  change : ∀ c, g.change = some c → g.changeOk c
  move : ∀ m, g.move = some m → m.target < g.base ∧ m.copied < g.count ∧ cur = some g.output

/-- No page is held by both of two segments. -/
def Segment.Apart (g h : Segment) : Prop := ∀ p, p < 1024 → ¬ (g.holds p ∧ h.holds p)

/-- A list of segments in order. -/
structure TableOk (bad : List Nat) (cur : Option (Fin 13)) (l : List Segment) : Prop where
  nodup : (l.map (·.output)).Nodup
  sorted : l.Pairwise (fun g h => g.base < h.base)
  fits : ∀ g, g ∈ l → g.Fits bad cur
  apart : l.Pairwise Segment.Apart

/-- The output whose segment the compaction moves. -/
def DelayState.moving (d : DelayState) : Option (Fin 13) := d.compaction.bind (·.current)

/-- The controller's part of the invariant of the segment table. -/
structure DelayState.InOrder (d : DelayState) : Prop where
  table : TableOk d.badRows d.moving d.segments
  ready : d.segments ≠ [] → d.state = .ready
  checks : d.check ≠ none → d.state = .initializing

theorem DelayState.segmentOk_iff {d : DelayState} {g : Segment} : d.segmentOk g ↔ g.Fits d.badRows d.moving := by
  have hmoving : (∃ c, d.compaction = some c ∧ c.current = some g.output) ↔ d.moving = some g.output := by
    rw [DelayState.moving, Option.bind_eq_some_iff]
  refine ⟨fun ⟨h1, h2, h3, h4, h5, h6, h7⟩ => ⟨h1, h2, h3, h4, h5, h6, fun m hm => ?_⟩,
    fun ⟨h1, h2, h3, h4, h5, h6, h7⟩ => ⟨h1, h2, h3, h4, h5, h6, fun m hm => ?_⟩⟩
  · obtain ⟨ht, hc, hcur⟩ := h7 m hm
    exact ⟨ht, hc, hmoving.1 hcur⟩
  · obtain ⟨ht, hc, hcur⟩ := h7 m hm
    exact ⟨ht, hc, hmoving.2 hcur⟩

theorem State.segmentsOk_iff {s : State} : s.segmentsOk ↔ s.delay.InOrder := by
  refine ⟨fun ⟨h1, h2, h3, h4, h5, h6⟩ => ⟨⟨h1, h2, fun g hg => DelayState.segmentOk_iff.1 (h3 g hg), h4⟩, h5, h6⟩,
    fun ⟨⟨h1, h2, h3, h4⟩, h5, h6⟩ => ⟨h1, h2, fun g hg => DelayState.segmentOk_iff.2 (h3 g hg), h4, h5, h6⟩⟩

theorem Segment.Apart.symm {g h : Segment} (hgh : g.Apart h) : h.Apart g := fun p hp ⟨h1, h2⟩ => hgh p hp ⟨h2, h1⟩

theorem Segment.hasPage_iff {g : Segment} {p : Nat} : g.hasPage p = true ↔ g.base ≤ p ∧ p < g.base + g.count := inPages_iff

theorem Segment.Fits.pos {bad : List Nat} {cur : Option (Fin 13)} {g : Segment} (h : g.Fits bad cur) : 0 < g.count := by
  have h1 := h.low
  have h2 := h.high
  omega

theorem Segment.Fits.holds_base {bad : List Nat} {cur : Option (Fin 13)} {g : Segment} (h : g.Fits bad cur) :
    g.holds g.base := .inl (Segment.hasPage_iff.2 ⟨le_rfl, by have := h.pos; omega⟩)

theorem Segment.Fits.base_ne {bad : List Nat} {cur : Option (Fin 13)} {g h : Segment} (hg : g.Fits bad cur)
    (hh : h.Fits bad cur) (ha : g.Apart h) : g.base ≠ h.base := by
  intro heq
  refine ha g.base ?_ ⟨hg.holds_base, heq ▸ hh.holds_base⟩
  have h1 := hg.top
  have h2 := hg.pos
  omega

/-- Two segments of a table in order for one output are one. -/
theorem TableOk.unique {bad : List Nat} {cur : Option (Fin 13)} {l : List Segment} (h : TableOk bad cur l) {g k : Segment}
    (hg : g ∈ l) (hk : k ∈ l) (ho : g.output = k.output) : g = k :=
  List.inj_on_of_nodup_map h.nodup hg hk ho

theorem TableOk.apart_of_ne {bad : List Nat} {cur : Option (Fin 13)} {l : List Segment} (h : TableOk bad cur l) {g k : Segment}
    (hg : g ∈ l) (hk : k ∈ l) (hne : g.output ≠ k.output) : g.Apart k := by
  have hsymm : Std.Symm Segment.Apart := ⟨fun _ _ ha => ha.symm⟩
  exact h.apart.forall hg hk fun heq => hne (heq ▸ rfl)

/-- A table from which segments have been taken. -/
theorem TableOk.filter {bad : List Nat} {cur : Option (Fin 13)} {l : List Segment} (h : TableOk bad cur l)
    (f : Segment → Bool) : TableOk bad cur (l.filter f) where
  nodup := h.nodup.sublist (List.filter_sublist.map _)
  sorted := h.sorted.filter f
  fits := fun g hg => h.fits g (List.mem_of_mem_filter hg)
  apart := h.apart.filter f

theorem insertSegment_strict (g : Segment) {l : List Segment} (h : l.Pairwise (fun a b => a.base < b.base))
    (hne : ∀ a, a ∈ l → g.base ≠ a.base) : (insertSegment g l).Pairwise (fun a b => a.base < b.base) := by
  have hle := insertSegment_sorted g (h.imp fun hab => hab.le)
  have hnodup : (insertSegment g l).Pairwise (fun a b => a.base ≠ b.base) := by
    refine ((insertSegment_perm g l).pairwise_iff fun hab => hab.symm).2 (List.pairwise_cons.2 ⟨hne, h.imp fun hab => hab.ne⟩)
  exact hle.imp₂ (fun _ _ h1 h2 => lt_of_le_of_ne h1 h2) hnodup

/-- A table into which a segment of another output, apart from all of it, has been put. -/
theorem TableOk.insert {bad : List Nat} {cur : Option (Fin 13)} {l : List Segment} (h : TableOk bad cur l) {g : Segment}
    (hg : g.Fits bad cur) (hne : ∀ a, a ∈ l → a.output ≠ g.output) (ha : ∀ a, a ∈ l → g.Apart a) :
    TableOk bad cur (insertSegment g l) where
  nodup := by
    rw [((insertSegment_perm g l).map (·.output)).nodup_iff, List.map_cons, List.nodup_cons]
    refine ⟨fun hmem => ?_, h.nodup⟩
    obtain ⟨a, hal, ho⟩ := List.mem_map.1 hmem
    exact hne a hal ho
  sorted := insertSegment_strict g h.sorted fun a hal => hg.base_ne (h.fits a hal) (ha a hal)
  fits := fun a hal => by
    obtain rfl | hal := List.mem_cons.1 ((insertSegment_perm g l).mem_iff.1 hal)
    · exact hg
    · exact h.fits a hal
  apart := ((insertSegment_perm g l).pairwise_iff fun hab => hab.symm).2 (List.pairwise_cons.2 ⟨ha, h.apart⟩)

/-- A table in which the segment of an output has been replaced. -/
theorem TableOk.replace {bad : List Nat} {cur : Option (Fin 13)} {l : List Segment} (h : TableOk bad cur l) {g : Segment}
    {o : Fin 13} (ho : g.output = o) (hg : g.Fits bad cur) (ha : ∀ a, a ∈ l → a.output ≠ o → g.Apart a) :
    TableOk bad cur (insertSegment g (l.filter (fun a => a.output != o))) := by
  refine (h.filter _).insert hg (fun a hal => ?_) fun a hal => ?_
  · rw [ho]; simpa using List.of_mem_filter hal
  · exact ha a (List.mem_of_mem_filter hal) (by simpa using List.of_mem_filter hal)

/-- Without a move the compaction does not matter to the table. -/
theorem TableOk.free {bad : List Nat} {cur cur' : Option (Fin 13)} {l : List Segment} (h : TableOk bad cur l)
    (hm : ∀ g, g ∈ l → g.move = none) : TableOk bad cur' l where
  nodup := h.nodup
  sorted := h.sorted
  fits := fun g hg => { h.fits g hg with move := fun _ hmove => (nomatch (hm g hg).symm.trans hmove) }
  apart := h.apart

/-- Only the segment that the compaction moves has a move. -/
theorem TableOk.move_none {bad : List Nat} {cur : Option (Fin 13)} {l : List Segment} (h : TableOk bad cur l) {g : Segment}
    (hg : g ∈ l) (hne : cur ≠ some g.output) : g.move = none := by
  cases hm : g.move with
  | none => rfl
  | some m => exact absurd ((h.fits g hg).move m hm).2.2 hne

theorem Segment.Apart.of_holds {g k a : Segment} (h : k.Apart a) (hsub : ∀ p, g.holds p → k.holds p) : g.Apart a :=
  fun p hp ⟨h1, h2⟩ => h p hp ⟨hsub p h1, h2⟩

/-- A segment of the table has been rewritten, holding no more pages than before. -/
theorem TableOk.rewrite {bad : List Nat} {cur : Option (Fin 13)} {l : List Segment} (h : TableOk bad cur l) {g k : Segment}
    {o : Fin 13} (hk : k ∈ l) (hko : k.output = o) (ho : g.output = o) (hg : g.Fits bad cur)
    (hsub : ∀ p, g.holds p → k.holds p) : TableOk bad cur (insertSegment g (l.filter (fun a => a.output != o))) :=
  h.replace ho hg fun a hal hne => (h.apart_of_ne hk hal (by rw [hko]; exact hne.symm)).of_holds hsub

/-! ### Steps of the controller -/

/-- What an operation of the controller keeps: the form of the DRAM's list and the order of the table. -/
structure DelayKept (d e : DelayState) : Prop where
  dram : Dram.wf d.dram = true → Dram.wf e.dram = true
  order : d.InOrder → e.InOrder

theorem DelayKept.refl (d : DelayState) : DelayKept d d := ⟨id, id⟩

theorem DelayKept.trans {d e f : DelayState} (h1 : DelayKept d e) (h2 : DelayKept e f) : DelayKept d f :=
  ⟨h2.dram ∘ h1.dram, h2.order ∘ h1.order⟩

/-- Changes of the reference and of the starved list. -/
theorem DelayKept.of_same {d e : DelayState} (hs : e.segments = d.segments) (hb : e.badRows = d.badRows)
    (hc : e.compaction = d.compaction) (hst : e.state = d.state) (hck : e.check = d.check) (hd : e.dram = d.dram) :
    DelayKept d e := by
  refine ⟨fun h => hd ▸ h, fun ⟨h1, h2, h3⟩ => ⟨?_, ?_, ?_⟩⟩
  · rw [hs, hb, DelayState.moving, hc]; exact h1
  · rw [hs, hst]; exact h2
  · rw [hck, hst]; exact h3

/-- A table in READY, where no check runs and other segments stand than before. -/
theorem DelayState.InOrder.withTable {d e : DelayState} (h : d.InOrder) (hr : d.state = .ready) (hst : e.state = d.state)
    (hck : e.check = d.check) (ht : TableOk e.badRows e.moving e.segments) : e.InOrder :=
  ⟨ht, fun _ => hst.trans hr, fun hc => hst.trans (h.checks (hck ▸ hc))⟩

theorem DelayState.InOrder.ready_of_mem {d : DelayState} (h : d.InOrder) {g : Segment} (hg : g ∈ d.segments) :
    d.state = .ready := h.ready (List.ne_nil_of_mem hg)

/-- The segment of an output has been rewritten, holding no more pages than before. -/
theorem DelayState.InOrder.rewrite {d : DelayState} (h : d.InOrder) {g k : Segment} {o : Fin 13} (hk : d.segment o = some k)
    (ho : g.output = o) (hg : g.Fits d.badRows d.moving) (hsub : ∀ p, g.holds p → k.holds p) :
    (d.setSegment o g).InOrder := by
  obtain ⟨hmem, hko⟩ := DelayState.segment_mem hk
  exact h.withTable (e := d.setSegment o g) (h.ready_of_mem hmem) rfl rfl (h.table.rewrite hmem hko ho hg hsub)

/-! ### Cleared lines (R105, R123) -/

theorem Segment.Fits.cleared {bad : List Nat} {cur : Option (Fin 13)} {g : Segment} (h : g.Fits bad cur) :
    ({ g with writePos := g.base * pageWords } : Segment).Fits bad cur where
  long := h.long
  top := h.top
  low := (Nat.mul_comm _ _).le
  high := by
    have := h.pos
    change g.base * 256 < 256 * (g.base + g.count)
    omega
  good := h.good
  change := h.change
  move := h.move

/-- The line of an output's segment is cleared, the segment being rewritten to one that holds no more pages. -/
theorem DelayState.clearLine_kept {d : DelayState} {g k : Segment} {o : Fin 13} (hk : d.segment o = some k) (ho : g.output = o)
    (hg : d.InOrder → g.Fits d.badRows d.moving) (hsub : ∀ p, g.holds p → k.holds p) : DelayKept d (d.clearLine g) where
  dram := fun h => Dram.clear_wf h _ _
  order := fun h => by
    have hlaid : ({ d with dram := Dram.clear d.dram (g.base * pageWords) (g.count * pageWords) } : DelayState).InOrder :=
      ⟨h.table, h.ready, h.checks⟩
    have := hlaid.rewrite (g := { g with writePos := g.base * pageWords }) (o := o) hk ho (hg h).cleared hsub
    rw [← ho] at this
    exact this

theorem DelayState.clearCopied_kept (d : DelayState) (g : Segment) : DelayKept d (d.clearCopied g) := by
  unfold DelayState.clearCopied
  split
  · exact ⟨fun h => Dram.clear_wf h _ _, fun h => ⟨h.table, h.ready, h.checks⟩⟩
  · exact .refl d

/-! ### Freeing (R130) -/

theorem DelayState.removeSegment_kept (d : DelayState) (o : Fin 13) : DelayKept d (d.removeSegment o) where
  dram := id
  order := fun h => ⟨h.table.filter _, fun hne => h.ready fun hnil => hne (by
    change d.segments.filter _ = []
    rw [hnil]; rfl), h.checks⟩

/-! ### New segments (R125) -/

theorem DelayState.pageFree_good {d : DelayState} {p : Nat} (h : d.pageFree p = true) : d.badRows.contains (p / 4) = false := by
  simp only [DelayState.pageFree, Bool.and_eq_true, Bool.not_eq_true', DelayState.pageBad] at h
  exact h.1.2

theorem DelayState.pageFree_unheld {d : DelayState} {p : Nat} (h : d.pageFree p = true) {g : Segment} (hg : g ∈ d.segments) :
    ¬ g.holds p := by
  simp only [DelayState.pageFree, Bool.and_eq_true, Bool.not_eq_true', DelayState.pageAllocated, List.any_eq_false,
    Bool.or_eq_true] at h
  exact h.2 g hg

theorem Segment.holds_plain {g : Segment} (hc : g.change = none) (hm : g.move = none) (p : Nat) :
    g.holds p ↔ g.hasPage p = true := by
  simp [Segment.holds, Segment.claims, hc, hm]

theorem newSegment_holds (r : Fin 13 × Nat) (b p : Nat) : (newSegment r b).holds p ↔ b ≤ p ∧ p < b + pagesFor r.2 := by
  rw [Segment.holds_plain rfl rfl, Segment.hasPage_iff]; rfl

/-- The segment of a request, placed on free pages, is in order. -/
theorem newSegment_fits {d : DelayState} {placed : List (Nat × Nat)} {r : Fin 13 × Nat} {b : Nat}
    (h : freeRun d placed (pagesFor r.2) b) (cur : Option (Fin 13)) : (newSegment r b).Fits d.badRows cur where
  long := le_rfl
  top := by
    have hpos := pagesFor_pos r.2
    have := DelayState.pageFree_lt (h (pagesFor r.2 - 1) (by omega)).1
    change b + pagesFor r.2 ≤ 1024
    omega
  low := le_rfl
  high := by
    have hpos := pagesFor_pos r.2
    change 256 * b < 256 * (b + pagesFor r.2)
    omega
  good := fun p _ hp => by
    obtain ⟨hlow, hhigh⟩ := (newSegment_holds r b p).1 hp
    have := (h (p - b) (by omega)).1
    rw [Nat.add_sub_cancel' hlow] at this
    exact d.pageFree_good this
  change := fun c hc => nomatch hc
  move := fun m hm => nomatch hm

/-- While a request is placed: the segments so far are in order, and hold pages of the table before or of the runs placed. -/
structure Placing (d : DelayState) (placed : List (Nat × Nat)) (e : DelayState) : Prop where
  rest : e = { d with segments := e.segments, dram := e.dram }
  dram : Dram.wf d.dram = true → Dram.wf e.dram = true
  table : TableOk e.badRows e.moving e.segments
  held : ∀ g, g ∈ e.segments → ∀ p, g.holds p → (∃ k, k ∈ d.segments ∧ k.holds p) ∨ ∃ r, r ∈ placed ∧ r.1 ≤ p ∧ p < r.1 + r.2

theorem Placing.create {d e : DelayState} {placed : List (Nat × Nat)} (h : Placing d placed e) {r : Fin 13 × Nat} {b : Nat}
    (hrun : freeRun d placed (pagesFor r.2) b) : Placing d ((b, pagesFor r.2) :: placed) (e.create r.1 r.2 b (pagesFor r.2)) := by
  have hseg : e.create r.1 r.2 b (pagesFor r.2) =
      { e with segments := insertSegment (newSegment r b) (e.segments.filter (fun a => a.output != r.1))
               dram := Dram.clear e.dram (b * pageWords) (pagesFor r.2 * pageWords) } := by
    rw [newSegment, Nat.mul_comm 256 b]; rfl
  have hbad : e.badRows = d.badRows := by rw [h.rest]
  have hapart (a : Segment) (ha : a ∈ e.segments) : (newSegment r b).Apart a := by
    intro p _ ⟨hnew, hold⟩
    obtain ⟨hlow, hhigh⟩ := (newSegment_holds r b p).1 hnew
    obtain ⟨hfree, hplaced⟩ := hrun (p - b) (by omega)
    rw [Nat.add_sub_cancel' hlow] at hfree hplaced
    obtain ⟨k, hk, hkp⟩ | ⟨q, hq, hqp⟩ := h.held a ha p hold
    · exact DelayState.pageFree_unheld hfree hk hkp
    · exact hplaced q hq hqp
  rw [hseg]
  refine ⟨?_, fun hd => Dram.clear_wf (h.dram hd) _ _, ?_, fun g hg p hp => ?_⟩
  · rw [h.rest]
  · exact h.table.replace rfl (hbad ▸ newSegment_fits hrun _) fun a ha _ => hapart a ha
  · obtain rfl | hg := List.mem_cons.1 ((insertSegment_perm _ _).mem_iff.1 hg)
    · exact .inr ⟨_, List.mem_cons_self, (newSegment_holds r b p).1 hp⟩
    · exact (h.held g (List.mem_of_mem_filter hg) p hp).imp_right fun ⟨q, hq, hqp⟩ => ⟨q, List.mem_cons_of_mem _ hq, hqp⟩

theorem Placing.creates {d e : DelayState} {placed : List (Nat × Nat)} (h : Placing d placed e) {reqs : List (Fin 13 × Nat)}
    {bases : List Nat} (hb : placedAt d placed reqs bases) :
    ∃ placed', Placing d placed' ((runsOf reqs bases).foldl (fun d (o, t, b, n) => d.create o t b n) e) := by
  induction reqs generalizing placed e bases with
  | nil => exact ⟨placed, by simpa [runsOf] using h⟩
  | cons r reqs ih =>
    cases bases with
    | nil => exact absurd hb id
    | cons b bases =>
      obtain ⟨hrun, -, hrest⟩ := hb
      exact ih (h.create hrun) hrest

theorem DelayState.creates_wf (runs : List (Fin 13 × Nat × Nat × Nat)) {d : DelayState} (h : Dram.wf d.dram = true) :
    Dram.wf (runs.foldl (fun d (o, t, b, n) => d.create o t b n) d).dram = true := by
  induction runs generalizing d with
  | nil => exact h
  | cons r runs ih => exact ih (Dram.clear_wf h _ _)

/-- A granted request leaves the table in order (R125). -/
theorem DelayState.request_kept {d e : DelayState} {reqs : List (Fin 13 × Nat)} (h : d.request reqs = .ok e) :
    DelayKept d e := by
  obtain ⟨-, rfl⟩ | ⟨-, hready, -, bases, hb, he⟩ := DelayState.request_ok h
  · exact .refl _
  · refine ⟨fun hd => he ▸ DelayState.creates_wf _ hd, fun hd => ?_⟩
    have hstart : Placing d [] d := ⟨rfl, id, hd.table, fun g hg p hp => .inl ⟨g, hg, hp⟩⟩
    obtain ⟨placed, hplaced⟩ := hstart.creates hb
    rw [← he] at hplaced
    exact hd.withTable hready (by rw [hplaced.rest]) (by rw [hplaced.rest]) hplaced.table

end Sys2Proof.Machine

end

section
/-! PROOFS. Change requests (R126, R127): the pending changes that the controller places are those of the rules, and leave
the segment table in order. -/

open Sys2Proof Sys2Proof.Machine

namespace Sys2Proof.Machine

/-! ### The class and the place of one change (R126, R127) -/

/-- The pending change that a segment takes for a new total delay, where a claim may take the pages that pass a test. -/
def changeClass (ok : Nat → Prop) (g : Segment) (t : Nat) (c : PendingChange) : Prop :=
  let n := pagesFor t
  let run := fun b m => ∀ i, i < m → ok (b + i)
  c.delay = t ∧ c.count = n ∧
  (n = g.count → c.kind = .retime ∧ c.base = g.base) ∧
  (n < g.count → c.kind = .shrink ∧ c.base = g.base) ∧
  (g.count < n →
    (run (g.base + g.count) (n - g.count) → c.kind = .grow ∧ c.base = g.base) ∧
    (¬ run (g.base + g.count) (n - g.count) → c.kind = .relocate ∧ run c.base n ∧ ∀ b, b < c.base → ¬ run b n))

theorem changeClass_congr {ok ok' : Nat → Prop} (h : ∀ p, ok p ↔ ok' p) (g : Segment) (t : Nat) (c : PendingChange) :
    changeClass ok g t c ↔ changeClass ok' g t c := by
  simp only [changeClass, h]

theorem placeChange_eq_some_iff {ok : Nat → Bool} (hok : ∀ p, ok p = true → p < 1024) {g : Segment} {t : Nat}
    {c : PendingChange} : placeChange ok g t = some c ↔ changeClass (fun p => ok p = true) g t c := by
  have hfit (b : Nat) := firstFit_eq_some_iff (b := b) hok (pagesFor_pos t)
  have hrun : ((List.range (pagesFor t - g.count)).all fun i => ok (g.base + g.count + i)) = true ↔
      ∀ i, i < pagesFor t - g.count → ok (g.base + g.count + i) = true := by
    simp [List.all_eq_true, List.mem_range]
  obtain ⟨kind, delay, base, count⟩ := c
  unfold placeChange changeClass
  dsimp only
  split
  · next heq =>
    rw [Option.some.injEq, PendingChange.mk.injEq]
    refine ⟨fun ⟨h1, h2, h3, h4⟩ => ⟨h2.symm, h4.symm, fun _ => ⟨h1.symm, h3.symm⟩, fun h => absurd heq h.ne,
      fun h => absurd heq h.ne'⟩, fun ⟨h1, h2, h3, _, _⟩ => ?_⟩
    obtain ⟨hk, hb⟩ := h3 heq
    exact ⟨hk.symm, h1.symm, hb.symm, h2.symm⟩
  · next hne =>
    split
    · next hlt =>
      rw [Option.some.injEq, PendingChange.mk.injEq]
      refine ⟨fun ⟨h1, h2, h3, h4⟩ => ⟨h2.symm, h4.symm, fun h => absurd h hne, fun _ => ⟨h1.symm, h3.symm⟩,
        fun h => absurd hlt h.not_gt⟩, fun ⟨h1, h2, _, h3, _⟩ => ?_⟩
      obtain ⟨hk, hb⟩ := h3 hlt
      exact ⟨hk.symm, h1.symm, hb.symm, h2.symm⟩
    · next hnlt =>
      have hgt : g.count < pagesFor t := by omega
      split
      · next hgrow =>
        rw [Option.some.injEq, PendingChange.mk.injEq]
        refine ⟨fun ⟨h1, h2, h3, h4⟩ => ⟨h2.symm, h4.symm, fun h => absurd h hne, fun h => absurd h hnlt,
          fun _ => ⟨fun _ => ⟨h1.symm, h3.symm⟩, fun h => absurd (hrun.1 hgrow) h⟩⟩, fun ⟨h1, h2, _, _, h3⟩ => ?_⟩
        obtain ⟨hk, hb⟩ := (h3 hgt).1 (hrun.1 hgrow)
        exact ⟨hk.symm, h1.symm, hb.symm, h2.symm⟩
      · next hstay =>
        rw [hrun] at hstay
        simp only [Option.map_eq_some_iff, PendingChange.mk.injEq]
        refine ⟨fun ⟨b, h0, h1, h2, h3, h4⟩ => ⟨h2.symm, h4.symm, fun h => absurd h hne, fun h => absurd h hnlt,
          fun _ => ⟨fun h => absurd h hstay, fun _ => ⟨h1.symm, h3 ▸ (hfit b).1 h0⟩⟩⟩, fun ⟨h1, h2, _, _, h3⟩ => ?_⟩
        obtain ⟨hk, hb⟩ := (h3 hgt).2 hstay
        exact ⟨base, (hfit base).2 hb, hk.symm, h1.symm, rfl, h2.symm⟩

/-! ### The places of several changes (R127) -/

/-- A covered segment with its new total delay and the pending change it takes. -/
structure Covered where
  segment : Segment
  delay : Nat
  change : PendingChange

/-- The pages that a change may claim after those of lower outputs have been placed. -/
def claimable (ok : Nat → Prop) (T : List Covered) (o : Fin 13) (p : Nat) : Prop :=
  ok p ∧ ∀ x, x ∈ T → x.segment.output < o → changeClaims x.segment x.change p = false

theorem placeChanges_eq_some_iff {ok : Nat → Bool} (hok : ∀ p, ok p = true → p < 1024) {T : List Covered}
    (hT : T.Pairwise (fun x y => x.segment.output < y.segment.output)) :
    placeChanges ok (T.map fun x => (x.segment, x.delay)) = some (T.map fun x => (x.segment.output, x.change)) ↔
      ∀ x, x ∈ T → changeClass (claimable (fun p => ok p = true) T x.segment.output) x.segment x.delay x.change := by
  induction T generalizing ok with
  | nil => simp [placeChanges]
  | cons x T ih =>
    obtain ⟨hx, hsorted⟩ := List.pairwise_cons.1 hT
    have hhead (p : Nat) : claimable (fun p => ok p = true) (x :: T) x.segment.output p ↔ ok p = true := by
      refine ⟨fun h => h.1, fun h => ⟨h, fun y hy hlt => ?_⟩⟩
      obtain rfl | hy := List.mem_cons.1 hy
      · exact absurd hlt (lt_irrefl _)
      · exact absurd hlt (hx y hy).not_gt
    have htail {y : Covered} (hy : y ∈ T) (p : Nat) : claimable (fun p => ok p = true) (x :: T) y.segment.output p ↔
        claimable (fun p => (ok p && !changeClaims x.segment x.change p) = true) T y.segment.output p := by
      simp only [claimable, List.forall_mem_cons, Bool.and_eq_true, Bool.not_eq_true', hx y hy, true_implies, and_assoc]
    rw [List.forall_mem_cons, changeClass_congr hhead, ← placeChange_eq_some_iff hok]
    rw [List.map_cons, List.map_cons, placeChanges]
    have hrest := ih (ok := fun p => ok p && !changeClaims x.segment x.change p)
      (fun p hp => hok p (Bool.and_eq_true_iff.1 hp).1) hsorted
    have hrest' : (∀ y, y ∈ T → changeClass (claimable (fun p => ok p = true) (x :: T) y.segment.output) y.segment y.delay
        y.change) ↔ placeChanges (fun p => ok p && !changeClaims x.segment x.change p) (T.map fun x => (x.segment, x.delay)) =
          some (T.map fun x => (x.segment.output, x.change)) := by
      rw [hrest]
      exact forall₂_congr fun y hy => changeClass_congr (htail hy) ..
    rw [hrest']
    cases hp : placeChange ok x.segment x.delay with
    | none => simp
    | some c =>
      simp only [Option.map_eq_some_iff, List.cons.injEq, Prod.mk.injEq, true_and, Option.some.injEq]
      constructor
      · rintro ⟨l, hl, rfl, rfl⟩
        exact ⟨rfl, hl⟩
      · rintro ⟨rfl, hl⟩
        exact ⟨_, hl, rfl, rfl⟩

/-- What the controller places is a list of changes of the covered segments. -/
theorem placeChanges_covers {ok : Nat → Bool} {segs : List (Segment × Nat)} {l : List (Fin 13 × PendingChange)}
    (h : placeChanges ok segs = some l) :
    ∃ T : List Covered, segs = T.map (fun x => (x.segment, x.delay)) ∧ l = T.map fun x => (x.segment.output, x.change) := by
  induction segs generalizing ok l with
  | nil => exact ⟨[], rfl, (Option.some.inj h).symm⟩
  | cons s segs ih =>
    obtain ⟨g, t⟩ := s
    rw [placeChanges] at h
    split at h
    · cases h
    · next c _ =>
      obtain ⟨l', hl', rfl⟩ := Option.map_eq_some_iff.1 h
      obtain ⟨T, rfl, rfl⟩ := ih hl'
      exact ⟨⟨g, t, c⟩ :: T, rfl, rfl⟩

/-! ### The segments that a request names and covers (R126) -/

/-- The outputs that have a new total delay, in ascending order. -/
def wantList (want : Fin 13 → Option Nat) : List (Fin 13 × Nat) := allOutputs.filterMap fun o => (want o).map fun t => (o, t)

theorem mem_wantList {want : Fin 13 → Option Nat} {o : Fin 13} {t : Nat} : (o, t) ∈ wantList want ↔ want o = some t := by
  simp [wantList, mem_allOutputs]

theorem mem_named {d : DelayState} (hn : (d.segments.map (·.output)).Nodup) {want : Fin 13 → Option Nat} {g : Segment} {t : Nat} :
    (g, t) ∈ d.named (wantList want) ↔ g ∈ d.segments ∧ want g.output = some t := by
  simp only [DelayState.named, List.mem_filterMap, Prod.exists, mem_wantList, Option.map_eq_some_iff, Prod.mk.injEq]
  constructor
  · rintro ⟨o, u, hu, k, hk, rfl, rfl⟩
    obtain ⟨hmem, rfl⟩ := DelayState.segment_mem hk
    exact ⟨hmem, hu⟩
  · rintro ⟨hg, ht⟩
    refine ⟨g.output, t, ht, g, ?_, rfl, rfl⟩
    cases hs : d.segment g.output with
    | none => exact absurd rfl (DelayState.segment_eq_none_iff.1 hs g hg)
    | some k =>
      obtain ⟨hk, ho⟩ := DelayState.segment_mem hs
      rw [List.inj_on_of_nodup_map hn hk hg ho]

theorem named_sorted (d : DelayState) (want : Fin 13 → Option Nat) :
    (d.named (wantList want)).Pairwise (fun a b => a.1.output < b.1.output) := by
  have hall : allOutputs.Pairwise (· < ·) := by decide
  have hlist : (wantList want).Pairwise (fun a b => a.1 < b.1) := by
    refine List.Pairwise.filterMap _ (fun a b hab x hx y hy => ?_) hall
    obtain ⟨t, -, rfl⟩ := Option.map_eq_some_iff.1 hx
    obtain ⟨u, -, rfl⟩ := Option.map_eq_some_iff.1 hy
    exact hab
  refine List.Pairwise.filterMap _ (fun a b hab x hx y hy => ?_) hlist
  obtain ⟨g, hg, rfl⟩ := Option.map_eq_some_iff.1 hx
  obtain ⟨k, hk, rfl⟩ := Option.map_eq_some_iff.1 hy
  rw [(DelayState.segment_mem hg).2, (DelayState.segment_mem hk).2]
  exact hab

theorem dropChanges_eq {d : DelayState} (hn : (d.segments.map (·.output)).Nodup) (want : Fin 13 → Option Nat) :
    d.dropChanges ((d.named (wantList want)).map fun (g, _) => g.output) = d.withoutChanges want := by
  rw [DelayState.dropChanges, DelayState.withoutChanges]
  congr 1
  refine List.map_congr_left fun g hg => ?_
  have : (((d.named (wantList want)).map fun (g, _) => g.output).contains g.output) = (want g.output).isSome := by
    rw [Bool.eq_iff_iff, List.contains_iff_mem, List.mem_map, Option.isSome_iff_exists]
    constructor
    · rintro ⟨⟨k, t⟩, hk, ho⟩
      exact ⟨t, ho ▸ ((mem_named hn).1 hk).2⟩
    · rintro ⟨t, ht⟩
      exact ⟨(g, t), (mem_named hn).2 ⟨hg, ht⟩, rfl⟩
  rw [this]

/-- The segments that a request covers, each with its new total delay. -/
def DelayState.covered (d : DelayState) (want : Fin 13 → Option Nat) : List (Segment × Nat) :=
  (d.named (wantList want)).filter fun (g, t) => t != g.delay

theorem mem_covered {d : DelayState} (hn : (d.segments.map (·.output)).Nodup) {want : Fin 13 → Option Nat} {g : Segment} {t : Nat} :
    (g, t) ∈ d.covered want ↔ g ∈ d.segments ∧ want g.output = some t ∧ t ≠ g.delay := by
  rw [DelayState.covered, List.mem_filter, mem_named hn, and_assoc]
  simp

theorem covered_sum {d : DelayState} (hn : (d.segments.map (·.output)).Nodup) (want : Fin 13 → Option Nat) :
    ((d.covered want).map fun (g, t) => g.extraPages t).sum = d.pagesAsked want := by
  have hfilter (l : List (Segment × Nat)) : ((l.filter fun (g, t) => t != g.delay).map fun (g, t) => g.extraPages t).sum =
      (l.map fun x => if x.2 = x.1.delay then 0 else pagesFor x.2 - x.1.count).sum := by
    induction l with
    | nil => rfl
    | cons x l ih =>
      by_cases hx : x.2 = x.1.delay
      · rw [List.filter_cons_of_neg (by simpa using hx), ih, List.map_cons, List.sum_cons, if_pos hx, Nat.zero_add]
      · rw [List.filter_cons_of_pos (by simpa using hx), List.map_cons, List.map_cons, List.sum_cons, List.sum_cons, ih,
          if_neg hx]
        rfl
  have hperm : (d.named (wantList want)).Perm (d.segments.filterMap fun g => (want g.output).map fun t => (g, t)) := by
    refine (List.perm_ext_iff_of_nodup ?_ ?_).2 fun ⟨g, t⟩ => ?_
    · exact (named_sorted d want).imp fun {a b} hab heq => by rw [heq] at hab; exact lt_irrefl _ hab
    · refine List.Nodup.filterMap (fun a b x ha hb => ?_) hn.of_map
      obtain ⟨_, -, rfl⟩ := Option.map_eq_some_iff.1 ha
      obtain ⟨_, -, heq⟩ := Option.map_eq_some_iff.1 hb
      exact (congrArg Prod.fst heq).symm
    · rw [mem_named hn]
      simp
  have hsum (l : List Segment) : ((l.filterMap fun g => (want g.output).map fun t => (g, t)).map
      fun x => if x.2 = x.1.delay then 0 else pagesFor x.2 - x.1.count).sum = (l.map fun g =>
        match want g.output with
        | some t => if t = g.delay then 0 else pagesFor t - g.count
        | none => 0).sum := by
    induction l with
    | nil => rfl
    | cons g l ih =>
      rw [List.filterMap_cons, List.map_cons, List.sum_cons, ← ih]
      cases want g.output with
      | none => exact (Nat.zero_add _).symm
      | some t => rfl
  rw [DelayState.covered, hfilter, (hperm.map _).sum_eq, hsum]
  rfl

/-! ### The table that a request leaves (R126) -/

/-- A segment after a request: one that is named takes the change that has been placed for it, or none. -/
def rewritten (want : Fin 13 → Option Nat) (T : List Covered) (g : Segment) : Segment :=
  if (want g.output).isSome then { g with change := (T.find? fun x => x.segment.output == g.output).map (·.change) } else g

/-- The controller after a request whose changes have been placed. -/
def DelayState.rewritten (d : DelayState) (want : Fin 13 → Option Nat) (T : List Covered) : DelayState :=
  { d with segments := d.segments.map (Machine.rewritten want T) }

/-- The changes of a request have been placed: one for each covered segment, of its class. -/
structure PlacedChanges (d : DelayState) (want : Fin 13 → Option Nat) (T : List Covered) : Prop where
  covers : T.map (fun x => (x.segment, x.delay)) = d.covered want
  classes : ∀ x, x ∈ T → changeClass (claimable (fun p => (d.withoutChanges want).pageFree p = true) T x.segment.output)
    x.segment x.delay x.change

theorem covers_mem {d : DelayState} (hn : (d.segments.map (·.output)).Nodup) {want : Fin 13 → Option Nat} {T : List Covered}
    (hT : T.map (fun x => (x.segment, x.delay)) = d.covered want) {x : Covered} (hx : x ∈ T) :
    x.segment ∈ d.segments ∧ want x.segment.output = some x.delay ∧ x.delay ≠ x.segment.delay :=
  (mem_covered hn).1 (hT ▸ List.mem_map_of_mem hx)

theorem covers_sorted {d : DelayState} {want : Fin 13 → Option Nat} {T : List Covered}
    (hT : T.map (fun x => (x.segment, x.delay)) = d.covered want) :
    T.Pairwise (fun x y => x.segment.output < y.segment.output) := by
  have h : (T.map fun x => (x.segment, x.delay)).Pairwise (fun a b => a.1.output < b.1.output) :=
    hT ▸ (named_sorted d want).filter _
  exact (List.pairwise_map (f := fun x : Covered => (x.segment, x.delay))).1 h

theorem rewritten_unnamed {want : Fin 13 → Option Nat} {g : Segment} (T : List Covered) (h : want g.output = none) :
    rewritten want T g = g := by
  rw [rewritten, h]; rfl

theorem rewritten_covered {d : DelayState} {want : Fin 13 → Option Nat} {T : List Covered}
    (hn : (d.segments.map (·.output)).Nodup) (hT : T.map (fun x => (x.segment, x.delay)) = d.covered want) {x : Covered}
    (hx : x ∈ T) : rewritten want T x.segment = { x.segment with change := some x.change } := by
  obtain ⟨-, hw, -⟩ := covers_mem hn hT hx
  have hf : (T.find? fun y => y.segment.output == x.segment.output) = some x := by
    cases hf : T.find? fun y => y.segment.output == x.segment.output with
    | none => exact absurd (beq_self_eq_true _) (List.find?_eq_none.1 hf x hx)
    | some y =>
      have ho : y.segment.output = x.segment.output := by simpa using List.find?_some hf
      have hnodup : (T.map fun x => x.segment.output).Nodup := List.pairwise_map.2 ((covers_sorted hT).imp fun hab => hab.ne)
      rw [List.inj_on_of_nodup_map hnodup (List.mem_of_find?_eq_some hf) hx ho]
  rw [rewritten, hw, hf]
  rfl

theorem rewritten_withdrawn {d : DelayState} {want : Fin 13 → Option Nat} {T : List Covered}
    (hn : (d.segments.map (·.output)).Nodup) (hT : T.map (fun x => (x.segment, x.delay)) = d.covered want) {g : Segment}
    (hg : g ∈ d.segments) (h : want g.output = some g.delay) : rewritten want T g = { g with change := none } := by
  have hf : (T.find? fun x => x.segment.output == g.output) = none := by
    refine List.find?_eq_none.2 fun x hx ho => ?_
    obtain ⟨hmem, hw, hd⟩ := covers_mem hn hT hx
    have heq : x.segment = g := List.inj_on_of_nodup_map hn hmem hg (beq_iff_eq.1 ho)
    rw [heq, h] at hw
    exact hd (heq ▸ (Option.some.inj hw).symm)
  rw [rewritten, h, hf]
  rfl

/-- A segment of the table is not named, is named with the delay it has, or is covered. -/
theorem covers_cases {d : DelayState} {want : Fin 13 → Option Nat} {T : List Covered} (hn : (d.segments.map (·.output)).Nodup)
    (hT : T.map (fun x => (x.segment, x.delay)) = d.covered want) {g : Segment} (hg : g ∈ d.segments) :
    want g.output = none ∨ want g.output = some g.delay ∨ ∃ x, x ∈ T ∧ x.segment = g := by
  cases hw : want g.output with
  | none => exact .inl rfl
  | some t =>
    by_cases ht : t = g.delay
    · exact .inr (.inl (by rw [ht]))
    · have hmem : (g, t) ∈ T.map fun x => (x.segment, x.delay) := hT ▸ (mem_covered hn).2 ⟨hg, hw, ht⟩
      obtain ⟨x, hx, hxg⟩ := List.mem_map.1 hmem
      exact .inr (.inr ⟨x, hx, congrArg Prod.fst hxg⟩)

/-- What a segment claims: the pages of its change, and those of its move. -/
theorem Segment.claims_iff (g : Segment) (p : Nat) : g.claims p = true ↔
    (∃ c, g.change = some c ∧ changeClaims g c p = true) ∨ ({ g with change := none } : Segment).claims p = true := by
  cases hc : g.change <;> cases hm : g.move <;> simp [Segment.claims, changeClaims, hc, hm, Segment.hasPage]

theorem DelayState.withoutChanges_unclaimed {d : DelayState} {want : Fin 13 → Option Nat} {p : Nat}
    (h : (d.withoutChanges want).pageFree p = true) {g : Segment} (hg : g ∈ d.segments) :
    g.hasPage p = false ∧ ({ g with change := none } : Segment).claims p = false ∧
    (want g.output = none → g.claims p = false) := by
  have hmem := DelayState.pageFree_unheld h (List.mem_map_of_mem (f := fun g : Segment =>
    if (want g.output).isSome then { g with change := none } else g) hg)
  have hclaims (hc : ({ g with change := none } : Segment).claims p = true) : g.claims p = true := (g.claims_iff p).2 (.inr hc)
  cases hw : want g.output with
  | none =>
    simp only [hw, Option.isSome_none, Bool.false_eq_true, if_false, Segment.holds, not_or, Bool.not_eq_true] at hmem
    obtain ⟨h1, h2⟩ := hmem
    refine ⟨h1, Bool.eq_false_iff.2 fun hc => ?_, fun _ => h2⟩
    rw [hclaims hc] at h2
    cases h2
  | some t =>
    simp only [hw, Option.isSome_some, if_true, Segment.holds, not_or, Bool.not_eq_true] at hmem
    exact ⟨hmem.1, hmem.2, fun h => nomatch h⟩

theorem mayClaim_iff {d : DelayState} (hn : (d.segments.map (·.output)).Nodup) {want : Fin 13 → Option Nat} {T : List Covered}
    (hT : T.map (fun x => (x.segment, x.delay)) = d.covered want) (o : Fin 13) (p : Nat) :
    d.mayClaim (d.rewritten want T) want o p ↔
      claimable (fun p => (d.withoutChanges want).pageFree p = true) T o p := by
  refine and_congr_right fun hfree => ⟨fun h x hx hlt => ?_, fun h k hk hlt => ?_⟩
  · obtain ⟨hmem, -, -⟩ := covers_mem hn hT hx
    have hx' := h _ (List.mem_map_of_mem hmem) (by rw [rewritten_covered hn hT hx]; exact hlt)
    rw [rewritten_covered hn hT hx, Bool.eq_false_iff, ne_eq, Segment.claims_iff, not_or] at hx'
    exact Bool.eq_false_iff.2 fun hc => hx'.1 ⟨_, rfl, hc⟩
  · obtain ⟨g, hg, rfl⟩ := List.mem_map.1 hk
    obtain ⟨-, hclear, hunnamed⟩ := DelayState.withoutChanges_unclaimed hfree hg
    obtain hw | hw | ⟨x, hx, rfl⟩ := covers_cases hn hT hg
    · rw [rewritten_unnamed T hw]; exact hunnamed hw
    · rw [rewritten_withdrawn hn hT hg hw]; exact hclear
    · rw [rewritten_covered hn hT hx] at hlt ⊢
      rw [Bool.eq_false_iff, ne_eq, Segment.claims_iff, not_or]
      refine ⟨?_, Bool.eq_false_iff.1 hclear⟩
      rintro ⟨c, hc, hclaims⟩
      obtain rfl : x.change = c := Option.some.inj hc
      have := h x hx hlt
      exact absurd (this.symm.trans hclaims) Bool.false_ne_true

/-! ### The answer to a request (R126, R127) -/

theorem changeGranted_rewritten {d : DelayState} (hn : (d.segments.map (·.output)).Nodup) {want : Fin 13 → Option Nat}
    {T : List Covered} (h : PlacedChanges d want T) : changeGranted d want (d.rewritten want T) := by
  refine ⟨rfl, ?_⟩
  rw [DelayState.rewritten, List.forall₂_map_right_iff, List.forall₂_same]
  intro g hg
  obtain hw | hw | ⟨x, hx, rfl⟩ := covers_cases hn h.covers hg
  · rw [hw]; exact rewritten_unnamed T hw
  · rw [hw]
    dsimp only
    rw [if_pos rfl]
    exact rewritten_withdrawn hn h.covers hg hw
  · obtain ⟨-, hw, hd⟩ := covers_mem hn h.covers hx
    rw [hw]
    dsimp only
    rw [if_neg hd]
    refine ⟨x.change, rewritten_covered hn h.covers hx, ?_⟩
    exact (changeClass_congr (fun p => mayClaim_iff hn h.covers _ p) ..).2 (h.classes x hx)

theorem List.exists_map_of_forall₂ {α : Type} [DecidableEq α] {R : α → α → Prop} {l m : List α}
    (h : List.Forall₂ R l m) (hn : l.Nodup) : ∃ f : α → α, m = l.map f ∧ ∀ a, a ∈ l → R a (f a) := by
  induction h with
  | nil => exact ⟨id, rfl, fun a ha => absurd ha List.not_mem_nil⟩
  | @cons a b l m hab _ ih =>
    obtain ⟨ha, hl⟩ := List.nodup_cons.1 hn
    obtain ⟨f, rfl, hf⟩ := ih hl
    have hne {c : α} (hc : c ∈ l) : Function.update f a b c = f c :=
      Function.update_of_ne (by rintro rfl; exact ha hc) _ _
    refine ⟨Function.update f a b, ?_, fun c hc => ?_⟩
    · rw [List.map_cons, Function.update_self, List.map_congr_left fun c hc => hne hc]
    · obtain rfl | hc := List.mem_cons.1 hc
      · rwa [Function.update_self]
      · rw [hne hc]; exact hf c hc

/-- A granted request is one whose changes have been placed. -/
theorem placed_of_changeGranted {d d' : DelayState} (hn : (d.segments.map (·.output)).Nodup) {want : Fin 13 → Option Nat}
    (h : changeGranted d want d') : ∃ T, PlacedChanges d want T ∧ d' = d.rewritten want T := by
  obtain ⟨hrest, hall⟩ := h
  obtain ⟨f, hf, hrel⟩ := List.exists_map_of_forall₂ hall hn.of_map
  obtain ⟨T, hT⟩ : ∃ T, T = (d.covered want).map fun (g, t) =>
      Covered.mk g t ((f g).change.getD { kind := .retime, delay := 0, base := 0, count := 0 }) := ⟨_, rfl⟩
  have hcovers : T.map (fun x => (x.segment, x.delay)) = d.covered want := by
    rw [hT, List.map_map]
    exact List.map_id _
  have hchange {x : Covered} (hx : x ∈ T) : f x.segment = { x.segment with change := some x.change } ∧
      d.changeOf d' want x.segment x.delay x.change := by
    obtain ⟨hmem, hw, hd⟩ := covers_mem hn hcovers hx
    have hr := hrel _ hmem
    rw [hw] at hr
    dsimp only at hr
    rw [if_neg hd] at hr
    obtain ⟨c, hc, hclass⟩ := hr
    rw [hT] at hx
    obtain ⟨⟨g, t⟩, -, rfl⟩ := List.mem_map.1 hx
    dsimp only at *
    rw [hc]
    exact ⟨rfl, hclass⟩
  have hd' : d' = d.rewritten want T := by
    rw [hrest, hf, DelayState.rewritten]
    congr 1
    refine List.map_congr_left fun g hg => ?_
    have hr := hrel g hg
    obtain hw | hw | ⟨x, hx, rfl⟩ := covers_cases hn hcovers hg
    · rw [hw] at hr
      rw [rewritten_unnamed T hw]; exact hr
    · rw [hw] at hr
      dsimp only at hr
      rw [if_pos rfl] at hr
      rw [rewritten_withdrawn hn hcovers hg hw]; exact hr
    · rw [rewritten_covered hn hcovers hx]; exact (hchange hx).1
  refine ⟨T, ⟨hcovers, fun x hx => ?_⟩, hd'⟩
  have hclass := (hchange hx).2
  rw [hd'] at hclass
  exact (changeClass_congr (fun p => mayClaim_iff hn hcovers _ p) ..).1 hclass

theorem DelayState.withoutChanges_free_lt {d : DelayState} {want : Fin 13 → Option Nat} (p : Nat)
    (h : (d.withoutChanges want).pageFree p = true) : p < 1024 := DelayState.pageFree_lt h

theorem placedChanges_iff {d : DelayState} {want : Fin 13 → Option Nat} {T : List Covered} :
    PlacedChanges d want T ↔ T.map (fun x => (x.segment, x.delay)) = d.covered want ∧
      placeChanges (d.withoutChanges want).pageFree (d.covered want) = some (T.map fun x => (x.segment.output, x.change)) := by
  constructor
  · rintro ⟨hcovers, hclasses⟩
    refine ⟨hcovers, ?_⟩
    rw [← hcovers]
    exact (placeChanges_eq_some_iff DelayState.withoutChanges_free_lt (covers_sorted hcovers)).2 hclasses
  · rintro ⟨hcovers, hplaced⟩
    refine ⟨hcovers, ?_⟩
    rw [← hcovers] at hplaced
    exact (placeChanges_eq_some_iff DelayState.withoutChanges_free_lt (covers_sorted hcovers)).1 hplaced

/-- Some segment that a request names has claimed pages (R122, R126). -/
def DelayState.withdraws (d : DelayState) (want : Fin 13 → Option Nat) : Bool :=
  (d.named (wantList want)).any fun (g, _) => g.hasClaim

theorem withdraws_iff {d : DelayState} (hn : (d.segments.map (·.output)).Nodup) {want : Fin 13 → Option Nat} :
    d.withdraws want = true ↔ ∃ g c, g ∈ d.segments ∧ want g.output ≠ none ∧ g.change = some c ∧
      (c.kind = .grow ∨ c.kind = .relocate) := by
  have hclaim (g : Segment) : g.hasClaim = true ↔ ∃ c, g.change = some c ∧ (c.kind = .grow ∨ c.kind = .relocate) := by
    unfold Segment.hasClaim
    cases g.change with
    | none => simp
    | some c => simp
  rw [DelayState.withdraws, List.any_eq_true]
  constructor
  · rintro ⟨⟨g, t⟩, hmem, hc⟩
    obtain ⟨hg, hw⟩ := (mem_named hn).1 hmem
    obtain ⟨c, hchange, hkind⟩ := (hclaim g).1 hc
    exact ⟨g, c, hg, by rw [hw]; exact Option.some_ne_none t, hchange, hkind⟩
  · rintro ⟨g, c, hg, hw, hchange, hkind⟩
    obtain ⟨t, ht⟩ := Option.ne_none_iff_exists'.1 hw
    exact ⟨(g, t), (mem_named hn).2 ⟨hg, ht⟩, (hclaim g).2 ⟨c, hchange, hkind⟩⟩

theorem DelayState.requestChange_busy {d : DelayState} (want : List (Fin 13 × Nat))
    (h : d.state = .initializing ∨ d.compaction ≠ none) : d.requestChange want = .error .memoryBusy := by
  have hbusy : d.takesRequests = .error .memoryBusy := by
    rw [DelayState.takesRequests, if_pos (by simpa [Option.isSome_iff_ne_none] using h)]
  rw [DelayState.requestChange, hbusy]

theorem DelayState.requestChange_unready {d : DelayState} (want : List (Fin 13 × Nat)) (hc : d.compaction = none)
    (h : d.state = .uninit ∨ d.state = .fault) : d.requestChange want = .error .notReady := by
  have hunready : d.takesRequests = .error .notReady := by
    obtain h | h := h <;> simp [DelayState.takesRequests, h, hc]
  rw [DelayState.requestChange, hunready]

/-- The answer to a request of a controller in READY without a compaction, its table holding one segment for an output
(R126, R127). -/
theorem DelayState.requestChange_spec {d : DelayState} (want : Fin 13 → Option Nat) (hc : d.compaction = none)
    (hr : d.state = .ready) (hn : (d.segments.map (·.output)).Nodup) :
    ((d.withoutChanges want).freePages < d.pagesAsked want → d.requestChange (wantList want) = .error .noDelayMemory) ∧
    (d.pagesAsked want ≤ (d.withoutChanges want).freePages →
      ((¬ ∃ d', changeGranted d want d') → d.requestChange (wantList want) = .error .fragmented) ∧
      ∀ d', changeGranted d want d' → d.requestChange (wantList want) = .ok (d', d.withdraws want)) := by
  have htakes : d.takesRequests = .ok () := by
    simp [DelayState.takesRequests, hr, hc]
  have hstart : d.requestChange (wantList want) =
      if (d.withoutChanges want).freePages < d.pagesAsked want then .error .noDelayMemory
      else
        match placeChanges (d.withoutChanges want).pageFree (d.covered want) with
        | none => .error .fragmented
        | some changes => .ok ({ d.withoutChanges want with segments := (d.withoutChanges want).segments.map (fun g =>
              match changes.find? (fun oc => oc.1 == g.output) with
              | some (_, c) => { g with change := some c }
              | none => g) }, d.withdraws want) := by
    rw [← covered_sum hn, ← dropChanges_eq hn]
    rw [DelayState.requestChange, htakes]
    rfl
  refine ⟨fun hlt => by rw [hstart, if_pos hlt], fun hle => ⟨fun hno => ?_, fun d' hd' => ?_⟩⟩
  · rw [hstart, if_neg (Nat.not_lt.2 hle)]
    cases hp : placeChanges (d.withoutChanges want).pageFree (d.covered want) with
    | none => rfl
    | some l =>
      obtain ⟨T, hT, rfl⟩ := placeChanges_covers hp
      exact absurd ⟨_, changeGranted_rewritten hn (placedChanges_iff.2 ⟨hT.symm, hp⟩)⟩ hno
  · obtain ⟨T, hT, rfl⟩ := placed_of_changeGranted hn hd'
    rw [hstart, if_neg (Nat.not_lt.2 hle), (placedChanges_iff.1 hT).2]
    dsimp only
    congr 2
    rw [DelayState.rewritten, DelayState.withoutChanges]
    congr 1
    rw [List.map_map]
    refine List.map_congr_left fun g _ => ?_
    rw [Function.comp_apply, List.find?_map]
    unfold Machine.rewritten
    have hout : (if (want g.output).isSome then { g with change := none } else g : Segment).output = g.output := by
      split <;> rfl
    simp only [hout, Function.comp_def]
    cases hf : T.find? fun x => x.segment.output == g.output with
    | none => rfl
    | some x =>
      have hw : (want g.output).isSome := by
        obtain ⟨-, hw, -⟩ := covers_mem hn hT.covers (List.mem_of_find?_eq_some hf)
        rw [← (by simpa using List.find?_some hf : x.segment.output = g.output), hw]; rfl
      simp only [hw, if_true]
      rfl

/-! ### The order of the table after a request (R122, R126, R127) -/

/-- A change of its class is in order for its segment (R122). -/
theorem changeClass.changeOk {ok : Nat → Prop} {g : Segment} {t : Nat} {c : PendingChange} (h : changeClass ok g t c)
    (hm : g.move = none) (hlt : ∀ p, ok p → p < 1024) (hown : ∀ p, ok p → g.hasPage p = false) (hpos : 0 < g.count) :
    g.changeOk c := by
  obtain ⟨hdelay, hcount, hretime, hshrink, hmore⟩ := h
  refine ⟨hm, by rw [hcount, hdelay], ?_⟩
  obtain hlt' | heq | hgt := Nat.lt_trichotomy (pagesFor t) g.count
  · obtain ⟨hk, hb⟩ := hshrink hlt'
    rw [hk]
    exact ⟨hb, hcount ▸ hlt'⟩
  · obtain ⟨hk, hb⟩ := hretime heq
    rw [hk]
    exact ⟨hb, hcount.trans heq⟩
  · obtain ⟨hgrow, hmove⟩ := hmore hgt
    by_cases hrun : ∀ i, i < pagesFor t - g.count → ok (g.base + g.count + i)
    · obtain ⟨hk, hb⟩ := hgrow hrun
      rw [hk]
      have := hlt _ (hrun (pagesFor t - g.count - 1) (by omega))
      exact ⟨hb, hcount ▸ hgt, by omega⟩
    · obtain ⟨hk, hnew, -⟩ := hmove hrun
      rw [hk]
      have htop := hlt _ (hnew (pagesFor t - 1) (by omega))
      refine ⟨by omega, ?_⟩
      by_contra hno
      rw [not_or, Nat.not_le, Nat.not_le] at hno
      have hpage : g.hasPage (max c.base g.base) = true := Segment.hasPage_iff.2 (by omega)
      have := hown _ (hnew (max c.base g.base - c.base) (by omega))
      rw [show c.base + (max c.base g.base - c.base) = max c.base g.base by omega, hpage] at this
      cases this

/-- A change of its class claims pages that it may claim. -/
theorem changeClass.claims {ok : Nat → Prop} {g : Segment} {t : Nat} {c : PendingChange} (h : changeClass ok g t c) {p : Nat}
    (hp : changeClaims g c p = true) : ok p := by
  obtain ⟨-, hcount, hretime, hshrink, hmore⟩ := h
  obtain hlt' | heq | hgt := Nat.lt_trichotomy (pagesFor t) g.count
  · simp [changeClaims, Segment.claims, (hshrink hlt').1] at hp
  · simp [changeClaims, Segment.claims, (hretime heq).1] at hp
  · obtain ⟨hgrow, hmove⟩ := hmore hgt
    by_cases hrun : ∀ i, i < pagesFor t - g.count → ok (g.base + g.count + i)
    · obtain ⟨hk, hb⟩ := hgrow hrun
      simp only [changeClaims, Segment.claims, hk, Bool.or_false, inPages_iff, hcount] at hp
      have := hrun (p - (g.base + g.count)) (by omega)
      rwa [show g.base + g.count + (p - (g.base + g.count)) = p by omega] at this
    · obtain ⟨hk, hnew, -⟩ := hmove hrun
      simp only [changeClaims, Segment.claims, hk, Bool.or_false, inPages_iff, hcount] at hp
      have := hnew (p - c.base) (by omega)
      rwa [show c.base + (p - c.base) = p by omega] at this

theorem rewritten_same (want : Fin 13 → Option Nat) (T : List Covered) (g : Segment) : rewritten want T g =
    { g with change := (rewritten want T g).change } := by
  unfold rewritten
  split <;> rfl

/-- What a segment holds after a request: what it held without its change, and what its new change claims. -/
theorem PlacedChanges.holds {d : DelayState} {want : Fin 13 → Option Nat} {T : List Covered}
    (hn : (d.segments.map (·.output)).Nodup) (h : PlacedChanges d want T) {g : Segment} (hg : g ∈ d.segments) {p : Nat}
    (hp : (rewritten want T g).holds p) : g.holds p ∨ ∃ x, x ∈ T ∧ x.segment = g ∧ changeClaims g x.change p = true := by
  have hclear (hc : ({ g with change := none } : Segment).claims p = true) : g.holds p := .inr ((g.claims_iff p).2 (.inr hc))
  obtain hw | hw | ⟨x, hx, rfl⟩ := covers_cases hn h.covers hg
  · rw [rewritten_unnamed T hw] at hp; exact .inl hp
  · rw [rewritten_withdrawn hn h.covers hg hw] at hp
    exact .inl (hp.elim .inl hclear)
  · rw [rewritten_covered hn h.covers hx] at hp
    obtain hp | hp := hp
    · exact .inl (.inl hp)
    · obtain ⟨c, hc, hclaims⟩ | hc := (Segment.claims_iff _ p).1 hp
      · obtain rfl : x.change = c := Option.some.inj hc
        exact .inr ⟨x, hx, rfl, hclaims⟩
      · exact .inl (hclear hc)

/-- What a new change claims is held by no segment without its change, nor claimed by another new change. -/
theorem PlacedChanges.claims_unheld {d : DelayState} {want : Fin 13 → Option Nat} {T : List Covered}
    (hn : (d.segments.map (·.output)).Nodup) (h : PlacedChanges d want T) {x : Covered} (hx : x ∈ T) {p : Nat}
    (hp : changeClaims x.segment x.change p = true) {k : Segment} (hk : k ∈ d.segments) (hne : k.output ≠ x.segment.output) :
    ¬ (rewritten want T k).holds p := by
  obtain ⟨hfree, hlower⟩ := (h.classes x hx).claims hp
  obtain ⟨hpage, hclear, hunnamed⟩ := DelayState.withoutChanges_unclaimed hfree hk
  rintro (hhold | hhold)
  · rw [rewritten_same, Segment.hasPage] at hhold
    exact absurd (hpage.symm.trans hhold) Bool.false_ne_true
  · obtain hw | hw | ⟨y, hy, rfl⟩ := covers_cases hn h.covers hk
    · rw [rewritten_unnamed T hw] at hhold
      exact absurd ((hunnamed hw).symm.trans hhold) Bool.false_ne_true
    · rw [rewritten_withdrawn hn h.covers hk hw] at hhold
      exact absurd (hclear.symm.trans hhold) Bool.false_ne_true
    · rw [rewritten_covered hn h.covers hy] at hhold
      obtain ⟨c, hc, hclaims⟩ | hc := (Segment.claims_iff _ p).1 hhold
      · obtain rfl : y.change = c := Option.some.inj hc
        obtain hlt | hgt := lt_or_gt_of_ne hne
        · exact absurd ((hlower y hy hlt).symm.trans hclaims) Bool.false_ne_true
        · exact absurd ((((h.classes y hy).claims hclaims).2 x hx hgt).symm.trans hp) Bool.false_ne_true
      · exact absurd (hclear.symm.trans hc) Bool.false_ne_true

theorem PlacedChanges.apart {d : DelayState} {want : Fin 13 → Option Nat} {T : List Covered}
    (hn : (d.segments.map (·.output)).Nodup) (h : PlacedChanges d want T) {g k : Segment} (hg : g ∈ d.segments)
    (hk : k ∈ d.segments) (hne : g.output ≠ k.output) (ha : g.Apart k) : (rewritten want T g).Apart (rewritten want T k) := by
  intro p hlt ⟨h1, h2⟩
  obtain hg1 | ⟨x, hx, rfl, hclaims⟩ := h.holds hn hg h1
  · obtain hk1 | ⟨y, hy, rfl, hclaims⟩ := h.holds hn hk h2
    · exact ha p hlt ⟨hg1, hk1⟩
    · exact h.claims_unheld hn hy hclaims hg hne h1
  · exact h.claims_unheld hn hx hclaims hk hne.symm h2

theorem PlacedChanges.fits {d : DelayState} {want : Fin 13 → Option Nat} {T : List Covered}
    (hn : (d.segments.map (·.output)).Nodup) (h : PlacedChanges d want T) {cur : Option (Fin 13)} {g : Segment}
    (hg : g ∈ d.segments) (hm : g.move = none) (hfit : g.Fits d.badRows cur) : (rewritten want T g).Fits d.badRows cur := by
  have hsame := rewritten_same want T g
  refine ⟨by rw [hsame]; exact hfit.long, by rw [hsame]; exact hfit.top, by rw [hsame]; exact hfit.low,
    by rw [hsame]; exact hfit.high, fun p hlt hp => ?_, fun c hc => ?_, fun m hmove => ?_⟩
  · obtain hp | ⟨x, hx, rfl, hclaims⟩ := h.holds hn hg hp
    · exact hfit.good p hlt hp
    · exact DelayState.pageFree_good (d := d.withoutChanges want) ((h.classes x hx).claims hclaims).1
  · obtain hw | hw | ⟨x, hx, rfl⟩ := covers_cases hn h.covers hg
    · rw [rewritten_unnamed T hw] at hc ⊢; exact hfit.change c hc
    · rw [rewritten_withdrawn hn h.covers hg hw] at hc; cases hc
    · rw [rewritten_covered hn h.covers hx] at hc ⊢
      obtain rfl : x.change = c := Option.some.inj hc
      exact (h.classes x hx).changeOk hm (fun p hp => DelayState.pageFree_lt hp.1)
        (fun p hp => (DelayState.withoutChanges_unclaimed hp.1 hg).1) hfit.pos
  · rw [hsame, show ({ g with change := (rewritten want T g).change } : Segment).move = none from hm] at hmove
    cases hmove

theorem DelayState.requestChange_dram {d e : DelayState} {want : List (Fin 13 × Nat)} {freed : Bool}
    (h : d.requestChange want = .ok (e, freed)) : e.dram = d.dram := by
  unfold DelayState.requestChange at h
  split at h
  · cases h
  · dsimp only at h
    split at h
    · cases h
    · split at h
      · cases h
      · cases h; rfl

/-- A granted change request leaves the table in order. -/
theorem DelayState.requestChange_kept {d e : DelayState} {want : Fin 13 → Option Nat} {freed : Bool}
    (h : d.requestChange (wantList want) = .ok (e, freed)) : DelayKept d e := by
  have hc : d.compaction = none := by
    by_contra hc
    rw [DelayState.requestChange_busy _ (.inr hc)] at h; cases h
  have hr : d.state = .ready := by
    cases hs : d.state with
    | ready => rfl
    | initializing => rw [DelayState.requestChange_busy _ (.inl hs)] at h; cases h
    | uninit => rw [DelayState.requestChange_unready _ hc (.inl hs)] at h; cases h
    | fault => rw [DelayState.requestChange_unready _ hc (.inr hs)] at h; cases h
  refine ⟨fun hd => by rw [DelayState.requestChange_dram h]; exact hd, fun hd => ?_⟩
  have hn := hd.table.nodup
  obtain ⟨hfull, hplaced⟩ := DelayState.requestChange_spec want hc hr hn
  have hle : d.pagesAsked want ≤ (d.withoutChanges want).freePages := by
    by_contra hle
    rw [hfull (Nat.not_le.1 hle)] at h; cases h
  obtain ⟨hno, hyes⟩ := hplaced hle
  by_cases hex : ∃ d', changeGranted d want d'
  · obtain ⟨d', hd'⟩ := hex
    rw [hyes d' hd'] at h
    obtain ⟨rfl, -⟩ := Prod.mk.inj (Except.ok.inj h)
    obtain ⟨T, hT, rfl⟩ := placed_of_changeGranted hn hd'
    have hmove {g : Segment} (hg : g ∈ d.segments) : g.move = none :=
      hd.table.move_none hg (by rw [DelayState.moving, hc]; exact fun h => nomatch h)
    have hout (g : Segment) : (Machine.rewritten want T g).output = g.output ∧ (Machine.rewritten want T g).base = g.base := by
      rw [rewritten_same]; exact ⟨rfl, rfl⟩
    refine hd.withTable hr rfl rfl ⟨?_, ?_, fun g hg => ?_, ?_⟩
    · change ((d.segments.map (Machine.rewritten want T)).map (·.output)).Nodup
      rw [List.map_map, show (·.output) ∘ Machine.rewritten want T = (·.output) from funext fun g => (hout g).1]
      exact hn
    · refine List.pairwise_map.2 (hd.table.sorted.imp fun hab => ?_)
      rw [(hout _).2, (hout _).2]
      exact hab
    · obtain ⟨k, hk, rfl⟩ := List.mem_map.1 hg
      exact hT.fits hn hk (hmove hk) (hd.table.fits k hk)
    · refine List.pairwise_map.2 ?_
      have hne : d.segments.Pairwise fun g k => g.output ≠ k.output := List.pairwise_map.1 hn
      exact hne.imp_of_mem fun ha hb hab => hT.apart hn ha hb hab (hd.table.apart_of_ne ha hb hab)
  · rw [hno hex] at h; cases h

end Sys2Proof.Machine

end

section
/-! PROOFS. Applied changes, moves, checks and written lines keep the DRAM's list in its form and the segment table in order
(R116 to R118, R123, R128, R133 to R136). -/

open Sys2Proof Sys2Proof.Machine

namespace Sys2Proof.Machine

/-! ### Changes applied (R128) -/

/-- A segment that has taken its pending change, but for its write position. -/
def Segment.taken (g : Segment) (c : PendingChange) : Segment :=
  { g with delay := c.delay, base := c.base, count := c.count, change := none }

theorem Segment.Fits.taken_holds {bad : List Nat} {cur : Option (Fin 13)} {g : Segment} {c : PendingChange} (hg : g.Fits bad cur)
    (hc : g.change = some c) {p : Nat} (hp : (g.taken c).holds p) : g.holds p := by
  obtain ⟨hm, -, hkind⟩ := hg.change c hc
  rw [Segment.holds_plain (g := g.taken c) rfl hm, Segment.hasPage_iff] at hp
  change c.base ≤ p ∧ p < c.base + c.count at hp
  cases hk : c.kind with
  | retime => rw [hk] at hkind; exact .inl (Segment.hasPage_iff.2 (by omega))
  | shrink => rw [hk] at hkind; exact .inl (Segment.hasPage_iff.2 (by omega))
  | grow =>
    rw [hk] at hkind
    by_cases hlt : p < g.base + g.count
    · exact .inl (Segment.hasPage_iff.2 (by omega))
    · refine .inr ?_
      simp only [Segment.claims, hc, hk, Bool.or_eq_true, inPages_iff]
      exact .inl (by omega)
  | relocate =>
    refine .inr ?_
    simp only [Segment.claims, hc, hk, Bool.or_eq_true, inPages_iff]
    exact .inl (by omega)

theorem Segment.Fits.taken_fits {bad : List Nat} {cur : Option (Fin 13)} {g : Segment} {c : PendingChange} (hg : g.Fits bad cur)
    (hc : g.change = some c) {w : Nat} (hw : 256 * c.base ≤ w ∧ w < 256 * (c.base + c.count)) :
    ({ g.taken c with writePos := w } : Segment).Fits bad cur := by
  obtain ⟨hm, hcount, hkind⟩ := hg.change c hc
  have htop := hg.top
  refine ⟨hcount.ge, ?_, hw.1, hw.2, fun p hlt hp => hg.good p hlt (hg.taken_holds hc hp),
    fun _ h => (nomatch h), fun m h => (nomatch hm.symm.trans h)⟩
  change c.base + c.count ≤ 1024
  cases hk : c.kind with
  | retime => rw [hk] at hkind; omega
  | shrink => rw [hk] at hkind; omega
  | grow => rw [hk] at hkind; omega
  | relocate => rw [hk] at hkind; omega

theorem PendingChange.count_pos {g : Segment} {c : PendingChange} (h : g.changeOk c) : 0 < c.count := by
  obtain ⟨-, hcount, -⟩ := h
  rw [hcount]; exact pagesFor_pos _

/-- A cleared line of a segment that has taken its change. -/
theorem DelayState.clearLine_taken {d : DelayState} {g h : Segment} {c : PendingChange} {o : Fin 13} (hs : d.segment o = some g)
    (hc : g.change = some c) (hh : g.changeOk c → h = g.taken c) : DelayKept d (d.clearLine h) := by
  refine ⟨fun hd => Dram.clear_wf hd _ _, fun hd => ?_⟩
  obtain ⟨hmem, ho⟩ := DelayState.segment_mem hs
  have hfit := hd.table.fits g hmem
  have hok := hfit.change c hc
  rw [hh hok]
  have hpos := PendingChange.count_pos hok
  have hlaid : ({ d with dram := Dram.clear d.dram ((g.taken c).base * pageWords) ((g.taken c).count * pageWords) } :
      DelayState).InOrder := ⟨hd.table, hd.ready, hd.checks⟩
  refine hlaid.rewrite (g := { g.taken c with writePos := (g.taken c).base * pageWords }) (o := g.output) (k := g)
    (by rw [ho]; exact hs) rfl (hfit.taken_fits hc ?_) fun p hp => hfit.taken_holds hc hp
  change 256 * c.base ≤ c.base * 256 ∧ c.base * 256 < 256 * (c.base + c.count)
  omega

theorem DelayState.applyChange_kept (d : DelayState) (o : Fin 13) : DelayKept d (d.applyChange o).1 := by
  unfold DelayState.applyChange
  split
  · exact .refl d
  · next g hs =>
    split
    · exact .refl d
    · next c hc =>
      split
      · next hk =>
        refine ⟨id, fun hd => ?_⟩
        obtain ⟨hmem, ho⟩ := DelayState.segment_mem hs
        have hfit := hd.table.fits g hmem
        obtain ⟨hm, hcount, hkind⟩ := hfit.change c hc
        rw [hk] at hkind
        have hsame : ({ g with delay := c.delay, change := none } : Segment) = { g.taken c with writePos := g.writePos } := by
          rw [Segment.taken, hkind.1, hkind.2]
        rw [hsame]
        refine hd.rewrite hs ho (hfit.taken_fits hc ?_) fun p hp => hfit.taken_holds hc hp
        rw [hkind.1, hkind.2]
        exact ⟨hfit.low, hfit.high⟩
      · next hk =>
        refine DelayState.clearLine_taken hs hc fun hok => ?_
        obtain ⟨-, -, hkind⟩ := hok
        rw [hk] at hkind
        rw [Segment.taken, hkind.1]
      · next hk =>
        refine DelayState.clearLine_taken hs hc fun hok => ?_
        obtain ⟨-, -, hkind⟩ := hok
        rw [hk] at hkind
        rw [Segment.taken, hkind.1]
      · exact DelayState.clearLine_taken hs hc fun _ => rfl

/-! ### Moves (R133, R134) -/

/-- No segment moves. -/
def DelayState.Still (d : DelayState) : Prop := ∀ g, g ∈ d.segments → g.move = none

/-- Without a move the compaction may have any record, or none. -/
theorem DelayState.InOrder.withCompaction {d : DelayState} (h : d.InOrder) (hm : d.Still) (c : Option CompactionRec) :
    ({ d with compaction := c } : DelayState).InOrder := ⟨h.table.free hm, h.ready, h.checks⟩

theorem DelayState.moveTarget_spec {d : DelayState} {start b : Nat} {g : Segment} (h : d.moveTarget start g = some b) :
    b < g.base ∧ start ≤ b ∧ ∀ i, i < g.count → b + i < 1024 ∧ d.pageBad (b + i) = false ∧
      (d.pageFree (b + i) = true ∨ g.hasPage (b + i) = true) := by
  have hmem := List.mem_of_find?_eq_some h
  have hall := List.find?_some h
  simp only [List.mem_filter, List.mem_range, decide_eq_true_eq] at hmem
  simp only [List.all_eq_true, List.mem_range, Bool.and_eq_true, decide_eq_true_eq, Bool.not_eq_true', Bool.or_eq_true] at hall
  exact ⟨hmem.1, hmem.2, fun i hi => ⟨(hall i hi).1.1, (hall i hi).1.2, (hall i hi).2⟩⟩

/-- A segment that starts its move. -/
def Segment.starts (g : Segment) (b : Nat) : Segment := { g with move := some { target := b, stage := .ramp, copied := 0 } }

theorem Segment.starts_holds {g : Segment} {b p : Nat} (hc : g.change = none) (hp : (g.starts b).holds p) :
    g.hasPage p = true ∨ (b ≤ p ∧ p < b + g.count) := by
  obtain hp | hp := hp
  · exact .inl hp
  · simp only [Segment.claims, Segment.starts, hc, Bool.false_or, Bool.and_eq_true, inPages_iff] at hp
    exact .inr hp.1

/-- The table after an examination has found a move (R133). -/
theorem DelayState.InOrder.starts {d : DelayState} (h : d.InOrder) (hm : d.Still) {g : Segment} (hg : g ∈ d.segments)
    (hc : g.change = none) {c : CompactionRec} {b : Nat} (hb : d.moveTarget c.scanStart g = some b) (hcur : c.current = some g.output) :
    (({ d with compaction := some c } : DelayState).setSegment g.output (g.starts b)).InOrder := by
  obtain ⟨hlt, -, hrun⟩ := d.moveTarget_spec hb
  have hlaid := h.withCompaction hm (some c)
  have hmoving : ({ d with compaction := some c } : DelayState).moving = some g.output := hcur
  have hfit := hlaid.table.fits g hg
  have hnew {p : Nat} (hp : (g.starts b).holds p) : g.holds p ∨ d.pageFree p = true := by
    obtain hp | ⟨hlow, hhigh⟩ := Segment.starts_holds hc hp
    · exact .inl (.inl hp)
    · obtain ⟨-, -, hfree⟩ := hrun (p - b) (by omega)
      rw [Nat.add_sub_cancel' hlow] at hfree
      exact hfree.elim .inr fun hp => .inl (.inl hp)
  refine hlaid.withTable (h.ready_of_mem hg) rfl rfl (hlaid.table.replace rfl ⟨hfit.long, hfit.top, hfit.low, hfit.high,
    fun p hp hh => ?_, fun c' hc' => ?_, fun m hm' => ?_⟩ fun a ha hne p hp ⟨h1, h2⟩ => ?_)
  · exact (hnew hh).elim (hfit.good p hp) DelayState.pageFree_good
  · exact nomatch hc.symm.trans hc'
  · obtain rfl : MoveRec.mk b .ramp 0 = m := Option.some.inj hm'
    exact ⟨hlt, hfit.pos, hmoving⟩
  · obtain h1 | h1 := hnew h1
    · exact hlaid.table.apart_of_ne hg ha hne.symm p hp ⟨h1, h2⟩
    · exact DelayState.pageFree_unheld h1 ha h2

/-- Examinations leave the table in order, and nothing moves where they have come to the end (R133). -/
theorem DelayState.examine_kept (fuel : Nat) {d : DelayState} (h : d.InOrder) (hm : d.Still) (c : CompactionRec) :
    (DelayState.examine fuel d c).1.InOrder ∧
      ((DelayState.examine fuel d c).2 = true → (DelayState.examine fuel d c).1.Still) := by
  induction fuel generalizing c with
  | zero => exact ⟨h.withCompaction hm _, fun _ => hm⟩
  | succ fuel ih =>
    unfold DelayState.examine
    split
    · exact ⟨h.withCompaction hm _, fun _ => hm⟩
    · next g hg =>
      dsimp only
      split
      · exact ih _
      · next hc =>
        split
        · next b hb =>
          have hmem := List.mem_of_find?_eq_some hg
          have hnone : g.change = none := by simpa using hc
          exact ⟨h.starts hm hmem hnone (c := { c with examined := c.examined ++ [g.output], current := some g.output }) hb rfl,
            fun hend => nomatch hend⟩
        · exact ih _

theorem DelayState.examine_dram (fuel : Nat) (d : DelayState) (c : CompactionRec) :
    (DelayState.examine fuel d c).1.dram = d.dram := by
  rw [DelayState.examine_keeps]

/-- The pages that a move holds. -/
theorem Segment.holds_of_move {g : Segment} {m : MoveRec} (hm : g.move = some m) {p : Nat}
    (hp : m.target ≤ p ∧ p < m.target + g.count) : g.holds p := by
  by_cases hown : g.hasPage p = true
  · exact .inl hown
  · refine .inr ?_
    simp only [Segment.claims, hm, Bool.or_eq_true, Bool.and_eq_true, inPages_iff, Bool.not_eq_true', Bool.eq_false_iff]
    exact .inr ⟨hp, hown⟩

/-- The last page of a move has been copied: the segment stands at its new base, and nothing moves any more. -/
theorem DelayState.finishMove_order {d : DelayState} (h : d.InOrder) {g : Segment} {m : MoveRec}
    (hs : d.segment g.output = some g) (hm : g.move = some m) : (d.finishMove g m).InOrder ∧ (d.finishMove g m).Still := by
  obtain ⟨hmem, -⟩ := DelayState.segment_mem hs
  have hfit := h.table.fits g hmem
  obtain ⟨htarget, -, hcur⟩ := hfit.move m hm
  have hlow := hfit.low
  have hhigh := hfit.high
  have htop := hfit.top
  have hnone : g.change = none := by
    cases hc : g.change with
    | none => rfl
    | some c => exact nomatch (hfit.change c hc).1.symm.trans hm
  refine ⟨h.rewrite hs rfl ⟨hfit.long, ?_, ?_, ?_, fun p hp hh => ?_, fun c hc => (nomatch hnone.symm.trans hc),
    fun _ h => (nomatch h)⟩ fun p hp => ?_, fun k hk => ?_⟩
  · change m.target + g.count ≤ 1024
    omega
  · change 256 * m.target ≤ g.writePos + m.target * 256 - g.base * 256
    omega
  · change g.writePos + m.target * 256 - g.base * 256 < 256 * (m.target + g.count)
    omega
  · rw [Segment.holds_plain (g := { g with base := m.target, writePos := _, move := none }) hnone rfl, Segment.hasPage_iff] at hh
    exact hfit.good p hp (Segment.holds_of_move hm hh)
  · rw [Segment.holds_plain (g := { g with base := m.target, writePos := _, move := none }) hnone rfl, Segment.hasPage_iff] at hp
    exact Segment.holds_of_move hm hp
  · obtain rfl | hk := List.mem_cons.1 ((insertSegment_perm _ _).mem_iff.1 hk)
    · rfl
    · have hk' := List.mem_of_mem_filter hk
      refine h.table.move_none hk' fun heq => ?_
      have hne : k.output ≠ g.output := by simpa using List.of_mem_filter hk
      exact hne (Option.some.inj (heq.symm.trans hcur))

/-- A segment whose move has copied more, but not all, of its pages, or has gone on to COPY. -/
theorem DelayState.InOrder.withMove {d : DelayState} (h : d.InOrder) {g : Segment} {m n : MoveRec} {o : Fin 13}
    (hs : d.segment o = some g) (hm : g.move = some m) (ht : n.target = m.target) (hn : n.copied < g.count) :
    (d.setSegment o { g with move := some n }).InOrder := by
  obtain ⟨hmem, ho⟩ := DelayState.segment_mem hs
  have hfit := h.table.fits g hmem
  obtain ⟨htarget, -, hcur⟩ := hfit.move m hm
  have hsub (p : Nat) (hp : ({ g with move := some n } : Segment).holds p) : g.holds p := by
    obtain hp | hp := hp
    · exact .inl hp
    · refine .inr ?_
      simp only [Segment.claims, ht] at hp
      simp only [Segment.claims, hm]
      exact hp
  refine h.rewrite hs ho ⟨hfit.long, hfit.top, hfit.low, hfit.high, fun p hp hh => hfit.good p hp (hsub p hh), fun c hc => ?_,
    fun k hk => ?_⟩ hsub
  · exact nomatch (hfit.change c hc).1.symm.trans hm
  · obtain rfl : n = k := Option.some.inj hk
    exact ⟨ht ▸ htarget, hn, hcur⟩

/-! ### Lines written (R123) -/

theorem DelayState.InOrder.withDram {d : DelayState} (h : d.InOrder) (m : Dram) : ({ d with dram := m } : DelayState).InOrder :=
  ⟨h.table, h.ready, h.checks⟩

/-- The write position moves around the ring. -/
theorem DelayState.InOrder.advance {d : DelayState} (h : d.InOrder) {g : Segment} {o : Fin 13} (hs : d.segment o = some g) :
    (d.setSegment o g.advance).InOrder := by
  obtain ⟨hmem, ho⟩ := DelayState.segment_mem hs
  have hfit := h.table.fits g hmem
  have hpos := hfit.pos
  have hlt : (g.place + blockLength) % g.words < g.count * 256 := Nat.mod_lt _ (Nat.mul_pos hpos (by decide))
  refine h.rewrite hs ho ⟨hfit.long, hfit.top, ?_, ?_, hfit.good, hfit.change, hfit.move⟩ fun p hp => hp
  · change 256 * g.base ≤ g.base * 256 + (g.place + blockLength) % g.words
    omega
  · change g.base * 256 + (g.place + blockLength) % g.words < 256 * (g.base + g.count)
    omega

/-! ### Checks (R115 to R118) -/

/-- An empty table. -/
theorem TableOk.nil (bad : List Nat) (cur : Option (Fin 13)) : TableOk bad cur [] :=
  ⟨List.nodup_nil, .nil, fun _ h => absurd h List.not_mem_nil, .nil⟩

/-- A controller outside READY has no segment, and may take any record of a check in INITIALIZING, and none elsewhere. -/
theorem DelayState.InOrder.withCheck {d e : DelayState} (h : d.InOrder) (hr : d.state ≠ .ready) (hs : e.segments = d.segments)
    (hc : e.check ≠ none → e.state = .initializing) : e.InOrder := by
  have hnil : e.segments = [] := by
    by_contra hne
    exact hr (h.ready (hs ▸ hne))
  refine ⟨?_, fun hne => absurd hnil hne, hc⟩
  rw [hnil]
  exact .nil _ _

end Sys2Proof.Machine

end

section
/-! PROOFS. What every operation of the Output Channel Unit keeps: the no-output marks, the form of the DRAM's list and the
order of the segment table (R42 to R56, R113, R122, R130 to R136). -/

open Sys2Proof Sys2Proof.Machine

namespace Sys2Proof.Machine

/-! ### Operations that keep marks and memory -/

/-- An operation of the unit that keeps the marks and the memory in order. -/
structure UnitStep (s t : State) : Prop extends OutStep s t where
  marked : s.noOutputMarked → t.noOutputMarked
  memory : DelayKept s.delay t.delay

theorem UnitStep.refl (s : State) : UnitStep s s := ⟨.refl s, id, .refl _⟩

theorem UnitStep.trans {s t u : State} (h1 : UnitStep s t) (h2 : UnitStep t u) : UnitStep s u :=
  ⟨h1.toOutStep.trans h2.toOutStep, h2.marked ∘ h1.marked, h1.memory.trans h2.memory⟩

theorem UnitStep.foldl {β : Type} (f : State → β → State) (h : ∀ s b, UnitStep s (f s b)) (l : List β) (s : State) :
    UnitStep s (l.foldl f s) := by
  induction l generalizing s with
  | nil => exact .refl s
  | cons b l ih => exact (h s b).trans (ih (f s b))

/-! ### The marks -/

/-- What changes neither a grant nor the zones' records keeps the marks. -/
theorem noOutputMarked_of_same {s t : State} (hz : t.zones = s.zones) (ho : ∀ o z, (t.out o).grantedTo z = (s.out o).grantedTo z)
    (h : s.noOutputMarked) : t.noOutputMarked :=
  State.noOutputMarked_congr (fun z => by rw [State.zone, hz]; exact ⟨rfl, rfl⟩) ho h

theorem State.setOut_marked {s : State} {o : Fin 13} {r : OutputRec} (hr : ∀ z, r.grantedTo z = (s.out o).grantedTo z)
    (h : s.noOutputMarked) : (s.setOut o r).noOutputMarked := by
  refine noOutputMarked_of_same (s := s) rfl (fun q z => ?_) h
  by_cases hq : q = o
  · subst hq; rw [State.out_setOut_self, hr]
  · rw [State.out_setOut_ne _ _ hq]

theorem State.setOut_unitStep {s : State} {o : Fin 13} {r : OutputRec} (hr : ∀ z, r.grantedTo z = (s.out o).grantedTo z) :
    UnitStep s (s.setOut o r) := ⟨(s.setOut_quiet o r).toOutStep, State.setOut_marked hr, .refl _⟩

theorem State.raise_unitStep (s : State) (k : EventKind) (d : EventDetail) : UnitStep s (s.raise k d) :=
  ⟨(s.raise_quiet k d).toOutStep, State.raise_marked k d, by rw [(s.raise_frame k d).1 .delay (by decide)]; exact .refl _⟩

theorem State.updateOut_unitStep (s : State) (o : Fin 13) (r : OutputRec) : UnitStep s (s.updateOut o r) :=
  ⟨(s.updateOut_quiet o r).toOutStep, fun _ => s.updateOut_marked o r,
    by rw [(s.updateOut_frame o r).1 .delay (by decide)]; exact .refl _⟩

theorem State.setDelay_marked {s : State} (d : DelayState) (h : s.noOutputMarked) : (s.setDelay d).noOutputMarked :=
  noOutputMarked_of_same rfl (fun _ _ => rfl) h

theorem State.complete_unitStep (s : State) (k : Fin 8) (st : Status) (r : List Byte) : UnitStep s (s.complete k st r) := by
  have hframe := (s.complete_frame k st r).1
  refine ⟨s.complete_outStep k st r, noOutputMarked_of_same (hframe .zones (by decide)) fun o z => ?_, ?_⟩
  · rw [State.out, hframe .outputs (by decide)]; rfl
  · rw [hframe .delay (by decide)]; exact .refl _

/-! ### Requests and starved outputs (R44, R125, R131) -/

theorem State.requestOne_unitStep {s t : State} {o : Fin 13} {z : Zone} {r : Role} (h : s.requestOne o z r = .ok t) :
    UnitStep s t := by
  have hquiet := State.requestOne_quiet h
  obtain ⟨d, hd, rfl⟩ := Except.eq_ok_of_map h
  exact ⟨hquiet.toOutStep, State.setDelay_marked d, DelayState.request_kept hd⟩

theorem State.leaveStarved_unitStep (s : State) (o : Fin 13) : UnitStep s (s.leaveStarved o) :=
  ⟨(s.leaveStarved_quiet o).toOutStep, State.setDelay_marked _, .of_same rfl rfl rfl rfl rfl rfl⟩

theorem State.addStarved_unitStep (s : State) (o : Fin 13) : UnitStep s (s.addStarved o) := by
  refine ⟨(s.addStarved_quiet o).toOutStep, fun h => State.raise_marked _ _ (State.setDelay_marked _ h), ?_⟩
  rw [State.addStarved, State.raiseMemory, (State.raise_frame _ _ _).1 .delay (by decide)]
  exact .of_same rfl rfl rfl rfl rfl rfl

theorem State.becomeGranted_unitStep (s : State) (o : Fin 13) (z : Zone) (r : Role) : UnitStep s (s.becomeGranted o z r) :=
  s.updateOut_unitStep ..

theorem State.becomeIdle_unitStep (s : State) (o : Fin 13) : UnitStep s (s.becomeIdle o) := s.updateOut_unitStep ..

theorem State.becomeStarved_unitStep (s : State) (o : Fin 13) (z : Zone) (r : Role) : UnitStep s (s.becomeStarved o z r) :=
  ((s.updateOut_unitStep o _).trans (State.addStarved_unitStep _ o)).trans (State.raise_unitStep _ _ _)

theorem State.retryOne_unitStep (s : State) (o : Fin 13) : UnitStep s (s.retryOne o) := by
  unfold State.retryOne
  split
  · split
    · split
      · next h =>
        exact (((State.requestOne_unitStep h).trans (State.leaveStarved_unitStep _ o)).trans
          (State.becomeGranted_unitStep _ o _ _)).trans (State.raise_unitStep _ _ _)
      · exact .refl s
    · exact .refl s
  · exact .refl s

theorem State.retryPass_unitStep (s : State) : UnitStep s s.retryPass := UnitStep.foldl _ State.retryOne_unitStep _ s

/-! ### Compactions and freeings (R130, R133 to R136) -/

/-- The end of a compaction keeps the marks, and the memory where nothing moves. -/
theorem State.endCompaction_keeps_order (s : State) (c : CompactionRec) :
    (s.noOutputMarked → (s.endCompaction c).noOutputMarked) ∧ (s.dramOk → (s.endCompaction c).dramOk) ∧
    (s.delay.InOrder → s.delay.Still → (s.endCompaction c).delay.InOrder) := by
  have h := (State.retryPass_unitStep (s.setDelay { s.delay with compaction := none })).trans
    (State.complete_unitStep _ c.slot (if c.abort then .aborted else .done)
      (natBytes c.moved ++ natBytes (s.setDelay { s.delay with compaction := none }).retryPass.delay.largestHole))
  exact ⟨fun hm => h.marked (State.setDelay_marked _ hm), h.memory.dram,
    fun ho hs => h.memory.order (ho.withCompaction hs none)⟩

theorem State.continueCompaction_keeps_order (s : State) (c : CompactionRec) :
    (s.noOutputMarked → (s.continueCompaction c).noOutputMarked) ∧ (s.dramOk → (s.continueCompaction c).dramOk) ∧
    (s.delay.InOrder → s.delay.Still → (s.continueCompaction c).delay.InOrder) := by
  unfold State.continueCompaction
  split
  · exact s.endCompaction_keeps_order c
  · dsimp only
    have hdram := DelayState.examine_dram (examineFuel s.delay) s.delay c
    have horder (h1 : s.delay.InOrder) (h2 : s.delay.Still) := DelayState.examine_kept (examineFuel s.delay) h1 h2 c
    generalize DelayState.examine (examineFuel s.delay) s.delay c = r at hdram horder ⊢
    have hwf (h : s.dramOk) : (s.setDelay r.1).dramOk := by
      rw [State.dramOk, State.setDelay_delay, hdram]; exact h
    split
    · next hend =>
      obtain ⟨h1, h2, h3⟩ := (s.setDelay r.1).endCompaction_keeps_order (r.1.compaction.getD c)
      exact ⟨fun hm => h1 (State.setDelay_marked _ hm), h2 ∘ hwf, fun ho hs => h3 (horder ho hs).1 ((horder ho hs).2 hend)⟩
    · exact ⟨State.setDelay_marked _, hwf, fun ho hs => (horder ho hs).1⟩

theorem DelayState.removeSegment_still {d : DelayState} {o : Fin 13} (h : d.InOrder) (hc : d.moving = some o) :
    (d.removeSegment o).Still := by
  intro g hg
  refine h.table.move_none (List.mem_of_mem_filter hg) fun heq => ?_
  have hne : g.output ≠ o := by simpa using List.of_mem_filter hg
  exact hne (Option.some.inj (heq.symm.trans hc))

theorem State.freeSegment_unitStep (s : State) (o : Fin 13) : UnitStep s (s.freeSegment o) := by
  refine ⟨(s.freeSegment_free o).1, ?_, ?_⟩
  · unfold State.freeSegment
    split
    · exact id
    · dsimp only
      split
      · exact fun h => (State.retryPass_unitStep _).marked (State.setDelay_marked _ h)
      · split
        · exact fun h => (State.continueCompaction_keeps_order _ _).1 (State.setDelay_marked _ h)
        · exact State.setDelay_marked _
  · have hremove := s.delay.removeSegment_kept o
    unfold State.freeSegment
    split
    · exact .refl _
    · dsimp only
      split
      · exact hremove.trans (State.retryPass_unitStep (s.setDelay (s.delay.removeSegment o))).memory
      · next c hc =>
        split
        · next hcur =>
          obtain ⟨-, h2, h3⟩ := (s.setDelay (s.delay.removeSegment o)).continueCompaction_keeps_order { c with current := none }
          have hmoving : s.delay.moving = some o := by
            rw [DelayState.moving, show s.delay.compaction = some c from hc]; exact hcur
          exact ⟨h2 ∘ hremove.dram, fun h => h3 (hremove.order h) (DelayState.removeSegment_still h hmoving)⟩
        · exact hremove

/-! ### Grants and handovers (R43 to R49) -/

theorem State.placeInZone_unitStep (s : State) (o : Fin 13) (z : Zone) (r : Role) : UnitStep s (s.placeInZone o z r).1 := by
  unfold State.placeInZone
  split
  · next h => exact (State.requestOne_unitStep h).trans (State.becomeGranted_unitStep _ o z r)
  · exact s.becomeStarved_unitStep o z r

/-- After an output has been placed the marks are in order, whatever they were before. -/
theorem State.placeInZone_marked (s : State) (o : Fin 13) (z : Zone) (r : Role) : (s.placeInZone o z r).1.noOutputMarked := by
  unfold State.placeInZone
  split
  · exact State.updateOut_marked _ o _
  · exact State.raise_marked _ _ ((State.addStarved_unitStep _ o).marked (s.updateOut_marked o _))

theorem State.directGrant_unitStep (s : State) (o : Fin 13) (z : Zone) (r : Role) : UnitStep s (s.directGrant o z r) := by
  unfold State.directGrant
  split
  · exact (s.becomeGranted_unitStep o z r).trans (State.raise_unitStep _ _ _)
  · have h := s.placeInZone_unitStep o z r
    dsimp only
    split
    · exact h.trans (State.raise_unitStep _ _ _)
    · exact h

theorem State.startHandover_unitStep (s : State) (o : Fin 13) (g : Option (Zone × Role)) :
    UnitStep s (s.startHandover o g) := (s.updateOut_unitStep o _).trans (State.raise_unitStep _ _ _)

theorem State.abandonHandover_unitStep (s : State) (o : Fin 13) : UnitStep s (s.abandonHandover o) :=
  (s.updateOut_unitStep o _).trans (State.raise_unitStep _ _ _)

theorem State.enterReallocate_memory (s : State) (o : Fin 13) (b : Bool) : (s.enterReallocate o b).delay = s.delay := by
  unfold State.enterReallocate
  cases b
  · rfl
  · exact (State.raiseChannel_frame _ _ _).1 .delay (by decide)

/-- REALLOCATE ends with a change of the output's record that is watched. -/
theorem State.reallocate_marked (s : State) (o : Fin 13) (b : Bool) : (s.reallocate o b).noOutputMarked := by
  unfold State.reallocate
  dsimp only
  split
  · exact State.raise_marked _ _ (State.updateOut_marked _ o _)
  · split
    · split
      · exact State.raise_marked _ _ (State.raise_marked _ _ (State.placeInZone_marked _ o _ _))
      · exact State.raise_marked _ _ (State.placeInZone_marked _ o _ _)
    · exact State.placeInZone_marked _ o _ _

theorem State.reallocate_unitStep (s : State) (o : Fin 13) (b : Bool) : UnitStep s (s.reallocate o b) := by
  refine ⟨(s.reallocate_free o b).1, fun _ => s.reallocate_marked o b, ?_⟩
  have h1 := (State.freeSegment_unitStep (s.enterReallocate o b) o).memory
  rw [s.enterReallocate_memory] at h1
  unfold State.reallocate
  dsimp only
  generalize (s.enterReallocate o b).freeSegment o = v at h1 ⊢
  split
  · exact h1.trans ((State.becomeIdle_unitStep (v.setOut o _) o).trans (State.raise_unitStep _ _ _)).memory
  · have h3 (r : OutputRec) (z : Zone) (q : Role) := h1.trans ((v.setOut o r).placeInZone_unitStep o z q).memory
    split
    · split
      · exact (h3 _ _ _).trans ((State.raise_unitStep _ _ _).trans (State.raise_unitStep _ _ _)).memory
      · exact (h3 _ _ _).trans (State.raise_unitStep _ _ _).memory
    · exact h3 _ _ _

theorem State.regrant_unitStep (s : State) (o : Fin 13) : UnitStep s (s.regrant o) := by
  unfold State.regrant
  dsimp only
  split
  · exact .refl s
  · split
    · exact .refl s
    · exact s.directGrant_unitStep o _ _
  · split
    · exact .refl s
    · split
      · exact .refl s
      · exact s.startHandover_unitStep o _
  · split
    · exact .refl s
    · split
      · exact .refl s
      · exact (s.leaveStarved_unitStep o).trans (State.reallocate_unitStep _ o true)
  · split
    · exact s.abandonHandover_unitStep o
    · exact State.setOut_unitStep fun z => rfl

theorem State.regrantAll_unitStep (s : State) : UnitStep s s.regrantAll := UnitStep.foldl _ State.regrant_unitStep _ s

theorem State.releaseZone_unitStep (s : State) (z : Zone) : UnitStep s (s.releaseZone z) := by
  refine UnitStep.foldl _ (fun s o => ?_) _ s
  split
  · exact ((s.leaveStarved_unitStep o).trans (State.becomeIdle_unitStep _ o)).trans (State.raise_unitStep _ _ _)
  · exact .refl s

theorem State.freeZone_unitStep (s : State) (z : Zone) : UnitStep s (s.freeZone z) := by
  refine UnitStep.foldl _ (fun s o => ?_) _ s
  split
  · exact s.freeSegment_unitStep o
  · exact .refl s

theorem State.openRelays_unitStep (s : State) (z : Zone) : UnitStep s (s.openRelays z) := by
  refine UnitStep.foldl _ (fun s o => ?_) _ s
  split
  · exact State.setOut_unitStep fun _ => rfl
  · exact .refl s

end Sys2Proof.Machine

end

section
/-! PROOFS. The Tuner's operations keep it on its grids and its collections in order (R139, R153, R156, R160 to R171). -/

open Sys2Proof Sys2Proof.Machine

namespace Sys2Proof.Machine

/-! ### The invariant, by its parts -/

/-- The collections and the label of the tuner are in order. -/
structure TunerRec.Tidy (t : TunerRec) : Prop where
  stationsGrid : ∀ e, e ∈ t.stations → onGrid e.band t.region e.frequency = true
  presetsGrid : ∀ (n : Fin 40) (r : PresetRec), t.presets[n] = some r → onGrid r.band t.region r.frequency = true
  few : t.stations.length ≤ 40
  sorted : t.stations.Pairwise (fun a b => a.before b = true)
  stationLabels : ∀ e l, e ∈ t.stations → e.label = some l → labelOk l
  presetLabels : ∀ (n : Fin 40) (r : PresetRec) l, t.presets[n] = some r → r.label = some l → labelOk l
  label : labelOk t.label.chars

/-- The tuner is on its grids and its collections are in order. -/
structure TunerRec.Sound (t : TunerRec) : Prop extends TunerRec.Tidy t where
  frequency : onGrid t.band t.region t.frequency = true
  seek : ∀ k, t.seek = some k → onGrid t.band t.region k.start = true ∧ ∃ o, t.op = some o ∧ o.kind = .seek
  scan : ∀ k, t.scan = some k → ∃ o, t.op = some o ∧ o.kind = .scan ∧ onGrid o.scanBand t.region k.channel = true ∧
    ∀ e, e ∈ t.stations → e.band = o.scanBand → e.frequency < k.channel

theorem State.tunerOk_iff {s : State} : s.tunerOk ↔ s.tuner.Sound := by
  constructor
  · rintro ⟨⟨h1, h2, h3, h4, h5⟩, h6, h7, h8, h9, h10, h11⟩
    refine ⟨⟨h4, h5, h6, h7, h9, h10, h11⟩, h1, h2, fun k hk => ?_⟩
    obtain ⟨o, ho, hkind, hgrid⟩ := h3 k hk
    exact ⟨o, ho, hkind, hgrid, h8 k o hk ho⟩
  · rintro ⟨⟨h4, h5, h6, h7, h9, h10, h11⟩, h1, h2, h3⟩
    refine ⟨⟨h1, h2, fun k hk => ?_, h4, h5⟩, h6, h7, fun k o hk ho => ?_, h9, h10, h11⟩
    · obtain ⟨o, ho, hkind, hgrid, -⟩ := h3 k hk
      exact ⟨o, ho, hkind, hgrid⟩
    · obtain ⟨o', ho', -, -, hlow⟩ := h3 k hk
      obtain rfl : o' = o := Option.some.inj (ho'.symm.trans ho)
      exact hlow

theorem labelOk_cleared : labelOk LabelRec.cleared.chars := ⟨by decide, by decide⟩

/-- Changes of other fields. -/
theorem TunerRec.Tidy.of_same {t u : TunerRec} (h : t.Tidy) (hr : u.region = t.region) (hs : u.stations = t.stations)
    (hp : u.presets = t.presets) (hl : labelOk u.label.chars) : u.Tidy where
  stationsGrid := by rw [hs, hr]; exact h.stationsGrid
  presetsGrid := by rw [hp, hr]; exact h.presetsGrid
  few := by rw [hs]; exact h.few
  sorted := by rw [hs]; exact h.sorted
  stationLabels := by rw [hs]; exact h.stationLabels
  presetLabels := by rw [hp]; exact h.presetLabels
  label := hl

/-- Where neither a seek nor a scan runs, the tuner's own channel and the collections are all there is. -/
theorem TunerRec.Tidy.sound {t : TunerRec} (h : t.Tidy) (hf : onGrid t.band t.region t.frequency = true)
    (hk : t.seek = none) (hc : t.scan = none) : t.Sound :=
  ⟨h, hf, fun _ hs => (nomatch hk.symm.trans hs), fun _ hs => (nomatch hc.symm.trans hs)⟩

theorem TunerRec.Sound.no_seek {t : TunerRec} (h : t.Sound) (hk : ∀ o, t.op = some o → o.kind ≠ .seek) : t.seek = none := by
  cases hs : t.seek with
  | none => rfl
  | some k =>
    obtain ⟨-, o, ho, hkind⟩ := h.seek k hs
    exact absurd hkind (hk o ho)

theorem TunerRec.Sound.no_scan {t : TunerRec} (h : t.Sound) (hk : ∀ o, t.op = some o → o.kind ≠ .scan) : t.scan = none := by
  cases hs : t.scan with
  | none => rfl
  | some k =>
    obtain ⟨o, ho, hkind, -⟩ := h.scan k hs
    exact absurd hkind (hk o ho)

theorem TunerRec.Sound.held {t : TunerRec} (h : t.Sound) : onGrid t.band t.region t.held = true := by
  rw [TunerRec.held]
  cases hk : t.seek with
  | none => exact h.frequency
  | some k => exact (h.seek k hk).1

/-! ### Settling, parking and rest -/

theorem TunerRec.Tidy.settleNow {t : TunerRec} (h : t.Tidy) (hf : onGrid t.band t.region t.frequency = true) :
    t.settleNow.Sound :=
  (h.of_same (u := t.settleNow) rfl rfl rfl labelOk_cleared).sound hf rfl rfl

theorem TunerRec.Tidy.parkNow {t : TunerRec} (h : t.Tidy) (hf : onGrid t.band t.region t.frequency = true) : t.parkNow.Sound :=
  (h.of_same (u := t.parkNow) rfl rfl rfl h.label).sound hf rfl rfl

theorem TunerRec.Tidy.settledOrParked {t : TunerRec} (h : t.Tidy) (hf : onGrid t.band t.region t.frequency = true)
    (heard : Bool) : (t.settledOrParked heard).Sound := by
  cases heard
  · exact h.parkNow hf
  · exact h.settleNow hf

theorem TunerRec.Tidy.rested {t : TunerRec} (h : t.Tidy) (hf : onGrid t.band t.region t.frequency = true) (heard : Bool) :
    (t.rested heard).Sound := by
  cases heard
  · exact h.parkNow hf
  · exact (h.of_same (u := { t with state := .idle, settle := none, seek := none, scan := none }) rfl rfl rfl h.label).sound
      hf rfl rfl

theorem State.refreshTuner_sound {s : State} (h : s.tuner.Sound) : s.refreshTuner.tuner.Sound := by
  unfold State.refreshTuner
  split
  · split
    · exact h.toTidy.settleNow h.frequency
    · exact h
  · split
    · exact h.toTidy.parkNow h.frequency
    · exact h.toTidy.parkNow h.frequency
    · exact h

theorem State.reportZones_sound {s : State} (h : s.tuner.Sound) : s.reportZones.tuner.Sound := by
  rw [State.reportZones]
  exact State.refreshTuner_sound (by rw [s.refreshBinding_tuner]; exact h)

theorem TunerRec.Sound.report {t : TunerRec} (h : t.Sound) (q : Nat) : (t.report q).Sound :=
  ⟨h.toTidy.of_same rfl rfl rfl h.label, h.frequency, h.seek, h.scan⟩

theorem TunerRec.Sound.tick {t : TunerRec} (h : t.Sound) : t.tick.Sound := by
  refine ⟨h.toTidy.of_same rfl rfl rfl h.label, h.frequency, fun k hk => ?_, fun k hk => ?_⟩
  · obtain ⟨k', hk', rfl⟩ := Option.map_eq_some_iff.1 hk
    exact h.seek k' hk'
  · obtain ⟨k', hk', rfl⟩ := Option.map_eq_some_iff.1 hk
    exact h.scan k' hk'

/-! ### Operations that end (R146, R147, R150, R166) -/

theorem State.abortTuner_sound {s : State} (h : s.tuner.Sound) : s.abortTuner.tuner.Sound := by
  unfold State.abortTuner
  split
  · exact h
  · next o ho =>
    split
    · dsimp only
      rw [State.endTunerOp_settleOrPark]
      refine TunerRec.Tidy.settledOrParked ?_ ?_ _
      · exact h.toTidy.of_same rfl rfl rfl h.label
      · exact h.held
    · rw [State.endTunerOp_settleOrPark]
      refine TunerRec.Tidy.settledOrParked ?_ ?_ _
      · exact h.toTidy.of_same rfl rfl rfl h.label
      · exact h.frequency
    · exact h

theorem State.cancelTune_sound {s : State} (h : s.tuner.Sound) : s.cancelTune.tuner.Sound := by
  unfold State.cancelTune
  split
  · exact h
  · next o ho =>
    split
    · exact h
    · next hk =>
      rw [State.endTunerOp, State.complete_tuner]
      refine TunerRec.Tidy.sound (h.toTidy.of_same rfl rfl rfl h.label) h.frequency (h.no_seek fun p hp => ?_)
        (h.no_scan fun p hp => ?_)
      all_goals
        obtain rfl : o = p := Option.some.inj (ho.symm.trans hp)
        intro hkind
        rw [hkind] at hk
        exact hk rfl

theorem State.takeTuner_sound {s : State} (h : s.tuner.Sound) : s.takeTuner.tuner.Sound :=
  State.cancelTune_sound (State.abortTuner_sound h)

/-! ### Tune, Step Tune and Seek (R144, R145, R148, R149) -/

theorem State.acceptTune_sound {s : State} (h : s.tuner.Sound) {b : Band} {f : Nat} (hf : onGrid b s.tuner.region f = true)
    (x : Ctx) (kind : SlotKind) (op : TunerOpKind) (k : Fin 8) : (s.acceptTune x kind op b f k).tuner.Sound := by
  rw [State.acceptTune]
  dsimp only
  rw [(State.takeSlot_frame s k kind _ x).1 .tuner (by decide)]
  refine TunerRec.Tidy.settleNow ?_ ?_
  · exact h.toTidy.of_same rfl rfl rfl h.label
  · exact hf

/-- What an accepted command ends keeps the region. -/
theorem State.takeTuner_region (s : State) : s.takeTuner.tuner.region = s.tuner.region := by
  cases ho : s.tuner.op with
  | none => simp [State.takeTuner, State.abortTuner, State.cancelTune, ho]
  | some o =>
    obtain ⟨t, ht, hfreed, -⟩ := State.takeTuner_of_op ho
    rw [ht]
    exact hfreed.region

theorem tuneTo_sound (x : Ctx) (kind : SlotKind) {b : Band} {f : Nat} {s : State} (h : s.tuner.Sound)
    (hf : onGrid b s.tuner.region f = true) : (tuneTo x kind b f s).2.tuner.Sound := by
  unfold tuneTo
  split
  · exact h
  · split
    · exact h
    · split
      · split
        · exact State.acceptTune_sound (State.takeTuner_sound h) (by rw [s.takeTuner_region]; exact hf) ..
        · exact h
      · exact h

theorem startOn_sound {x : Ctx} {s : State} {start : State → Fin 8 → State} (h : s.tuner.Sound)
    (hs : ∀ u k, u.tuner.Sound → (start u k).tuner.Sound) : (startOn x s start).2.tuner.Sound := by
  unfold startOn
  split
  · exact h
  · split
    · split
      · exact hs _ _ (State.takeTuner_sound h)
      · exact h
    · exact h

theorem nextChannel_onGrid (b : Band) (r : Region) (d : Direction) {f : Nat} (h : onGrid b r f = true) :
    onGrid b r (nextChannel b r d f) = true := by
  obtain ⟨hup, hdown⟩ := nextChannel_spec b r h
  rw [onGrid_iff] at h
  cases d
  · rw [hup, onGrid_iff]
    obtain ⟨hl, hh, hs⟩ | ⟨hl, hh, hs⟩ | ⟨hl, hh, hs⟩ := grid_cases b r
    all_goals
      rw [hl, hh, hs] at h ⊢
      split <;> omega
  · rw [hdown, onGrid_iff]
    obtain ⟨hl, hh, hs⟩ | ⟨hl, hh, hs⟩ | ⟨hl, hh, hs⟩ := grid_cases b r
    all_goals
      rw [hl, hh, hs] at h ⊢
      split <;> omega

theorem TunerRec.Sound.startSeek {t : TunerRec} (h : t.Sound) (d : Direction) (k : Fin 8) (p : Port) :
    (t.startSeek d k p).Sound := by
  refine ⟨h.toTidy.of_same rfl rfl rfl labelOk_cleared, nextChannel_onGrid _ _ d h.frequency, fun r hr => ?_,
    fun _ hs => nomatch hs⟩
  obtain rfl := Option.some.inj hr
  exact ⟨h.frequency, _, rfl, rfl⟩

theorem State.seekDwellEnds_sound {s : State} (h : s.tuner.Sound) (q : Nat) : (s.seekDwellEnds q).tuner.Sound := by
  unfold State.seekDwellEnds
  split
  · next k o hst hk ho =>
    dsimp only
    have hr := h.report q
    obtain ⟨hstart, p, hp, hkind⟩ := h.seek k hk
    split
    · rw [State.seekFound, State.endTunerOp_restTuner, State.raiseTuner, (State.raise_frame _ _ _).1 .tuner (by decide)]
      refine TunerRec.Tidy.rested ?_ ?_ _
      · exact hr.toTidy.of_same rfl rfl rfl hr.label
      · exact hr.frequency
    · split
      · rw [State.seekNotFound, State.endTunerOp_settleOrPark]
        refine TunerRec.Tidy.settledOrParked ?_ ?_ _
        · exact hr.toTidy.of_same rfl rfl rfl hr.label
        · exact hstart
      · refine ⟨hr.toTidy.of_same rfl rfl rfl hr.label, nextChannel_onGrid _ _ _ hr.frequency, fun r hr' => ?_,
          fun r hs => ?_⟩
        · obtain rfl := Option.some.inj hr'
          exact ⟨hstart, p, hp, hkind⟩
        · obtain ⟨p', hp', hscan, -⟩ := h.scan r hs
          obtain rfl : p = p' := Option.some.inj (hp.symm.trans hp')
          exact nomatch hkind.symm.trans hscan
  · exact h

theorem State.settleEnds_sound {s : State} (h : s.tuner.Sound) (q : Nat) : (s.settleEnds q).tuner.Sound := by
  have hr := h.report q
  unfold State.settleEnds
  split
  · dsimp only
    rw [State.raiseTuner, (State.raise_frame _ _ _).1 .tuner (by decide)]
    split
    · rw [State.endTunerOp_restTuner]
      refine TunerRec.Tidy.rested ?_ ?_ _
      · exact hr.toTidy.of_same rfl rfl rfl hr.label
      · exact hr.frequency
    · next ho =>
      rw [State.restTuner_eq ho rfl]
      exact hr.toTidy.rested hr.frequency _
  · exact h

/-! ### The station list (R160 to R164) -/

theorem StationEntry.before_iff (a b : StationEntry) : a.before b = true ↔
    (a.band = .fm ∧ b.band = .am) ∨ (a.band = b.band ∧ a.frequency < b.frequency) := by
  unfold StationEntry.before
  cases ha : a.band <;> cases hb : b.band <;> simp

/-- Entries of different channels stand one before the other. -/
theorem StationEntry.before_or {a b : StationEntry} (h : a.band ≠ b.band ∨ a.frequency ≠ b.frequency) :
    a.before b = true ∨ b.before a = true := by
  rw [StationEntry.before_iff, StationEntry.before_iff]
  cases ha : a.band <;> cases hb : b.band <;> simp_all

theorem worstStation_mem {b : Band} {l : List StationEntry} {w : StationEntry} (h : worstStation b l = some w) : w ∈ l := by
  rw [worstStation_eq] at h
  cases hf : l.filter fun e => e.band == b with
  | nil => rw [hf] at h; cases h
  | cons y ys =>
    rw [hf] at h
    obtain ⟨v, hv, hm, -⟩ := foldl_worseOf y ys
    obtain rfl : v = w := Option.some.inj (hv.symm.trans h)
    exact List.mem_of_mem_filter (hf ▸ hm : v ∈ l.filter fun e => e.band == b)

/-- What an offer leaves: entries of the list, and perhaps the one offered (R163). -/
theorem offerStation_mem {e x : StationEntry} {l : List StationEntry} (h : x ∈ (offerStation e l).1) : x = e ∨ x ∈ l := by
  unfold offerStation at h
  split at h
  · exact (List.mem_cons.1 ((insertStation_perm e l).mem_iff.1 h))
  · split at h
    · split at h
      · exact (List.mem_cons.1 ((insertStation_perm e _).mem_iff.1 h)).imp_right List.mem_of_mem_filter
      · exact .inr h
    · exact .inr h

theorem offerStation_few {e : StationEntry} {l : List StationEntry} (h : l.length ≤ 40) : (offerStation e l).1.length ≤ 40 := by
  unfold offerStation
  split
  · next hlt =>
    rw [(insertStation_perm e l).length_eq]
    exact hlt
  · split
    · next w hw =>
      split
      · rw [(insertStation_perm e _).length_eq]
        have hlt : (l.filter fun f => f != w).length < l.length :=
          List.length_filter_lt_length_iff_exists.2 ⟨w, worstStation_mem hw, by simp⟩
        exact Nat.succ_le_of_lt (lt_of_lt_of_le hlt h)
      · exact h
    · exact h

theorem offerStation_sorted {e : StationEntry} {l : List StationEntry} (h : l.Pairwise fun a b => a.before b = true)
    (he : ∀ x, x ∈ l → x.band ≠ e.band ∨ x.frequency ≠ e.frequency) :
    (offerStation e l).1.Pairwise fun a b => a.before b = true := by
  unfold offerStation
  split
  · exact insertStation_pairwise h fun x hx => StationEntry.before_or (he x hx)
  · split
    · split
      · exact insertStation_pairwise (h.filter _) fun x hx => StationEntry.before_or (he x (List.mem_of_mem_filter hx))
      · exact h
    · exact h

theorem gridLow_onGrid (b : Band) (r : Region) : onGrid b r (gridLow b r) = true := by
  cases b <;> cases r <;> decide

theorem TunerRec.Sound.startScan {t : TunerRec} (h : t.Sound) (b : Band) (k : Fin 8) (p : Port) : (t.startScan b k p).Sound := by
  refine ⟨⟨fun e he => h.stationsGrid e (List.mem_of_mem_filter he), h.presetsGrid, (List.length_filter_le _ _).trans h.few,
    h.sorted.filter _, fun e l he => h.stationLabels e l (List.mem_of_mem_filter he), h.presetLabels, labelOk_cleared⟩,
    h.frequency, fun _ hs => (nomatch hs), fun r hr => ?_⟩
  obtain rfl := Option.some.inj hr
  refine ⟨_, rfl, rfl, gridLow_onGrid b t.region, fun e he hb => ?_⟩
  have : e.band ≠ b := by simpa using List.of_mem_filter he
  exact absurd hb this

/-- The list after the measure of a scan's channel is in order, and the operation keeps its kind and band. -/
theorem TunerRec.Sound.scanMeasured {t : TunerRec} (h : t.Sound) {o : TunerOp} {k : ScanRec} (hk : t.scan = some k)
    (ho : t.op = some o) (q : Nat) : (t.scanMeasured o k q).1.Tidy ∧
      (t.scanMeasured o k q).1 = { t with stations := (t.scanMeasured o k q).1.stations } ∧
      (t.scanMeasured o k q).2.kind = .scan ∧ (t.scanMeasured o k q).2.scanBand = o.scanBand ∧
      (t.scanMeasured o k q).2.slot = o.slot ∧
      ∀ e, e ∈ (t.scanMeasured o k q).1.stations → e.band = o.scanBand → e.frequency ≤ k.channel := by
  obtain ⟨o', ho', hkind, hgrid, hlow⟩ := h.scan k hk
  obtain rfl : o' = o := Option.some.inj (ho'.symm.trans ho)
  unfold TunerRec.scanMeasured
  split
  · dsimp only
    generalize hnew : StationEntry.mk o'.scanBand k.channel q none = e
    have hband : e.band = o'.scanBand := by rw [← hnew]
    have hchannel : e.frequency = k.channel := by rw [← hnew]
    have hlabel : e.label = none := by rw [← hnew]
    have hapart (x : StationEntry) (hx : x ∈ t.stations) : x.band ≠ e.band ∨ x.frequency ≠ e.frequency := by
      by_cases hb : x.band = o'.scanBand
      · exact .inr (by rw [hchannel]; exact (hlow x hx hb).ne)
      · exact .inl (by rw [hband]; exact hb)
    refine ⟨⟨fun x hx => ?_, h.presetsGrid, offerStation_few h.few, offerStation_sorted h.sorted hapart, fun x l hx hl => ?_,
      h.presetLabels, h.label⟩, rfl, hkind, rfl, rfl, fun x hx hb => ?_⟩
    · obtain rfl | hx := offerStation_mem hx
      · rw [hband, hchannel]; exact hgrid
      · exact h.stationsGrid x hx
    · obtain rfl | hx := offerStation_mem hx
      · exact nomatch hlabel.symm.trans hl
      · exact h.stationLabels x l hx hl
    · obtain rfl | hx := offerStation_mem hx
      · exact hchannel.le
      · exact (hlow x hx hb).le
  · exact ⟨h.toTidy, rfl, hkind, rfl, rfl, fun x hx hb => (hlow x hx hb).le⟩

/-- The channel after one that is not the highest. -/
theorem onGrid_step {b : Band} {r : Region} {f : Nat} (h : onGrid b r f = true) (hlt : f < gridHigh b) :
    onGrid b r (f + gridStep b r) = true := by
  have := nextChannel_onGrid b r .up h
  rwa [(nextChannel_spec b r h).1, if_neg hlt.ne] at this

theorem State.scanDwellEnds_sound {s : State} (h : s.tuner.Sound) (q : Nat) : (s.scanDwellEnds q).tuner.Sound := by
  unfold State.scanDwellEnds
  split
  · next k o hst hk ho =>
    dsimp only
    have hr := h.report q
    obtain ⟨htidy, hrest, hkind, hband, -, hlow⟩ := hr.scanMeasured hk ho q
    obtain ⟨o', ho', -, hgrid, -⟩ := h.scan k hk
    obtain rfl : o' = o := Option.some.inj (ho'.symm.trans ho)
    have hregion : ((s.tuner.report q).scanMeasured o' k q).1.region = s.tuner.region := by rw [hrest]; rfl
    have hon : onGrid ((s.tuner.report q).scanMeasured o' k q).1.band ((s.tuner.report q).scanMeasured o' k q).1.region
        ((s.tuner.report q).scanMeasured o' k q).1.frequency = true := by rw [hrest]; exact hr.frequency
    have hseek : ((s.tuner.report q).scanMeasured o' k q).1.seek = none := by
      rw [hrest]
      refine h.no_seek fun p hp hseek => ?_
      obtain ⟨p', hp', hscan, -⟩ := h.scan k hk
      obtain rfl : p' = p := Option.some.inj (hp'.symm.trans hp)
      exact nomatch hscan.symm.trans hseek
    generalize (s.tuner.report q).scanMeasured o' k q = m at *
    split
    · next hlt =>
      refine ⟨htidy.of_same rfl rfl rfl htidy.label, hon, fun r hr => (nomatch hseek.symm.trans hr), fun r hr => ?_⟩
      obtain rfl := Option.some.inj hr
      refine ⟨m.2, rfl, hkind, ?_, fun e he hb => ?_⟩
      · change onGrid m.2.scanBand m.1.region (k.channel + gridStep o'.scanBand m.1.region) = true
        rw [hband, hregion]
        exact onGrid_step hgrid hlt
      · have hle := hlow e he (hb.trans hband)
        have hpos : 0 < gridStep o'.scanBand m.1.region := by
          obtain ⟨-, -, hs⟩ | ⟨-, -, hs⟩ | ⟨-, -, hs⟩ := grid_cases o'.scanBand m.1.region <;> omega
        exact lt_of_le_of_lt hle (Nat.lt_add_of_pos_right hpos)
    · rw [State.endTunerOp_settleOrPark]
      refine TunerRec.Tidy.settledOrParked ?_ ?_ _
      · exact htidy.of_same rfl rfl rfl htidy.label
      · exact hon
  · exact h

/-! ### Labels (R153, R165) -/

/-- A pair of the assembly is absent, or printable. -/
def pairOk (c : Option (Byte × Byte)) : Prop := ∀ x, x ∈ pairChars c → 0x20 ≤ x.toNat ∧ x.toNat ≤ 0x7E

theorem LabelRec.labelOk_iff (l : LabelRec) : labelOk l.chars ↔ ∀ i, pairOk (l.pair i) := by
  have hlen (c : Option (Byte × Byte)) : (pairChars c).length = 2 := by cases c <;> rfl
  have h8 : l.chars.length = 8 := by simp [LabelRec.chars, hlen]
  refine ⟨fun ⟨_, h⟩ i x hx => h x ?_, fun h => ⟨h8, fun x hx => ?_⟩⟩
  · simp only [LabelRec.chars, List.mem_append]
    match i with
    | 0 => exact .inl (.inl (.inl hx))
    | 1 => exact .inl (.inl (.inr hx))
    | 2 => exact .inl (.inr hx)
    | 3 => exact .inr hx
  · simp only [LabelRec.chars, List.mem_append] at hx
    obtain ((h0 | h1) | h2) | h3 := hx
    · exact h 0 x h0
    · exact h 1 x h1
    · exact h 2 x h2
    · exact h 3 x h3

theorem labelChar_printable (b : Byte) : 0x20 ≤ (labelChar b).toNat ∧ (labelChar b).toNat ≤ 0x7E := by
  unfold labelChar
  split
  · decide
  · omega

theorem LabelRec.take_ok {l : LabelRec} (h : labelOk l.chars) (i : Fin 4) (v : Bool) (a b : Byte) :
    labelOk (l.take i v (labelChar a, labelChar b)).chars := by
  rw [LabelRec.labelOk_iff] at *
  intro j
  rw [LabelRec.take_eq, LabelRec.judged_pair]
  by_cases hj : j = i
  · subst hj
    rw [LabelRec.setPair_pair_self]
    intro x hx
    simp only [pairChars, List.mem_cons, List.not_mem_nil, or_false] at hx
    obtain rfl | rfl := hx <;> exact labelChar_printable _
  · rw [LabelRec.setPair_pair_ne _ _ hj, LabelRec.base]
    split
    · exact h j
    · rw [LabelRec.cleared_pair]
      intro x hx
      simp only [pairChars, List.mem_cons, List.not_mem_nil, or_false] at hx
      obtain rfl | rfl := hx <;> decide

theorem TunerRec.Sound.withLabel {t : TunerRec} (h : t.Sound) {l : LabelRec} (hl : labelOk l.chars) :
    ({ t with label := l } : TunerRec).Sound :=
  ⟨h.toTidy.of_same rfl rfl rfl hl, h.frequency, h.seek, h.scan⟩

theorem TunerRec.Sound.handLabel {t : TunerRec} (h : t.Sound) : t.handLabel.Sound := by
  obtain ⟨f, hf⟩ : ∃ f : StationEntry → StationEntry, f = fun e =>
      if e.band = .fm ∧ e.frequency = t.frequency then { e with label := some t.label.chars } else e := ⟨_, rfl⟩
  have hsame (e : StationEntry) : (f e).band = e.band ∧ (f e).frequency = e.frequency ∧
      ((f e).label = e.label ∨ (f e).label = some t.label.chars) := by
    rw [hf]
    dsimp only
    split
    · exact ⟨rfl, rfl, .inr rfl⟩
    · exact ⟨rfl, rfl, .inl rfl⟩
  have ht : t.handLabel = { t with stations := t.stations.map f } := by rw [hf]; rfl
  rw [ht]
  refine ⟨⟨fun e he => ?_, h.presetsGrid, (List.length_map f).trans_le h.few, ?_, fun e l he hl => ?_, h.presetLabels, h.label⟩,
    h.frequency, h.seek, fun k hk => ?_⟩
  · obtain ⟨x, hx, rfl⟩ := List.mem_map.1 he
    rw [(hsame x).1, (hsame x).2.1]
    exact h.stationsGrid x hx
  · refine List.pairwise_map.2 (h.sorted.imp fun {a b} hab => ?_)
    rw [StationEntry.before_iff] at hab ⊢
    rw [(hsame a).1, (hsame b).1, (hsame a).2.1, (hsame b).2.1]
    exact hab
  · obtain ⟨x, hx, rfl⟩ := List.mem_map.1 he
    obtain ⟨-, -, hlab | hlab⟩ := hsame x
    · exact h.stationLabels x l hx (hlab.symm.trans hl)
    · rw [hlab] at hl
      exact Option.some.inj hl ▸ h.label
  · obtain ⟨o, ho, hkind, hgrid, hlow⟩ := h.scan k hk
    refine ⟨o, ho, hkind, hgrid, fun e he hb => ?_⟩
    obtain ⟨x, hx, rfl⟩ := List.mem_map.1 he
    rw [(hsame x).1] at hb
    rw [(hsame x).2.1]
    exact hlow x hx hb

theorem State.segmentArrives_sound {s : State} (h : s.tuner.Sound) (i : Fin 4) (v : Bool) (a b : Byte) :
    (s.segmentArrives i v a b).tuner.Sound := by
  unfold State.segmentArrives
  dsimp only
  split
  · have hl := h.withLabel (LabelRec.take_ok h.label i v a b)
    split
    · rw [State.raiseTuner, (State.raise_frame _ _ _).1 .tuner (by decide)]
      exact hl.handLabel
    · exact hl
  · exact h

/-! ### Presets and the region (R156, R168 to R171) -/

theorem TunerRec.Sound.setPreset {t : TunerRec} (h : t.Sound) (n : Fin 40) {p : Option PresetRec}
    (hp : ∀ r, p = some r → onGrid r.band t.region r.frequency = true ∧ ∀ l, r.label = some l → labelOk l) :
    (t.setPreset n p).Sound := by
  have hget (m : Fin 40) (r : PresetRec) (hr : (t.setPreset n p).presets[m] = some r) : t.presets[m] = some r ∨ p = some r := by
    change (t.presets.set n p)[m] = some r at hr
    by_cases hm : m = n
    · subst hm
      exact .inr (by simpa using hr)
    · refine .inl ?_
      rwa [show (t.presets.set n p)[m] = t.presets[m] from
        Vector.getElem_set_ne _ _ (fun e => hm (Fin.ext e.symm))] at hr
  refine ⟨⟨h.stationsGrid, fun m r hr => ?_, h.few, h.sorted, h.stationLabels, fun m r l hr hl => ?_, h.label⟩, h.frequency,
    h.seek, h.scan⟩
  · exact (hget m r hr).elim (h.presetsGrid m r) fun e => (hp r e).1
  · exact (hget m r hr).elim (fun e => h.presetLabels m r l e hl) fun e => (hp r e).2 l hl

theorem TunerRec.Sound.here {t : TunerRec} (h : t.Sound) :
    onGrid t.here.band t.region t.here.frequency = true ∧ ∀ l, t.here.label = some l → labelOk l := by
  refine ⟨h.held, fun l hl => ?_⟩
  change t.label.whole = some l at hl
  unfold LabelRec.whole at hl
  split at hl
  · obtain rfl := Option.some.inj hl
    exact h.label
  · cases hl

/-- A frequency on one grid of AM is snapped onto the other; a channel of FM is one in either region. -/
theorem snapped_onGrid {b : Band} {r r' : Region} {f : Nat} (h : onGrid b r f = true) :
    onGrid b r' (if b = .am then snapDown .am r' f else f) = true := by
  rw [onGrid_iff] at h
  cases b
  · simpa [onGrid_iff, gridLow, gridHigh, gridStep] using h
  · rw [if_pos rfl, onGrid_iff, snapDown]
    cases r <;> cases r' <;> simp only [gridLow, gridHigh, gridStep] at h ⊢ <;> omega

theorem TunerRec.snapRegion_label (t : TunerRec) (h : labelOk t.label.chars) : labelOk t.snapRegion.label.chars := by
  unfold TunerRec.snapRegion
  dsimp only
  split
  · split
    · exact h
    · exact labelOk_cleared
  · exact h

theorem TunerRec.snapRegion_searchless {t : TunerRec} (hk : t.seek = none) (hc : t.scan = none) :
    t.snapRegion.seek = none ∧ t.snapRegion.scan = none := by
  unfold TunerRec.snapRegion
  dsimp only
  split
  · split
    · exact ⟨hk, hc⟩
    · exact ⟨rfl, rfl⟩
  · exact ⟨hk, hc⟩

/-- A tuner in which no search runs takes another region (R156, R170). -/
theorem TunerRec.Sound.withRegion {t : TunerRec} (h : t.Sound) (hk : t.seek = none) (hc : t.scan = none) (r : Region) :
    (({ t with region := r } : TunerRec).snapRegion.purge).Sound := by
  obtain ⟨u, hu⟩ : ∃ u, u = ({ t with region := r } : TunerRec).snapRegion := ⟨_, rfl⟩
  obtain ⟨hf, hregion, hband, -, -, hstations, hpresets⟩ := ({ t with region := r } : TunerRec).snapRegion_kept
  obtain ⟨huk, huc⟩ := TunerRec.snapRegion_searchless (t := { t with region := r }) hk hc
  have hlabel := TunerRec.snapRegion_label { t with region := r } h.label
  rw [← hu] at *
  have hpreset {n : Fin 40} {p : PresetRec} (hp : u.purge.presets[n] = some p) :
      t.presets[n] = some p ∧ purged r (some p) = false := by
    rw [TunerRec.purge_presets] at hp
    split at hp
    · cases hp
    · next hkeep =>
      rw [hpresets] at hp
      rw [hpresets, hregion, show ({ t with region := r } : TunerRec).presets[n] = some p from hp] at hkeep
      exact ⟨hp, by simpa using hkeep⟩
  have hstation {e : StationEntry} (he : e ∈ u.purge.stations) : e ∈ t.stations ∧ e.band = .fm := by
    rw [TunerRec.purge_stations, List.mem_filter, hstations] at he
    exact ⟨he.1, by simpa using he.2⟩
  have hfm {e : StationEntry} (he : e ∈ u.purge.stations) : onGrid e.band r e.frequency = true := by
    obtain ⟨hmem, hb⟩ := hstation he
    have := snapped_onGrid (r' := r) (h.stationsGrid e hmem)
    rwa [if_neg (by rw [hb]; decide)] at this
  refine TunerRec.Tidy.sound ⟨fun e he => ?_, fun n p hp => ?_, ?_, ?_, fun e l he => h.stationLabels e l (hstation he).1,
    fun n p l hp => h.presetLabels n p l (hpreset hp).1, hlabel⟩ ?_ huk huc
  · change onGrid e.band u.region e.frequency = true
    rw [hregion]; exact hfm he
  · change onGrid p.band u.region p.frequency = true
    rw [hregion]
    obtain ⟨hmem, hkeep⟩ := hpreset hp
    have hon := snapped_onGrid (r' := r) (h.presetsGrid n p hmem)
    cases hb : p.band with
    | fm => rwa [hb, if_neg (by decide)] at hon
    | am => simpa [purged, hb] using hkeep
  · rw [TunerRec.purge_stations, hstations]
    exact (List.length_filter_le _ _).trans h.few
  · rw [TunerRec.purge_stations, hstations]
    exact h.sorted.filter _
  · change onGrid u.band u.region u.frequency = true
    rw [hf, hregion, hband]
    exact snapped_onGrid h.frequency

end Sys2Proof.Machine

end

section
/-! PROOFS. What every operation of the unit keeps: the events, the no-output marks, the memory, the gains, the binding, the
tuner and the depth of the queues (R51, R74, R87, R113, R139, R160, R175, R195). -/

open Sys2Proof Sys2Proof.Machine

namespace Sys2Proof.Machine

/-! ### Operations that keep everything in order -/

/-- From `s` to `t` no event is lost, and what is in order stays so. -/
structure Keeps (s t : State) : Prop where
  grown : eventsGrow s t
  noted : ∀ z, (t.zone z).noOutput = true → (s.zone z).noOutput = true ∨ noOutputReported t z
  marked : s.noOutputMarked → t.noOutputMarked
  memory : DelayKept s.delay t.delay
  gains : s.gainsOk → t.gainsOk
  bound : s.bindingOk → t.bindingOk
  tuned : s.tuner.Sound → t.tuner.Sound
  queues : s.queuesOk → t.queuesOk

theorem Keeps.refl (s : State) : Keeps s s := ⟨.refl s, fun _ => .inl, id, .refl _, id, id, id, id⟩

theorem Keeps.of_eq {s t : State} (h : t = s) : Keeps s t := h ▸ .refl s

theorem Keeps.trans {s t u : State} (h1 : Keeps s t) (h2 : Keeps t u) : Keeps s u where
  grown := h1.grown.trans h2.grown
  noted := fun z h => (h2.noted z h).elim (fun h => (h1.noted z h).imp_right (reported.mono · h2.grown)) .inr
  marked := h2.marked ∘ h1.marked
  memory := h1.memory.trans h2.memory
  gains := h2.gains ∘ h1.gains
  bound := h2.bound ∘ h1.bound
  tuned := h2.tuned ∘ h1.tuned
  queues := h2.queues ∘ h1.queues

theorem Keeps.foldl {β : Type} (f : State → β → State) (h : ∀ s b, Keeps s (f s b)) (l : List β) (s : State) :
    Keeps s (l.foldl f s) := by
  induction l generalizing s with
  | nil => exact .refl s
  | cons b l ih => exact (h s b).trans (ih (f s b))

theorem portsKept.queuesOk {s t : State} (h : portsKept s t) (hs : s.queuesOk) : t.queuesOk := by
  intro p
  obtain ⟨hin, -, -, -, -, -, -, -, -, hlen⟩ := h p
  obtain ⟨h1, h2⟩ := hs p
  exact ⟨hin ▸ h1, hlen h2⟩

theorem State.gainsOk_of_mix {s t : State} (h : t.mix = s.mix) (hs : s.gainsOk) : t.gainsOk := fun o => by
  rw [State.gain, h]; exact hs o

theorem State.bindingOk_of_decoder {s t : State} (h : t.decoder = s.decoder) (hs : s.bindingOk) : t.bindingOk := by
  unfold State.bindingOk at *; rwa [h]

/-- An operation of the Output Channel Unit keeps everything in order. -/
theorem UnitStep.keeps {s t : State} (h : UnitStep s t) : Keeps s t where
  grown := h.grown
  noted := h.noted
  marked := h.marked
  memory := h.memory
  gains := State.gainsOk_of_mix (h.frame.1 .mix (by decide))
  bound := State.bindingOk_of_decoder (h.frame.1 .decoder (by decide))
  tuned := fun hs => by rw [h.frame.1 .tuner (by decide)]; exact hs
  queues := h.frame.2.queuesOk

/-- The records that the invariants read. -/
def keptParts : List Part := [.zones, .outputs, .delay, .mix, .decoder, .tuner]

/-- What leaves those records alone keeps them in order. -/
theorem Keeps.of_frame {ps : List Part} {s t : State} (h : Frame ps s t) (hg : eventsGrow s t)
    (hps : ∀ q ∈ keptParts, q ∉ ps) : Keeps s t where
  grown := hg
  noted := fun z hz => .inl (by rwa [State.zone, h.1 .zones (hps _ (by decide))] at hz)
  marked := noOutputMarked_of_same (h.1 .zones (hps _ (by decide))) fun o z => by
    rw [State.out, h.1 .outputs (hps _ (by decide))]; rfl
  memory := by rw [h.1 .delay (hps _ (by decide))]; exact .refl _
  gains := State.gainsOk_of_mix (h.1 .mix (hps _ (by decide)))
  bound := State.bindingOk_of_decoder (h.1 .decoder (hps _ (by decide)))
  tuned := fun hs => by rw [h.1 .tuner (hps _ (by decide))]; exact hs
  queues := h.2.queuesOk

/-- A zone's record rewritten keeps everything in order where the marks are. -/
theorem Edits.keeps {z : Zone} {r : ZoneRec} {s t : State} (h : Edits z r s t) (hp : portsKept s t)
    (hm : s.noOutputMarked → t.noOutputMarked) : Keeps s t where
  grown := h.tracks.grown
  noted := h.noted
  marked := hm
  memory := by rw [h.changes .delay (by decide)]; exact .refl _
  gains := State.gainsOk_of_mix (h.changes .mix (by decide))
  bound := State.bindingOk_of_decoder (h.changes .decoder (by decide))
  tuned := fun hs => by rw [h.changes .tuner (by decide)]; exact hs
  queues := hp.queuesOk

/-! ### Updates of one record -/

theorem State.raise_keeps (s : State) (k : EventKind) (d : EventDetail) : Keeps s (s.raise k d) := (s.raise_unitStep k d).keeps

theorem State.raiseZone_keeps (s : State) (z : Zone) : Keeps s (s.raiseZone z) := s.raise_keeps ..

theorem State.raiseOn_keeps (s : State) (p : Port) (k : EventKind) (d : EventDetail) : Keeps s (s.raiseOn p k d) :=
  .of_frame (s.raiseOn_frame p k d) (s.raiseOn_raises p k d).2 (by decide)

theorem State.setSlot_keeps (s : State) (k : Fin 8) (b : Slot) : Keeps s (s.setSlot k b) :=
  .of_frame (s.setSlot_frame k b) (.of_ports_eq rfl) (by decide)

theorem State.setInput_keeps (s : State) (i : Fin 12) (r : InputRec) : Keeps s (s.setInput i r) :=
  .of_frame (s.setInput_frame i r) (.of_ports_eq rfl) (by decide)

theorem State.complete_keeps (s : State) (k : Fin 8) (st : Status) (r : List Byte) : Keeps s (s.complete k st r) :=
  (s.complete_unitStep k st r).keeps

theorem State.completeOpt_keeps (s : State) (k : Option (Fin 8)) (st : Status) (r : List Byte) :
    Keeps s (s.completeOpt k st r) := by
  cases k with
  | none => exact .refl s
  | some k => exact s.complete_keeps k st r

theorem State.takeSlot_keeps (s : State) (k : Fin 8) (kind : SlotKind) (t : SlotTarget) (x : Ctx) :
    Keeps s (s.takeSlot k kind t x) := by
  refine .of_frame (s.takeSlot_frame k kind t x) (.of_events_eq fun q => ?_) (by decide)
  unfold State.takeSlot
  dsimp only
  split
  · rfl
  · by_cases hq : q = x.port
    · subst hq; rw [State.port_setPort_self]; rfl
    · rw [State.port_setPort_ne _ _ hq]; rfl

/-- A zone's record rewritten with its power state and its mark. -/
theorem State.setZone_keeps {s : State} {z : Zone} {r : ZoneRec} (hp : r.power = (s.zone z).power := by rfl)
    (hn : r.noOutput = (s.zone z).noOutput := by rfl) : Keeps s (s.setZone z r) := by
  have hsame (y : Zone) : ((s.setZone z r).zone y).noOutput = (s.zone y).noOutput ∧
      ((s.setZone z r).zone y).power = (s.zone y).power := by
    by_cases hy : y = z
    · subst hy; rw [State.zone_setZone_self]; exact ⟨hn, hp⟩
    · rw [State.zone_setZone_ne _ _ hy]; exact ⟨rfl, rfl⟩
  exact {
    grown := .of_ports_eq rfl
    noted := fun y hy => .inl ((hsame y).1 ▸ hy)
    marked := State.noOutputMarked_congr (fun y => ⟨(hsame y).2, (hsame y).1⟩) fun _ _ => rfl
    memory := .refl _
    gains := id
    bound := id
    tuned := id
    queues := id }

theorem State.setPower_keeps (s : State) (z : Zone) (w : Power) : Keeps s (s.setPower z w) := by
  obtain ⟨he, -, hm⟩ := s.setPower_edits z w
  exact he.keeps (s.setPower_frame z w).2 fun _ => hm

theorem State.setDelay_keeps_memory {s : State} {d : DelayState} (h : DelayKept s.delay d) : Keeps s (s.setDelay d) :=
  ⟨.of_ports_eq rfl, fun _ => .inl, State.setDelay_marked d, h, id, id, id, id⟩

theorem State.setDecoder_keeps {s : State} {d : DecoderRec} (h : s.bindingOk → (d.state = .idle ↔ d.binding = none)) :
    Keeps s (s.setDecoder d) :=
  ⟨.of_ports_eq rfl, fun _ => .inl, noOutputMarked_of_same rfl fun _ _ => rfl, .refl _, id, h, id, id⟩

theorem State.setTuner_keeps {s : State} {t : TunerRec} (h : s.tuner.Sound → t.Sound) : Keeps s (s.setTuner t) :=
  ⟨.of_ports_eq rfl, fun _ => .inl, noOutputMarked_of_same rfl fun _ _ => rfl, .refl _, id, id, h, id⟩

theorem State.setMix_keeps {s : State} {m : MixState} (h : s.gainsOk → (s.setMix m).gainsOk) : Keeps s (s.setMix m) :=
  ⟨.of_ports_eq rfl, fun _ => .inl, noOutputMarked_of_same rfl fun _ _ => rfl, .refl _, h, id, id, id⟩

/-- The mix rewritten with its gains. -/
theorem State.setMix_keeps_gains {s : State} {m : MixState} (h : m.gains = s.mix.gains := by rfl) : Keeps s (s.setMix m) :=
  State.setMix_keeps fun hs o => by
    have : (s.setMix m).gain o = s.gain o := by rw [State.gain, State.gain]; exact congrArg (·.get o) h
    rw [this]; exact hs o

theorem State.setGain_keeps {s : State} {o : Fin 13} {g : GainRec} (h : s.gainsOk → g.ok) : Keeps s (s.setGain o g) :=
  State.setMix_keeps fun hs q => by
    by_cases hq : q = o
    · subst hq; exact (s.gain_setGain_self q g).symm ▸ h hs
    · exact (s.gain_setGain_ne g hq).symm ▸ hs q

/-- The unit's record rewritten with the same outputs. -/
theorem State.setOutputs_keeps {s : State} {u : OutputUnit} (h : u.outs = s.outputs.outs := by rfl) : Keeps s (s.setOutputs u) :=
  ⟨.of_ports_eq rfl, fun _ => .inl,
    noOutputMarked_of_same rfl fun o z => by rw [State.out, State.setOutputs_outputs, h]; rfl, .refl _, id, id, id, id⟩

theorem State.setOut_keeps {s : State} {o : Fin 13} {r : OutputRec} (hr : ∀ z, r.grantedTo z = (s.out o).grantedTo z) :
    Keeps s (s.setOut o r) := (State.setOut_unitStep hr).keeps

/-! ### Operations that leave the derived state alone besides -/

/-- What keeps everything in order and does not touch what the derived state reads. -/
structure Calm (s t : State) : Prop extends Keeps s t, Settled s t

theorem Calm.refl (s : State) : Calm s s := ⟨.refl s, rfl, rfl, rfl, fun _ => ⟨rfl, rfl, rfl⟩⟩

theorem Calm.of_eq {s t : State} (h : t = s) : Calm s t := h ▸ .refl s

theorem Keeps.calm {s t : State} (h : Keeps s t) (hs : Settled s t) : Calm s t := ⟨h, hs.decoder, hs.tuner, hs.inputs, hs.zones⟩

theorem Calm.trans {s t u : State} (h1 : Calm s t) (h2 : Calm t u) : Calm s u :=
  (h1.toKeeps.trans h2.toKeeps).calm (h1.toSettled.trans h2.toSettled)

theorem UnitStep.calm {s t : State} (h : UnitStep s t) : Calm s t := h.keeps.calm h.toOutStep.settled

theorem State.raise_calm (s : State) (k : EventKind) (d : EventDetail) : Calm s (s.raise k d) := (s.raise_unitStep k d).calm

theorem State.raiseZone_calm (s : State) (z : Zone) : Calm s (s.raiseZone z) := s.raise_calm ..

theorem State.raiseOn_calm (s : State) (p : Port) (k : EventKind) (d : EventDetail) : Calm s (s.raiseOn p k d) :=
  (s.raiseOn_keeps p k d).calm ((s.raiseOn_frame p k d).1.settled (s.raiseOn_raises p k d).2)

theorem State.completeOpt_calm (s : State) (k : Option (Fin 8)) (st : Status) (r : List Byte) :
    Calm s (s.completeOpt k st r) := (s.completeOpt_keeps k st r).calm (s.completeOpt_settled k st r)

theorem State.takeSlot_calm (s : State) (k : Fin 8) (kind : SlotKind) (t : SlotTarget) (x : Ctx) :
    Calm s (s.takeSlot k kind t x) :=
  (s.takeSlot_keeps k kind t x).calm ((s.takeSlot_frame k kind t x).1.settled (s.takeSlot_keeps k kind t x).grown)

/-- A zone's record rewritten with its power state, its source, its status and its mark. -/
theorem State.setZone_calm {s : State} {z : Zone} {r : ZoneRec} (hp : r.power = (s.zone z).power := by rfl)
    (hn : r.noOutput = (s.zone z).noOutput := by rfl) (hl : r.live = (s.zone z).live := by rfl)
    (hst : r.status = (s.zone z).status := by rfl) : Calm s (s.setZone z r) := by
  refine (State.setZone_keeps hp hn).calm ⟨rfl, rfl, rfl, fun y => ?_, .of_ports_eq rfl⟩
  by_cases hy : y = z
  · subst hy; rw [State.zone_setZone_self]; exact ⟨hp, hl, hst⟩
  · rw [State.zone_setZone_ne _ _ hy]; exact ⟨rfl, rfl, rfl⟩

theorem State.setDelay_calm {s : State} {d : DelayState} (h : DelayKept s.delay d) : Calm s (s.setDelay d) :=
  (State.setDelay_keeps_memory h).calm ⟨rfl, rfl, rfl, fun _ => ⟨rfl, rfl, rfl⟩, .of_ports_eq rfl⟩

theorem State.setMix_calm {s : State} {m : MixState} (h : m.gains = s.mix.gains := by rfl) : Calm s (s.setMix m) :=
  (State.setMix_keeps_gains h).calm ⟨rfl, rfl, rfl, fun _ => ⟨rfl, rfl, rfl⟩, .of_ports_eq rfl⟩

theorem State.setOutputs_calm {s : State} {u : OutputUnit} (h : u.outs = s.outputs.outs := by rfl) :
    Calm s (s.setOutputs u) :=
  (State.setOutputs_keeps h).calm ⟨rfl, rfl, rfl, fun _ => ⟨rfl, rfl, rfl⟩, .of_ports_eq rfl⟩

theorem State.setGain_calm {s : State} {o : Fin 13} {g : GainRec} (h : s.gainsOk → g.ok) : Calm s (s.setGain o g) :=
  (State.setGain_keeps h).calm ⟨rfl, rfl, rfl, fun _ => ⟨rfl, rfl, rfl⟩, .of_ports_eq rfl⟩

theorem Calm.foldl {β : Type} (f : State → β → State) (h : ∀ s b, Calm s (f s b)) (l : List β) (s : State) :
    Calm s (l.foldl f s) := by
  induction l generalizing s with
  | nil => exact .refl s
  | cons b l ih => exact (h s b).trans (ih (f s b))

end Sys2Proof.Machine

end

section
/-! PROOFS. The operations of the zones, the protection lines, the reports and the segment table keep everything in order
(R2 to R21, R54 to R59, R75, R126, R141). -/

open Sys2Proof Sys2Proof.Machine

namespace Sys2Proof.Machine

/-! ### Reports (R2, R75, R76, R141) -/

theorem State.refreshStatus_keeps (s : State) (z : Zone) : Keeps s (s.refreshStatus z) := by
  unfold State.refreshStatus
  dsimp only
  split
  · exact .refl s
  · exact (State.setZone_keeps).trans (State.raiseZone_keeps _ z)

theorem State.refreshBinding_keeps (s : State) : Keeps s s.refreshBinding := by
  unfold State.refreshBinding
  split
  · exact .refl s
  · have hdec : Keeps s (s.setDecoder (DecoderRec.bound s.computedBinding)) := State.setDecoder_keeps fun _ => by
      cases s.computedBinding <;> simp [DecoderRec.bound]
    exact hdec.trans ((State.raise_keeps _ _ _).trans (((State.refreshStatus_keeps _ _).trans
      (State.refreshStatus_keeps _ _)).trans (State.refreshStatus_keeps _ _)))

theorem State.refreshTuner_keeps (s : State) : Keeps s s.refreshTuner := by
  have h (ht : s.refreshTuner = s.setTuner s.refreshTuner.tuner) : Keeps s s.refreshTuner :=
    ht ▸ State.setTuner_keeps State.refreshTuner_sound
  apply h
  unfold State.refreshTuner
  split
  · split <;> rfl
  · split <;> rfl

theorem State.reportZones_keeps (s : State) : Keeps s s.reportZones :=
  s.refreshBinding_keeps.trans (State.refreshTuner_keeps _)

/-! ### Power states (R4 to R10) -/

theorem State.quietZone_keeps (s : State) (z : Zone) (k : Option (Fin 8)) : Keeps s (s.quietZone z k) := by
  unfold State.quietZone
  dsimp only
  exact ((State.setZone_keeps).trans (State.setPower_keeps _ z _)).trans (State.refreshStatus_keeps _ z)

theorem State.endSilentRamp_keeps (s : State) (z : Zone) : Keeps s (s.endSilentRamp z) := by
  unfold State.endSilentRamp
  split
  · exact (State.setZone_keeps).trans (State.openRelays_unitStep _ z).keeps
  · exact .refl s

theorem State.reportQuieting_keeps (before s : State) : Keeps s (State.reportQuieting before s) :=
  s.reportZones_keeps.trans (Keeps.foldl _ State.endSilentRamp_keeps _ _)

theorem State.enterQuieting_keeps (s : State) (z : Zone) (k : Option (Fin 8)) : Keeps s (s.enterQuieting z k) :=
  (s.quietZone_keeps z k).trans (State.reportQuieting_keeps s _)

theorem State.removePending_calm (s : State) (z : Zone) : Calm s (s.removePending z) := by
  unfold State.removePending
  dsimp only
  exact ((State.setZone_calm).trans (State.raiseZone_calm _ z)).trans (State.completeOpt_calm _ _ _ _)

theorem State.setPending_calm (s : State) (z : Zone) (w : PendingPower) (k : Option (Fin 8)) : Calm s (s.setPending z w k) :=
  (State.setZone_calm).trans (State.raiseZone_calm _ z)

/-- The largest distance that the memory measures against is no part of its table. -/
theorem State.setDref_calm (s : State) (n : Option Nat) : Calm s (s.setDelay { s.delay with dref := n }) :=
  State.setDelay_calm (.of_same rfl rfl rfl rfl rfl rfl)

theorem State.withReference_calm (s : State) (z : Zone) : Calm s (s.withReference z) := by
  cases z with
  | main => exact (s.setDref_calm _)
  | _ => exact .refl s

theorem State.wakeRequest_calm {s t : State} {z : Zone} (h : s.wakeRequest z = .ok t) : Calm s t := by
  obtain ⟨d, hd, rfl⟩ := Except.eq_ok_of_map h
  exact (s.withReference_calm z).trans (State.setDelay_calm (DelayState.request_kept hd))

theorem State.enterWaking_keeps (s : State) (z : Zone) (k : Option (Fin 8)) : Keeps s (s.enterWaking z k) :=
  (((State.setZone_keeps).trans (State.setPower_keeps _ z _)).trans (State.regrantAll_unitStep _).keeps).trans
    (State.reportZones_keeps _)

theorem State.cancelStack_calm (s : State) (z : Zone) : Calm s (s.cancelStack z) := by
  have h := Calm.foldl (fun s (e : OverrideEntry) => s.raiseCancelled e.port z)
    (fun s e => s.raiseOn_calm e.port _ _) (s.zone z).stack s
  have hzones : ((s.zone z).stack.foldl (fun s e => s.raiseCancelled e.port z) s).zones = s.zones :=
    (Frame.foldl (ps := [.ports]) _ (fun s (e : OverrideEntry) => s.raiseCancelled_frame e.port z) (s.zone z).stack s).1
      .zones (by decide)
  have hzone : ((s.zone z).stack.foldl (fun s e => s.raiseCancelled e.port z) s).zone z = s.zone z := by
    rw [State.zone, hzones]; rfl
  exact h.trans (State.setZone_calm (by rw [hzone]) (by rw [hzone]) (by rw [hzone]) (by rw [hzone]))

theorem State.dropReference_calm (s : State) (z : Zone) : Calm s (s.dropReference z) := by
  cases z with
  | main => exact (s.setDref_calm _)
  | _ => exact .refl s

theorem State.runPendingOn_keeps (s : State) (z : Zone) : Keeps s (s.runPendingOn z) := by
  have h : Keeps s ((s.setZone z { s.zone z with pendingPower := none, pendingSlot := none }).raiseZone z) :=
    (State.setZone_keeps).trans (State.raiseZone_keeps _ z)
  unfold State.runPendingOn
  split
  · dsimp only
    split
    · exact h.trans (State.completeOpt_keeps _ _ _ _)
    · split
      · exact h.trans (State.completeOpt_keeps _ _ _ _)
      · next hw => exact (h.trans (State.wakeRequest_calm hw).toKeeps).trans (State.enterWaking_keeps _ z _)
  · exact .refl s

theorem State.toStandby_keeps (s : State) (z : Zone) : Keeps s (s.toStandby z) := by
  unfold State.toStandby
  dsimp only
  exact ((((((((State.setZone_keeps).trans (State.setPower_keeps _ z _)).trans (State.cancelStack_calm _ z).toKeeps).trans
    (State.dropReference_calm _ z).toKeeps).trans (State.freeZone_unitStep _ z).keeps).trans
      (State.releaseZone_unitStep _ z).keeps).trans (State.regrantAll_unitStep _).keeps).trans
        (State.reportZones_keeps _)).trans (State.completeOpt_keeps _ _ _ _)

theorem State.endRelayStage_keeps (s : State) (z : Zone) : Keeps s (s.endRelayStage z) := by
  unfold State.endRelayStage
  split
  · exact (s.toStandby_keeps z).trans (State.runPendingOn_keeps _ z)
  · exact .refl s

theorem State.completeWake_keeps (s : State) (z : Zone) : Keeps s (s.completeWake z) := by
  unfold State.completeWake
  split
  · dsimp only
    have h := (((State.setZone_keeps (s := s) (z := z) (r := { s.zone z with wakeTimer := none, opSlot := none }) rfl rfl).trans
      (State.setPower_keeps _ z .on)).trans (State.reportZones_keeps _)).trans
        (State.completeOpt_keeps _ (s.zone z).opSlot .done [])
    split
    · exact (h.trans State.setZone_keeps).trans (State.enterQuieting_keeps _ z _)
    · exact h
  · exact .refl s

/-! ### Sleep timers and trips (R11, R21) -/

theorem State.expireSleep_keeps (s : State) (z : Zone) : Keeps s (s.expireSleep z) := by
  have h : Keeps s ((s.setZone z { s.zone z with sleepTimer := 0 }).raiseZone z) :=
    (State.setZone_keeps).trans (State.raiseZone_keeps _ z)
  unfold State.expireSleep
  dsimp only
  split
  · exact h.trans (State.quietZone_keeps _ z none)
  · exact h.trans (State.setPending_calm _ z _ _).toKeeps
  · exact h

theorem State.minuteOfZone_keeps (s : State) (z : Zone) : Keeps s (s.minuteOfZone z) := by
  unfold State.minuteOfZone
  split
  · exact .refl s
  · exact s.expireSleep_keeps z
  · exact State.setZone_keeps

theorem State.minuteEvent_keeps (s : State) : Keeps s s.minuteEvent := by
  have h : Keeps s s.nextMinute := .of_frame ⟨s.nextMinute_changes, .refl s⟩ (.of_ports_eq rfl) (by decide)
  rw [State.minuteEvent_eq]
  exact (h.trans (Keeps.foldl _ State.minuteOfZone_keeps _ _)).trans (State.reportQuieting_keeps _ _)

theorem State.sleepExpiry_keeps (s : State) (z : Zone) : Keeps s (s.sleepExpiry z) := by
  unfold State.sleepExpiry
  split
  · exact .refl s
  · exact (s.expireSleep_keeps z).trans (State.reportQuieting_keeps _ _)

theorem State.tripZone_keeps (s : State) (z : Zone) : Keeps s (s.tripZone z) := by
  unfold State.tripZone
  split
  · exact .refl s
  · dsimp only
    split
    · exact ((s.removePending_calm z).toKeeps.trans (State.completeOpt_keeps _ _ _ _)).trans (State.quietZone_keeps _ z _)
    · exact (State.completeOpt_keeps _ _ _ _).trans (State.quietZone_keeps _ z _)
  · exact s.quietZone_keeps z _
  · split
    · exact (s.removePending_calm z).toKeeps
    · exact .refl s

theorem State.thermalTrip_keeps (s : State) : Keeps s s.thermalTrip :=
  (Keeps.foldl _ State.tripZone_keeps _ s).trans (State.reportQuieting_keeps _ _)

/-! ### Protection lines (R54 to R59) -/

/-- A silent gain is in range whatever its ramp. -/
theorem State.silent_ok (g : GainRec) : ({ g with current := -161, target := -161 } : GainRec).ok :=
  ⟨Int.le_refl _, (by decide : (-161 : Int) ≤ 24), Int.le_refl _, (by decide : (-161 : Int) ≤ 24)⟩

theorem State.faultOutput_calm (s : State) (n : Fin 11) : Calm s (s.faultOutput n) := by
  unfold State.faultOutput
  dsimp only
  split
  · exact s.raise_calm _ _
  · exact (((((State.leaveStarved_unitStep s _).calm.trans (State.setGain_calm fun _ => State.silent_ok _)).trans
      (State.setMix_calm)).trans (State.updateOut_unitStep _ _ _).calm).trans
        (State.freeSegment_unitStep _ _).calm).trans (State.raise_calm _ _ _)

theorem State.fltArrives_calm (s : State) (n : Fin 11) : Calm s (s.fltArrives n) :=
  (State.setOutputs_calm).trans (State.faultOutput_calm _ n)

theorem State.fltDeparts_calm (s : State) (n : Fin 11) : Calm s (s.fltDeparts n) :=
  (State.setOutputs_calm).trans (State.raise_calm _ _ _)

theorem State.thwChanges_calm (s : State) (b : Bool) : Calm s (s.thwChanges b) :=
  (State.setOutputs_calm).trans (State.raise_calm _ _ _)

theorem State.thtDeparts_calm (s : State) : Calm s s.thtDeparts :=
  (State.setOutputs_calm).trans (State.raise_calm _ _ _)

theorem State.thtArrives_keeps (s : State) : Keeps s s.thtArrives := by
  have h : Keeps s (s.setTht { s.outputs.tht with active := true }).raiseTht :=
    (State.setOutputs_keeps).trans (State.raise_keeps _ _ _)
  unfold State.thtArrives
  dsimp only
  split
  · exact h
  · exact (h.trans (State.setOutputs_keeps)).trans (State.thermalTrip_keeps _)

theorem State.senseFlt_calm (s : State) (n : Fin 11) : Calm s (s.senseFlt n) := by
  unfold State.senseFlt
  dsimp only
  split
  · exact .refl s
  · split
    · exact s.fltArrives_calm n
    · exact s.fltDeparts_calm n

theorem State.senseAll_keeps (s : State) : Keeps s s.senseAll := by
  have hthw (s : State) : Calm s s.senseThw := by
    unfold State.senseThw
    dsimp only
    split
    · exact .refl s
    · exact s.thwChanges_calm _
  have htht (s : State) : Keeps s s.senseTht := by
    unfold State.senseTht
    dsimp only
    split
    · exact .refl s
    · split
      · exact s.thtArrives_keeps
      · exact s.thtDeparts_calm.toKeeps
  exact ((Calm.foldl _ State.senseFlt_calm _ s).trans (hthw _)).toKeeps.trans (htht _)

/-! ### Sources and changes of delays (R12 to R14, R126) -/

theorem State.applySource_keeps (s : State) (z : Zone) (src : Source) : Keeps s (s.applySource z src).2 := by
  unfold State.applySource
  dsimp only
  split
  · split
    · split
      · exact .refl s
      · exact State.setZone_keeps
    · split
      · exact State.setZone_keeps
      · split
        · exact .refl s
        · exact State.setZone_keeps
  · split
    · exact .refl s
    · exact (((State.setZone_keeps).trans (State.raiseZone_keeps _ z)).trans (State.refreshStatus_keeps _ z)).trans
        (State.reportZones_keeps _)

theorem State.applyVolume_calm (s : State) (z : Zone) (v : Int) : Calm s (s.applyVolume z v).2 := by
  unfold State.applyVolume
  dsimp only
  split
  · exact .refl s
  · exact (State.setZone_calm).trans (State.raiseZone_calm _ z)

/-- The total delay that a setting asks of each output granted to a zone (R121, R126). -/
def State.asked (s s1 : State) (z : Zone) (o : Fin 13) : Option Nat :=
  if (s.out o).grantedTo z = true then (s.out o).role.map fun r => s1.totalDelay z r else none

theorem State.asked_list (s s1 : State) (z : Zone) :
    ((s.grantedOutputs z).filterMap fun o => (s.out o).role.map fun r => (o, s1.totalDelay z r)) = wantList (s.asked s1 z) := by
  rw [State.grantedOutputs, List.filterMap_filter, wantList]
  refine congrArg (List.filterMap · allOutputs) (funext fun o => ?_)
  unfold State.asked
  split
  · rw [Option.map_map]; rfl
  · rfl

theorem State.changeDelays_calm {s s1 t : State} {z : Zone} (h : s.changeDelays s1 z = .ok t)
    (hd : DelayKept s1.delay s.delay) : Calm s1 t := by
  obtain ⟨d, freed, hreq, rfl⟩ := State.changeDelays_eq_ok h
  rw [State.asked_list] at hreq
  have hset : Calm s1 (s1.setDelay { d with dref := s1.delay.dref }) := State.setDelay_calm
    ((hd.trans (DelayState.requestChange_kept hreq)).trans (.of_same rfl rfl rfl rfl rfl rfl))
  split
  · exact hset.trans (State.retryPass_unitStep _).calm
  · exact hset

theorem State.changeDistances_calm {s s1 t : State} (h : s.changeDistances s1 = .ok t) (hd : DelayKept s1.delay s.delay) :
    Calm s1 t := by
  unfold State.changeDistances at h
  split at h
  · refine (s1.setDref_calm _).trans (State.changeDelays_calm h (DelayKept.trans ?_ hd))
    exact .of_same rfl rfl rfl rfl rfl rfl
  · cases h; exact .refl s1

theorem State.takeSpeaker_calm {s t : State} {w : Position} {r : SpeakerRec} (h : s.takeSpeaker w r = .ok t) :
    Calm s t := by
  obtain ⟨u, hu, rfl⟩ := State.takeSpeaker_eq_ok h
  have hrec : Calm s (s.setSpeakerRec w r) := State.setMix_calm
  have hkept : Calm s u := by
    split at hu
    · cases hu; exact hrec
    · exact hrec.trans (State.changeDistances_calm hu (.refl _))
  split
  · exact hkept
  · exact hkept.trans (State.regrantAll_unitStep u).calm

end Sys2Proof.Machine

end

section
/-! PROOFS. What every step makes of the derived state: it stays in order, a changed binding starts the decoder anew, and
the tuner leaves and enters PARKED as R142 says (R2, R75, R76, R141, R142). -/

open Sys2Proof Sys2Proof.Machine

namespace Sys2Proof.Machine

/-! ### What is asked of a step -/

/-- What a step from a state whose derived state is in order leaves. -/
structure Heeded (s t : State) : Prop where
  followed : t.followed
  rebound : t.decoder.binding ≠ s.decoder.binding → t.decoder = decoderAnew t.decoder.binding ∧
    ((∃ z, (t.zone z).power ≠ .standby) → reported t .decoder { EventDetail.zero with reasons := 8 })
  unparked : s.tuner.state = .parked → t.listened → t.tuner.op = none → t.tuner = s.tuner.unparked
  parked : s.tuner.op = none → s.tuner.state ≠ .parked → t.tuner.state = .parked → (∃ z, (t.zone z).power ≠ .standby) →
    t.tuner = s.tuner.parkedNow

def Heeds (s t : State) : Prop := s.followed → Heeded s t

theorem Heeds.of_followsOn {s t : State} (h : followsOn s t) : Heeds s t := by
  intro hs
  obtain ⟨hfollowed, -, ⟨-, hrebound⟩, hun, hpark, -⟩ := h hs
  have hact := hfollowed.2.2.1
  obtain ⟨-, -, -, -, hsearch⟩ := hs
  refine ⟨hfollowed, fun hb => ⟨(hrebound hb).1, fun _ => (hrebound hb).2⟩, fun hp hl _ => hun (.inl hl) hp,
    fun hop hp ht _ => hpark (fun ha => ?_) ?_⟩
  · exact ha.elim (fun hl => hact.1 ht (.inl hl)) fun hne => hne hop
  · cases hst : s.tuner.state with
    | settling => exact .inl rfl
    | idle => exact .inr rfl
    | parked => exact absurd hst hp
    | seeking => exact absurd hop (hsearch (.inl hst))
    | scanning => exact absurd hop (hsearch (.inr hst))

theorem Settled.heeds {s t : State} (h : Settled s t) : Heeds s t := .of_followsOn ((followsOn.refl s).then h)

theorem Heeds.refl (s : State) : Heeds s s := (Settled.refl s).heeds

theorem Heeds.of_eq {s t : State} (h : t = s) : Heeds s t := h ▸ .refl s

/-- What is settled before a step does not matter to it, nor does what only keeps the decoder, the tuner and the derived
state in order. -/
theorem Heeds.after {s u t : State} (hu : s.followed → u.followed ∧ u.decoder = s.decoder ∧ u.tuner = s.tuner)
    (h : Heeds u t) : Heeds s t := by
  intro hs
  obtain ⟨h1, h2, h3⟩ := hu hs
  obtain ⟨a, b, c, d⟩ := h h1
  exact ⟨a, h2 ▸ b, h3 ▸ c, h3 ▸ d⟩

theorem Heeds.before {s u t : State} (hu : Settled s u) (h : Heeds u t) : Heeds s t :=
  .after (fun hs => ⟨hu.followed hs, hu.decoder, hu.tuner⟩) h

theorem Heeds.then {s t u : State} (h : Heeds s t) (ht : Settled t u) : Heeds s u := by
  intro hs
  obtain ⟨a, b, c, d⟩ := h hs
  have hpower (hz : ∃ z, (u.zone z).power ≠ .standby) : ∃ z, (t.zone z).power ≠ .standby :=
    hz.imp fun z hz => by rwa [(ht.zones z).1] at hz
  refine ⟨ht.followed a, ?_, ?_, ?_⟩
  · rw [ht.decoder]
    exact fun hb => ⟨(b hb).1, fun hz => reported.mono ((b hb).2 (hpower hz)) ht.grown⟩
  · rw [ht.tuner, State.listened_congr ht.heard]; exact c
  · rw [ht.tuner]
    exact fun h1 h2 h3 hz => d h1 h2 h3 (hpower hz)

theorem Calm.heeds {s t : State} (h : Calm s t) : Heeds s t := h.toSettled.heeds

/-! ### Steps that change no zone -/

theorem State.followed_congr {s t : State} (hi : ∀ i, (t.input i).state = (s.input i).state)
    (hz : ∀ z, (t.zone z).power = (s.zone z).power ∧ (t.zone z).live = (s.zone z).live ∧
      (t.zone z).status = (s.zone z).status)
    (hb : t.decoder.binding = s.decoder.binding) (ht : s.tunerFollows → t.tunerFollows) (h : s.followed) : t.followed := by
  obtain ⟨h1, h2, h3⟩ := h
  have hplays (z : Zone) (i : Fin 8) : t.playsPacked z i ↔ s.playsPacked z i := by
    obtain ⟨hp, hl, -⟩ := hz z
    unfold State.playsPacked
    rw [hp, hl, hi]
  refine ⟨?_, fun z => ?_, ht h3⟩
  · unfold State.bindingIs at *
    simp only [hplays, hb]
    exact h1
  · obtain ⟨-, hl, hst⟩ := hz z
    rw [hl, hst]
    refine ⟨(h2 z).1, fun i hsrc => ?_⟩
    rw [hi, hb]
    exact (h2 z).2 i hsrc

/-- A step that keeps the zones and the binding, and leaves the tuner active exactly when it is to be. -/
theorem Heeds.of_still {s t : State} (hi : ∀ i, (t.input i).state = (s.input i).state)
    (hz : ∀ z, (t.zone z).power = (s.zone z).power ∧ (t.zone z).live = (s.zone z).live ∧
      (t.zone z).status = (s.zone z).status)
    (hb : t.decoder.binding = s.decoder.binding) (ht : s.tunerFollows → t.tunerFollows) : Heeds s t := by
  intro hs
  have hlisten : t.listened ↔ s.listened := State.listened_congr fun z => ⟨(hz z).1, (hz z).2.1⟩
  have hfollowed := State.followed_congr hi hz hb ht hs
  obtain ⟨-, -, hact, -, -⟩ := hs
  refine ⟨hfollowed, fun h => absurd hb h, fun hp hl _ => absurd (.inl (hlisten.1 hl)) (hact.1 hp), fun hop hp hpark _ => ?_⟩
  obtain ⟨-, -, hact', -, -⟩ := hfollowed
  have hl : ¬ s.listened := fun hl => hact'.1 hpark (.inl (hlisten.2 hl))
  exact absurd (hact.2 fun h => h.elim hl fun h => h hop) hp

/-- A step that changes the ports and the slots alone, whatever becomes of the events. -/
theorem Heeds.of_ports {ps : List Part} {s t : State} (h : onlyChanges ps s t)
    (hps : ∀ q ∈ [Part.zones, .decoder, .tuner, .inputs], q ∉ ps) : Heeds s t := by
  have hzone (z : Zone) : t.zone z = s.zone z := h.zone (hps _ (by decide)) z
  refine .of_still (fun i => ?_) (fun z => by rw [hzone]; exact ⟨rfl, rfl, rfl⟩) ?_ fun hf => ?_
  · rw [State.input_congr (h .inputs (hps _ (by decide)))]
  · rw [h .decoder (hps _ (by decide))]
  · unfold State.tunerFollows at *
    rw [h .tuner (hps _ (by decide)), State.listened_congr (s := s) fun z => by rw [hzone]; exact ⟨rfl, rfl⟩]
    exact hf

/-! ### Steps of the tuner (R140 to R150) -/

/-- What R140 to R142 ask of a tuner record beside zones that listen or do not. -/
def TunerRec.Follows (heard : Prop) (t : TunerRec) : Prop :=
  (t.state = .parked ↔ ¬ (heard ∨ t.op ≠ none)) ∧
  (t.state = .parked → t.settle = none ∧ t.seek = none ∧ t.scan = none) ∧
  (t.state = .seeking ∨ t.state = .scanning → t.op ≠ none)

theorem State.tunerFollows_iff (s : State) : s.tunerFollows ↔ s.tuner.Follows s.listened := Iff.rfl

/-- A change of the state within its activity, of anything else, or of the operation where one goes on. -/
theorem TunerRec.Follows.goes_on {heard : Prop} {u : TunerRec} (ho : heard ∨ u.op ≠ none) (hp : u.state ≠ .parked)
    (hs : u.state = .seeking ∨ u.state = .scanning → u.op ≠ none) : u.Follows heard :=
  ⟨⟨fun h => absurd h hp, fun h => absurd ho h⟩, fun h => absurd h hp, hs⟩

/-- An operation of the tuner alone, with the slots and records that it ends and takes. -/
structure TunerStep (s t : State) : Prop where
  frame : Frame tunerParts s t
  grown : eventsGrow s t

theorem TunerStep.refl (s : State) : TunerStep s s := ⟨.refl _ s, .refl s⟩

theorem TunerStep.trans {s t u : State} (h1 : TunerStep s t) (h2 : TunerStep t u) : TunerStep s u :=
  ⟨h1.frame.trans h2.frame, h1.grown.trans h2.grown⟩

theorem TunerStep.zone {s t : State} (h : TunerStep s t) (z : Zone) : t.zone z = s.zone z := h.frame.1.zone (by decide) z

theorem TunerStep.listened {s t : State} (h : TunerStep s t) : t.listened ↔ s.listened :=
  State.listened_congr fun z => by rw [h.zone]; exact ⟨rfl, rfl⟩

theorem TunerStep.keeps {s t : State} (h : TunerStep s t) (ht : s.tuner.Sound → t.tuner.Sound) : Keeps s t where
  grown := h.grown
  noted := fun z hz => .inl (by rwa [h.zone] at hz)
  marked := noOutputMarked_of_same (h.frame.1 .zones (by decide)) fun o z => by
    rw [State.out, h.frame.1 .outputs (by decide)]; rfl
  memory := by rw [h.frame.1 .delay (by decide)]; exact .refl _
  gains := State.gainsOk_of_mix (h.frame.1 .mix (by decide))
  bound := State.bindingOk_of_decoder (h.frame.1 .decoder (by decide))
  tuned := ht
  queues := h.frame.2.queuesOk

theorem TunerStep.heeds {s t : State} (h : TunerStep s t)
    (ht : s.tuner.Follows s.listened → t.tuner.Follows s.listened) : Heeds s t := by
  refine .of_still (fun i => ?_) (fun z => by rw [h.zone]; exact ⟨rfl, rfl, rfl⟩) ?_ fun hf => ?_
  · rw [State.input_congr (h.frame.1 .inputs (by decide))]
  · rw [h.frame.1 .decoder (by decide)]
  · rw [State.tunerFollows_iff, h.listened]; exact ht hf

theorem State.setTuner_step (s : State) (t : TunerRec) : TunerStep s (s.setTuner t) :=
  ⟨(s.setTuner_frame t).mono, .of_ports_eq rfl⟩

theorem State.raiseTuner_step (s : State) (b : Byte) : TunerStep s (s.raiseTuner b) :=
  ⟨(s.raiseTuner_frame b).mono, (s.raise_raises _ _).2⟩

theorem State.takeSlot_step (s : State) (k : Fin 8) (kind : SlotKind) (t : SlotTarget) (x : Ctx) :
    TunerStep s (s.takeSlot k kind t x) := ⟨(s.takeSlot_frame k kind t x).mono, (s.takeSlot_keeps k kind t x).grown⟩

theorem State.endTunerOp_step (s : State) (o : TunerOp) (st : Status) (r : List Byte) : TunerStep s (s.endTunerOp o st r) :=
  ⟨s.endTunerOp_frame o st r, (s.setTuner_step _).grown.trans (State.complete_keeps _ _ _ _).grown⟩

theorem State.settleOrPark_step (s : State) : TunerStep s s.settleOrPark := by
  unfold State.settleOrPark
  split <;> exact s.setTuner_step _

theorem State.restTuner_step (s : State) : TunerStep s s.restTuner := by
  unfold State.restTuner
  split <;> exact s.setTuner_step _

theorem State.abortTuner_step (s : State) : TunerStep s s.abortTuner := by
  unfold State.abortTuner
  split
  · exact .refl s
  · split
    · exact ((s.setTuner_step _).trans (State.endTunerOp_step _ _ _ _)).trans (State.settleOrPark_step _)
    · exact ((s.setTuner_step _).trans (State.endTunerOp_step _ _ _ _)).trans (State.settleOrPark_step _)
    · exact .refl s

theorem State.cancelTune_step (s : State) : TunerStep s s.cancelTune := by
  unfold State.cancelTune
  split
  · exact .refl s
  · split
    · exact .refl s
    · exact s.endTunerOp_step _ _ _

theorem State.takeTuner_step (s : State) : TunerStep s s.takeTuner := s.abortTuner_step.trans (State.cancelTune_step _)

theorem State.acceptTune_step (s : State) (x : Ctx) (kind : SlotKind) (op : TunerOpKind) (b : Band) (f : Nat) (k : Fin 8) :
    TunerStep s (s.acceptTune x kind op b f k) := (s.takeSlot_step _ _ _ x).trans (State.setTuner_step _ _)

/-- At the end of an operation the tuner is active exactly when a zone listens. -/
theorem TunerRec.settledOrParked_follows (t : TunerRec) (h : t.op = none) (heard : Bool) :
    (t.settledOrParked heard).Follows (heard = true) := by
  cases heard with
  | true =>
    refine TunerRec.Follows.goes_on (.inl rfl) ?_ ?_
    · exact fun h => (nomatch h)
    · exact fun h => h.elim (fun h => (nomatch h)) fun h => (nomatch h)
  | false =>
    refine ⟨⟨fun _ ha => ha.elim (fun h => (nomatch h)) fun hne => hne h, fun _ => rfl⟩, fun _ => ⟨rfl, rfl, rfl⟩, ?_⟩
    exact fun h => h.elim (fun h => (nomatch h)) fun h => (nomatch h)

theorem TunerRec.rested_follows (t : TunerRec) (h : t.op = none) (heard : Bool) :
    (t.rested heard).Follows (heard = true) := by
  cases heard with
  | true =>
    refine TunerRec.Follows.goes_on (.inl rfl) ?_ ?_
    · exact fun h => (nomatch h)
    · exact fun h => h.elim (fun h => (nomatch h)) fun h => (nomatch h)
  | false => exact t.settledOrParked_follows h false

/-- An operation of the tuner that keeps its record in order and its activity that of R141. -/
structure Tunes (s t : State) : Prop extends TunerStep s t where
  sound : s.tuner.Sound → t.tuner.Sound
  follows : s.tuner.Follows s.listened → t.tuner.Follows s.listened

theorem Tunes.keeps {s t : State} (h : Tunes s t) : Keeps s t := h.toTunerStep.keeps h.sound

theorem Tunes.heeds {s t : State} (h : Tunes s t) : Heeds s t := h.toTunerStep.heeds h.follows

theorem Tunes.refl (s : State) : Tunes s s := ⟨.refl s, id, id⟩

theorem Tunes.trans {s t u : State} (h1 : Tunes s t) (h2 : Tunes t u) : Tunes s u :=
  ⟨h1.toTunerStep.trans h2.toTunerStep, h2.sound ∘ h1.sound, fun h => by
    have := h2.follows (by rw [h1.toTunerStep.listened]; exact h1.follows h)
    rwa [h1.toTunerStep.listened] at this⟩

/-- A record of the tuner with the activity that it had. -/
theorem State.setTuner_tunes {s : State} {t : TunerRec} (hs : s.tuner.Sound → t.Sound) (ho : t.op = s.tuner.op)
    (hst : t.state = s.tuner.state) (hp : s.tuner.settle = none ∧ s.tuner.seek = none ∧ s.tuner.scan = none →
      t.settle = none ∧ t.seek = none ∧ t.scan = none) : Tunes s (s.setTuner t) := by
  refine ⟨s.setTuner_step t, hs, fun ⟨h1, h2, h3⟩ => ?_⟩
  rw [State.setTuner_tuner]
  unfold TunerRec.Follows
  rw [ho, hst]
  exact ⟨h1, fun h => hp (h2 h), h3⟩

/-! ### The operations of the tuner (R143 to R150, R162, R166) -/

theorem State.endTunerOp_settleOrPark_follows (s : State) (t : TunerRec) (o : TunerOp) (st : Status) (r : List Byte) :
    (((s.setTuner t).endTunerOp o st r).settleOrPark).tuner.Follows s.listened := by
  rw [State.endTunerOp_settleOrPark, State.listened_iff]
  exact TunerRec.settledOrParked_follows _ rfl _

theorem State.endTunerOp_restTuner_follows (s : State) (t : TunerRec) (o : TunerOp) (st : Status) (r : List Byte) :
    (((s.setTuner t).endTunerOp o st r).restTuner).tuner.Follows s.listened := by
  rw [State.endTunerOp_restTuner, State.listened_iff]
  exact TunerRec.rested_follows _ rfl _

theorem State.abortTuner_tunes (s : State) : Tunes s s.abortTuner := by
  refine ⟨s.abortTuner_step, State.abortTuner_sound, fun h => ?_⟩
  unfold State.abortTuner
  split
  · exact h
  · split
    · exact s.endTunerOp_settleOrPark_follows _ _ _ _
    · exact s.endTunerOp_settleOrPark_follows _ _ _ _
    · exact h

/-- A tuner in which an operation has begun is active. -/
theorem State.setTuner_begun {s u : State} {t : TunerRec} (hu : TunerStep s u) (hs : s.tuner.Sound → t.Sound)
    (ho : t.op ≠ none) (hp : t.state ≠ .parked) : Tunes s (u.setTuner t) :=
  ⟨hu.trans (u.setTuner_step t), hs, fun _ => .goes_on (.inr ho) hp fun _ => ho⟩

theorem State.acceptTune_tunes {s u : State} (hu : TunerStep s u) (x : Ctx) (kind : SlotKind) (op : TunerOpKind) (b : Band)
    (f : Nat) (k : Fin 8) (hs : s.tuner.Sound → (u.acceptTune x kind op b f k).tuner.Sound) :
    Tunes s (u.acceptTune x kind op b f k) :=
  State.setTuner_begun (hu.trans (u.takeSlot_step _ _ _ x)) hs (fun h => (nomatch h)) fun h => (nomatch h)

theorem tuneTo_tunes (x : Ctx) (kind : SlotKind) {b : Band} {f : Nat} {s : State}
    (hf : s.tuner.Sound → onGrid b s.tuner.region f = true) : Tunes s (tuneTo x kind b f s).2 := by
  unfold tuneTo
  split
  · exact .refl s
  · split
    · exact .refl s
    · split
      · split
        · exact State.acceptTune_tunes s.takeTuner_step x kind .tune b f _ fun h =>
            State.acceptTune_sound (State.takeTuner_sound h) (by rw [s.takeTuner_region]; exact hf h) ..
        · exact .refl s
      · exact .refl s

theorem startOn_tunes {x : Ctx} {s : State} {start : State → Fin 8 → State} (h : ∀ k, Tunes s (start s.takeTuner k)) :
    Tunes s (startOn x s start).2 := by
  unfold startOn
  split
  · exact .refl s
  · split
    · split
      · exact h _
      · exact .refl s
    · exact .refl s

end Sys2Proof.Machine

end

section
/-! PROOFS. The commands and steps of the tuner keep it in order and its activity that of R141 (R140 to R173). -/

open Sys2Proof Sys2Proof.Machine

namespace Sys2Proof.Machine

/-! ### Commands (R144 to R150, R155, R156, R161, R167, R169, R171) -/

theorem doTune_tunes (x : Ctx) (b : Byte) (f : Half) (s : State) : Tunes s (doTune x b f s).2 := by
  unfold doTune
  split
  · exact .refl s
  · split
    · next h =>
      rw [inBand, Bool.and_eq_true, decide_eq_true_iff, decide_eq_true_iff] at h
      exact tuneTo_tunes x _ fun _ => (snapDown_spec _ _ h.1 h.2).1
    · exact .refl s

theorem doStepTune_tunes (x : Ctx) (b : Byte) (s : State) : Tunes s (doStepTune x b s).2 := by
  unfold doStepTune
  split
  · exact .refl s
  · exact startOn_tunes fun k => State.acceptTune_tunes s.takeTuner_step x _ _ _ _ k fun h =>
      State.acceptTune_sound (State.takeTuner_sound h) (nextChannel_onGrid _ _ _ (State.takeTuner_sound h).frequency) ..

theorem doSeek_tunes (x : Ctx) (b : Byte) (s : State) : Tunes s (doSeek x b s).2 := by
  unfold doSeek
  split
  · exact .refl s
  · next d _ =>
    exact startOn_tunes fun k => State.setTuner_begun (s.takeTuner_step.trans (State.takeSlot_step _ k _ _ x))
      (fun h => (State.takeTuner_sound h).startSeek d k x.port) (fun h => (nomatch h)) fun h => (nomatch h)

theorem doScan_tunes (x : Ctx) (b : Byte) (s : State) : Tunes s (doScan x b s).2 := by
  unfold doScan
  split
  · exact .refl s
  · next band _ =>
    exact startOn_tunes fun k => State.setTuner_begun (s.takeTuner_step.trans (State.takeSlot_step _ k _ _ x))
      (fun h => (State.takeTuner_sound h).startScan band k x.port) (fun h => (nomatch h)) fun h => (nomatch h)

theorem doSetSeekThreshold_tunes (x : Ctx) (b : Byte) (s : State) : Tunes s (doSetSeekThreshold x b s).2 := by
  unfold doSetSeekThreshold
  dsimp only
  split
  · exact .refl s
  · exact State.setTuner_tunes (fun h => ⟨h.toTidy.of_same rfl rfl rfl h.label, h.frequency, h.seek, h.scan⟩) rfl rfl id

theorem doRecallPreset_tunes (x : Ctx) (b : Byte) (s : State) : Tunes s (doRecallPreset x b s).2 := by
  unfold doRecallPreset
  split
  · exact .refl s
  · split
    · exact .refl s
    · next r hr => exact tuneTo_tunes x _ fun h => h.presetsGrid _ r hr

theorem doRecallStation_tunes (x : Ctx) (b : Byte) (s : State) : Tunes s (doRecallStation x b s).2 := by
  unfold doRecallStation
  split
  · exact .refl s
  · next e he => exact tuneTo_tunes x _ fun h => h.stationsGrid e (List.mem_of_getElem? he)

theorem doStorePreset_tunes (x : Ctx) (b : Byte) (s : State) : Tunes s (doStorePreset x b s).2 := by
  unfold doStorePreset
  split
  · exact .refl s
  · split
    · exact .refl s
    · exact State.setTuner_tunes (fun h => h.setPreset _ fun r hr => Option.some.inj hr ▸ h.here) rfl rfl id

theorem doClearPreset_tunes (x : Ctx) (b : Byte) (s : State) : Tunes s (doClearPreset x b s).2 := by
  unfold doClearPreset
  split
  · exact .refl s
  · split
    · exact .refl s
    · exact State.setTuner_tunes (fun h => h.setPreset _ fun r hr => (nomatch hr)) rfl rfl id

/-- The snap of a new region: the tuner settles anew only while it is active (R156). -/
theorem TunerRec.snapRegion_follows {heard : Prop} {t : TunerRec} (h : t.Follows heard) :
    (t.snapRegion.purge).Follows heard := by
  have hpurge (u : TunerRec) (hu : u.Follows heard) : (u.purge).Follows heard := hu
  refine hpurge _ ?_
  unfold TunerRec.snapRegion
  dsimp only
  split
  · split
    · exact h
    · next hp =>
      refine TunerRec.Follows.goes_on (by_contra fun hn => hp (h.1.2 hn)) (fun h => (nomatch h)) ?_
      exact fun h => h.elim (fun h => (nomatch h)) fun h => (nomatch h)
  · exact h

/-- An aborted search leaves none. -/
theorem State.abortTuner_searchless {s : State} (h : s.tuner.Sound) :
    s.abortTuner.tuner.seek = none ∧ s.abortTuner.tuner.scan = none := by
  have hkind (o : TunerOp) (ho : s.abortTuner.tuner.op = some o) : o.kind ≠ .seek ∧ o.kind ≠ .scan := by
    unfold State.abortTuner at ho
    split at ho
    · next hnone => exact nomatch hnone.symm.trans ho
    · next p hp =>
      split at ho
      · dsimp only at ho
        rw [State.endTunerOp_settleOrPark] at ho
        cases hh : s.tunerHeard <;> rw [hh] at ho <;> cases ho
      · rw [State.endTunerOp_settleOrPark] at ho
        cases hh : s.tunerHeard <;> rw [hh] at ho <;> cases ho
      · next hseek hscan =>
        obtain rfl := Option.some.inj (hp.symm.trans ho)
        exact ⟨hseek, hscan⟩
  have hsound := State.abortTuner_sound h
  exact ⟨hsound.no_seek fun o ho => (hkind o ho).1, hsound.no_scan fun o ho => (hkind o ho).2⟩

theorem doSetRegion_tunes (x : Ctx) (b : Byte) (s : State) : Tunes s (doSetRegion x b s).2 := by
  unfold doSetRegion
  split
  · exact .refl s
  · next r _ =>
    split
    · exact .refl s
    · split
      · exact .refl s
      · refine ⟨s.abortTuner_step.trans (State.setTuner_step _ _), fun h => ?_, fun h => ?_⟩
        · obtain ⟨hk, hc⟩ := State.abortTuner_searchless h
          exact (State.abortTuner_sound h).withRegion hk hc r
        · have h := s.abortTuner_tunes.follows h
          exact TunerRec.snapRegion_follows (t := { s.abortTuner.tuner with region := r }) h

/-! ### Timed steps and reports (R143, R149, R151, R153, R162) -/

theorem State.settleEnds_tunes (s : State) (q : Nat) : Tunes s (s.settleEnds q) := by
  have hr : TunerStep s (s.setTuner (s.tuner.report q)) := s.setTuner_step _
  refine ⟨?_, fun h => State.settleEnds_sound h q, fun h => ?_⟩
  · unfold State.settleEnds
    split
    · dsimp only
      split
      · exact ((hr.trans (State.endTunerOp_step _ _ _ _)).trans (State.restTuner_step _)).trans (State.raiseTuner_step _ _)
      · exact (hr.trans (State.restTuner_step _)).trans (State.raiseTuner_step _ _)
    · exact .refl s
  · unfold State.settleEnds
    split
    · dsimp only
      rw [State.raiseTuner, (State.raise_frame _ _ _).1 .tuner (by decide)]
      split
      · exact s.endTunerOp_restTuner_follows _ _ _ _
      · next ho =>
        rw [State.restTuner_eq ho rfl, State.listened_iff]
        exact TunerRec.rested_follows _ ho _
    · exact h

theorem State.seekDwellEnds_tunes (s : State) (q : Nat) : Tunes s (s.seekDwellEnds q) := by
  have hr : TunerStep s (s.setTuner (s.tuner.report q)) := s.setTuner_step _
  refine ⟨?_, fun h => State.seekDwellEnds_sound h q, fun h => ?_⟩
  · unfold State.seekDwellEnds
    split
    · dsimp only
      split
      · exact (((hr.trans (State.setTuner_step _ _)).trans (State.endTunerOp_step _ _ _ _)).trans
          (State.restTuner_step _)).trans (State.raiseTuner_step _ _)
      · split
        · exact ((hr.trans (State.setTuner_step _ _)).trans (State.endTunerOp_step _ _ _ _)).trans (State.settleOrPark_step _)
        · exact s.setTuner_step _
    · exact .refl s
  · unfold State.seekDwellEnds
    split
    · next k o hst hk ho =>
      dsimp only
      split
      · rw [State.seekFound, State.raiseTuner, (State.raise_frame _ _ _).1 .tuner (by decide)]
        exact State.endTunerOp_restTuner_follows (s.setTuner _) _ _ _ _
      · split
        · exact State.endTunerOp_settleOrPark_follows (s.setTuner _) _ _ _ _
        · refine TunerRec.Follows.goes_on (.inr ?_) ?_ fun _ => ?_
          · exact fun h => (nomatch ho.symm.trans h)
          · exact fun h => (nomatch hst.symm.trans h)
          · exact fun h => (nomatch ho.symm.trans h)
    · exact h

theorem State.scanDwellEnds_tunes (s : State) (q : Nat) : Tunes s (s.scanDwellEnds q) := by
  refine ⟨?_, fun h => State.scanDwellEnds_sound h q, fun h => ?_⟩
  · unfold State.scanDwellEnds
    split
    · dsimp only
      split
      · exact s.setTuner_step _
      · exact ((s.setTuner_step _).trans (State.endTunerOp_step _ _ _ _)).trans (State.settleOrPark_step _)
    · exact .refl s
  · unfold State.scanDwellEnds
    split
    · next k o hst hk ho =>
      dsimp only
      split
      · refine TunerRec.Follows.goes_on (.inr (fun h => (nomatch h))) ?_ fun _ h => (nomatch h)
        have hstate : ((s.tuner.report q).scanMeasured o k q).1.state = s.tuner.state := by
          unfold TunerRec.scanMeasured
          split <;> rfl
        rw [State.setTuner_tuner]
        exact fun h => nomatch hst.symm.trans (hstate.symm.trans h)
      · exact s.endTunerOp_settleOrPark_follows _ _ _ _
    · exact h

theorem State.qualityReported_tunes (s : State) (q : Nat) : Tunes s (s.qualityReported q) := by
  unfold State.qualityReported
  split
  · exact State.setTuner_tunes (fun h => h.report q) rfl rfl id
  · exact .refl s

theorem State.segmentArrives_tunes (s : State) (i : Fin 4) (v : Bool) (a b : Byte) : Tunes s (s.segmentArrives i v a b) := by
  refine ⟨?_, fun h => State.segmentArrives_sound h i v a b, fun h => ?_⟩
  · unfold State.segmentArrives
    dsimp only
    split
    · split
      · exact (s.setTuner_step _).trans (State.raiseTuner_step _ _)
      · exact s.setTuner_step _
    · exact .refl s
  · unfold State.segmentArrives
    dsimp only
    split
    · split
      · rw [State.raiseTuner, (State.raise_frame _ _ _).1 .tuner (by decide)]; exact h
      · exact h
    · exact h

end Sys2Proof.Machine

end

section
/-! PROOFS. Every command keeps everything in order and is heeded by the derived state (R180). -/

open Sys2Proof Sys2Proof.Machine

namespace Sys2Proof.Machine

/-! ### What is asked of a command -/

/-- Everything in order stays so, and what follows the zones and inputs follows. -/
structure Orderly (s t : State) : Prop where
  keeps : Keeps s t
  heeds : Heeds s t

theorem Orderly.refl (s : State) : Orderly s s := ⟨.refl s, .refl s⟩

theorem Calm.orderly {s t : State} (h : Calm s t) : Orderly s t := ⟨h.toKeeps, h.heeds⟩

theorem Tunes.orderly {s t : State} (h : Tunes s t) : Orderly s t := ⟨h.keeps, h.heeds⟩

theorem Orderly.of_eq {s t : State} (h : t = s) : Orderly s t := h ▸ .refl s

theorem Calm.then {s t u : State} (h : Calm s t) (ht : Orderly t u) : Orderly s u :=
  ⟨h.toKeeps.trans ht.keeps, ht.heeds.before h.toSettled⟩

theorem Orderly.then {s t u : State} (h : Orderly s t) (ht : Calm t u) : Orderly s u :=
  ⟨h.keeps.trans ht.toKeeps, h.heeds.then ht.toSettled⟩

theorem withZone_orderly {b : Byte} {s : State} {f : Zone → Answer × State} (h : ∀ z, Orderly s (f z).2) :
    Orderly s (withZone b s f).2 := by
  unfold withZone
  split
  · exact .refl s
  · exact h _

/-! ### Power commands (R4, R7, R10) -/

theorem becomePending_orderly (x : Ctx) (z : Zone) (kind : SlotKind) (w : PendingPower) (s : State) :
    Orderly s (becomePending x z kind w s).2 := by
  unfold becomePending
  split
  · exact .refl s
  · exact ((s.takeSlot_calm _ _ _ x).trans (State.setPending_calm _ z _ _)).orderly

theorem State.enterWaking_orderly (s : State) (z : Zone) (k : Option (Fin 8)) : Orderly s (s.enterWaking z k) :=
  ⟨s.enterWaking_keeps z k, .of_followsOn (s.enterWaking_entry z k).follows⟩

theorem State.enterQuieting_orderly {s : State} {z : Zone} (k : Option (Fin 8)) (hp : (s.zone z).power ≠ .quieting) :
    Orderly s (s.enterQuieting z k) := ⟨s.enterQuieting_keeps z k, .of_followsOn (s.enterQuieting_entry z k hp).1.follows⟩

theorem wakeFromStandby_orderly (x : Ctx) (z : Zone) (s : State) : Orderly s (wakeFromStandby x z s).2 := by
  unfold wakeFromStandby
  split
  · exact .refl s
  · split
    · exact .refl s
    · split
      · exact .refl s
      · next h =>
        dsimp only
        exact ((State.wakeRequest_calm h).trans (State.takeSlot_calm _ _ _ _ x)).then (State.enterWaking_orderly _ z _)

theorem doZoneOn_orderly (x : Ctx) (b : Byte) (s : State) : Orderly s (doZoneOn x b s).2 := by
  refine withZone_orderly fun z => ?_
  split
  · exact wakeFromStandby_orderly x z s
  · exact .refl s
  · exact (s.removePending_calm z).orderly
  · exact .refl s
  · split
    · exact .refl s
    · exact becomePending_orderly x z _ _ s
  · exact .refl s

theorem doZoneStandby_orderly (x : Ctx) (b : Byte) (s : State) : Orderly s (doZoneStandby x b s).2 := by
  refine withZone_orderly fun z => ?_
  split
  · exact .refl s
  · exact becomePending_orderly x z _ _ s
  · exact .refl s
  · next _ hp =>
    split
    · exact .refl s
    · next k _ =>
      refine (s.takeSlot_calm k _ _ x).then (State.enterQuieting_orderly _ ?_)
      rw [(s.takeSlot_frame k _ _ x).1.zone (by decide), hp]
      decide
  · exact .refl s
  · exact (s.removePending_calm z).orderly

/-! ### Settings of a zone (R12 to R21, R26, R29) -/

theorem layered_orderly {x : Ctx} {z : Zone} {s : State} {f : OverrideEntry → OverrideEntry} {live : Bool × State}
    (h : Orderly s live.2) : Orderly s (layered x z s f live).2 := by
  unfold layered
  split
  · exact (State.setZone_calm).orderly
  · exact h

theorem State.applySource_orderly (s : State) (z : Zone) (src : Source) : Orderly s (s.applySource z src).2 := by
  refine ⟨s.applySource_keeps z src, ?_⟩
  unfold State.applySource
  dsimp only
  split
  · split
    · split
      · exact .refl s
      · exact (State.setZone_calm).heeds
    · split
      · exact (State.setZone_calm).heeds
      · split
        · exact .refl s
        · exact (State.setZone_calm).heeds
  · split
    · exact .refl s
    · exact .of_followsOn (followsOn_reportZones (s.sourceTaken_tracks z src))

theorem doSelectSource_orderly (x : Ctx) (b c : Byte) (s : State) : Orderly s (doSelectSource x b c s).2 := by
  refine withZone_orderly fun z => ?_
  split
  · exact .refl s
  · exact layered_orderly (s.applySource_orderly z _)

theorem doSetVolume_orderly (x : Ctx) (b : Byte) (v : Half) (s : State) : Orderly s (doSetVolume x b v s).2 :=
  withZone_orderly fun z => layered_orderly (s.applyVolume_calm z _).orderly

theorem doStepVolume_orderly (x : Ctx) (b d : Byte) (s : State) : Orderly s (doStepVolume x b d s).2 := by
  refine withZone_orderly fun z => ?_
  split
  · exact .refl s
  · exact layered_orderly (s.applyVolume_calm z _).orderly

theorem doSetMute_orderly (x : Ctx) (b m : Byte) (s : State) : Orderly s (doSetMute x b m s).2 := by
  refine withZone_orderly fun z => ?_
  split
  · exact .refl s
  · refine layered_orderly ?_
    unfold State.applyMute
    split
    · exact .refl s
    · exact ((State.setZone_calm).trans (State.raiseZone_calm _ z)).orderly

theorem doSetSurroundMode_orderly (x : Ctx) (b m : Byte) (s : State) : Orderly s (doSetSurroundMode x b m s).2 := by
  refine withZone_orderly fun z => ?_
  split
  · exact .refl s
  · split
    · exact .refl s
    · refine layered_orderly ?_
      unfold State.applyMode
      split
      · exact .refl s
      · exact ((State.setZone_calm).trans (State.raiseZone_calm _ z)).orderly

theorem doSetMaxVolume_orderly (x : Ctx) (b : Byte) (v : Half) (s : State) : Orderly s (doSetMaxVolume x b v s).2 := by
  refine withZone_orderly fun z => ?_
  dsimp only
  split
  · exact .refl s
  · exact ((State.setZone_calm).trans (State.raiseZone_calm _ z)).orderly

theorem doSetLipSync_orderly (x : Ctx) (b : Byte) (v : Half) (s : State) : Orderly s (doSetLipSync x b v s).2 := by
  refine withZone_orderly fun z => ?_
  dsimp only
  split
  · exact .refl s
  · split
    · split
      · exact .refl s
      · next h =>
        exact (((State.setZone_calm).trans (State.changeDelays_calm h (.refl _))).trans (State.raiseZone_calm _ z)).orderly
    · exact ((State.setZone_calm).trans (State.raiseZone_calm _ z)).orderly

theorem doSetSleepTimer_orderly (x : Ctx) (b n : Byte) (s : State) : Orderly s (doSetSleepTimer x b n s).2 := by
  refine withZone_orderly fun z => ?_
  dsimp only
  split
  · exact (State.setZone_calm).orderly
  · exact .refl s

theorem State.dropBottom_calm (s : State) (z : Zone) : Calm s (s.dropBottom z) := by
  unfold State.dropBottom
  split
  · exact (State.setZone_calm).trans (State.raise_calm _ _ _)
  · exact .refl s

theorem doPushOverride_orderly (x : Ctx) (b c : Byte) (v : Half) (s : State) : Orderly s (doPushOverride x b c v s).2 := by
  refine withZone_orderly fun z => ?_
  split
  · exact .refl s
  · dsimp only
    split
    · exact .refl s
    · exact (((s.dropBottom_calm z).trans State.setZone_calm).then (State.applySource_orderly _ z _)).then
        (State.raiseZone_calm _ z)

theorem doPopOverride_orderly (x : Ctx) (b : Byte) (s : State) : Orderly s (doPopOverride x b s).2 := by
  refine withZone_orderly fun z => ?_
  split
  · exact .refl s
  · split
    · exact .refl s
    · exact ((State.setZone_calm).then (State.applySource_orderly _ z _)).then (State.raiseZone_calm _ z)

/-! ### Outputs and protection lines (R40, R54 to R59) -/

theorem doSetAssignment_orderly (x : Ctx) (a b c d : Byte) (s : State) : Orderly s (doSetAssignment x a b c d s).2 := by
  unfold doSetAssignment
  split
  all_goals try exact .refl s
  · split
    · exact .refl s
    · split
      · exact .refl s
      · split
        · exact .refl s
        · dsimp only
          split
          · exact .refl s
          · exact ((State.setOutputs_calm).trans (State.regrant_unitStep _ _).calm).orderly

theorem State.thermalTrip_orderly (s : State) : Orderly s s.thermalTrip :=
  ⟨s.thermalTrip_keeps, .of_followsOn s.thermalTrip_quietAll.follows⟩

theorem State.thtArrives_orderly (s : State) : Orderly s s.thtArrives := by
  have h : Calm s (s.setTht { s.outputs.tht with active := true }).raiseTht :=
    (State.setOutputs_calm).trans (State.raise_calm _ _ _)
  unfold State.thtArrives
  dsimp only
  split
  · exact h.orderly
  · exact (h.trans State.setOutputs_calm).then (State.thermalTrip_orderly _)

theorem State.senseTht_orderly (s : State) : Orderly s s.senseTht := by
  unfold State.senseTht
  dsimp only
  split
  · exact .refl s
  · split
    · exact s.thtArrives_orderly
    · exact s.thtDeparts_calm.orderly

theorem State.senseAll_orderly (s : State) : Orderly s s.senseAll := by
  have hthw (s : State) : Calm s s.senseThw := by
    unfold State.senseThw
    dsimp only
    split
    · exact .refl s
    · exact s.thwChanges_calm _
  exact ((Calm.foldl _ State.senseFlt_calm _ s).trans (hthw _)).then (State.senseTht_orderly _)

theorem doSetProtectionLevels_orderly (x : Ctx) (a b c : Byte) (s : State) :
    Orderly s (doSetProtectionLevels x a b c s).2 := by
  unfold doSetProtectionLevels
  split
  all_goals try exact .refl s
  · split
    · exact .refl s
    · dsimp only
      exact (State.setOutputs_calm).then (State.senseAll_orderly _)

theorem doClearFault_orderly (x : Ctx) (b : Byte) (s : State) : Orderly s (doClearFault x b s).2 := by
  unfold doClearFault
  split
  · unfold clearThermal
    split
    · exact .refl s
    · split
      · exact ((State.setOutputs_calm).trans (State.raise_calm _ _ _)).orderly
      · exact .refl s
  · split
    · unfold clearOutput
      dsimp only
      split
      · exact .refl s
      · split
        · exact (((s.becomeIdle_unitStep _).trans (State.raise_unitStep _ _ _)).trans (State.regrant_unitStep _ _)).calm.orderly
        · exact .refl s
    · exact .refl s

/-! ### Decoder, speakers and memory (R84, R89, R91, R115, R132) -/

theorem State.setDecoder_orderly {s : State} {d : DecoderRec} (hb : d.binding = s.decoder.binding)
    (hs : d.state = .idle ↔ s.decoder.state = .idle) : Orderly s (s.setDecoder d) :=
  ⟨State.setDecoder_keeps fun h => hs.trans (h.trans (by rw [hb])),
    .of_still (fun _ => rfl) (fun _ => ⟨rfl, rfl, rfl⟩) hb id⟩

theorem doReadDecoder_orderly (x : Ctx) (b : Byte) (n : Half) (s : State) : Orderly s (doReadDecoder x b n s).2 := by
  unfold doReadDecoder
  split
  · exact .refl s
  · split
    · dsimp only
      split
      · exact State.setDecoder_orderly rfl Iff.rfl
      · exact .refl s
    · exact .refl s

theorem doSetSpeaker_orderly (x : Ctx) (a b : Byte) (d : Half) (t i : Byte) (s : State) :
    Orderly s (doSetSpeaker x a b d t i s).2 := by
  unfold doSetSpeaker
  split
  · exact .refl s
  · split
    · exact .refl s
    · exact .refl s
    · dsimp only
      split
      · exact .refl s
      · split
        · exact .refl s
        · next h => exact (State.takeSpeaker_calm h).orderly

theorem doSetCrossover_orderly (x : Ctx) (b : Byte) (s : State) : Orderly s (doSetCrossover x b s).2 := by
  unfold doSetCrossover
  split
  · split
    · exact .refl s
    · exact (State.setMix_calm).orderly
  · exact .refl s

theorem doMemoryStart_orderly (x : Ctx) (b : Byte) (s : State) : Orderly s (doMemoryStart x b s).2 := by
  unfold doMemoryStart
  split
  · exact .refl s
  · next l _ =>
    split
    · exact .refl s
    · exact .refl s
    · next hready _ =>
      split
      · exact .refl s
      · next k _ =>
        refine ((s.takeSlot_calm k _ none x).trans (State.setDelay_calm ?_)).orderly
        rw [(s.takeSlot_frame k _ none x).1 .delay (by decide)]
        exact ⟨id, fun h => h.withCheck hready rfl fun _ => rfl⟩

/-- A table in which nothing moves while no compaction runs. -/
theorem DelayState.InOrder.still {d : DelayState} (h : d.InOrder) (hc : d.moving = none) : d.Still :=
  fun _ hg => h.table.move_none hg fun hne => (nomatch hc.symm.trans hne)

theorem State.continueCompaction_unitStep {s : State} (c : CompactionRec) (h : s.delay.InOrder → s.delay.Still) :
    UnitStep s (s.continueCompaction c) := by
  obtain ⟨hm, hd, ho⟩ := s.continueCompaction_keeps_order c
  exact ⟨s.continueCompaction_outStep c, hm, hd, fun hs => ho hs (h hs)⟩

theorem doCompact_orderly (x : Ctx) (s : State) : Orderly s (doCompact x s).2 := by
  unfold doCompact
  split
  · exact .refl s
  · next hok =>
    obtain ⟨-, hc⟩ := DelayState.takesRequests_ok hok
    split
    · exact .refl s
    · next k _ =>
      dsimp only
      refine ((s.takeSlot_calm k _ none x).trans (State.continueCompaction_unitStep _ fun h => h.still ?_).calm).orderly
      rw [(s.takeSlot_frame k _ none x).1 .delay (by decide), DelayState.moving, hc]
      rfl

/-! ### All commands -/

/-- Every ordinary command keeps everything in order and is heeded. -/
theorem runCmd_orderly (x : Ctx) {c : Cmd} (s : State) (hc : c.isService = false) : Orderly s (runCmd x c s).2 := by
  cases c with
  | noOperation => exact .refl s
  | identify n => exact .refl s
  | zoneOn b => exact doZoneOn_orderly x b s
  | zoneStandby b => exact doZoneStandby_orderly x b s
  | selectSource b c => exact doSelectSource_orderly x b c s
  | setVolume b v => exact doSetVolume_orderly x b v s
  | stepVolume b d => exact doStepVolume_orderly x b d s
  | setMute b m => exact doSetMute_orderly x b m s
  | setMaxVolume b v => exact doSetMaxVolume_orderly x b v s
  | setLipSync b v => exact doSetLipSync_orderly x b v s
  | setSurroundMode b m => exact doSetSurroundMode_orderly x b m s
  | setSleepTimer b n => exact doSetSleepTimer_orderly x b n s
  | readZone b n => exact .of_eq (withZone_snd fun _ => rfl)
  | pushOverride b c v => exact doPushOverride_orderly x b c v s
  | popOverride b => exact doPopOverride_orderly x b s
  | readOverrideStack b n => exact .of_eq (withZone_snd fun _ => rfl)
  | setAssignment a b c d => exact doSetAssignment_orderly x a b c d s
  | readAssignment n => exact .refl s
  | setProtectionLevels a b c => exact doSetProtectionLevels_orderly x a b c s
  | readProtection n => exact .refl s
  | clearFault b => exact doClearFault_orderly x b s
  | readInput b n => exact .of_eq (doReadInput_snd x b n s)
  | readDecoder b n => exact doReadDecoder_orderly x b n s
  | setSpeaker a b d t i => exact doSetSpeaker_orderly x a b d t i s
  | setCrossover b => exact doSetCrossover_orderly x b s
  | readSpeakers n => exact .refl s
  | memoryStart b => exact doMemoryStart_orderly x b s
  | compactDelayMemory => exact doCompact_orderly x s
  | readSegmentTable n => exact .refl s
  | tune b f => exact (doTune_tunes x b f s).orderly
  | stepTune b => exact (doStepTune_tunes x b s).orderly
  | seek b => exact (doSeek_tunes x b s).orderly
  | scan b => exact (doScan_tunes x b s).orderly
  | setSeekThreshold b => exact (doSetSeekThreshold_tunes x b s).orderly
  | setRegion b => exact (doSetRegion_tunes x b s).orderly
  | readTuner n => exact .refl s
  | storePreset b => exact (doStorePreset_tunes x b s).orderly
  | recallPreset b => exact (doRecallPreset_tunes x b s).orderly
  | clearPreset b => exact (doClearPreset_tunes x b s).orderly
  | readPresets b n => exact .of_eq (doReadPresets_snd x b n s)
  | readStationList b n => exact .of_eq (doReadStationList_snd x b n s)
  | recallStation b => exact (doRecallStation_tunes x b s).orderly
  | _ => cases hc

end Sys2Proof.Machine

end

section
/-! PROOFS. What every transaction of a port keeps: frames that are refused, placed or taken, queued commands, and the
resets (R174 to R191). -/

open Sys2Proof Sys2Proof.Machine

namespace Sys2Proof.Machine

/-! ### What is asked of a step -/

/-- What a step keeps and reports, whatever becomes of the events that are fetched. -/
structure Stands (s t : State) : Prop where
  marks : s.noOutputMarked → t.noOutputMarked ∧
    ∀ z, z ≠ .main → t.noOutputIs z → ¬ s.noOutputIs z → noOutputReported t z
  dram : s.dramOk → t.dramOk
  order : s.delay.InOrder → t.delay.InOrder
  gains : s.gainsOk → t.gainsOk
  bound : s.bindingOk → t.bindingOk
  tuned : s.tuner.Sound → t.tuner.Sound
  queues : s.queuesOk → t.queuesOk
  heeds : Heeds s t

theorem Orderly.stands {s t : State} (h : Orderly s t) : Stands s t where
  marks := fun hm => by
    have ht := h.keeps.marked hm
    refine ⟨ht, fun z hz his hnot => ?_⟩
    exact (h.keeps.noted z ((ht z hz).2 his)).resolve_left fun hs => hnot ((hm z hz).1 hs)
  dram := h.keeps.memory.dram
  order := h.keeps.memory.order
  gains := h.keeps.gains
  bound := h.keeps.bound
  tuned := h.keeps.tuned
  queues := h.keeps.queues
  heeds := h.heeds

theorem Stands.refl (s : State) : Stands s s := (Orderly.refl s).stands

theorem Stands.then {s t u : State} (h : Stands s t) (hu : Calm t u) : Stands s u where
  marks := fun hm => by
    obtain ⟨ht, hr⟩ := h.marks hm
    have hum := hu.marked ht
    refine ⟨hum, fun z hz his hnot => ?_⟩
    exact (hu.noted z ((hum z hz).2 his)).elim (fun hn => reported.mono (hr z hz ((ht z hz).1 hn) hnot) hu.toKeeps.grown) id
  dram := hu.memory.dram ∘ h.dram
  order := hu.memory.order ∘ h.order
  gains := hu.gains ∘ h.gains
  bound := hu.bound ∘ h.bound
  tuned := hu.tuned ∘ h.tuned
  queues := hu.queues ∘ h.queues
  heeds := h.heeds.then hu.toSettled

/-! ### Changes of the ports and the slots alone -/

theorem onlyChanges.kept {s t : State} (h : onlyChanges [.slots, .ports] s t) :
    t.zones = s.zones ∧ t.outputs = s.outputs ∧ t.delay = s.delay ∧ t.mix = s.mix ∧ t.decoder = s.decoder ∧
    t.tuner = s.tuner :=
  ⟨h .zones (by decide), h .outputs (by decide), h .delay (by decide), h .mix (by decide), h .decoder (by decide),
    h .tuner (by decide)⟩

theorem onlyChanges.noOutputIs {s t : State} (h : onlyChanges [.slots, .ports] s t) (z : Zone) :
    t.noOutputIs z ↔ s.noOutputIs z := by
  obtain ⟨hz, ho, -⟩ := h.kept
  simp only [State.noOutputIs, State.zone, State.out, hz, ho]

/-- Ports and slots that change keep everything else, even where events are fetched. -/
theorem Stands.of_ports {s t : State} (h : onlyChanges [.slots, .ports] s t) (hq : s.queuesOk → t.queuesOk) :
    Stands s t := by
  obtain ⟨hz, ho, hd, hm, hdec, ht⟩ := h.kept
  exact {
    marks := fun hm => ⟨noOutputMarked_of_same hz (fun o z => by rw [State.out, ho]; rfl) hm,
      fun z _ his hnot => absurd ((h.noOutputIs z).1 his) hnot⟩
    dram := fun hs => by rw [State.dramOk, hd]; exact hs
    order := fun hs => by rw [hd]; exact hs
    gains := State.gainsOk_of_mix hm
    bound := State.bindingOk_of_decoder hdec
    tuned := fun hs => by rw [ht]; exact hs
    queues := hq
    heeds := .of_ports h (by decide) }

/-- What a port does besides executing a command: no event is lost. -/
structure Hush (s t : State) : Prop where
  changes : onlyChanges [.slots, .ports] s t
  grown : eventsGrow s t
  queues : s.queuesOk → t.queuesOk

theorem Hush.refl (s : State) : Hush s s := ⟨onlyChanges_refl _ s, .refl s, id⟩

theorem Hush.trans {s t u : State} (h1 : Hush s t) (h2 : Hush t u) : Hush s u :=
  ⟨h1.changes.trans h2.changes, h1.grown.trans h2.grown, h2.queues ∘ h1.queues⟩

theorem Hush.calm {s t : State} (h : Hush s t) : Calm s t := by
  obtain ⟨hz, ho, hd, hm, hdec, ht⟩ := h.changes.kept
  refine Keeps.calm ?_ (h.changes.settled h.grown)
  exact {
    grown := h.grown
    noted := fun z hn => .inl (by rwa [State.zone, hz] at hn)
    marked := noOutputMarked_of_same hz fun o z => by rw [State.out, ho]; rfl
    memory := by rw [hd]; exact .refl _
    gains := State.gainsOk_of_mix hm
    bound := State.bindingOk_of_decoder hdec
    tuned := fun hs => by rw [ht]; exact hs
    queues := h.queues }

theorem Hush.stands {s t : State} (h : Hush s t) : Stands s t := h.calm.orderly.stands

theorem Stands.before {s u t : State} (hu : Hush s u) (h : Stands u t) : Stands s t where
  marks := fun hm => by
    obtain ⟨ht, hr⟩ := h.marks (hu.calm.marked hm)
    exact ⟨ht, fun z hz his hnot => hr z hz his fun hu' => hnot ((hu.changes.noOutputIs z).1 hu')⟩
  dram := h.dram ∘ hu.calm.memory.dram
  order := h.order ∘ hu.calm.memory.order
  gains := h.gains ∘ hu.calm.gains
  bound := h.bound ∘ hu.calm.bound
  tuned := h.tuned ∘ hu.calm.tuned
  queues := h.queues ∘ hu.queues
  heeds := h.heeds.before hu.calm.toSettled

theorem queuesOk_setPort {s : State} {p : Port} {r : PortRec} (hr : (s.port p).queuesOk → r.queuesOk)
    (h : s.queuesOk) : (s.setPort p r).queuesOk := by
  intro q
  by_cases hq : q = p
  · subst hq; rw [State.port_setPort_self]; exact hr (h q)
  · rw [State.port_setPort_ne _ _ hq]; exact h q

theorem State.setPort_hush {s : State} {p : Port} {r : PortRec} (he : (s.port p).events.le r.events)
    (hr : (s.port p).queuesOk → r.queuesOk) : Hush s (s.setPort p r) := by
  refine ⟨(onlyChanges_setPort s p r).mono (by decide), fun q => ?_, queuesOk_setPort hr⟩
  by_cases hq : q = p
  · subst hq; rw [State.port_setPort_self]; exact he
  · rw [State.port_setPort_ne _ _ hq]; exact EventState.le_refl _

/-! ### Answers, chains and queues (R177, R182 to R184, R195) -/

theorem State.answer_hush (s : State) (p : Port) (tag code : Byte) (a : Answer) (why : DetailReason) :
    Hush s (s.answer p tag code a why) := State.setPort_hush (EventState.le_refl _) id

theorem State.reply_hush (s : State) (p : Port) (h : FrameHead) (c : Cmd) (a : Answer) : Hush s (s.reply p h c a) :=
  s.answer_hush ..

theorem State.endChain_hush (s : State) (p : Port) : Hush s (s.endChain p) := by
  have hport := s.endChain_port_self p
  refine ⟨(s.endChain_frame p).1, fun q => ?_, (s.endChain_frame p).2.queuesOk⟩
  by_cases hq : q = p
  · subst hq; rw [hport]; exact EventState.le_refl _
  · rw [State.endChain_port_ne _ hq]; exact EventState.le_refl _

theorem State.moveChain_hush (s : State) (p : Port) (m : ChainMark) (st : Status) : Hush s (s.moveChain p m st) := by
  unfold State.moveChain
  split
  · exact .refl s
  · split
    · exact .refl s
    · exact s.endChain_hush p
    · exact State.setPort_hush (EventState.le_refl _) id

theorem State.post_hush {s : State} {p : Port} (r : Completion) (h : s.hasRoom p = true) : Hush s (s.post p r) := by
  have hlt : (s.port p).completions.length < 8 := of_decide_eq_true h
  exact State.setPort_hush (EventState.le_refl _) fun ⟨h1, _⟩ => ⟨h1, by
    rw [List.length_append]; exact hlt⟩

theorem State.setRecord_hush (s : State) (p : Port) (k : Nat) (r : Completion) : Hush s (s.setRecord p k r) :=
  State.setPort_hush (EventState.le_refl _) fun ⟨h1, h2⟩ => ⟨h1, by rw [List.length_set]; exact h2⟩

theorem State.discard_hush {s : State} {p : Port} (h : FrameHead) (c : Cmd) (hr : s.hasRoom p = true) :
    Hush s (s.discard p h c) := by
  unfold State.discard
  dsimp only
  split
  · exact State.post_hush _ hr
  · exact (State.post_hush _ hr).trans (State.endChain_hush _ p)

theorem State.arm_hush (s before : State) (p : Port) : Hush s (s.arm before p) := by
  unfold State.arm
  dsimp only
  split
  · exact State.setPort_hush (EventState.le_refl _) id
  · exact .refl s

theorem State.drive_hush (s : State) (p : Port) (l : List Byte) : Hush s (s.drive p l) :=
  State.setPort_hush (EventState.le_refl _) id

theorem State.setInbound_hush {s : State} {p : Port} {l : List QueuedCmd} (hl : (s.port p).inbound.length ≤ 4 → l.length ≤ 4) :
    Hush s (s.setInbound p l) := State.setPort_hush (EventState.le_refl _) fun ⟨h1, h2⟩ => ⟨hl h1, h2⟩

theorem State.enqueue_hush {s : State} {p : Port} (h : FrameHead) (c : Cmd) (hl : ¬ 4 ≤ (s.port p).inbound.length) :
    Hush s (s.enqueue p h c) := by
  refine (State.setInbound_hush fun _ => ?_).trans (State.reply_hush _ p h c _)
  rw [List.length_append, List.length_singleton]
  omega

theorem State.postWaiting_hush (s : State) (p : Port) : Hush s (s.postWaiting p) := by
  unfold State.postWaiting
  split
  · next hr =>
    split
    · exact (State.post_hush _ hr).trans ⟨(State.setSlot_frame _ _ _).1.mono (by decide), .of_ports_eq rfl, id⟩
    · exact .refl s
  · exact .refl s

/-! ### The resets (R190, R191) -/

/-- What a full reset leaves. -/
structure Cleared (s t : State) : Prop where
  standby : ∀ z, (t.zone z).power = .standby ∧ (t.zone z).noOutput = false ∧
    t.statusIs (t.zone z).live (t.zone z).status
  decoder : t.decoder = DecoderRec.reset
  tuner : t.tuner.state = .parked ∧ t.tuner.op = none ∧ t.tuner.settle = none ∧ t.tuner.seek = none ∧ t.tuner.scan = none
  sound : s.tuner.Sound → t.tuner.Sound
  gains : t.mix.gains = Vector.replicate 13 GainRec.silent
  delay : t.delay.segments = [] ∧ t.delay.check = none ∧ t.delay.dram = s.delay.dram
  queues : ∀ p, (t.port p).inbound = [] ∧ (t.port p).completions = []

theorem Cleared.silent {s t : State} (h : Cleared s t) : ¬ t.listened ∧ ∀ z i, ¬ t.playsPacked z i := by
  have hdown (z : Zone) : ¬ ((t.zone z).power = .waking ∨ (t.zone z).power = .on) := by
    rw [(h.standby z).1]; exact fun h => h.elim (fun h => (nomatch h)) fun h => (nomatch h)
  exact ⟨fun ⟨z, hz, _⟩ => hdown z hz, fun z _ ⟨hz, _⟩ => hdown z hz⟩

theorem Cleared.stands {s t : State} (h : Cleared s t) : Stands s t := by
  obtain ⟨hlisten, hplays⟩ := h.silent
  obtain ⟨hpark, hop, hsettle, hseek, hscan⟩ := h.tuner
  obtain ⟨hseg, hcheck, hdram⟩ := h.delay
  have hon (z : Zone) : ¬ t.noOutputIs z := fun hz => by
    have := hz.1
    rw [(h.standby z).1] at this
    cases this
  have hfollowed : t.followed := by
    refine ⟨⟨fun i hi => absurd hi (hplays _ i), fun _ => ⟨fun i hi => absurd hi (hplays _ i), fun _ =>
      ⟨fun i hi => absurd hi (hplays _ i), fun _ => by rw [h.decoder]; rfl⟩⟩⟩, fun z => (h.standby z).2.2, ?_, ?_, ?_⟩
    · exact ⟨fun _ ha => ha.elim hlisten fun hne => hne hop, fun _ => hpark⟩
    · exact fun _ => ⟨hsettle, hseek, hscan⟩
    · rw [hpark]; exact fun h => h.elim (fun h => (nomatch h)) fun h => (nomatch h)
  exact {
    marks := fun _ => ⟨fun z _ => by
      rw [(h.standby z).2.1]
      exact ⟨fun hf => (nomatch hf), fun hz => absurd hz (hon z)⟩, fun z _ hz => absurd hz (hon z)⟩
    dram := fun hs => by rw [State.dramOk, hdram]; exact hs
    order := fun _ => ⟨by rw [hseg]; exact .nil _ _, fun hne => absurd hseg hne, fun hne => absurd hcheck hne⟩
    gains := fun _ o => by
      have hg : t.gain o = GainRec.silent := by rw [State.gain, h.gains]; simp
      rw [hg]
      unfold GainRec.ok
      decide
    bound := fun _ => by rw [State.bindingOk, h.decoder]; exact ⟨fun _ => rfl, fun _ => rfl⟩
    tuned := h.sound
    queues := fun _ p => by
      obtain ⟨h1, h2⟩ := h.queues p
      rw [PortRec.queuesOk, h1, h2]
      exact ⟨Nat.zero_le _, Nat.zero_le _⟩
    heeds := fun _ => ⟨hfollowed, fun _ => ⟨by rw [h.decoder]; rfl, fun ⟨z, hz⟩ => absurd (h.standby z).1 hz⟩,
      fun _ hl => absurd hl hlisten, fun _ _ _ ⟨z, hz⟩ => absurd (h.standby z).1 hz⟩ }

/-- The end of a full reset, from the values that it gave the blocks. -/
theorem Cleared.of_bare {s u t : State} {why : DetailReason} (hb : u.Bare) (hd : u.decoder = DecoderRec.reset)
    (ht : u.tuner.settle = none ∧ u.tuner.seek = none ∧ u.tuner.scan = none) (hs : s.tuner.Sound → u.tuner.Sound)
    (hdelay : u.delay.check = none ∧ u.delay.dram = s.delay.dram) (hports : u.ports = s.resetPorts why)
    (hraised : portsRaised u t) (hchanges : onlyChanges [.zones, .outputs, .inputs, .ports] u t)
    (hzones : ∀ z, t.zone z = { u.zone z with status := (t.zone z).status } ∧
      t.statusIs (t.zone z).live (t.zone z).status) : Cleared s t := by
  have htuner : t.tuner = u.tuner := hchanges .tuner (by decide)
  have hdelay' : t.delay = u.delay := hchanges .delay (by decide)
  refine ⟨fun z => ⟨?_, ?_, (hzones z).2⟩, (hchanges .decoder (by decide)).trans hd, ?_, ?_, ?_, ?_, fun p => ?_⟩
  · rw [(hzones z).1]; exact hb.standby z
  · rw [(hzones z).1]; exact hb.marks z
  · rw [htuner]; exact ⟨hb.parked, hb.unused, ht⟩
  · rw [htuner]; exact hs
  · rw [hchanges .mix (by decide)]; exact hb.gains
  · rw [hdelay']; exact ⟨hb.segments, hdelay⟩
  · have hp : u.port p = (s.port p).fullReset why := by rw [State.port, hports, s.resetPorts_get]
    have hr := hraised p
    rw [hp] at hr
    obtain ⟨heq, -⟩ := PortRec.fullReset_raised hr
    rw [heq]
    exact ⟨rfl, rfl⟩

theorem blankPorts (s : State) (why : DetailReason) {u : State} (hu : u.ports = s.resetPorts why) (q : Port) (k : EventKind) :
    ((u.port q).events.kind k).pending = false := by
  rw [State.port, hu, s.resetPorts_get]
  exact PortRec.reset_quiet why k

theorem State.powerOn_cleared (s : State) : Cleared s s.powerOn := by
  obtain ⟨hchanges, hraised, hzones, -⟩ := s.poweredOn_bare.fullReset
    (fun n => congrArg Line.active (unsensedFlt_getElem s.outputs.flt n)) rfl rfl rfl
    (fun o => by simp [State.out, State.poweredOn, OutputUnit.reset, OutputUnit.withPins])
    (blankPorts s .powerOn rfl) (t := s.powerOn) rfl
  exact .of_bare (why := .powerOn) s.poweredOn_bare rfl ⟨rfl, rfl, rfl⟩ (fun _ => State.tunerOk_iff.1 reset_tunerOk)
    ⟨rfl, rfl⟩ rfl hraised hchanges hzones

theorem TunerRec.Sound.partReset {t : TunerRec} (h : t.Sound) : t.partReset.Sound :=
  TunerRec.Tidy.sound (h.toTidy.of_same rfl rfl rfl labelOk_cleared) h.held rfl rfl

theorem State.partReset_cleared (s : State) : Cleared s s.partReset := by
  obtain ⟨hchanges, hraised, hzones, -⟩ := s.partCleared_bare.fullReset
    (fun n => congrArg Line.active (unsensedFlt_getElem s.outputs.flt n)) rfl rfl rfl
    (fun o => by simp [State.out, State.partCleared, OutputUnit.partReset, OutputUnit.withPins])
    (blankPorts s .partReset rfl) (t := s.partReset) rfl
  exact .of_bare (why := .partReset) s.partCleared_bare rfl ⟨rfl, rfl, rfl⟩ TunerRec.Sound.partReset ⟨rfl, rfl⟩ rfl
    hraised hchanges hzones

/-! ### Service commands (R185 to R204) -/

theorem DelayState.InOrder.abortRequested {d : DelayState} (h : d.InOrder) {c : CompactionRec} (hc : d.compaction = some c) :
    ({ d with compaction := some { c with abort := true } } : DelayState).InOrder := by
  have hm : d.moving = c.current := by rw [DelayState.moving, hc]; rfl
  exact ⟨hm ▸ h.table, h.ready, h.checks⟩

theorem State.abortCheck_calm (s : State) : Calm s s.abortCheck := by
  unfold State.abortCheck
  split
  · exact .refl s
  · next c hc =>
    have hk : DelayKept s.delay { s.delay with state := .uninit, check := none, badRows := [] } := by
      refine ⟨id, fun h => h.withCheck (fun hr => ?_) rfl fun hne => absurd rfl hne⟩
      exact nomatch hr.symm.trans (h.checks (by rw [hc]; exact fun h => (nomatch h)))
    exact (State.setDelay_calm hk).trans (State.complete_unitStep _ c.slot .aborted []).calm

theorem abortSlot_orderly (b : SlotBody) (s : State) : Orderly s (abortSlot b s).2 := by
  unfold abortSlot
  split
  · exact s.abortCheck_calm.orderly
  · split
    · next c hc =>
      split
      · exact .refl s
      · have heq : s.abortCompaction = s.setDelay { s.delay with compaction := some { c with abort := true } } := by
          unfold State.abortCompaction
          rw [hc]
        have hk : DelayKept s.delay { s.delay with compaction := some { c with abort := true } } :=
          ⟨id, fun h => h.abortRequested hc⟩
        dsimp only
        rw [heq]
        exact (State.setDelay_calm hk).orderly
    · exact .refl s
  · exact s.abortTuner_tunes.orderly
  · exact s.abortTuner_tunes.orderly
  · exact .refl s

theorem doAbortOperation_orderly (x : Ctx) (k : Byte) (s : State) : Orderly s (doAbortOperation x k s).2 := by
  unfold doAbortOperation
  split
  · exact .refl s
  · split
    · exact .refl s
    · split
      · exact .refl s
      · split
        · exact .refl s
        · exact abortSlot_orderly _ s

/-- A port's record rewritten with its queues, whatever becomes of its events. -/
theorem State.setPort_stands {s : State} {p : Port} {r : PortRec} (hr : (s.port p).queuesOk → r.queuesOk) :
    Stands s (s.setPort p r) := .of_ports ((onlyChanges_setPort s p r).mono (by decide)) (queuesOk_setPort hr)

theorem doResetPart_stands (x : Ctx) (s : State) : Stands s (doResetPart x s).2 := by
  unfold doResetPart
  dsimp only
  exact s.partReset_cleared.stands

theorem doReadDetail_stands (x : Ctx) (s : State) : Stands s (doReadDetail x s).2 := by
  unfold doReadDetail
  split
  · exact State.setPort_stands id
  · exact .refl s

theorem doNotifyOn_stands (x : Ctx) (s : State) : Stands s (doNotifyOn x s).2 := by
  unfold doNotifyOn
  dsimp only
  split
  · exact .refl s
  · exact State.setPort_stands id

theorem doNotifyOff_stands (x : Ctx) (s : State) : Stands s (doNotifyOff x s).2 := by
  unfold doNotifyOff
  exact State.setPort_stands id

theorem doSetEventEnable_stands (x : Ctx) (e : Half) (s : State) : Stands s (doSetEventEnable x e s).2 := by
  unfold doSetEventEnable
  dsimp only
  split
  · exact .refl s
  · split
    · exact .refl s
    · exact State.setPort_stands id

theorem doFetchEvent_stands (x : Ctx) (b : Byte) (s : State) : Stands s (doFetchEvent x b s).2 := by
  unfold doFetchEvent
  split
  · exact .refl s
  · dsimp only
    split
    · exact State.setPort_stands id
    · exact State.setPort_stands id

theorem doRaiseEvent_stands (x : Ctx) (b : Byte) (s : State) : Stands s (doRaiseEvent x b s).2 := by
  unfold doRaiseEvent
  split
  · exact .refl s
  · exact State.setPort_stands id

theorem doReadCompletion_stands (x : Ctx) (s : State) : Stands s (doReadCompletion x s).2 := by
  unfold doReadCompletion
  split
  · exact .refl s
  · next c rest hc =>
    refine Stands.then (State.setPort_stands fun ⟨h1, h2⟩ => ⟨h1, ?_⟩) (State.postWaiting_hush _ _).calm
    rw [hc] at h2
    exact Nat.le_of_succ_le h2

/-- Every command stands. -/
theorem runCmd_stands (x : Ctx) (c : Cmd) (s : State) : Stands s (runCmd x c s).2 := by
  cases hc : c.isService with
  | false => exact (runCmd_orderly x s hc).stands
  | true =>
    cases c with
    | readDetail => exact doReadDetail_stands x s
    | resetPart => exact doResetPart_stands x s
    | notifyOn => exact doNotifyOn_stands x s
    | notifyOff => exact doNotifyOff_stands x s
    | setEventEnable e => exact doSetEventEnable_stands x e s
    | fetchEvent b => exact doFetchEvent_stands x b s
    | peekEvents => exact .refl s
    | raiseEvent b => exact doRaiseEvent_stands x b s
    | readCompletion => exact doReadCompletion_stands x s
    | abortOperation k => exact (doAbortOperation_orderly x k s).stands
    | readSlots n => exact .refl s
    | _ => cases hc

/-! ### Frames and queued commands (R178 to R183) -/

theorem execute_stands (x : Ctx) (h : FrameHead) (c : Cmd) (s : State) : Stands s (execute x h c s).2 := by
  unfold execute
  split
  · exact runCmd_stands x c s
  · exact .refl s

theorem State.takeNow_stands (s : State) (p : Port) (h : FrameHead) (c : Cmd) : Stands s (s.takeNow p h c) :=
  (execute_stands _ h c s).then ((State.reply_hush _ p h c _).trans (State.moveChain_hush _ p _ _)).calm

theorem State.takeService_stands (s : State) (p : Port) (h : FrameHead) (c : Cmd) : Stands s (s.takeService p h c) :=
  (execute_stands _ h c s).then (State.reply_hush _ p h c _).calm

theorem State.place_stands (s : State) (p : Port) (h : FrameHead) (c : Cmd) : Stands s (s.place p h c) := by
  unfold State.place
  dsimp only
  split
  · exact (s.reply_hush p h c _).stands
  · next hl =>
    have hqueue : Stands s (s.enqueue p h c) := (State.enqueue_hush h c hl).stands
    split
    · split
      · exact s.takeNow_stands p h c
      · exact hqueue
    · split
      · exact s.takeNow_stands p h c
      · exact hqueue
    · exact hqueue
    · split
      · next hb => exact ((State.discard_hush h c hb.2).trans (State.reply_hush _ p h c _)).stands
      · exact hqueue

theorem State.refuseAttention_hush (s : State) (p : Port) (tag code : Byte) (why : DetailReason) :
    Hush s (s.refuseAttention p tag code why) :=
  (State.setPort_hush (p := p) (r := { s.port p with attention := none }) (EventState.le_refl _) id).trans
    (State.answer_hush _ p tag code _ why)

theorem State.admitFrame_stands (s : State) (p : Port) (h : FrameHead) (c : Cmd) : Stands s (s.admitFrame p h c) := by
  unfold State.admitFrame
  split
  · exact (s.reply_hush p h c _).stands
  · split
    · split
      · exact (s.reply_hush p h c _).stands
      · exact s.takeService_stands p h c
    · exact s.place_stands p h c

theorem State.admitAttention_stands (s : State) (p : Port) (h : FrameHead) (c : Cmd) : Stands s (s.admitAttention p h c) := by
  unfold State.admitAttention
  split
  · split
    · exact s.admitFrame_stands p h c
    · exact (s.refuseAttention_hush p _ _ _).stands
  · exact s.admitFrame_stands p h c

theorem State.testBytes_stands (s : State) (p : Port) (bytes : List Byte) : Stands s (s.testBytes p bytes) := by
  unfold State.testBytes
  dsimp only
  split
  · split
    · exact s.admitAttention_stands p _ _
    · unfold State.refuseUnknown
      split
      · exact (s.refuseAttention_hush p _ _ _).stands
      · exact (s.answer_hush p _ _ _ _).stands
  · exact (s.answer_hush p _ _ _ _).stands

theorem State.frame_stands {s : State} (p : Port) (n : Nat) {act : State → State} (h : Stands s (act s)) :
    Stands s (s.frame p n act) := by
  unfold State.frame
  split
  · exact .refl s
  · exact h.then ((State.arm_hush _ s p).trans (State.drive_hush _ p _)).calm

theorem State.arrive_stands (s : State) (p : Port) (h : FrameHead) (c : Cmd) : Stands s (s.arrive p h c) := by
  refine State.frame_stands p h.length ?_
  split
  · exact s.admitAttention_stands p h c
  · exact (s.answer_hush p _ _ _ _).stands

theorem State.respond_stands (s : State) (p : Port) (n : Nat) : Stands s (s.respond p n) := by
  unfold State.respond
  dsimp only
  split
  · exact .refl s
  · exact State.setPort_stands id

theorem State.transact_stands (s : State) (p : Port) (bytes : List Byte) : Stands s (s.transact p bytes) := by
  unfold State.transact
  split
  · exact .refl s
  · split
    · exact State.frame_stands p _ (s.testBytes_stands p _)
    · split
      · exact s.respond_stands p _
      · exact .refl s

/-- A queued command keeps everything in order where its port has room for its record. -/
theorem State.runQueued_stands {s : State} (x : Ctx) (h : FrameHead) (c : Cmd) (hr : s.hasRoom x.port = true) :
    Stands s (s.runQueued x h c).2 := by
  unfold State.runQueued
  dsimp only
  split
  · exact execute_stands x h c s
  · split
    · next hroom => exact (execute_stands x h c s).then (State.post_hush _ hroom).calm
    · exact ((execute_stands x h c _).before (State.post_hush _ hr)).then (State.setRecord_hush _ _ _ _).calm

theorem State.takeHead_stands (s : State) (p : Port) : Stands s (s.takeHead p) := by
  unfold State.takeHead
  dsimp only
  split
  · exact .refl s
  · next q rest hq =>
    split
    · next hcond =>
      have hin : Hush s (s.setInbound p rest) := State.setInbound_hush fun hl => by
        rw [hq] at hl
        exact Nat.le_of_succ_le hl
      have hroom : (s.setInbound p rest).hasRoom p = true := by
        rw [State.hasRoom, State.setInbound, State.port_setPort_self]
        exact hcond.2
      exact ((State.runQueued_stands (State.ctx _ p q.head) q.head q.cmd hroom).before hin).then
        ((State.reply_hush _ p _ _ _).trans (State.moveChain_hush _ p _ _)).calm
    · exact .refl s

theorem State.discardHead_hush (s : State) (p : Port) : Hush s (s.discardHead p) := by
  unfold State.discardHead
  dsimp only
  split
  · exact .refl s
  · next q rest hq =>
    split
    · next hcond =>
      refine (State.setInbound_hush fun hl => ?_).trans (State.discard_hush _ _ ?_)
      · rw [hq] at hl
        exact Nat.le_of_succ_le hl
      · rw [State.hasRoom, State.setInbound, State.port_setPort_self]
        exact hcond.2
    · exact .refl s

theorem State.portResets_stands (s : State) (p : Port) : Stands s (s.portResets p) := by
  unfold State.portResets
  have hreset : Stands s (s.setPort p { PortRec.reset .portReset with prst := true }) :=
    State.setPort_stands fun _ => ⟨Nat.zero_le _, Nat.zero_le _⟩
  refine hreset.then ?_
  refine Calm.trans (Hush.calm ⟨(State.endSlotChains_frame _ p).1.mono (by decide), .of_ports_eq (State.endSlotChains_ports _ p),
    (State.endSlotChains_frame _ p).2.queuesOk⟩) ?_
  exact Calm.foldl _ (fun s _ => (s.postWaiting_hush p).calm) _ _

theorem State.portReleased_stands (s : State) (p : Port) : Stands s (s.portReleased p) := State.setPort_stands id

end Sys2Proof.Machine

end

section
/-! PROOFS. The timed ends and outside events keep everything in order: zones, lines, inputs, frames, checks, moves (R6 to
R21, R54 to R59, R63, R77 to R80, R116, R117, R134). -/

open Sys2Proof Sys2Proof.Machine

namespace Sys2Proof.Machine

/-! ### Zones (R6, R8, R9, R21) -/

theorem State.completeWake_orderly (s : State) (z : Zone) : Orderly s (s.completeWake z) := by
  refine ⟨s.completeWake_keeps z, ?_⟩
  by_cases hw : (s.zone z).power = .waking
  · rw [State.completeWake_eq hw]
    split
    · exact .of_followsOn (State.quietedAtWake_follows hw _)
    · exact .of_followsOn (s.wakeEnded_follows z)
  · exact .of_eq (if_neg hw)

theorem State.minuteEvent_orderly (s : State) : Orderly s s.minuteEvent :=
  ⟨s.minuteEvent_keeps, .of_followsOn s.minuteEvent_quietAll.follows⟩

theorem State.sleepExpiry_orderly (s : State) (z : Zone) : Orderly s (s.sleepExpiry z) := by
  refine ⟨s.sleepExpiry_keeps z, ?_⟩
  by_cases h : (s.zone z).sleepTimer = 0
  · exact .of_eq (if_pos h)
  · exact .of_followsOn (State.sleepExpiry_quietAll h).follows

/-- A zone that enters STANDBY, before the reports: its stack is cleared, and its outputs and segments freed. -/
def State.shutDown (s : State) (z : Zone) : State :=
  ((((((s.setZone z { s.zone z with quietStage := none, relayTimer := none, opSlot := none }).setPower z .standby).cancelStack
    z).dropReference z).freeZone z).releaseZone z).regrantAll

/-- The record of a zone that has entered STANDBY, before its stack is cleared. -/
def ZoneRec.shutDown (r : ZoneRec) : ZoneRec :=
  { r with power := .standby, quietStage := none, relayTimer := none, opSlot := none }

theorem State.shutDown_edits (s : State) (z : Zone) :
    ∃ u, Edits z (s.zone z).shutDown s u ∧ zoneReported u z ∧ u.noOutputMarked ∧ s.shutDown z =
      ((((u.cancelStack z).dropReference z).freeZone z).releaseZone z).regrantAll := by
  obtain ⟨r, hr⟩ : ∃ r : ZoneRec, r = { s.zone z with quietStage := none, relayTimer := none, opSlot := none } := ⟨_, rfl⟩
  have h1 : Edits z r s (s.setZone z r) := State.setZone_edits (by rw [hr]) (by rw [hr]) (by rw [hr])
  obtain ⟨h2, h3, h4⟩ := (s.setZone z r).setPower_edits z .standby
  rw [State.zone_setZone_self] at h2
  refine ⟨_, ?_, h3, h4, by rw [hr]; rfl⟩
  have h := h1.trans h2
  subst hr
  exact h

theorem State.shutDown_calm (u : State) (z : Zone) :
    Calm u ((((u.cancelStack z).dropReference z).freeZone z).releaseZone z).regrantAll :=
  ((((u.cancelStack_calm z).trans (State.dropReference_calm _ z)).trans (State.freeZone_unitStep _ z).calm).trans
    (State.releaseZone_unitStep _ z).calm).trans (State.regrantAll_unitStep _).calm

theorem ZoneRec.sameButDerived.live {r u : ZoneRec} (h : r.sameButDerived u) : u.live = r.live := by
  rw [ZoneRec.sameButDerived] at h
  rw [h]

theorem State.shutDown_hears {s : State} {z : Zone} (hp : (s.zone z).power = .quieting) : HearsOn s (s.shutDown z) := by
  obtain ⟨u, hedits, -, -, heq⟩ := s.shutDown_edits z
  have hset := (u.shutDown_calm z).toSettled
  rw [heq]
  refine ⟨hedits.tracks.trans hset.tracks, fun y => ?_⟩
  obtain ⟨hpower, hlive, -⟩ := hset.zones y
  rw [hlive, ZoneRec.isUp, hpower]
  by_cases hy : y = z
  · subst hy
    rw [hedits.self.power, hedits.self.live, ZoneRec.isUp, hp]
    exact ⟨rfl, rfl⟩
  · rw [(hedits.others y hy).power, (hedits.others y hy).live]
    exact ⟨rfl, rfl⟩

/-- At the entry of a QUIETING zone into STANDBY no zone ceases to listen. -/
theorem State.toStandby_hears {s : State} {z : Zone} (hp : (s.zone z).power = .quieting) (hs : s.followed) :
    (s.toStandby z).followed ∧ (s.toStandby z).decoder = s.decoder ∧ (s.toStandby z).tuner = s.tuner := by
  have hears := State.shutDown_hears hp
  have heq : s.shutDown z = (s.shutDown z).reportZones := (State.reportZones_of_followed (hears.followed hs)).symm
  have hend : s.toStandby z = (s.shutDown z).completeOpt (s.zone z).opSlot .done [] := by
    rw [heq]; rfl
  have hset := (s.shutDown z).completeOpt_settled (s.zone z).opSlot .done []
  rw [hend]
  exact ⟨hset.followed (hears.followed hs), hset.decoder.trans hears.tracks.decoder, hset.tuner.trans hears.tracks.tuner⟩

theorem State.runPendingOn_orderly (s : State) (z : Zone) : Orderly s (s.runPendingOn z) := by
  have h : Calm s ((s.setZone z { s.zone z with pendingPower := none, pendingSlot := none }).raiseZone z) :=
    (State.setZone_calm).trans (State.raiseZone_calm _ z)
  unfold State.runPendingOn
  split
  · dsimp only
    split
    · exact (h.trans (State.completeOpt_calm _ _ _ _)).orderly
    · split
      · exact (h.trans (State.completeOpt_calm _ _ _ _)).orderly
      · next hw => exact (h.trans (State.wakeRequest_calm hw)).then (State.enterWaking_orderly _ z _)
  · exact .refl s

theorem State.endRelayStage_orderly (s : State) (z : Zone) : Orderly s (s.endRelayStage z) := by
  refine ⟨s.endRelayStage_keeps z, ?_⟩
  unfold State.endRelayStage
  split
  · next h => exact (State.runPendingOn_orderly _ z).heeds.after (State.toStandby_hears h.1)
  · exact .refl s

/-! ### Lines (R45, R54 to R58) -/

theorem State.relayOpenExpires_orderly (s : State) (o : Fin 13) : Orderly s (s.relayOpenExpires o) := by
  unfold State.relayOpenExpires
  split
  · exact (s.reallocate_unitStep o false).calm.orderly
  · exact .refl s

theorem State.fltPinActive_orderly (s : State) (n : Fin 11) : Orderly s (s.fltPinActive n) := by
  unfold State.fltPinActive
  split
  · exact .refl s
  · exact ((State.setOutputs_calm).trans (State.fltArrives_calm _ n)).orderly

theorem State.fltPinInactive_orderly (s : State) (n : Fin 11) : Orderly s (s.fltPinInactive n) := by
  unfold State.fltPinInactive
  split
  · exact ((State.setOutputs_calm).trans (State.fltDeparts_calm _ n)).orderly
  · exact .refl s

theorem State.thwPinActive_orderly (s : State) : Orderly s s.thwPinActive := by
  unfold State.thwPinActive
  split
  · exact .refl s
  · exact ((State.setOutputs_calm).trans (State.thwChanges_calm _ _)).orderly

theorem State.thwPinInactive_orderly (s : State) : Orderly s s.thwPinInactive := by
  unfold State.thwPinInactive
  split
  · exact ((State.setOutputs_calm).trans (State.thwChanges_calm _ _)).orderly
  · exact .refl s

theorem State.thtPinActive_orderly (s : State) : Orderly s s.thtPinActive := by
  unfold State.thtPinActive
  split
  · exact .refl s
  · exact (State.setOutputs_calm).then (State.thtArrives_orderly _)

theorem State.thtPinInactive_orderly (s : State) : Orderly s s.thtPinInactive := by
  unfold State.thtPinInactive
  split
  · exact ((State.setOutputs_calm).trans (State.thtDeparts_calm _)).orderly
  · exact .refl s

/-! ### Inputs (R63, R65) -/

theorem State.changeInput_orderly (s : State) (i : Fin 8) (r : InputRec) : Orderly s (s.changeInput i r) := by
  have hbecomes := s.changeInput_becomes i r
  refine ⟨?_, fun hs => ?_⟩
  · exact (((s.setInput_keeps _ r).trans (State.raise_keeps _ _ _)).trans (((State.refreshStatus_keeps _ _).trans
      (State.refreshStatus_keeps _ _)).trans (State.refreshStatus_keeps _ _))).trans (State.refreshBinding_keeps _)
  · obtain ⟨-, -, -, hzones, hbinding, ⟨-, hrebound⟩, -, hchanges⟩ := hbecomes
    obtain ⟨-, -, hact⟩ := hs
    have htuner : (s.changeInput i r).tuner = s.tuner := hchanges .tuner (by decide)
    have hlisten : (s.changeInput i r).listened ↔ s.listened := State.listened_congr fun z => (hzones z).1.heard
    have hfollows : (s.changeInput i r).tunerFollows := by
      rw [State.tunerFollows_iff, htuner]
      exact hlisten.eq ▸ hact
    refine ⟨⟨hbinding, fun z => (hzones z).2.1, hfollows⟩, fun hb => ⟨(hrebound hb).1, fun _ => (hrebound hb).2⟩, ?_, ?_⟩
    · exact fun hp hl _ => absurd (.inl (hlisten.1 hl)) (hact.1.1 hp)
    · rw [htuner]
      exact fun _ hp hp' _ => absurd hp' hp

theorem State.signalArrives_orderly (s : State) (i : Fin 8) (d : Descriptor) : Orderly s (s.signalArrives i d) := by
  unfold State.signalArrives
  split
  · exact s.changeInput_orderly i _
  · exact .refl s

theorem State.signalLost_orderly (s : State) (i : Fin 8) : Orderly s (s.signalLost i) := by
  unfold State.signalLost
  split
  · exact .refl s
  · exact s.changeInput_orderly i _

/-- An input's record rewritten in its state. -/
theorem State.setInput_orderly {s : State} {i : Fin 8} {r : InputRec} (hr : r.state = (s.input (digital i)).state) :
    Orderly s (s.setInput (digital i) r) := by
  refine ⟨s.setInput_keeps _ r, .of_still (fun j => ?_) (fun _ => ⟨rfl, rfl, rfl⟩) rfl id⟩
  by_cases hj : j = digital i
  · subst hj; rw [State.input_setInput_self, hr]
  · rw [State.input_setInput_ne _ _ hj]

theorem State.readDescriptor_orderly {s : State} {i : Fin 8} (d : Descriptor)
    (h : (s.input (digital i)).state = .locking) : Orderly s (s.readDescriptor i d) := by
  unfold State.readDescriptor
  split
  · exact s.changeInput_orderly i _
  · exact State.setInput_orderly h.symm

theorem State.descriptorChanges_orderly (s : State) (i : Fin 8) (d : Descriptor) : Orderly s (s.descriptorChanges i d) := by
  unfold State.descriptorChanges
  dsimp only
  split
  · exact .refl s
  · next h =>
    split
    · exact State.setInput_orderly rfl
    · exact State.readDescriptor_orderly d h
  · exact s.changeInput_orderly i _

theorem State.lockTimerEnds_orderly (s : State) (i : Fin 8) : Orderly s (s.lockTimerEnds i) := by
  unfold State.lockTimerEnds
  dsimp only
  split
  · next h _ _ => exact State.readDescriptor_orderly _ h
  · exact .refl s

/-! ### Frames (R77 to R80) -/

/-- The decoder works on in its binding. -/
structure Decodes (s t : State) : Prop where
  frame : Frame [.decoder, .ports, .freeCount] s t
  grown : eventsGrow s t
  binding : t.decoder.binding = s.decoder.binding
  idle : t.decoder.state = .idle ↔ s.decoder.state = .idle

theorem Decodes.refl (s : State) : Decodes s s := ⟨.refl _ s, .refl s, rfl, Iff.rfl⟩

theorem Decodes.trans {s t u : State} (h1 : Decodes s t) (h2 : Decodes t u) : Decodes s u :=
  ⟨h1.frame.trans h2.frame, h1.grown.trans h2.grown, h2.binding.trans h1.binding, h2.idle.trans h1.idle⟩

theorem Decodes.orderly {s t : State} (h : Decodes s t) : Orderly s t := by
  have hz : t.zones = s.zones := h.frame.1 .zones (by decide)
  refine ⟨?_, .of_still (fun i => ?_) (fun z => ?_) h.binding fun hf => ?_⟩
  · exact {
      grown := h.grown
      noted := fun z hn => .inl (by rwa [State.zone, hz] at hn)
      marked := noOutputMarked_of_same hz fun o z => by rw [State.out, h.frame.1 .outputs (by decide)]; rfl
      memory := by rw [h.frame.1 .delay (by decide)]; exact .refl _
      gains := State.gainsOk_of_mix (h.frame.1 .mix (by decide))
      bound := fun hs => h.idle.trans (hs.trans (by rw [h.binding]))
      tuned := fun hs => by rw [h.frame.1 .tuner (by decide)]; exact hs
      queues := h.frame.2.queuesOk }
  · rw [State.input_congr (h.frame.1 .inputs (by decide))]
  · rw [State.zone, hz]; exact ⟨rfl, rfl, rfl⟩
  · rw [State.tunerFollows_iff, h.frame.1 .tuner (by decide),
      State.listened_congr (s := s) fun z => by rw [State.zone, hz]; exact ⟨rfl, rfl⟩]
    exact hf

theorem State.setDecoder_decodes {s : State} {d : DecoderRec} (hb : d.binding = s.decoder.binding)
    (hs : d.state = .idle ↔ s.decoder.state = .idle) : Decodes s (s.setDecoder d) :=
  ⟨(s.setDecoder_frame d).mono, .of_ports_eq rfl, hb, hs⟩

/-- A decoder that works goes on to work. -/
theorem State.setDecoder_works {s : State} {d : DecoderRec} (hs : s.decoder.state ≠ .idle)
    (hb : d.binding = s.decoder.binding := by rfl) (hd : d.state ≠ .idle := by exact fun h => nomatch h) : Decodes s (s.setDecoder d) :=
  State.setDecoder_decodes hb ⟨fun h => absurd h hd, fun h => absurd h hs⟩

theorem State.raiseDecoder_decodes (s : State) (b : Byte) : Decodes s (s.raiseDecoder b) := by
  have hd : (s.raiseDecoder b).decoder = s.decoder := (s.raiseDecoder_frame b).1 .decoder (by decide)
  exact ⟨(s.raiseDecoder_frame b).mono, (s.raise_raises _ _).2, by rw [hd], by rw [hd]⟩

/-- Samples that join the delivery queue, with a free number where they are converted. -/
theorem State.withFifo_decodes (s : State) (n : Nat) (l : List (List Sample)) :
    Decodes s { s with freeCount := n, decoder := { s.decoder with fifo := l } } :=
  ⟨⟨fun q hq => by cases q <;> first | rfl | exact absurd (by decide) hq, portsKept_of_eq rfl⟩, .of_ports_eq rfl, rfl, Iff.rfl⟩

theorem State.deliver_decodes (s : State) (r : Byte) (f : DecodedFrame) : Decodes s (s.deliver r f) := by
  unfold State.deliver
  split
  · exact State.setDecoder_decodes rfl Iff.rfl
  · exact s.withFifo_decodes _ _

theorem State.deliverSilence_decodes (s : State) (h : FrameHeader) : Decodes s (s.deliverSilence h) := by
  unfold State.deliverSilence
  split
  · exact State.setDecoder_decodes rfl Iff.rfl
  · exact s.withFifo_decodes _ _

theorem State.searchFrame_decodes (s : State) (bs : List Byte) : Decodes s (s.searchFrame bs) := by
  unfold State.searchFrame
  split
  · next hst =>
    have hne : s.decoder.state ≠ .idle := fun h => (nomatch hst.symm.trans h)
    split
    · unfold State.judgeSecond
      dsimp only
      split
      · exact .refl s
      · split
        · exact ((State.setDecoder_works hne).trans (State.deliver_decodes _ _ _)).trans
            (State.raiseDecoder_decodes _ _)
        · exact State.setDecoder_decodes rfl Iff.rfl
      · exact State.setDecoder_decodes rfl Iff.rfl
    · split
      · unfold State.judgeFound
        dsimp only
        split
        · exact .refl s
        · exact State.setDecoder_decodes rfl Iff.rfl
        · exact State.setDecoder_decodes rfl Iff.rfl
      · exact .refl s
  · exact .refl s

theorem State.judgeExpected_decodes {s : State} (old : FrameHeader) (n : Nat) (bs : List Byte)
    (hne : s.decoder.state ≠ .idle) : Decodes s (s.judgeExpected old n bs) := by
  unfold State.judgeExpected
  split
  · exact .refl s
  · unfold State.goodFrame
    dsimp only
    split
    · exact (State.setDecoder_works hne).trans (State.deliver_decodes _ _ _)
    · exact ((State.setDecoder_works hne).trans (State.deliver_decodes _ _ _)).trans (State.raiseDecoder_decodes _ _)
  · split
    · exact .refl s
    · unfold State.badFrame
      dsimp only
      split
      · exact (State.setDecoder_works hne).trans (State.deliver_decodes _ _ _)
      · exact (State.setDecoder_works hne).trans (State.deliverSilence_decodes _ _)
      · exact (State.setDecoder_works hne).trans (State.raiseDecoder_decodes _ _)

theorem State.takeFrame_decodes (s : State) (bs : List Byte) : Decodes s (s.takeFrame bs) := by
  unfold State.takeFrame
  split
  · next h _ _ => exact State.judgeExpected_decodes _ _ bs fun hi => (nomatch h.symm.trans hi)
  · next h _ _ => exact State.judgeExpected_decodes _ _ bs fun hi => (nomatch h.symm.trans hi)
  · exact .refl s

/-! ### Checks and moves (R116, R117, R134) -/

/-- While a check runs there is no segment to keep. -/
theorem DelayKept.of_check {d e : DelayState} (hc : d.check ≠ none) (hs : e.segments = d.segments)
    (hw : Dram.wf d.dram = true → Dram.wf e.dram = true)
    (he : d.state = .initializing → e.check ≠ none → e.state = .initializing) : DelayKept d e :=
  ⟨hw, fun h => h.withCheck (fun hr => nomatch hr.symm.trans (h.checks hc)) hs (he (h.checks hc))⟩

theorem State.setCheck_calm {s : State} (c : CheckRec) (hc : s.delay.check ≠ none) : Calm s (s.setCheck c) :=
  State.setDelay_calm (.of_check hc rfl id fun h _ => h)

theorem State.failCheck_calm {s : State} (c : CheckRec) (n : Nat) (hc : s.delay.check ≠ none) : Calm s (s.failCheck c n) := by
  have hk : DelayKept s.delay { s.delay with state := .fault, check := none } := .of_check hc rfl id fun _ h => absurd rfl h
  exact ((State.setDelay_calm hk).trans (State.complete_unitStep _ c.slot .failed _).calm).trans (State.raise_calm _ _ _)

theorem State.passCheck_calm {s : State} (c : CheckRec) (hc : s.delay.check ≠ none) : Calm s (s.passCheck c) := by
  have hk : DelayKept s.delay { s.delay with state := .ready, check := none } := .of_check hc rfl id fun _ h => absurd rfl h
  exact ((State.setDelay_calm hk).trans (State.complete_unitStep _ c.slot .done _).calm).trans (State.raise_calm _ _ _)

theorem State.testRow_calm (s : State) (c : CheckRec) : Calm s (s.testRow c) := by
  have hk : DelayKept s.delay (s.testRow c).delay := ⟨fun h => Dram.fill_wf h _ _ _, fun h => h.withDram _⟩
  have hset : Calm s (s.setDelay (s.testRow c).delay) := State.setDelay_calm hk
  exact hset.trans (Keeps.calm (.of_frame (ps := [.freeCount])
    ⟨fun q hq => by cases q <;> first | rfl | exact absurd (by decide) hq, portsKept_of_eq rfl⟩ (.of_ports_eq rfl) (by decide))
    ⟨rfl, rfl, rfl, fun _ => ⟨rfl, rfl, rfl⟩, .of_ports_eq rfl⟩)

theorem State.countRow_calm {s : State} (c : CheckRec) (b : Bool) (hc : s.delay.check ≠ none) :
    Calm s (s.countRow c b).2 ∧ (s.countRow c b).2.delay.check ≠ none := by
  unfold State.countRow
  split
  · exact ⟨.refl s, hc⟩
  · exact ⟨State.setDelay_calm (.of_check hc rfl id fun h _ => h), hc⟩

theorem State.checkSequenceEnds_orderly (s : State) : Orderly s s.checkSequenceEnds := by
  unfold State.checkSequenceEnds
  split
  · next c hc =>
    split
    · exact (State.setCheck_calm _ (by rw [hc]; exact fun h => (nomatch h))).orderly
    · exact .refl s
  · exact .refl s

theorem State.quickRowEnds_orderly (s : State) (b : Bool) : Orderly s (s.quickRowEnds b) := by
  unfold State.quickRowEnds
  split
  · exact .refl s
  · next c hc =>
    have hcheck : (s.testRow c).delay.check ≠ none := fun h => nomatch hc.symm.trans h
    have htest := s.testRow_calm c
    split
    · dsimp only
      split
      · exact (htest.trans (State.failCheck_calm c _ hcheck)).orderly
      · split
        · exact (htest.trans (State.passCheck_calm c hcheck)).orderly
        · exact (htest.trans (State.setCheck_calm _ hcheck)).orderly
    · exact .refl s

theorem State.fullRowEnds_orderly (s : State) (b : Bool) : Orderly s (s.fullRowEnds b) := by
  unfold State.fullRowEnds
  split
  · exact .refl s
  · next c hc =>
    have hcheck : (s.testRow c).delay.check ≠ none := fun h => nomatch hc.symm.trans h
    obtain ⟨hcount, hcheck'⟩ := State.countRow_calm c b hcheck
    have htest := (s.testRow_calm c).trans hcount
    split
    · dsimp only
      generalize (s.testRow c).countRow c b = r at htest hcheck' ⊢
      split
      · exact (htest.trans (State.failCheck_calm r.1 _ hcheck')).orderly
      · split
        · exact (htest.trans (State.passCheck_calm r.1 hcheck')).orderly
        · exact (htest.trans (State.setCheck_calm _ hcheck')).orderly
    · exact .refl s

/-- The last segment set for an output is the one that counts. -/
theorem DelayState.setSegment_setSegment (d : DelayState) (g h : Segment) (hg : h.output = g.output) :
    (d.setSegment g.output h).setSegment g.output = d.setSegment g.output := by
  funext k
  have hout (x : Segment) (l : List Segment) (hx : x.output = g.output) :
      (insertSegment x l).filter (fun a => a.output != g.output) = l.filter (fun a => a.output != g.output) := by
    induction l with
    | nil => simp [insertSegment, hx]
    | cons a l ih =>
      unfold insertSegment
      split
      · simp [hx]
      · simp only [List.filter_cons, ih]
  simp only [DelayState.setSegment, hout h _ hg, List.filter_filter, Bool.and_self]

/-- The DRAM after the copy of one page of a move. -/
def DelayState.pageCopied (d : DelayState) (g : Segment) (m : MoveRec) : DelayState :=
  { d with dram := Dram.copy d.dram ((g.base + m.copied) * pageWords) ((m.target + m.copied) * pageWords) pageWords }

theorem DelayState.setSegment_dram (d : DelayState) (o : Fin 13) (g : Segment) : (d.setSegment o g).dram = d.dram := rfl

theorem DelayState.copyPage_eq (d : DelayState) (g : Segment) (m : MoveRec) :
    d.copyPage g m = (d.pageCopied g m).setSegment g.output { g with move := some { m with copied := m.copied + 1 } } := rfl

theorem DelayState.InOrder.pageCopied {d : DelayState} (h : d.InOrder) (g : Segment) (m : MoveRec) :
    (d.pageCopied g m).InOrder := by
  unfold DelayState.pageCopied
  exact h.withDram _

theorem DelayState.inDram_of_mem {d : DelayState} (hin : d.inDram = true) {g : Segment} (hg : g ∈ d.segments) :
    1 ≤ g.count ∧ g.base + g.count ≤ 1024 ∧
      ∀ m, g.move = some m → m.target + g.count ≤ 1024 ∧ m.copied < g.count := by
  have h := List.all_eq_true.1 hin g hg
  simp only [Bool.and_eq_true, decide_eq_true_eq] at h
  obtain ⟨⟨h1, h2⟩, h3⟩ := h
  refine ⟨h1, h2, fun m hm => ?_⟩
  rw [hm] at h3
  obtain ⟨h3, h4⟩ := Bool.and_eq_true_iff.1 h3
  exact ⟨of_decide_eq_true h3, of_decide_eq_true h4⟩

/-- A copied page stays within the DRAM. -/
theorem DelayState.pageCopied_wf {d : DelayState} (hin : d.inDram = true) {g : Segment} {m : MoveRec} {o : Fin 13}
    (hs : d.segment o = some g) (hm : g.move = some m) (hd : Dram.wf d.dram = true) : Dram.wf (d.pageCopied g m).dram = true := by
  obtain ⟨-, -, hmove⟩ := DelayState.inDram_of_mem hin (DelayState.segment_mem hs).1
  obtain ⟨h1, h2⟩ := hmove m hm
  unfold DelayState.pageCopied
  dsimp only
  refine Dram.copy_wf hd _ ?_
  have hwords : dramWords = 1024 * pageWords := by decide
  rw [hwords, ← Nat.succ_mul]
  exact Nat.mul_le_mul_right _ (by omega)

/-- A compaction goes on from a memory in which nothing moves any more. -/
theorem State.goOn_unitStep {s : State} {d : DelayState} (hd : d.state = s.delay.state ∧ d.check = s.delay.check ∧
    d.badRows = s.delay.badRows ∧ d.dref = s.delay.dref) (hwf : Dram.wf s.delay.dram = true → Dram.wf d.dram = true)
    (ho : s.delay.InOrder → d.InOrder ∧ d.Still) (c : CompactionRec) : UnitStep s ((s.setDelay d).continueCompaction c) := by
  obtain ⟨hmarks, hdram, horder⟩ := (s.setDelay d).continueCompaction_keeps_order c
  exact ⟨(State.setDelay_outStep s hd).trans (State.continueCompaction_outStep _ _), fun h => hmarks (State.setDelay_marked d h),
    fun h => hdram (hwf h), fun h => horder (ho h).1 (ho h).2⟩

/-- A page of a move is copied, and the last one ends the move. -/
theorem State.copyMove_orderly {s : State} {c : CompactionRec} {g : Segment} {m : MoveRec}
    (hin : s.delay.inDram = true) (hs : s.delay.segment g.output = some g) (hm : g.move = some m) :
    Orderly s (s.copyMove c g m) := by
  have hpaged : (s.delay.pageCopied g m).segment g.output = some g := by
    rw [← hs]; simp only [DelayState.segment, DelayState.pageCopied]
  have hwf (hd : Dram.wf s.delay.dram = true) : Dram.wf (s.delay.pageCopied g m).dram = true :=
    DelayState.pageCopied_wf hin hs hm hd
  unfold State.copyMove
  dsimp only
  split
  · have hfinish (h : s.delay.InOrder) := DelayState.finishMove_order (h.pageCopied g m) hpaged hm
    have heq : (s.setDelay (s.delay.copyPage g m)).endMove c g m =
        (s.setDelay ((s.delay.pageCopied g m).finishMove g m)).continueCompaction
          { c with current := none, moved := c.moved + g.count, scanStart := m.target + g.count } :=
      congrArg (fun d => (s.setDelay d).continueCompaction _)
        (congrFun (DelayState.setSegment_setSegment (s.delay.pageCopied g m) g
          { g with move := some { m with copied := m.copied + 1 } } rfl) _)
    rw [heq]
    have hwf' (hd : Dram.wf s.delay.dram = true) : Dram.wf ((s.delay.pageCopied g m).finishMove g m).dram = true := by
      rw [DelayState.finishMove, DelayState.setSegment_dram, hwf hd]
    exact (State.goOn_unitStep (by simp only [DelayState.finishMove, DelayState.setSegment, DelayState.pageCopied, and_self]) hwf' hfinish _).calm.orderly
  · next hlt =>
    rw [DelayState.copyPage_eq]
    have hk : DelayKept s.delay ((s.delay.pageCopied g m).setSegment g.output
        { g with move := some { m with copied := m.copied + 1 } }) := ⟨by rw [DelayState.setSegment_dram]; exact hwf, fun h => (h.pageCopied g m).withMove hpaged hm rfl (Nat.lt_of_not_ge hlt : m.copied + 1 < g.count)⟩
    exact (State.setDelay_calm hk).orderly

theorem State.pageCopies_orderly {s : State} (hin : s.delay.inDram = true) : Orderly s s.pageCopies := by
  unfold State.pageCopies
  split
  · exact .refl s
  · next c _ =>
    split
    · exact .refl s
    · next g hg =>
      split
      · exact .refl s
      · next m hm =>
        split
        · obtain ⟨o, -, ho⟩ := Option.bind_eq_some_iff.1 hg
          obtain ⟨-, rfl⟩ := DelayState.segment_mem ho
          exact State.copyMove_orderly hin ho hm
        · exact .refl s

end Sys2Proof.Machine

end

section
/-! PROOFS. What a block start keeps (R86 to R110): the times, the changes taken, the gains, the written lines and the
decoded samples, and the reports that follow. -/

open Sys2Proof Sys2Proof.Machine

namespace Sys2Proof.Machine

/-! ### Gains (R87, R106 to R108) -/

theorem State.normalTarget_range (s : State) (z : Zone) (r : Role) : -160 ≤ s.normalTarget z r ∧ s.normalTarget z r ≤ 24 := by
  rw [State.normalTarget_eq]
  omega

theorem State.grantedTarget_range (s : State) (z : Zone) (r : Role) :
    -161 ≤ (s.grantedTarget z r).1 ∧ (s.grantedTarget z r).1 ≤ 24 := by
  have h := s.normalTarget_range z r
  unfold State.grantedTarget
  split
  · split
    · exact ⟨by decide, by decide⟩
    · split
      · exact ⟨by decide, by decide⟩
      · dsimp only; omega
  · exact ⟨by decide, by decide⟩

theorem State.aim_ok {s : State} {o : Fin 13} (h : (s.gain o).ok) : (s.aim o).ok := by
  obtain ⟨h1, h2, -, -⟩ := h
  have hsilent : -161 ≤ (-161 : Int) ∧ (-161 : Int) ≤ 24 := by decide
  unfold State.aim
  dsimp only
  split
  · split
    · exact ⟨h1, h2, hsilent⟩
    · split
      · next z r _ _ => exact ⟨h1, h2, s.grantedTarget_range z r⟩
      · exact ⟨h1, h2, hsilent⟩
  · exact ⟨h1, h2, hsilent⟩
  · exact ⟨hsilent.1, hsilent.2, hsilent⟩

theorem GainRec.step_ok {g : GainRec} (h : g.ok) : g.step.ok := by
  obtain ⟨h1, h2, h3, h4⟩ := h
  have hpos := g.ramp.steps_pos
  refine ⟨?_, ?_, h3, h4⟩ <;>
  · unfold GainRec.step
    dsimp only
    split <;> omega

theorem State.stepGains_calm (s : State) : Calm s s.stepGains :=
  Calm.foldl _ (fun _ o => State.setGain_calm fun hs => GainRec.step_ok (State.aim_ok (hs o))) _ s

/-! ### Changes taken (R86, R105) -/

theorem State.clearOutputLine_calm (s : State) (o : Fin 13) : Calm s (s.clearOutputLine o) := by
  unfold State.clearOutputLine
  split
  · next g hg =>
    refine State.setDelay_calm ((s.delay.clearCopied_kept g).trans ?_)
    have hs : (s.delay.clearCopied g).segment o = some g := by rw [DelayState.segment_clearCopied, hg]
    exact DelayState.clearLine_kept hs (DelayState.segment_mem hg).2
      (fun h => h.table.fits g (DelayState.segment_mem hs).1) fun _ => id
  · exact .refl s

theorem State.clearOutputLine_frame (s : State) (o : Fin 13) : Frame [.delay] s (s.clearOutputLine o) := by
  unfold State.clearOutputLine
  split
  · exact s.setDelay_frame _
  · exact .refl _ s

/-- The lines of a zone's outputs are cleared (R105). -/
theorem State.clearOutputLines_frame (s : State) (os : List (Fin 13)) : Frame [.delay] s (os.foldl State.clearOutputLine s) :=
  Frame.foldl _ State.clearOutputLine_frame _ s

theorem State.takeSwitchIn_calm (s : State) (z : Zone) : Calm s (s.takeSwitchIn z) := by
  unfold State.takeSwitchIn
  split
  · have hlines := Calm.foldl _ State.clearOutputLine_calm (s.grantedOutputs z) s
    have hz : ((s.grantedOutputs z).foldl State.clearOutputLine s).zone z = s.zone z :=
      (s.clearOutputLines_frame _).1.zone (by decide) z
    exact hlines.trans (State.setZone_calm (by rw [hz]) (by rw [hz]) (by rw [hz]) (by rw [hz]))
  · exact .refl s

theorem State.takeChanges_calm (s : State) : Calm s s.takeChanges :=
  (Calm.foldl _ State.takeSwitchIn_calm Zone.all s).trans State.setMix_calm

/-! ### What is written (R105, R110, R123) -/

/-- A segment lies within the DRAM. -/
def Segment.Within (g : Segment) : Prop :=
  1 ≤ g.count ∧ g.base + g.count ≤ 1024 ∧ ∀ m, g.move = some m → m.target + g.count ≤ 1024 ∧ m.copied < g.count

/-- Every segment lies within the DRAM (log 21). -/
def DelayState.Within (d : DelayState) : Prop := ∀ g, g ∈ d.segments → g.Within

theorem DelayState.within_of_inDram {d : DelayState} (h : d.inDram = true) : d.Within :=
  fun _ hg => DelayState.inDram_of_mem h hg

/-- A segment that keeps its pages. -/
theorem DelayState.Within.setSegment {d : DelayState} (h : d.Within) {g k : Segment} {o : Fin 13} (hs : d.segment o = some g)
    (hb : k.base = g.base) (hc : k.count = g.count) (hm : k.move = g.move) : (d.setSegment o k).Within := by
  intro x hx
  obtain rfl | hx := List.mem_cons.1 ((insertSegment_perm _ _).mem_iff.1 hx)
  · obtain ⟨h1, h2, h3⟩ := h g (DelayState.segment_mem hs).1
    unfold Segment.Within
    rw [hb, hc, hm]
    exact ⟨h1, h2, h3⟩
  · exact h x (List.mem_of_mem_filter hx)

theorem State.clearOutputLine_within {s : State} (o : Fin 13) (h : s.delay.Within) : (s.clearOutputLine o).delay.Within := by
  unfold State.clearOutputLine
  split
  · next g hg =>
    rw [State.setDelay_delay]
    have hc : (s.delay.clearCopied g).Within := by
      unfold DelayState.clearCopied
      split <;> exact h
    have hs : (s.delay.clearCopied g).segment o = some g := by rw [DelayState.segment_clearCopied, hg]
    have ho := (DelayState.segment_mem hg).2
    subst ho
    exact DelayState.Within.setSegment (d := { s.delay.clearCopied g with
      dram := Dram.clear (s.delay.clearCopied g).dram (g.base * pageWords) (g.count * pageWords) }) hc hs rfl rfl rfl
  · exact h

theorem State.takeChanges_within {s : State} (h : s.delay.Within) : s.takeChanges.delay.Within := by
  have hswitch (s : State) (z : Zone) (h : s.delay.Within) : (s.takeSwitchIn z).delay.Within := by
    unfold State.takeSwitchIn
    split
    · exact List.foldlRecOn (motive := fun t : State => t.delay.Within) (s.grantedOutputs z) State.clearOutputLine h
        fun s hs o _ => State.clearOutputLine_within o hs
    · exact h
  exact List.foldlRecOn (motive := fun t : State => t.delay.Within) Zone.all State.takeSwitchIn h fun s hs z _ => hswitch s z hs

theorem State.playOutput_within {s : State} {o : Fin 13} {g : Segment} (hs : s.delay.segment o = some g) (w : Wave)
    (h : s.delay.Within) : (s.playOutput o g w).delay.Within :=
  DelayState.Within.setSegment (d := (s.writeBlock g w).delay) h hs rfl rfl rfl

theorem State.setLane_calm (s : State) (o : Fin 13) (xs : List Sample) : Calm s (s.setLane o xs) := State.setMix_calm

/-- The words written for an output stay within its run (R123). -/
theorem State.playOutput_calm {s : State} {o : Fin 13} {g : Segment} (hs : s.delay.segment o = some g) (w : Wave)
    (h : s.delay.Within) : Calm s (s.playOutput o g w) := by
  obtain ⟨hpos, htop, -⟩ := h g (DelayState.segment_mem hs).1
  have hk : DelayKept s.delay ((s.writeBlock g w).delay.setSegment o g.advance) := by
    refine ⟨fun hd => ?_, fun hd => (hd.withDram _).advance hs⟩
    rw [DelayState.setSegment_dram]
    refine Dram.writeRing_wf (Nat.mul_pos hpos (by decide)) ?_ _ _ hd
    have hwords : dramWords = 1024 * pageWords := by decide
    rw [hwords, ← Nat.add_mul]
    exact Nat.mul_le_mul_right _ htop
  exact (State.setDelay_calm hk).trans (State.setLane_calm _ o _)

theorem State.renderOutput_calm {s : State} (o : Fin 13) (w : Option Wave) (h : s.delay.Within) :
    Calm s (s.renderOutput o w) ∧ (s.renderOutput o w).delay.Within := by
  unfold State.renderOutput
  split
  · next g w hs =>
    split
    · exact ⟨State.setMix_calm, h⟩
    · exact ⟨State.playOutput_calm hs _ h, State.playOutput_within hs _ h⟩
  · exact ⟨State.setMix_calm, h⟩

theorem State.takeFilters_calm (s : State) (rs : List Redirect) : Calm s (s.takeFilters rs) := by
  refine Calm.foldl _ (fun s p => ?_) _ s
  dsimp only
  split
  · exact .refl s
  · exact State.setMix_calm

theorem State.takeFilters_delay (s : State) (rs : List Redirect) : (s.takeFilters rs).delay = s.delay := by
  unfold State.takeFilters
  refine List.foldlRecOn (motive := fun t : State => t.delay = s.delay) _ _ rfl fun t ht p _ => ?_
  dsimp only
  split <;> exact ht

theorem State.renderBlock_calm {s : State} (audio : BlockAudio) (h : s.delay.Within) : Calm s (s.renderBlock audio) := by
  unfold State.renderBlock
  dsimp only
  have hstart : (s.takeFilters (s.redirects (s.virtualSound audio))).delay.Within := by rw [State.takeFilters_delay]; exact h
  generalize allOutputs.map _ = l
  refine (s.takeFilters_calm (s.redirects (s.virtualSound audio))).trans ?_
  generalize s.takeFilters _ = u at hstart
  induction l generalizing u with
  | nil => exact .refl u
  | cons ow l ih =>
    obtain ⟨hcalm, hwithin⟩ := State.renderOutput_calm ow.1 ow.2 hstart
    exact hcalm.trans (ih _ hwithin)

/-! ### Times and decoded samples (R81, R86) -/

/-- What runs down, or leaves the delivery queue, without being anything that the derived state reads. -/
structure Eases (s t : State) : Prop where
  followed : s.followed → t.followed
  binding : t.decoder.binding = s.decoder.binding
  op : t.tuner.op = s.tuner.op
  state : t.tuner.state = s.tuner.state
  parked : s.followed → s.tuner.state = .parked → t.tuner = s.tuner
  parkedNow : t.tuner.parkedNow = s.tuner.parkedNow

theorem Settled.eases {s t : State} (h : Settled s t) : Eases s t :=
  ⟨h.followed, by rw [h.decoder], by rw [h.tuner], by rw [h.tuner], fun _ _ => h.tuner, by rw [h.tuner]⟩

theorem Eases.trans {s t u : State} (h1 : Eases s t) (h2 : Eases t u) : Eases s u where
  followed := h2.followed ∘ h1.followed
  binding := h2.binding.trans h1.binding
  op := h2.op.trans h1.op
  state := h2.state.trans h1.state
  parked := fun hs hp => (h2.parked (h1.followed hs) (h1.state.trans hp)).trans (h1.parked hs hp)
  parkedNow := h2.parkedNow.trans h1.parkedNow

theorem Heeds.eased {s u t : State} (hu : Eases s u) (h : Heeds u t) : Heeds s t := by
  intro hs
  obtain ⟨a, b, c, d⟩ := h (hu.followed hs)
  rw [hu.binding] at b
  rw [hu.state] at c d
  rw [hu.op, hu.parkedNow] at d
  exact ⟨a, b, fun hp => by rw [← hu.parked hs hp]; exact c hp, d⟩

theorem TunerRec.Follows.tick {heard : Prop} {t : TunerRec} (h : t.Follows heard) : t.tick.Follows heard := by
  obtain ⟨h1, h2, h3⟩ := h
  refine ⟨h1, fun hp => ?_, h3⟩
  obtain ⟨a, b, c⟩ := h2 hp
  simp [TunerRec.tick, Machine.tick, a, b, c]

theorem TunerRec.Follows.tick_parked {heard : Prop} {t : TunerRec} (h : t.Follows heard) (hp : t.state = .parked) :
    t.tick = t := by
  obtain ⟨-, h2, -⟩ := h
  obtain ⟨a, b, c⟩ := h2 hp
  unfold TunerRec.tick Machine.tick
  rw [a, b, c]
  cases t
  simp_all

/-- The times of a zone, an output and an input one less (log 3). -/
def State.zoneDown (s : State) (z : Zone) : State := s.setZone z (s.zone z).tick

def State.outDown (s : State) (o : Fin 13) : State := s.setOut o { s.out o with relayOpenTimer := tick (s.out o).relayOpenTimer }

def State.inputDown (s : State) (i : Fin 8) : State :=
  s.setInput (digital i) { s.input (digital i) with timer := tick (s.input (digital i)).timer }

/-- Every remaining time of the zones, the outputs and the inputs one less. -/
def State.timersDown (s : State) : State :=
  allDigital.foldl State.inputDown (allOutputs.foldl State.outDown (Zone.all.foldl State.zoneDown s))

/-- The tuner's times one less, and the minute divider one more. -/
def State.clockOn (s : State) : State :=
  { s with tuner := s.tuner.tick, minute := { s.minute with ms := min (s.minute.ms + 1) 60000 } }

theorem State.countDown_eq (s : State) : s.countDown = s.timersDown.clockOn := rfl

/-- What keeps everything in order, and leaves what the derived state reads but for times and samples. -/
structure Paces (s t : State) : Prop extends Keeps s t, Eases s t

theorem Calm.paces {s t : State} (h : Calm s t) : Paces s t := ⟨h.toKeeps, h.toSettled.eases⟩

theorem Paces.trans {s t u : State} (h1 : Paces s t) (h2 : Paces t u) : Paces s u :=
  ⟨h1.toKeeps.trans h2.toKeeps, h1.toEases.trans h2.toEases⟩

theorem Paces.foldl {β : Type} (f : State → β → State) (h : ∀ s b, Paces s (f s b)) (l : List β) (s : State) :
    Paces s (l.foldl f s) := by
  induction l generalizing s with
  | nil => exact (Calm.refl s).paces
  | cons b l ih => exact (h s b).trans (ih (f s b))

/-- An input's record with its state. -/
theorem State.setInput_paces {s : State} (i : Fin 12) {r : InputRec} (h : r.state = (s.input i).state) :
    Paces s (s.setInput i r) := by
  refine ⟨s.setInput_keeps i r, State.followed_congr (s := s) (fun j => ?_) (fun _ => ⟨rfl, rfl, rfl⟩) rfl id, rfl, rfl, rfl,
    fun _ _ => rfl, rfl⟩
  by_cases hj : j = i
  · subst hj; rw [State.input_setInput_self, h]
  · rw [State.input_setInput_ne _ _ hj]

theorem State.zoneDown_calm (s : State) (z : Zone) : Calm s (s.zoneDown z) := State.setZone_calm

theorem State.outDown_calm (s : State) (o : Fin 13) : Calm s (s.outDown o) :=
  (State.setOut_unitStep (r := { s.out o with relayOpenTimer := tick (s.out o).relayOpenTimer }) fun _ => rfl).calm

theorem State.inputDown_paces (s : State) (i : Fin 8) : Paces s (s.inputDown i) := State.setInput_paces _ rfl

theorem State.timersDown_paces (s : State) : Paces s s.timersDown :=
  ((Calm.foldl _ State.zoneDown_calm Zone.all s).paces.trans (Calm.foldl _ State.outDown_calm allOutputs _).paces).trans
    (Paces.foldl _ State.inputDown_paces allDigital _)

theorem State.clockOn_paces (s : State) : Paces s s.clockOn := by
  have hk : Keeps s (s.setTuner s.tuner.tick) := State.setTuner_keeps TunerRec.Sound.tick
  refine ⟨⟨hk.grown, hk.noted, hk.marked, hk.memory, hk.gains, hk.bound, hk.tuned, hk.queues⟩,
    State.followed_congr (s := s) (fun _ => rfl) (fun _ => ⟨rfl, rfl, rfl⟩) rfl fun h => ?_, rfl, rfl, rfl,
    fun ⟨_, _, hf⟩ hp => TunerRec.Follows.tick_parked hf hp, rfl⟩
  exact TunerRec.Follows.tick (heard := s.listened) (t := s.tuner) h

theorem State.countDown_paces (s : State) : Paces s s.countDown := by
  rw [State.countDown_eq]
  exact s.timersDown_paces.trans (State.clockOn_paces _)

theorem State.popQueue_paces (s : State) : Paces s s.popQueue := by
  have hk : Keeps s (s.setDecoder s.popQueue.decoder) := State.setDecoder_keeps id
  exact ⟨⟨hk.grown, hk.noted, hk.marked, hk.memory, hk.gains, hk.bound, hk.tuned, hk.queues⟩,
    State.followed_congr (s := s) (fun _ => rfl) (fun _ => ⟨rfl, rfl, rfl⟩) rfl id, rfl, rfl, rfl, fun _ _ => rfl, rfl⟩

/-- A block start before its reports (R86 steps 1 to 3). -/
def State.played (s : State) (audio : BlockAudio) : State := (s.atBlock.renderBlock audio).popQueue

theorem State.runBlock_eq (s : State) (audio : BlockAudio) : s.runBlock audio = (s.played audio).reportBlock := by
  unfold State.runBlock State.played State.atBlock
  rfl

theorem State.timersDown_delay (s : State) : s.timersDown.delay = s.delay := by
  have hins (s : State) : (allDigital.foldl State.inputDown s).delay = s.delay :=
    List.foldlRecOn (motive := fun t : State => t.delay = s.delay) _ _ rfl fun _ h _ _ => h
  have houts (s : State) : (allOutputs.foldl State.outDown s).delay = s.delay :=
    List.foldlRecOn (motive := fun t : State => t.delay = s.delay) _ _ rfl fun _ h _ _ => h
  unfold State.timersDown
  rw [hins, houts]
  rfl

theorem State.clockOn_delay (s : State) : s.clockOn.delay = s.delay := rfl

theorem State.countDown_delay (s : State) : s.countDown.delay = s.delay := by
  rw [State.countDown_eq, State.clockOn_delay, State.timersDown_delay]

theorem State.stepGains_delay (s : State) : s.stepGains.delay = s.delay := by
  unfold State.stepGains
  exact List.foldlRecOn (motive := fun t : State => t.delay = s.delay) _ _ rfl fun _ h _ _ => h

theorem State.atBlock_within {s : State} (h : s.delay.inDram = true) : s.atBlock.delay.Within := by
  unfold State.atBlock
  rw [State.stepGains_delay]
  exact State.takeChanges_within (by rw [State.countDown_delay]; exact DelayState.within_of_inDram h)

theorem State.atBlock_paces (s : State) : Paces s s.atBlock := by
  unfold State.atBlock
  exact s.countDown_paces.trans (s.countDown.takeChanges_calm.trans (State.stepGains_calm _)).paces

theorem State.played_paces {s : State} (audio : BlockAudio) (h : s.delay.inDram = true) : Paces s (s.played audio) := by
  unfold State.played
  exact (s.atBlock_paces.trans (State.renderBlock_calm audio (State.atBlock_within h)).paces).trans (State.popQueue_paces _)

/-! ### The reports of the zones (R8, R13) -/

/-- A zone listens to the tuner. -/
def State.zoneListens (s : State) (z : Zone) : Prop :=
  ((s.zone z).power = .waking ∨ (s.zone z).power = .on) ∧ (s.zone z).live = .tuner

theorem State.listened_iff_zone (s : State) : s.listened ↔ ∃ z, s.zoneListens z := Iff.rfl

/-- One zone alone changes, and what follows it follows: of the other zones the status may change, and no zone changes its
power state. -/
structure Turns (z : Zone) (s t : State) : Prop where
  follows : followsOn s t
  power : ∀ y, (t.zone y).power = (s.zone y).power
  others : ∀ y, y ≠ z → (t.zone y).live = (s.zone y).live
  grown : eventsGrow s t
  op : t.tuner.op = s.tuner.op

theorem Turns.of_settled {z : Zone} {s t : State} (h : Settled s t) : Turns z s t where
  follows := (followsOn.refl s).then h
  power := fun y => (h.zones y).1
  others := fun y _ => (h.zones y).2.1
  grown := h.grown
  op := by rw [h.tuner]

theorem Turns.listens {z : Zone} {s t : State} (h : Turns z s t) {y : Zone} (hy : y ≠ z) : t.zoneListens y ↔ s.zoneListens y := by
  unfold State.zoneListens
  rw [h.power, h.others y hy]

/-- What the reports of some zones have made of a state, those of `l` not having come yet. Where a zone has brought the tuner
into activity, it has reported and stays. -/
structure Turned (l : List Zone) (s t : State) : Prop where
  followed : t.followed
  grown : eventsGrow s t
  op : t.tuner.op = s.tuner.op
  rebound : t.decoder ≠ s.decoder → t.decoder = decoderAnew t.decoder.binding ∧
    reported t .decoder { EventDetail.zero with reasons := 8 }
  unparked : s.tuner.op = none → s.tuner.state = .parked →
    (t.listened → t.tuner = s.tuner.unparked ∧ ∃ z, z ∉ l ∧ t.zoneListens z) ∧ (¬ t.listened → t.tuner = s.tuner)
  parked : s.tuner.op = none → s.tuner.state ≠ .parked →
    (¬ t.listened → t.tuner = s.tuner.parkedNow) ∧ (t.listened → t.tuner = s.tuner ∨ ∃ z, z ∉ l ∧ t.zoneListens z)

theorem State.followed.parked_iff {s : State} (h : s.followed) (hop : s.tuner.op = none) :
    s.tuner.state = .parked ↔ ¬ s.listened := by
  obtain ⟨-, -, hact, -, -⟩ := h
  rw [hact, hop]
  simp

theorem Turned.refl {s : State} (l : List Zone) (h : s.followed) : Turned l s s where
  followed := h
  grown := .refl s
  op := rfl
  rebound := fun hne => absurd rfl hne
  unparked := fun hop hp => ⟨fun hl => absurd hl ((h.parked_iff hop).1 hp), fun _ => rfl⟩
  parked := fun hop hp => ⟨fun hl => absurd ((h.parked_iff hop).2 hl) hp, fun _ => .inl rfl⟩

/-- The tuner after the report of one zone, no operation being present. -/
theorem Turns.tuner {z : Zone} {s t : State} (h : Turns z s t) (hs : s.followed) (hop : s.tuner.op = none) :
    (t.listened → (s.listened → t.tuner = s.tuner) ∧ (¬ s.listened → t.tuner = s.tuner.unparked)) ∧
    (¬ t.listened → (s.listened → t.tuner = s.tuner.parkedNow) ∧ (¬ s.listened → t.tuner = s.tuner)) := by
  obtain ⟨-, -, -, hun, hpark, hstay⟩ := h.follows hs
  have hactive : (t.listened ∨ s.tuner.op ≠ none) ↔ t.listened := by simp [hop]
  have hparked := hs.parked_iff hop
  obtain ⟨-, -, -, -, hsearch⟩ := hs
  simp only [hactive] at hun hpark hstay
  refine ⟨fun hl => ⟨fun hsl => hstay (by simp [hl, hparked, hsl]), fun hsl => hun hl (hparked.2 hsl)⟩,
    fun hl => ⟨fun hsl => hpark hl ?_, fun hsl => hstay (by simp [hl, hparked, hsl])⟩⟩
  cases hst : s.tuner.state with
  | settling => exact .inl rfl
  | idle => exact .inr rfl
  | parked => exact absurd hsl (hparked.1 hst)
  | seeking => exact absurd hop (hsearch (.inl hst))
  | scanning => exact absurd hop (hsearch (.inr hst))

/-- A zone that comes to listen where none did is the one that reports. -/
theorem Turns.newly {z : Zone} {s t : State} (h : Turns z s t) (hs : ¬ s.listened) (ht : t.listened) : t.zoneListens z := by
  obtain ⟨y, hy⟩ := t.listened_iff_zone.1 ht
  by_cases hyz : y = z
  · exact hyz ▸ hy
  · exact absurd ⟨y, (h.listens hyz).1 hy⟩ hs

theorem Turned.step {l : List Zone} {z : Zone} {s u t : State} (h : Turned (z :: l) s u) (hz : z ∉ l) (ht : Turns z u t) :
    Turned l s t := by
  have hstays {y : Zone} (hy : y ∉ z :: l) (hl : u.zoneListens y) : y ∉ l ∧ t.zoneListens y := by
    obtain ⟨hne, hnot⟩ := not_or.1 fun h => hy (List.mem_cons.2 h)
    exact ⟨hnot, (ht.listens hne).2 hl⟩
  obtain ⟨hfollowed, -, ⟨hsame, hrebound⟩, -⟩ := ht.follows h.followed
  refine ⟨hfollowed, h.grown.trans ht.grown, ht.op.trans h.op, fun hne => ?_, fun hop hp => ?_, fun hop hp => ?_⟩
  · by_cases hb : t.decoder.binding = u.decoder.binding
    · rw [hsame hb] at hne ⊢
      exact ⟨(h.rebound hne).1, reported.mono (h.rebound hne).2 ht.grown⟩
    · exact hrebound hb
  · obtain ⟨hlisten, hnot⟩ := ht.tuner h.followed (h.op.trans hop)
    obtain ⟨hun, hstay⟩ := h.unparked hop hp
    by_cases hu : u.listened
    · obtain ⟨htuner, y, hy, hly⟩ := hun hu
      obtain ⟨hyl, hty⟩ := hstays hy hly
      refine ⟨fun hl => ⟨?_, y, hyl, hty⟩, fun hl => absurd ⟨y, hty⟩ hl⟩
      rw [(hlisten hl).1 hu, htuner]
    · refine ⟨fun hl => ⟨?_, z, hz, ht.newly hu hl⟩, fun hl => ?_⟩
      · rw [(hlisten hl).2 hu, hstay hu]
      · rw [(hnot hl).2 hu, hstay hu]
  · obtain ⟨hlisten, hnot⟩ := ht.tuner h.followed (h.op.trans hop)
    obtain ⟨hpark, hstay⟩ := h.parked hop hp
    by_cases hu : u.listened
    · refine ⟨fun hl => ?_, fun hl => ?_⟩
      · obtain hsame | ⟨y, hy, hly⟩ := hstay hu
        · rw [(hnot hl).1 hu, hsame]
        · exact absurd ⟨y, (hstays hy hly).2⟩ hl
      · rw [(hlisten hl).1 hu]
        exact (hstay hu).imp_right fun ⟨y, hy, hly⟩ => ⟨y, hstays hy hly⟩
    · refine ⟨fun hl => ?_, fun hl => .inr ⟨z, hz, ht.newly hu hl⟩⟩
      rw [(hnot hl).2 hu, hpark hu]

theorem Turned.heeded {s t : State} (h : Turned [] s t) : Heeded s t where
  followed := h.followed
  rebound := fun hb => by
    obtain ⟨h1, h2⟩ := h.rebound fun heq => hb (by rw [heq])
    exact ⟨h1, fun _ => h2⟩
  unparked := fun hp hl hop => ((h.unparked (h.op.symm.trans hop) hp).1 hl).1
  parked := fun hop hp ht _ => (h.parked hop hp).1 ((h.followed.parked_iff (h.op.trans hop)).1 ht)

/-- Zones that report one after another, each once. -/
theorem Heeds.of_turns {f : State → Zone → State} (hf : ∀ s z, Turns z s (f s z)) {l : List Zone} (hl : l.Nodup) (s : State) :
    Heeds s (l.foldl f s) := by
  intro hs
  have hfold (l : List Zone) (hl : l.Nodup) (u : State) (h : Turned l s u) : Turned [] s (l.foldl f u) := by
    induction l generalizing u with
    | nil => exact h
    | cons z l ih =>
      obtain ⟨hz, hl⟩ := List.nodup_cons.1 hl
      exact ih hl _ (h.step hz (hf u z))
  exact (hfold l hl s (.refl l hs)).heeded

/-! ### The reports of a block (R8, R13, R45, R128, R134) -/

theorem State.endSilentRamp_calm (s : State) (z : Zone) : Calm s (s.endSilentRamp z) := by
  unfold State.endSilentRamp
  split
  · exact (State.setZone_calm).trans (State.openRelays_unitStep _ z).calm
  · exact .refl s

theorem State.switchIn_keeps (s : State) (z : Zone) (w : Source) : Keeps s (s.switchIn z w) :=
  (((State.setZone_keeps).trans (State.raiseZone_keeps _ z)).trans (State.refreshStatus_keeps _ z)).trans
    (State.reportZones_keeps _)

/-- The record of a zone that takes its waiting source. -/
def ZoneRec.switched (r : ZoneRec) (w : Source) : ZoneRec := { r with live := w, waiting := none, switchIn := true }

/-- A waiting source taken, as it stands before the reports. -/
def State.switchedIn (s : State) (z : Zone) (w : Source) : State :=
  ((s.setZone z ((s.zone z).switched w)).raiseZone z).refreshStatus z

theorem State.switchIn_eq (s : State) (z : Zone) (w : Source) : s.switchIn z w = (s.switchedIn z w).reportZones := rfl

theorem State.switchedIn_tracks (s : State) (z : Zone) (w : Source) : Tracks s (s.switchedIn z w) := by
  have hframe := ((s.setZone z ((s.zone z).switched w)).raiseZone_frame z).1
  refine Tracks.refreshStatus (hframe .decoder (by decide)) (hframe .tuner (by decide)) (hframe .inputs (by decide))
    ((eventsGrow.of_ports_eq (s.setZone_ports z _)).trans (State.raiseZone_raises _ z).2) (fun y hy => ?_) ?_
  · rw [State.zone_raiseZone, State.zone_setZone_ne _ _ hy]
    exact ⟨rfl, rfl⟩
  · rw [State.zone_raiseZone, State.zone_setZone_self]
    rfl

theorem State.switchIn_zone_self (s : State) (z : Zone) (w : Source) :
    ((s.zone z).switched w).sameButStatus ((s.switchIn z w).zone z) := by
  have h := (State.refreshStatus_sameButStatus ((s.setZone z ((s.zone z).switched w)).raiseZone z) z z).trans
    (State.reportZones_sameButStatus _ z)
  rwa [State.zone_raiseZone, State.zone_setZone_self] at h

theorem State.switchIn_zone_ne (s : State) {z y : Zone} (w : Source) (hy : y ≠ z) :
    (s.zone y).sameButStatus ((s.switchIn z w).zone y) := by
  have h := (State.refreshStatus_sameButStatus ((s.setZone z ((s.zone z).switched w)).raiseZone z) z y).trans
    (State.reportZones_sameButStatus _ y)
  rwa [State.zone_raiseZone, State.zone_setZone_ne _ _ hy] at h

theorem State.switchIn_turns (s : State) (z : Zone) (w : Source) : Turns z s (s.switchIn z w) where
  follows := followsOn_reportZones (s.switchedIn_tracks z w)
  power := fun y => by
    by_cases hy : y = z
    · subst hy; rw [s.switchIn_zone_self y w]; rfl
    · rw [s.switchIn_zone_ne w hy]
  others := fun y hy => by rw [s.switchIn_zone_ne w hy]
  grown := (s.switchIn_keeps z w).grown
  op := by
    rw [s.switchIn_eq, State.reportZones, State.refreshTuner_op, State.refreshBinding_tuner, (s.switchedIn_tracks z w).tuner]

theorem State.reportToZone_turns (s : State) (z : Zone) : Turns z s (s.reportToZone z) := by
  unfold State.reportToZone
  split
  · split
    · exact s.switchIn_turns z _
    · exact .of_settled (.refl s)
  · exact .of_settled (s.endSilentRamp_calm z).toSettled
  · exact .of_settled (.refl s)

theorem State.reportToZone_keeps (s : State) (z : Zone) : Keeps s (s.reportToZone z) := by
  unfold State.reportToZone
  split
  · split
    · exact s.switchIn_keeps z _
    · exact .refl s
  · exact s.endSilentRamp_keeps z
  · exact .refl s

theorem State.reportToOutput_calm (s : State) (o : Fin 13) : Calm s (s.reportToOutput o) := by
  unfold State.reportToOutput
  dsimp only
  split
  · exact (State.setOut_unitStep (r := { s.out o with phase := some .relayOpen, relay := false, relayOpenTimer := some 20 })
      fun z => rfl).calm
  · exact .refl s

theorem State.applyHeld_calm (s : State) (o : Fin 13) : Calm s (s.applyHeld o) := by
  unfold State.applyHeld
  dsimp only
  have happly := State.setDelay_calm (s := s) (s.delay.applyChange_kept o)
  split
  · exact happly.trans (State.retryPass_unitStep _).calm
  · exact happly

theorem State.startCopy_calm (s : State) (o : Fin 13) : Calm s (s.startCopy o) := by
  unfold State.startCopy
  split
  · next g hg =>
    split
    · next m hm =>
      split
      · have hk : DelayKept s.delay (s.delay.setSegment o { g with move := some { m with stage := .copy } }) :=
          ⟨id, fun h => h.withMove hg hm rfl ((h.table.fits g (DelayState.segment_mem hg).1).move m hm).2.1⟩
        exact State.setDelay_calm hk
      · exact .refl s
    · exact .refl s
  · exact .refl s

theorem State.reportToDelay_calm (s : State) (o : Fin 13) : Calm s (s.reportToDelay o) := by
  unfold State.reportToDelay
  split
  · exact (s.applyHeld_calm o).trans (State.startCopy_calm _ o)
  · exact .refl s

theorem State.reportBlock_orderly (s : State) : Orderly s s.reportBlock := by
  have hzones : Orderly s (Zone.all.foldl State.reportToZone s) :=
    ⟨Keeps.foldl _ State.reportToZone_keeps _ s, Heeds.of_turns State.reportToZone_turns (by decide) s⟩
  exact hzones.then ((Calm.foldl _ State.reportToOutput_calm _ _).trans (Calm.foldl _ State.reportToDelay_calm _ _))

/-- A block start keeps everything in order. -/
theorem State.runBlock_orderly {s : State} (audio : BlockAudio) (h : s.delay.inDram = true) : Orderly s (s.runBlock audio) := by
  rw [State.runBlock_eq]
  have hplayed := State.played_paces audio h
  have hreport := (s.played audio).reportBlock_orderly
  exact ⟨hplayed.toKeeps.trans hreport.keeps, hreport.heeds.eased hplayed.toEases⟩

end Sys2Proof.Machine

end

section
/-! PROOFS. Every step keeps what the invariants state: queues, binding and derived state, memory and gains, the tuner, and
the marks of zones without an output. -/

open Sys2Proof Sys2Proof.Machine

namespace Sys2Proof.Machine

theorem Tunes.stands {s t : State} (h : Tunes s t) : Stands s t := h.orderly.stands

theorem Stands.of_next {s t u : State} (h : (.next u : Host.Outcome State Fault Refusal) = .next t) (hu : Stands s u) :
    Stands s t := by
  obtain rfl : u = t := by injection h
  exact hu

/-- Every instruction that goes on keeps the invariants. -/
theorem exec_stands {c : Instr} {s t : State} (h : exec c s = .next t) : Stands s t := by
  cases c
  case powerOn => exact .of_next h s.powerOn_cleared.stands
  case portReset p => exact .of_next h (s.portResets_stands p)
  case responseTransaction p n => exact .of_next h (s.transact_stands p _)
  case commandFrameRefused p bytes => exact .of_next h (s.transact_stands p _)
  case queueHeadTaken p => exact .of_next h (s.takeHead_stands p)
  case chainMemberDiscarded p => exact .of_next h ((s.discardHead_hush p).stands)
  case doneWaitingPost p => exact .of_next h ((s.postWaiting_hush p).stands)
  case wakeCompletion z => exact .of_next h ((s.completeWake_orderly z).stands)
  case relayStageEnd z => exact .of_next h ((s.endRelayStage_orderly z).stands)
  case minuteEvent => exact .of_next h s.minuteEvent_orderly.stands
  case sleepTimerExpiry z => exact .of_next h ((s.sleepExpiry_orderly z).stands)
  case relayOpenExpiry o => exact .of_next h ((s.relayOpenExpires_orderly o).stands)
  case faultLineArrival n => exact .of_next h ((s.fltPinActive_orderly n).stands)
  case faultLineDeparture n => exact .of_next h ((s.fltPinInactive_orderly n).stands)
  case thwArrival => exact .of_next h s.thwPinActive_orderly.stands
  case thwDeparture => exact .of_next h s.thwPinInactive_orderly.stands
  case thtArrival => exact .of_next h s.thtPinActive_orderly.stands
  case thtDeparture => exact .of_next h s.thtPinInactive_orderly.stands
  case signalArrival i d => exact .of_next h ((s.signalArrives_orderly i d).stands)
  case signalLoss i => exact .of_next h ((s.signalLost_orderly i).stands)
  case descriptorChange i d => exact .of_next h ((s.descriptorChanges_orderly i d).stands)
  case lockTimerExpiry i => exact .of_next h ((s.lockTimerEnds_orderly i).stands)
  case frameFoundSearching bytes => exact .of_next h ((s.searchFrame_decodes bytes).orderly.stands)
  case frameTakenLocked bytes => exact .of_next h ((s.takeFrame_decodes bytes).orderly.stands)
  case blockStart audio =>
    change execBlockStart audio s = .next t at h
    unfold execBlockStart at h
    split at h
    · next hin => exact .of_next h ((State.runBlock_orderly audio hin).stands)
    · exact nomatch h
  case checkSequenceEnd => exact .of_next h s.checkSequenceEnds_orderly.stands
  case quickRowTestEnd pass => exact .of_next h ((s.quickRowEnds_orderly pass).stands)
  case fullRowTestEnd pass => exact .of_next h ((s.fullRowEnds_orderly pass).stands)
  case pageCopy =>
    change execPageCopy s = .next t at h
    unfold execPageCopy at h
    split at h
    · next hin => exact .of_next h ((State.pageCopies_orderly hin).stands)
    · exact nomatch h
  case settleExpiry q => exact .of_next h ((s.settleEnds_tunes q.val).stands)
  case seekDwellExpiry q => exact .of_next h ((s.seekDwellEnds_tunes q.val).stands)
  case scanDwellExpiry q => exact .of_next h ((s.scanDwellEnds_tunes q.val).stands)
  case qualityReport q => exact .of_next h ((s.qualityReported_tunes q.val).stands)
  case labelSegment i v a b => exact .of_next h ((s.segmentArrives_tunes i v a b).stands)
  case portResetRelease p => exact .of_next h (s.portReleased_stands p)
  all_goals exact .of_next h (s.arrive_stands _ _ _)

theorem Stands.of_pending {s t : State} {q : List Instr} (h : Stands { s with pending := q } t) : Stands s t where
  marks := h.marks
  dram := h.dram
  order := h.order
  gains := h.gains
  bound := h.bound
  tuned := h.tuned
  queues := h.queues
  heeds := Heeds.after (u := { s with pending := q }) (fun hs => ⟨hs, rfl, rfl⟩) h.heeds

theorem step_stands {s t : State} (h : step s = .next t) : Stands s t := by
  unfold step at h
  split at h
  · cases h; exact .refl s
  · exact (exec_stands h).of_pending

/-- Settles O58. -/
theorem stepsKeepQueuesAndBinding : Obligations.StepsKeepQueuesAndBinding := by
  intro s t h
  have hs := step_stands h
  exact ⟨hs.queues, hs.bound, fun hf => ⟨(hs.heeds hf).followed, (hs.heeds hf).rebound⟩⟩

/-- Settles O59. -/
theorem stepsKeepDramAndGains : Obligations.StepsKeepDramAndGains := by
  intro s t h
  have hs := step_stands h
  exact ⟨hs.dram, hs.gains, fun ho => State.segmentsOk_iff.2 (hs.order (State.segmentsOk_iff.1 ho))⟩

/-- Settles O60: the last two clauses are what R140 to R142 ask of the tuner that a step leaves. -/
theorem stepsKeepTheTunerInOrder : Obligations.StepsKeepTheTunerInOrder := by
  intro s t h
  have hs := step_stands h
  refine ⟨fun ho => State.tunerOk_iff.2 (hs.tuned (State.tunerOk_iff.1 ho)), fun hf => ?_⟩
  obtain ⟨⟨-, -, hparked, hrest, -⟩, -, hun, hpark⟩ := hs.heeds hf
  refine ⟨hun, hpark, fun hl hop => ?_, fun hactive hp => hparked.1 hp hactive⟩
  have hp := hparked.2 fun ha => ha.elim hl fun hne => hne hop
  exact ⟨hp, hrest hp⟩

/-- Settles O23. -/
theorem wakesComplete : Obligations.WakesComplete := by
  refine ⟨fun z s => ⟨fun hw => ?_, exec_wakeCompletion_on, exec_wakeCompletion_standby⟩, fun c s t h => (exec_stands h).marks⟩
  change execWakeCompletion z s = _
  rw [execWakeCompletion, State.completeWake, if_neg hw]

end Sys2Proof.Machine

end

section
/-! PROOFS. The entry into STANDBY and a pending ON (R8, R9, R33): what the freeing of segments and the regrants reach. -/

open Sys2Proof Sys2Proof.Machine

namespace Sys2Proof.Machine

/-! ### What the Output Channel Unit's operations reach -/

/-- A slot whose operation the compaction does not hold keeps its record, but for the mark of its chain. -/
theorem State.complete_slot_ne (s : State) {k j : Fin 8} (st : Status) (r : List Byte) (h : j ≠ k) {b : SlotBody}
    (hb : s.slot j = some b) : ∃ x, (s.complete k st r).slot j = some { b with inChain := x } := by
  cases hk : s.slot k with
  | none => rw [State.complete_none hk, hb]; exact ⟨b.inChain, rfl⟩
  | some c =>
    have ho : (s.offered k c st r).slot j = some b := (State.slot_setSlot_ne s _ h).trans hb
    rw [State.complete_eq hk]
    obtain e | e := (s.offered k c st r).endHold_slot c.port k st j
    · rw [e, ho]; exact ⟨b.inChain, rfl⟩
    · rw [e, ho]
      by_cases hp : b.port = c.port
      · exact ⟨false, by simp [SlotBody.unchained, hp]⟩
      · exact ⟨b.inChain, by simp [SlotBody.unchained, hp]⟩

/-- What an operation on output `p`, or on none, may do to the other outputs: a starved one of a zone that is up may be
GRANTED there with a segment; else it keeps its record, and gets no segment. A slot other than the compaction's keeps its
record, but for the mark of its chain. -/
structure Reaches (p : Option (Fin 13)) (s t : State) : Prop where
  up : ∀ z, (t.zone z).isUp = (s.zone z).isUp
  others : ∀ o, p ≠ some o → (t.out o = s.out o ∧ (s.delay.segment o = none → t.delay.segment o = none)) ∨
    ∃ z r, (s.out o).zone = some z ∧ (s.zone z).isUp = true ∧ t.out o = grantedRec o z r
  compacts : ∀ k, (∀ c, s.delay.compaction = some c → c.slot ≠ k) → ∀ c, t.delay.compaction = some c → c.slot ≠ k
  slots : ∀ k b, (∀ c, s.delay.compaction = some c → c.slot ≠ k) → s.slot k = some b →
    ∃ x, t.slot k = some { b with inChain := x }

theorem Reaches.refl (p : Option (Fin 13)) (s : State) : Reaches p s s :=
  ⟨fun _ => rfl, fun _ _ => .inl ⟨rfl, id⟩, fun _ h => h, fun _ b _ hb => ⟨b.inChain, hb⟩⟩

theorem Reaches.trans {p : Option (Fin 13)} {s t u : State} (h1 : Reaches p s t) (h2 : Reaches p t u) : Reaches p s u where
  up := fun z => (h2.up z).trans (h1.up z)
  others := fun o ho => by
    obtain ⟨ho1, hs1⟩ | ⟨z, r, hz, hup, hg⟩ := h1.others o ho
    · obtain ⟨ho2, hs2⟩ | ⟨z, r, hz, hup, hg⟩ := h2.others o ho
      · exact .inl ⟨ho2.trans ho1, hs2 ∘ hs1⟩
      · exact .inr ⟨z, r, ho1 ▸ hz, h1.up z ▸ hup, hg⟩
    · obtain ⟨ho2, -⟩ | ⟨z', r', hz', hup', hg'⟩ := h2.others o ho
      · exact .inr ⟨z, r, hz, hup, ho2.trans hg⟩
      · obtain rfl : z = z' := by rw [hg] at hz'; exact Option.some.inj hz'
        exact .inr ⟨z, r', hz, hup, hg'⟩
  compacts := fun k h => h2.compacts k (h1.compacts k h)
  slots := fun k b h hb => by
    obtain ⟨x, hx⟩ := h1.slots k b h hb
    obtain ⟨y, hy⟩ := h2.slots k _ (h1.compacts k h) hx
    exact ⟨y, hy⟩

theorem Reaches.foldl {β : Type} {p : Option (Fin 13)} (f : State → β → State) (h : ∀ s b, Reaches p s (f s b)) (l : List β)
    (s : State) : Reaches p s (l.foldl f s) := by
  induction l generalizing s with
  | nil => exact .refl p s
  | cons b l ih => exact (h s b).trans (ih (f s b))

/-- What reaches no output reaches none but `p`. -/
theorem Reaches.at {s t : State} (h : Reaches none s t) (p : Option (Fin 13)) : Reaches p s t :=
  ⟨h.up, fun o _ => h.others o nofun, h.compacts, h.slots⟩

theorem QuietStep.isUp {s t : State} (h : QuietStep s t) (z : Zone) : (t.zone z).isUp = (s.zone z).isUp := by
  rw [h.zones z]; rfl

/-- A quiet operation that changes no other output and gives it no segment. -/
theorem QuietStep.reaches {p : Option (Fin 13)} {s t : State} (h : QuietStep s t)
    (ho : ∀ o, p ≠ some o → t.out o = s.out o ∧ (s.delay.segment o = none → t.delay.segment o = none)) : Reaches p s t where
  up := h.isUp
  others := fun o hp => .inl (ho o hp)
  compacts := fun k hk => by rw [h.compaction]; exact hk
  slots := fun k b _ hb => ⟨b.inChain, by rw [State.slot, h.slots]; exact hb⟩

/-- A change of the memory that gives no output a segment and keeps the compaction. -/
theorem State.setDelay_reaches {s : State} {d : DelayState} (p : Option (Fin 13))
    (hs : ∀ o, s.delay.segment o = none → d.segment o = none) (hc : ∀ c, d.compaction = some c →
      ∃ c', s.delay.compaction = some c' ∧ c'.slot = c.slot) : Reaches p s (s.setDelay d) where
  up := fun _ => rfl
  others := fun o _ => .inl ⟨rfl, hs o⟩
  compacts := fun k hk c h => by
    obtain ⟨c', h', heq⟩ := hc c h
    exact heq ▸ hk c' h'
  slots := fun _ b _ hb => ⟨b.inChain, hb⟩

theorem State.retryOne_reaches (s : State) (q : Fin 13) : Reaches none s (s.retryOne q) := by
  have hquiet := s.retryOne_quiet q
  refine ⟨hquiet.isUp, fun o _ => ?_, fun k hk => by rw [hquiet.compaction]; exact hk,
    fun k b _ hb => ⟨b.inChain, by rw [State.slot, hquiet.slots]; exact hb⟩⟩
  unfold State.retryOne
  split
  · next z r hz hr =>
    split
    · next hup =>
      simp only [Bool.and_eq_true] at hup
      split
      · next s1 hs1 =>
        by_cases ho : o = q
        · subst ho
          exact .inr ⟨z, r, hz, hup.2, by rw [State.raiseChannel_out, State.becomeGranted_out]⟩
        · obtain ⟨d, hd, rfl⟩ := Except.eq_ok_of_map hs1
          refine .inl ⟨by rw [State.granted_out_ne _ _ _ _ ho]; rfl, fun hn => ?_⟩
          rw [State.granted_delay]
          exact (DelayState.request_segment_ne hd ho).trans hn
      · exact .inl ⟨rfl, id⟩
    · exact .inl ⟨rfl, id⟩
  · exact .inl ⟨rfl, id⟩

theorem State.retryPass_reaches (s : State) : Reaches none s s.retryPass := Reaches.foldl _ State.retryOne_reaches _ s

/-- What keeps the outputs and the memory keeps the output's record and its segment. -/
theorem Reaches.complete {s u : State} {k : Fin 8} (h : Reaches none s u)
    (hk : ∀ j, (∀ c, s.delay.compaction = some c → c.slot ≠ j) → j ≠ k) (st : Status) (r : List Byte) :
    Reaches none s (u.complete k st r) := by
  have hframe := (u.complete_frame k st r).1
  have hd : (u.complete k st r).delay = u.delay := hframe .delay (by decide)
  have hout (o : Fin 13) : (u.complete k st r).out o = u.out o := by
    rw [State.out, hframe .outputs (by decide)]
    rfl
  refine ⟨fun z => by rw [u.complete_zone]; exact h.up z, fun o ho => by rw [hd, hout]; exact h.others o ho,
    fun j hj => by rw [hd]; exact h.compacts j hj, fun j b hj hb => ?_⟩
  obtain ⟨x, hx⟩ := h.slots j b hj hb
  obtain ⟨y, hy⟩ := u.complete_slot_ne st r (hk j hj) hx
  exact ⟨y, hy⟩

theorem State.endCompaction_reaches {s : State} {c c' : CompactionRec} (hc : s.delay.compaction = some c')
    (hk : c'.slot = c.slot) : Reaches none s (s.endCompaction c) := by
  have hset : Reaches none s (s.setDelay { s.delay with compaction := none }) :=
    State.setDelay_reaches none (fun _ => id) fun _ h => nomatch h
  exact (hset.trans (State.retryPass_reaches _)).complete (fun j hj e => hj c' hc (hk.trans e.symm)) _ _

theorem DelayState.examine_slot (fuel : Nat) (d : DelayState) (c : CompactionRec) :
    ∃ c', (DelayState.examine fuel d c).1.compaction = some c' ∧ c'.slot = c.slot := by
  induction fuel generalizing c with
  | zero => exact ⟨c, rfl, rfl⟩
  | succ fuel ih =>
    unfold DelayState.examine
    split
    · exact ⟨_, rfl, rfl⟩
    · dsimp only
      split
      · exact ih _
      · split
        · exact ⟨_, rfl, rfl⟩
        · exact ih _

theorem State.continueCompaction_reaches {s : State} {c c' : CompactionRec} (hc : s.delay.compaction = some c')
    (hk : c'.slot = c.slot) : Reaches none s (s.continueCompaction c) := by
  unfold State.continueCompaction
  split
  · exact State.endCompaction_reaches hc hk
  · obtain ⟨c'', hc'', hk''⟩ := DelayState.examine_slot (examineFuel s.delay) s.delay c
    have hnone (o : Fin 13) := DelayState.examine_segment_none (examineFuel s.delay) s.delay c (o := o)
    generalize DelayState.examine (examineFuel s.delay) s.delay c = r at hc'' hnone ⊢
    have hset : Reaches none s (s.setDelay r.1) := State.setDelay_reaches none hnone fun x hx =>
      ⟨c', hc, hk.trans (hk''.symm.trans (congrArg CompactionRec.slot (Option.some.inj (hc''.symm.trans hx))))⟩
    dsimp only
    split
    · refine hset.trans (State.endCompaction_reaches (s := s.setDelay r.1) hc'' ?_)
      rw [hc'']
      rfl
    · exact hset

/-- What follows the removal of a segment (R130, R135). -/
theorem State.freeSegment_goes_on (s : State) (o : Fin 13) :
    Reaches none (s.setDelay (s.delay.removeSegment o)) (s.freeSegment o) := by
  unfold State.freeSegment
  split
  · next h => rw [DelayState.removeSegment_none h]; exact .refl none s
  · dsimp only
    split
    · exact State.retryPass_reaches _
    · next c hc =>
      split
      · exact State.continueCompaction_reaches hc rfl
      · exact .refl none _

theorem State.freeSegment_reaches (s : State) (o : Fin 13) : Reaches none s (s.freeSegment o) :=
  (State.setDelay_reaches (d := s.delay.removeSegment o) none (fun q hq => by
    rw [DelayState.segment_eq_none_iff] at hq ⊢
    exact fun g hg => hq g (List.mem_of_mem_filter hg)) fun c h => ⟨c, h, rfl⟩).trans (s.freeSegment_goes_on o)

/-! ### Regrants (R43 to R49) -/

theorem State.placeInZone_reaches (s : State) (o : Fin 13) (z : Zone) (r : Role) : Reaches (some o) s (s.placeInZone o z r).1 := by
  refine (s.placeInZone_quiet o z r).reaches fun q hq => ?_
  have hne : q ≠ o := fun e => hq (e ▸ rfl)
  cases hd : s.delay.request [(o, s.totalDelay z r)] with
  | ok d =>
    rw [State.placeInZone_ok hd]
    dsimp only
    rw [State.becomeGranted_out_ne _ _ _ hne, State.becomeGranted_delay, State.setDelay_delay]
    exact ⟨rfl, fun hn => (DelayState.request_segment_ne hd hne).trans hn⟩
  | error e =>
    rw [State.placeInZone_error hd]
    dsimp only
    obtain ⟨hdelay, -, -, hout, -⟩ := s.becomeStarved_spec o z r
    exact ⟨hout q hne, by rw [hdelay]; exact id⟩

theorem State.updateOut_reaches (s : State) (o : Fin 13) (r : OutputRec) : Reaches (some o) s (s.updateOut o r) :=
  (s.updateOut_quiet o r).reaches fun _ hq => ⟨s.updateOut_out_ne r fun e => hq (e ▸ rfl), by rw [State.updateOut_delay]; exact id⟩

theorem State.setOut_reaches (s : State) (o : Fin 13) (r : OutputRec) : Reaches (some o) s (s.setOut o r) :=
  (s.setOut_quiet o r).reaches fun _ hq => ⟨State.out_setOut_ne _ _ fun e => hq (e ▸ rfl), id⟩

theorem State.raise_reaches (s : State) (p : Option (Fin 13)) (k : EventKind) (d : EventDetail) : Reaches p s (s.raise k d) := by
  have hframe := (s.raise_frame k d).1
  refine (s.raise_quiet k d).reaches fun q _ => ⟨?_, by rw [hframe .delay (by decide)]; exact id⟩
  rw [State.out, hframe .outputs (by decide)]
  rfl

theorem State.raiseChannel_reaches (s : State) (p : Option (Fin 13)) (o : Fin 13) (n : Byte) :
    Reaches p s (s.raiseChannel o n) := s.raise_reaches ..

theorem State.leaveStarved_reaches (s : State) (p : Option (Fin 13)) (o : Fin 13) : Reaches p s (s.leaveStarved o) :=
  State.setDelay_reaches p (fun _ => id) fun c h => ⟨c, h, rfl⟩

theorem State.directGrant_reaches (s : State) (o : Fin 13) (z : Zone) (r : Role) : Reaches (some o) s (s.directGrant o z r) := by
  unfold State.directGrant
  split
  · exact (s.updateOut_reaches o _).trans (State.raiseChannel_reaches _ _ _ _)
  · dsimp only
    split
    · exact (s.placeInZone_reaches o z r).trans (State.raiseChannel_reaches _ _ _ _)
    · exact s.placeInZone_reaches o z r

theorem State.reallocate_reaches (s : State) (o : Fin 13) (b : Bool) : Reaches (some o) s (s.reallocate o b) := by
  have henter : Reaches (some o) s (s.enterReallocate o b) := by
    unfold State.enterReallocate
    dsimp only
    split
    · exact (s.setOut_reaches o _).trans (State.raiseChannel_reaches _ _ _ _)
    · exact s.setOut_reaches o _
  have hfreed := (henter.trans ((State.freeSegment_reaches _ o).at (some o))).trans (State.setOut_reaches _ o
    { ((s.enterReallocate o b).freeSegment o).out o with segment := false })
  unfold State.reallocate
  dsimp only
  split
  · exact hfreed.trans ((State.updateOut_reaches _ o _).trans (State.raiseChannel_reaches _ _ _ _))
  · refine hfreed.trans ?_
    split
    · split
      · exact ((State.placeInZone_reaches _ o _ _).trans (State.raiseChannel_reaches _ _ _ _)).trans
          (State.raiseChannel_reaches _ _ _ _)
      · exact (State.placeInZone_reaches _ o _ _).trans (State.raiseChannel_reaches _ _ _ _)
    · exact State.placeInZone_reaches _ o _ _

theorem State.regrant_reaches (s : State) (o : Fin 13) : Reaches (some o) s (s.regrant o) := by
  obtain ⟨hfault, hidle, hgranted, hstarved, hhandover⟩ := s.regrant_cases o
  cases hs : (s.out o).state with
  | fault => rw [hfault hs]; exact .refl _ s
  | idle =>
    cases hg : s.grantRule o with
    | none => rw [(hidle hs).1 hg]; exact .refl _ s
    | some g => rw [(hidle hs).2 _ _ hg]; exact s.directGrant_reaches o _ _
  | granted =>
    by_cases hst : s.grantStays o
    · rw [(hgranted hs).1 hst]; exact .refl _ s
    · rw [(hgranted hs).2 hst]; exact (s.updateOut_reaches o _).trans (State.raiseChannel_reaches _ _ _ _)
  | starved =>
    by_cases hst : s.grantStays o
    · rw [(hstarved hs).1 hst]; exact .refl _ s
    · rw [(hstarved hs).2 hst]; exact (s.leaveStarved_reaches _ o).trans (State.reallocate_reaches _ o true)
  | handover =>
    by_cases hown : s.ownGrant o
    · rw [(hhandover hs).1 hown]; exact (s.updateOut_reaches o _).trans (State.raiseChannel_reaches _ _ _ _)
    · rw [(hhandover hs).2 hown]; exact s.setOut_reaches o _

/-! ### A zone that is not up is granted nothing (R42) -/

theorem State.grantRule_up {s : State} {o : Fin 13} {z : Zone} {r : Role} (h : s.grantRule o = some (z, r)) :
    (s.zone z).isUp = true := by
  have hmain {p : Position} (hp : s.mainClaims p = true) : (s.zone .main).isUp = true :=
    (ZoneRec.isUp_iff _).2 ((s.mainClaims_iff p).1 hp).1
  unfold State.grantRule at h
  split at h
  · split at h
    · next hp => cases h; exact hmain hp
    · cases h
  · dsimp only at h
    have hclaimed (m : MainRole) (y : Zone) (x : Role) (hm : (m.position.filter s.mainClaims).map
        (fun p => (Zone.main, Role.pos p)) = some (y, x)) : (s.zone y).isUp = true := by
      obtain ⟨p, hp, heq⟩ := Option.map_eq_some_iff.1 hm
      obtain ⟨-, hc⟩ := Option.filter_eq_some_iff.1 hp
      cases heq
      exact hmain hc
    split at h
    · next x hx =>
      split at h
      · cases h
        exact (Option.filter_eq_some_iff.1 hx).2
      · exact hclaimed _ _ _ h
    · exact hclaimed _ _ _ h

theorem grantedRec_heldBy (o : Fin 13) (y z : Zone) (r : Role) : (grantedRec o y r).heldBy z = true ↔ y = z := by
  simp [grantedRec, OutputRec.heldBy]

theorem starvedRec_heldBy (y z : Zone) (r : Role) : (starvedRec y r).heldBy z = true ↔ y = z := by
  simp [starvedRec, OutputRec.heldBy]

theorem State.placeInZone_ends (s : State) (o : Fin 13) (z : Zone) (r : Role) :
    (s.placeInZone o z r).1.out o = grantedRec o z r ∨
      ((s.placeInZone o z r).1.out o = starvedRec z r ∧ (s.placeInZone o z r).1.delay.segment o = s.delay.segment o) := by
  cases hd : s.delay.request [(o, s.totalDelay z r)] with
  | ok d => rw [State.placeInZone_ok hd]; exact .inl (State.becomeGranted_out _ o z r)
  | error e =>
    rw [State.placeInZone_error hd]
    obtain ⟨hdelay, -, hout, -⟩ := s.becomeStarved_spec o z r
    exact .inr ⟨hout, by dsimp only; rw [hdelay]; rfl⟩

/-- REALLOCATE ends IDLE, or GRANTED or STARVED where the grant rule says. -/
theorem State.reallocate_ends (s : State) (o : Fin 13) (b : Bool) :
    (s.reallocate o b).out o = OutputRec.idle ∨ ∃ y r, s.grantRule o = some (y, r) ∧
      ((s.reallocate o b).out o = grantedRec o y r ∨ (s.reallocate o b).out o = starvedRec y r) := by
  unfold State.reallocate
  dsimp only
  generalize State.setOut _ o _ = u
  split
  · exact .inl (by rw [State.raiseChannel_out, State.becomeIdle, State.updateOut_out_self])
  · next y r hg =>
    refine .inr ⟨y, r, hg, ?_⟩
    have hend := (u.placeInZone_ends o y r).imp_right And.left
    split
    · split
      · rw [State.raiseChannel_out, State.raiseChannel_out]; exact hend
      · rw [State.raiseChannel_out]; exact hend
    · exact hend

/-- A regrant never gives an output to a zone that is not up. -/
theorem State.regrant_shuns {s : State} {z : Zone} (hz : (s.zone z).isUp = false) (o : Fin 13)
    (h : ((s.regrant o).out o).heldBy z = true) : (s.out o).heldBy z = true := by
  have hne {y : Zone} {r : Role} (hg : s.grantRule o = some (y, r)) : y ≠ z := fun e => by
    rw [← e, State.grantRule_up hg] at hz; cases hz
  obtain ⟨hfault, hidle, hgranted, hstarved, hhandover⟩ := s.regrant_cases o
  cases hs : (s.out o).state with
  | fault => rwa [hfault hs] at h
  | idle =>
    cases hg : s.grantRule o with
    | none => rwa [(hidle hs).1 hg] at h
    | some g =>
      rw [(hidle hs).2 _ _ hg] at h
      obtain hend | hend := s.directGrant_ends o g.1 g.2
      · rw [hend, grantedRec_heldBy] at h; exact absurd h (hne hg)
      · rw [hend, starvedRec_heldBy] at h; exact absurd h (hne hg)
  | granted =>
    by_cases hst : s.grantStays o
    · rwa [(hgranted hs).1 hst] at h
    · rw [(hgranted hs).2 hst, State.startHandover, State.raiseChannel_out, State.updateOut_out_self] at h
      exact absurd h (by simp [OutputRec.heldBy])
  | starved =>
    by_cases hst : s.grantStays o
    · rwa [(hstarved hs).1 hst] at h
    · rw [(hstarved hs).2 hst] at h
      obtain hend | ⟨y, r, hg, hend | hend⟩ := (s.leaveStarved o).reallocate_ends o true
      · rw [hend] at h; exact absurd h (by simp [OutputRec.heldBy, OutputRec.idle])
      · rw [hend, grantedRec_heldBy] at h; exact absurd h (hne hg)
      · rw [hend, starvedRec_heldBy] at h; exact absurd h (hne hg)
  | handover =>
    by_cases hown : s.ownGrant o
    · rw [(hhandover hs).1 hown, State.abandonHandover, State.raiseChannel_out, State.updateOut_out_self] at h
      obtain ⟨hsome, hzone, -⟩ := hown
      obtain ⟨g, hg⟩ := Option.ne_none_iff_exists'.1 hsome
      simp only [OutputRec.heldBy, hzone, hg] at h
      exact absurd (by simpa using h) (hne hg)
    · rw [(hhandover hs).2 hown, State.out_setOut_self] at h
      simp [OutputRec.heldBy, hs] at h

theorem Reaches.shuns {p : Option (Fin 13)} {s t : State} (h : Reaches p s t) {z : Zone} (hz : (s.zone z).isUp = false)
    {o : Fin 13} (ho : p ≠ some o) (hheld : (t.out o).heldBy z = true) : (s.out o).heldBy z = true := by
  obtain ⟨hout, -⟩ | ⟨y, r, hy, hup, hg⟩ := h.others o ho
  · rwa [hout] at hheld
  · rw [hg, grantedRec_heldBy] at hheld
    rw [hheld, hz] at hup
    cases hup

/-- An output that a zone which is not up holds keeps its record. -/
theorem Reaches.holds {p : Option (Fin 13)} {s t : State} (h : Reaches p s t) {z : Zone} (hz : (s.zone z).isUp = false)
    {o : Fin 13} (ho : p ≠ some o) (hheld : (s.out o).heldBy z = true) :
    t.out o = s.out o ∧ (s.delay.segment o = none → t.delay.segment o = none) := by
  refine (h.others o ho).resolve_right ?_
  rintro ⟨y, r, hy, hup, -⟩
  have hzone : (s.out o).zone = some z := by
    simp only [OutputRec.heldBy, Bool.and_eq_true, beq_iff_eq] at hheld
    exact hheld.2
  obtain rfl := Option.some.inj (hy.symm.trans hzone)
  rw [hz] at hup
  cases hup

/-! ### The outputs that a zone lets go (R9, R43, R49) -/

/-- An output lies idle, without a segment. -/
def State.rests (s : State) (o : Fin 13) : Prop := s.out o = OutputRec.idle ∧ s.delay.segment o = none

/-- An output has no segment, or is GRANTED in another zone. -/
def State.letGo (s : State) (z : Zone) (o : Fin 13) : Prop :=
  s.delay.segment o = none ∨ ∃ y, y ≠ z ∧ (s.out o).grantedTo y = true

theorem Reaches.rests {p : Option (Fin 13)} {s t : State} (h : Reaches p s t) {o : Fin 13} (ho : p ≠ some o) (hr : s.rests o) :
    t.rests o := by
  obtain ⟨hout, hseg⟩ := hr
  obtain ⟨hsame, hnone⟩ | ⟨y, r, hy, -⟩ := h.others o ho
  · exact ⟨hsame.trans hout, hnone hseg⟩
  · rw [hout] at hy; cases hy

theorem Reaches.letGo {p : Option (Fin 13)} {s t : State} (h : Reaches p s t) {z : Zone} (hz : (s.zone z).isUp = false)
    {o : Fin 13} (ho : p ≠ some o) (hl : s.letGo z o) : t.letGo z o := by
  obtain ⟨hsame, hnone⟩ | ⟨y, r, hy, hup, hg⟩ := h.others o ho
  · exact hl.imp hnone fun ⟨y, hy, hgr⟩ => ⟨y, hy, hsame ▸ hgr⟩
  · exact .inr ⟨y, (fun e => by rw [e, hz] at hup; cases hup), by rw [hg]; simp [grantedRec, OutputRec.grantedTo]⟩

/-- An output at rest is let go after its regrant. -/
theorem State.regrant_letGo {s : State} {z : Zone} (hz : (s.zone z).isUp = false) {o : Fin 13} (h : s.rests o) :
    (s.regrant o).letGo z o := by
  obtain ⟨hout, hseg⟩ := h
  obtain ⟨-, hidle, -⟩ := s.regrant_cases o
  have hst : (s.out o).state = .idle := by rw [hout]; rfl
  cases hg : s.grantRule o with
  | none => rw [(hidle hst).1 hg]; exact .inl hseg
  | some g =>
    have hne : g.1 ≠ z := fun e => by rw [← e, State.grantRule_up hg] at hz; cases hz
    rw [(hidle hst).2 _ _ hg]
    obtain ⟨-, -, hplaced⟩ := s.directGrant_spec o g.1 g.2
    obtain ⟨hok, herror⟩ := hplaced hseg
    cases hd : s.delay.request [(o, s.totalDelay g.1 g.2)] with
    | ok d =>
      obtain ⟨-, hgr, -⟩ := hok d hd
      exact .inr ⟨g.1, hne, by rw [hgr]; simp [grantedRec, OutputRec.grantedTo]⟩
    | error e =>
      obtain ⟨hdelay, -⟩ := herror e hd
      exact .inl (by rw [hdelay]; exact hseg)

/-- Regrants of a list of outputs, each once, for a zone that is not up. -/
theorem State.regrants_letGo {z : Zone} {l : List (Fin 13)} (hl : l.Nodup) {s : State} (hz : (s.zone z).isUp = false)
    (hnone : ∀ o, (s.out o).heldBy z = false) {o : Fin 13} :
    (∀ q, ((l.foldl State.regrant s).out q).heldBy z = false) ∧
    (o ∉ l → s.letGo z o → (l.foldl State.regrant s).letGo z o) ∧
    (o ∈ l → s.rests o → (l.foldl State.regrant s).letGo z o) := by
  induction l generalizing s with
  | nil => exact ⟨hnone, fun _ h => h, fun h => nomatch h⟩
  | cons p l ih =>
    obtain ⟨hp, hl⟩ := List.nodup_cons.1 hl
    have hreach := s.regrant_reaches p
    have hz' : ((s.regrant p).zone z).isUp = false := (hreach.up z).trans hz
    have hnone' (q : Fin 13) : ((s.regrant p).out q).heldBy z = false := by
      rw [Bool.eq_false_iff]
      intro h
      refine Bool.eq_false_iff.1 (hnone q) ?_
      by_cases hq : p = q
      · subst hq; exact State.regrant_shuns hz p h
      · exact hreach.shuns hz (fun e => hq (Option.some.inj e)) h
    obtain ⟨h1, h2, h3⟩ := ih hl hz' hnone'
    refine ⟨h1, fun ho hlet => ?_, fun ho hrest => ?_⟩
    · obtain ⟨hne, ho⟩ := not_or.1 fun h => ho (List.mem_cons.2 h)
      exact h2 ho (hreach.letGo hz (fun e => hne (Option.some.inj e).symm) hlet)
    · by_cases hne : o = p
      · subst hne
        exact h2 hp (State.regrant_letGo hz hrest)
      · exact h3 ((List.mem_cons.1 ho).resolve_left hne) (hreach.rests (fun e => hne (Option.some.inj e).symm) hrest)

theorem State.freeOne_reaches (z : Zone) (s : State) (o : Fin 13) :
    Reaches none s (if (s.out o).heldBy z then s.freeSegment o else s) := by
  split
  · exact s.freeSegment_reaches o
  · exact .refl none s

theorem State.freeZone_reaches (s : State) (z : Zone) : Reaches none s (s.freeZone z) :=
  Reaches.foldl _ (State.freeOne_reaches z) _ s

theorem State.freeSegment_none {s : State} {z : Zone} (hz : (s.zone z).isUp = false) {o : Fin 13}
    (ho : (s.out o).heldBy z = true) : (s.freeSegment o).delay.segment o = none :=
  ((s.freeSegment_goes_on o).holds (o := o) hz nofun ho).2 (s.delay.removeSegment_segment_self o)

/-- The segments of the outputs that a zone holds are freed. -/
theorem State.freeZone_frees {s : State} {z : Zone} (hz : (s.zone z).isUp = false) {o : Fin 13}
    (ho : (s.out o).heldBy z = true) : (s.freeZone z).delay.segment o = none := by
  have hfold (l : List (Fin 13)) (u : State) (hu : (u.zone z).isUp = false) (hheld : (u.out o).heldBy z = true)
      (h : u.delay.segment o = none ∨ o ∈ l) :
      (l.foldl (fun s o => if (s.out o).heldBy z then s.freeSegment o else s) u).delay.segment o = none := by
    induction l generalizing u with
    | nil => exact h.resolve_right fun h => nomatch h
    | cons p l ih =>
      have hreach := State.freeOne_reaches z u p
      obtain ⟨hsame, hnone⟩ := hreach.holds hu (fun h => nomatch h) hheld
      refine ih _ ((hreach.up z).trans hu) (by rw [hsame]; exact hheld) ?_
      obtain h | h := h
      · exact .inl (hnone h)
      · obtain rfl | h := List.mem_cons.1 h
        · exact .inl (by dsimp only; rw [if_pos hheld]; exact State.freeSegment_none hu hheld)
        · exact .inr h
  exact hfold _ s hz ho (.inr (mem_allOutputs o))

/-- One output is released where the zone holds it. -/
def State.releaseOne (z : Zone) (s : State) (o : Fin 13) : State :=
  if (s.out o).heldBy z then ((s.leaveStarved o).becomeIdle o).raiseChannel o channelHandover else s

theorem State.releaseZone_eq (s : State) (z : Zone) : s.releaseZone z = allOutputs.foldl (State.releaseOne z) s := rfl

theorem State.releaseOne_reaches (z : Zone) (s : State) (o : Fin 13) : Reaches (some o) s (s.releaseOne z o) := by
  unfold State.releaseOne
  split
  · exact ((s.leaveStarved_reaches _ o).trans (State.updateOut_reaches _ o _)).trans (State.raiseChannel_reaches _ _ _ _)
  · exact .refl _ s

theorem State.releaseOne_self {z : Zone} {s : State} {o : Fin 13} (h : (s.out o).heldBy z = true) :
    (s.releaseOne z o).out o = OutputRec.idle ∧ (s.releaseOne z o).delay.segment o = s.delay.segment o := by
  rw [State.releaseOne, if_pos h]
  refine ⟨by rw [State.raiseChannel_out, State.becomeIdle, State.updateOut_out_self], ?_⟩
  rw [State.raiseChannel_delay, State.becomeIdle, State.updateOut_delay]
  rfl

/-- The outputs of a zone that is not up are released: none is held by it, and one without a segment lies at rest. -/
theorem State.releases_release {z : Zone} {l : List (Fin 13)} (hl : l.Nodup) {s : State} (hz : (s.zone z).isUp = false) :
    (∀ o, o ∈ l ∨ (s.out o).heldBy z = false → ((l.foldl (State.releaseOne z) s).out o).heldBy z = false) ∧
    (∀ o, o ∉ l → s.rests o → (l.foldl (State.releaseOne z) s).rests o) ∧
    (∀ o, o ∈ l → (s.out o).heldBy z = true → s.delay.segment o = none → (l.foldl (State.releaseOne z) s).rests o) := by
  induction l generalizing s with
  | nil => exact ⟨fun o h => h.resolve_left (fun h => nomatch h), fun _ _ h => h, fun _ h => nomatch h⟩
  | cons p l ih =>
    obtain ⟨hp, hl⟩ := List.nodup_cons.1 hl
    have hreach := s.releaseOne_reaches z p
    obtain ⟨h1, h2, h3⟩ := ih hl (s := s.releaseOne z p) ((hreach.up z).trans hz)
    have hself : ((s.releaseOne z p).out p).heldBy z = false := by
      cases h : (s.out p).heldBy z with
      | true => rw [(State.releaseOne_self h).1]; rfl
      | false => rw [State.releaseOne, if_neg (by rw [h]; exact Bool.false_ne_true)]; exact h
    refine ⟨fun o ho => h1 o ?_, fun o ho hr => ?_, fun o ho hheld hseg => ?_⟩
    · by_cases hne : o = p
      · exact .inr (hne ▸ hself)
      · refine ho.imp (fun ho => (List.mem_cons.1 ho).resolve_left hne) fun h => ?_
        rw [Bool.eq_false_iff] at h ⊢
        exact fun hh => h (hreach.shuns hz (fun e => hne (Option.some.inj e).symm) hh)
    · obtain ⟨hne, ho⟩ := not_or.1 fun h => ho (List.mem_cons.2 h)
      exact h2 o ho (hreach.rests (fun e => hne (Option.some.inj e).symm) hr)
    · by_cases hne : o = p
      · subst hne
        obtain ⟨hidle, hsame⟩ := State.releaseOne_self hheld
        exact h2 o hp ⟨hidle, hsame.trans hseg⟩
      · obtain ⟨hsame, hnone⟩ := hreach.holds hz (fun e => hne (Option.some.inj e).symm) hheld
        exact h3 o ((List.mem_cons.1 ho).resolve_left hne) (by rw [hsame]; exact hheld) (hnone hseg)

/-- What freeing, releasing and regranting make of the outputs of a zone that is not up. -/
theorem State.lets_go {s : State} {z : Zone} (hz : (s.zone z).isUp = false) :
    let t := ((s.freeZone z).releaseZone z).regrantAll
    (∀ o, (t.out o).heldBy z = false) ∧ ∀ o, (s.out o).heldBy z = true → t.letGo z o := by
  have hfree := s.freeZone_reaches z
  have hz1 := (hfree.up z).trans hz
  obtain ⟨hnone, -, hrests⟩ := State.releases_release (z := z) (l := allOutputs) (by decide) hz1
  have hz2 : (((s.freeZone z).releaseZone z).zone z).isUp = false := ((State.releaseZone_quiet _ z).isUp z).trans hz1
  dsimp only
  refine ⟨?_, fun o ho => ?_⟩
  · exact (State.regrants_letGo (o := 0) (by decide) hz2 fun o => hnone o (.inl (mem_allOutputs o))).1
  · obtain ⟨hsame, -⟩ := hfree.holds (o := o) hz nofun ho
    have hr := hrests o (mem_allOutputs o) (by rw [hsame]; exact ho) (State.freeZone_frees hz ho)
    exact (State.regrants_letGo (by decide) hz2 fun o => hnone o (.inl (mem_allOutputs o))).2.2 (mem_allOutputs o) hr

end Sys2Proof.Machine

end

section
/-! PROOFS. The entry into STANDBY and the pending ON (R8, R9, R33; O24). -/

open Sys2Proof Sys2Proof.Machine

namespace Sys2Proof.Machine

/-! ### The slots that the compaction does not hold -/

/-- A slot other than the compaction's keeps its record, but for the mark of its chain, and is not the compaction's after. -/
def Spares (s t : State) : Prop :=
  (∀ k, (∀ c, s.delay.compaction = some c → c.slot ≠ k) → ∀ c, t.delay.compaction = some c → c.slot ≠ k) ∧
  ∀ k b, (∀ c, s.delay.compaction = some c → c.slot ≠ k) → s.slot k = some b → ∃ x, t.slot k = some { b with inChain := x }

theorem Reaches.spares {p : Option (Fin 13)} {s t : State} (h : Reaches p s t) : Spares s t := ⟨h.compacts, h.slots⟩

theorem Spares.trans {s t u : State} (h1 : Spares s t) (h2 : Spares t u) : Spares s u := by
  refine ⟨fun k h => h2.1 k (h1.1 k h), fun k b h hb => ?_⟩
  obtain ⟨x, hx⟩ := h1.2 k b h hb
  obtain ⟨y, hy⟩ := h2.2 k _ (h1.1 k h) hx
  exact ⟨y, hy⟩

theorem Spares.foldl {β : Type} (f : State → β → State) (h : ∀ s b, Spares s (f s b)) (l : List β) (s : State) :
    Spares s (l.foldl f s) := by
  induction l generalizing s with
  | nil => exact (Reaches.refl none s).spares
  | cons b l ih => exact (h s b).trans (ih (f s b))

theorem State.releaseZone_spares (s : State) (z : Zone) : Spares s (s.releaseZone z) :=
  Spares.foldl _ (fun s o => (s.releaseOne_reaches z o).spares) _ s

theorem State.regrantAll_spares (s : State) : Spares s s.regrantAll :=
  Spares.foldl _ (fun s o => (s.regrant_reaches o).spares) _ s

/-! ### The override stack is discarded (R33) -/

/-- OVERRIDE CANCELLED is pending on a port with a zone's bit (R33). -/
def cancelledOn (t : State) (p : Port) (z : Zone) : Prop :=
  ((t.port p).events.kind .override).pending = true ∧
  ((t.port p).events.kind .override).detail.merge { EventDetail.zero with zones := z.bit, reasons := 2 } =
    ((t.port p).events.kind .override).detail

theorem cancelledOn.mono {s t : State} {p : Port} {z : Zone} (h : cancelledOn s p z) (hg : eventsGrow s t) : cancelledOn t p z :=
  ⟨(hg p .override).1 h.1, (hg p .override).2 _ h.2⟩

theorem or_and_right_self {n : Nat} (a b : BitVec n) : (a ||| b) &&& b = b := by
  ext i
  simp only [BitVec.getElem_and, BitVec.getElem_or]
  cases b[i] <;> simp

theorem cancelledOn.bits {t : State} {p : Port} {z : Zone} (h : cancelledOn t p z) :
    ((t.port p).events.kind .override).pending = true ∧
    ((t.port p).events.kind .override).detail.reasons &&& 2 = 2 ∧
    ((t.port p).events.kind .override).detail.zones &&& z.bit = z.bit := by
  obtain ⟨h1, h2⟩ := h
  generalize ((t.port p).events.kind .override).detail = d at h2
  have hreasons : d.reasons ||| 2 = d.reasons := congrArg EventDetail.reasons h2
  have hzones : d.zones ||| z.bit = d.zones := congrArg EventDetail.zones h2
  exact ⟨h1, by rw [← hreasons, or_and_right_self], by rw [← hzones, or_and_right_self]⟩

theorem State.raiseCancelled_cancelled (s : State) (p : Port) (z : Zone) : cancelledOn (s.raiseCancelled p z) p z := by
  rw [State.raiseCancelled, State.raiseOn, cancelledOn, State.port_setPort_self]
  refine ⟨EventState.raise_pending _ .override _ (by decide), ?_⟩
  have hd := EventState.raise_detail (s.port p).events .override { EventDetail.zero with zones := z.bit, reasons := 2 } (by decide)
  refine (congrArg (EventDetail.merge · _) hd).trans (Eq.trans ?_ hd.symm)
  rw [EventDetail.merge_assoc, EventDetail.merge_self]

/-- The entries of a stack are cancelled on the ports that pushed them, and nothing else of the zones moves. -/
structure Cancels (z : Zone) (s t : State) : Prop where
  zones : t.zones = s.zones.set z { s.zone z with stack := [] }
  raises : Raises s t
  changes : onlyChanges [.zones, .ports] s t
  cancelled : ∀ e, e ∈ (s.zone z).stack → cancelledOn t e.port z

theorem State.cancelEntries_spec (z : Zone) (l : List OverrideEntry) (s : State) :
    let t := l.foldl (fun s e => s.raiseCancelled e.port z) s
    onlyChanges [.ports] s t ∧ Raises s t ∧ ∀ e, e ∈ l → cancelledOn t e.port z := by
  induction l generalizing s with
  | nil => exact ⟨onlyChanges_refl _ s, .refl s, fun _ h => nomatch h⟩
  | cons e l ih =>
    obtain ⟨h1, h2, h3⟩ := ih (s.raiseCancelled e.port z)
    refine ⟨((s.raiseCancelled_frame e.port z).1).trans h1, (s.raiseOn_raises _ _ _).trans h2, fun x hx => ?_⟩
    obtain rfl | hx := List.mem_cons.1 hx
    · exact (s.raiseCancelled_cancelled x.port z).mono h2.2
    · exact h3 x hx

theorem State.cancelStack_cancels (s : State) (z : Zone) : Cancels z s (s.cancelStack z) := by
  obtain ⟨h1, h2, h3⟩ := State.cancelEntries_spec z (s.zone z).stack s
  have hzones := h1 .zones (by decide)
  refine ⟨?_, h2, (s.cancelStack_frame z).1, h3⟩
  exact congrArg (fun v => PerZone.set v z { s.zone z with stack := [] }) hzones

theorem Cancels.zone {z : Zone} {s t : State} (h : Cancels z s t) :
    t.zone z = { s.zone z with stack := [] } ∧ ∀ y, y ≠ z → t.zone y = s.zone y := by
  have hzone (y : Zone) : t.zone y = (s.setZone z { s.zone z with stack := [] }).zone y := by
    rw [State.zone, h.zones]; rfl
  exact ⟨(hzone z).trans (State.zone_setZone_self ..), fun y hy => (hzone y).trans (State.zone_setZone_ne _ _ hy)⟩

/-! ### The entry into STANDBY (R9) -/

/-- A zone has entered STANDBY, its stack and its outputs being as they were. -/
def State.standsDown (s : State) (z : Zone) : State :=
  (s.setZone z { s.zone z with quietStage := none, relayTimer := none, opSlot := none }).setPower z .standby

/-- A zone has entered STANDBY with an empty stack, its outputs being as they were. -/
def State.emptied (s : State) (z : Zone) : State := ((s.standsDown z).cancelStack z).dropReference z

theorem State.toStandby_eq (s : State) (z : Zone) :
    s.toStandby z = (s.shutDown z).reportZones.completeOpt (s.zone z).opSlot .done [] := rfl

theorem State.shutDown_eq (s : State) (z : Zone) :
    s.shutDown z = (((s.emptied z).freeZone z).releaseZone z).regrantAll := rfl

theorem State.standsDown_edits (s : State) (z : Zone) :
    Edits z (s.zone z).shutDown s (s.standsDown z) ∧ zoneReported (s.standsDown z) z := by
  have h1 : Edits z { s.zone z with quietStage := none, relayTimer := none, opSlot := none } s
      (s.setZone z { s.zone z with quietStage := none, relayTimer := none, opSlot := none }) := State.setZone_edits rfl rfl rfl
  obtain ⟨h2, h3, -⟩ :=
    (s.setZone z { s.zone z with quietStage := none, relayTimer := none, opSlot := none }).setPower_edits z .standby
  rw [State.zone_setZone_self] at h2
  exact ⟨h1.trans h2, h3⟩

theorem State.standsDown_raises (s : State) (z : Zone) :
    onlyChanges [.zones, .ports] s (s.standsDown z) ∧ Raises s (s.standsDown z) :=
  ⟨((State.setZone_frame s z _).1.mono).trans (State.setPower_frame _ z .standby).1,
    (s.setZone_raises z _).trans (State.setPower_raises _ z .standby)⟩

/-- The record of a zone in STANDBY, its stack empty. -/
def ZoneRec.emptied (r : ZoneRec) : ZoneRec := { r.shutDown with stack := [] }

/-- What a zone's entry into STANDBY leaves before its outputs are freed. -/
structure Empties (z : Zone) (s t : State) : Prop where
  self : (s.zone z).emptied.sameButDerived (t.zone z)
  others : ∀ y, y ≠ z → (s.zone y).sameButDerived (t.zone y)
  reported : zoneReported t z
  cancelled : ∀ e, e ∈ (s.zone z).stack → cancelledOn t e.port z
  tracks : Tracks s t
  raises : Raises s t
  dref : z = .main → t.delay.dref = none
  delay : t.delay = { s.delay with dref := t.delay.dref }
  changes : onlyChanges [.zones, .delay, .ports] s t

theorem State.dropReference_spec (s : State) (z : Zone) :
    (z = .main → (s.dropReference z).delay.dref = none) ∧
    (s.dropReference z).delay = { s.delay with dref := (s.dropReference z).delay.dref } ∧
    onlyChanges [.delay] s (s.dropReference z) := by
  refine ⟨fun h => by subst h; rfl, ?_, (s.dropReference_frame z).1⟩
  cases z <;> rfl

theorem State.emptied_empties (s : State) (z : Zone) : Empties z s (s.emptied z) := by
  obtain ⟨hedits, hreported⟩ := s.standsDown_edits z
  obtain ⟨hframe, hraises⟩ := s.standsDown_raises z
  have hstack : ((s.standsDown z).zone z).stack = (s.zone z).stack := by
    have h := hedits.self
    rw [ZoneRec.sameButDerived] at h
    rw [h]; rfl
  have hcancels := (s.standsDown z).cancelStack_cancels z
  have hcalm := ((s.standsDown z).cancelStack_calm z).trans (State.dropReference_calm _ z)
  obtain ⟨hdref, hdelay, hdrop⟩ := ((s.standsDown z).cancelStack z).dropReference_spec z
  rw [State.emptied]
  generalize s.standsDown z = u at hedits hreported hframe hraises hstack hcancels hcalm hdref hdelay hdrop ⊢
  generalize u.cancelStack z = v at hcancels hcalm hdref hdelay hdrop ⊢
  obtain ⟨hself, hothers⟩ := hcancels.zone
  generalize v.dropReference z = t at hcalm hdref hdelay hdrop ⊢
  have hports : t.ports = v.ports := hdrop .ports (by decide)
  have hlast : Raises v t := .of_ports_eq hports
  have hvdelay : v.delay = s.delay := (hcancels.changes .delay (by decide)).trans (hframe .delay (by decide))
  refine ⟨?_, fun y hy => ?_, reported.mono hreported (hcancels.raises.2.trans hlast.2), fun e he => ?_,
    hedits.tracks.trans hcalm.toSettled.tracks, (hraises.trans hcancels.raises).trans hlast, hdref, ?_, ?_⟩
  · rw [hdrop.zone (by decide), hself]
    have h := hedits.self
    rw [ZoneRec.sameButDerived] at h ⊢
    rw [h]; rfl
  · rw [hdrop.zone (by decide), hothers y hy]
    exact hedits.others y hy
  · exact (hcancels.cancelled e (hstack ▸ he)).mono hlast.2
  · rw [← hvdelay]; exact hdelay
  · exact ((hframe.mono.trans hcancels.changes.mono).trans hdrop.mono : onlyChanges [.zones, .delay, .ports] s t)

/-- What a zone's entry into STANDBY leaves before its operation ends. -/
structure StandsBy (z : Zone) (s t : State) : Prop where
  self : (s.zone z).emptied.sameButDerived (t.zone z)
  others : ∀ y, y ≠ z → (s.zone y).sameButDerived (t.zone y)
  reported : zoneReported t z
  cancelled : ∀ e, e ∈ (s.zone z).stack → cancelledOn t e.port z
  unheld : ∀ o, (t.out o).heldBy z = false
  freed : ∀ o, (s.out o).heldBy z = true → t.letGo z o
  follows : followsOn s t
  dref : z = .main → t.delay.dref = none
  meets : s.delay.compaction = none → Meets s t
  slots : ∀ k b, s.slot k = some b → (∀ c, s.delay.compaction = some c → c.slot ≠ k) →
    ∃ x, t.slot k = some { b with inChain := x }
  changes : onlyChanges [.zones, .outputs, .delay, .decoder, .tuner, .slots, .ports] s t

theorem State.shutDown_standsBy (s : State) (z : Zone) : StandsBy z s (s.shutDown z).reportZones := by
  have hempties := s.emptied_empties z
  rw [State.shutDown_eq]
  generalize s.emptied z = u at hempties ⊢
  have hout (o : Fin 13) : u.out o = s.out o := by
    rw [State.out, hempties.changes .outputs (by decide)]; rfl
  have hslot (k : Fin 8) : u.slot k = s.slot k := by
    rw [State.slot, hempties.changes .slots (by decide)]; rfl
  have hcomp : u.delay.compaction = s.delay.compaction := by rw [hempties.delay]
  have hdown : (u.zone z).isUp = false := by
    have h := hempties.self
    rw [ZoneRec.sameButDerived] at h
    rw [h]; rfl
  obtain ⟨hunheld, hfreed⟩ := State.lets_go hdown
  have hfree : FreeStep u ((u.freeZone z).releaseZone z).regrantAll :=
    ((u.freeZone_free z).trans (State.releaseZone_quiet _ z).free).trans (State.regrantAll_free _)
  have hreaches : ∀ k b, u.slot k = some b → (∀ c, u.delay.compaction = some c → c.slot ≠ k) →
      ∃ x, (((u.freeZone z).releaseZone z).regrantAll).slot k = some { b with inChain := x } := by
    intro k b hb hk
    exact (((u.freeZone_reaches z).spares.trans (State.releaseZone_spares _ z)).trans (State.regrantAll_spares _)).2 k b hk hb
  generalize ((u.freeZone z).releaseZone z).regrantAll = v at hunheld hfreed hfree hreaches ⊢
  have hstep := hfree.1
  have hraises := v.reportZones_raises
  have hstatus (y : Zone) := v.reportZones_sameButStatus y
  have hframe : onlyChanges reportParts v v.reportZones := v.reportZones_frame.1
  have hfollows : followsOn s v.reportZones := followsOn_reportZones (hempties.tracks.trans hstep.settled.tracks)
  generalize v.reportZones = t at hraises hstatus hframe hfollows ⊢
  have htout (o : Fin 13) : t.out o = v.out o := by
    rw [State.out, hframe .outputs (by decide)]; rfl
  have htdelay : t.delay = v.delay := hframe .delay (by decide)
  have htslots : t.slots = v.slots := hframe .slots (by decide)
  have hgrown := hstep.grown.trans hraises.2
  refine ⟨(hempties.self.trans (hstep.sameButDerived z)).trans (hstatus z).derived, fun y hy => ?_,
    hempties.reported.mono hgrown, fun e he => (hempties.cancelled e he).mono hgrown, fun o => ?_, fun o ho => ?_, hfollows,
    fun hz => ?_, fun hc => ?_, fun k b hb hk => ?_, ?_⟩
  · exact ((hempties.others y hy).trans (hstep.sameButDerived y)).trans (hstatus y).derived
  · rw [htout]; exact hunheld o
  · rw [State.letGo, htout, htdelay]; exact hfreed o (hout o ▸ ho)
  · obtain ⟨-, -, -, hdref⟩ := hstep.delay
    rw [htdelay, hdref]; exact hempties.dref hz
  · have hquiet := hfree.2 (hcomp.trans hc)
    exact ((hempties.raises.meets (hempties.changes .slots (by decide))).trans ⟨hquiet.slots, hquiet.raised⟩).trans
      (hraises.meets htslots)
  · rw [State.slot, htslots]
    exact hreaches k b (by rw [hslot]; exact hb) (by rw [hcomp]; exact hk)
  · exact ((hempties.changes.mono.trans hstep.frame.1.mono).trans hframe.mono :
      onlyChanges [.zones, .outputs, .delay, .decoder, .tuner, .slots, .ports] s t)

/-! ### The pending ON (R9) -/

/-- The zone's pending power command has been taken. -/
def State.pendingTaken (s : State) (z : Zone) : State :=
  (s.setZone z { s.zone z with pendingPower := none, pendingSlot := none }).raiseZone z

theorem State.pendingTaken_raises (s : State) (z : Zone) :
    onlyChanges [.zones, .ports] s (s.pendingTaken z) ∧ Raises s (s.pendingTaken z) :=
  ⟨((State.setZone_frame s z _).1.mono).trans (State.raiseZone_frame _ z).1.mono,
    (s.setZone_raises z _).trans (State.raiseZone_raises _ z)⟩

theorem State.pendingTaken_zone (s : State) (z : Zone) :
    (s.pendingTaken z).zone z = { s.zone z with pendingPower := none, pendingSlot := none } ∧
    ∀ y, y ≠ z → (s.pendingTaken z).zone y = s.zone y := by
  have hzone (y : Zone) : (s.pendingTaken z).zone y =
      (s.setZone z { s.zone z with pendingPower := none, pendingSlot := none }).zone y := by
    rw [State.pendingTaken, State.zone, (State.raiseZone_frame _ z).1 .zones (by decide)]
    rfl
  exact ⟨(hzone z).trans (State.zone_setZone_self ..), fun y hy => (hzone y).trans (State.zone_setZone_ne _ _ hy)⟩

/-- A wake request reads the power states, the lip-sync settings, the outputs, the speakers and the memory alone. -/
theorem State.wakeRequest_congr {s t : State} (z : Zone) (hpower : ∀ y, (t.zone y).power = (s.zone y).power)
    (hlip : ∀ y, (t.zone y).lipSync = (s.zone y).lipSync) (ho : t.outputs = s.outputs) (hm : t.mix = s.mix)
    (hd : t.delay = s.delay) : t.wakeRequest z = (s.wakeRequest z).map (fun v => t.setDelay v.delay) := by
  have hspeaker (p : Position) : t.speaker p = s.speaker p := by rw [State.speaker, hm]; rfl
  have hgrant (y : Zone) (o : Fin 13) : (t.asWaking y).grantRule o = (s.asWaking y).grantRule o := by
    refine State.grantRule_congr (s := s.asWaking y) (t := t.asWaking y) (fun x => ?_) (congrArg OutputUnit.assign ho) hspeaker o
    by_cases hx : x = y
    · subst hx; rw [State.asWaking, State.asWaking, State.zone_setZone_self, State.zone_setZone_self]
    · rw [State.asWaking, State.asWaking, State.zone_setZone_ne _ _ hx, State.zone_setZone_ne _ _ hx, hpower]
  have hout (o : Fin 13) : t.out o = s.out o := by rw [State.out, ho]; rfl
  have hdirect : t.directOutputs z = s.directOutputs z := by simp only [State.directOutputs, hout, hgrant]
  have href : t.wakeReference = s.wakeReference := by simp only [State.wakeReference, hout, hgrant, hspeaker]
  have hdelay : (t.withReference z).delay = (s.withReference z).delay := by
    cases z
    · rw [State.withReference, State.withReference, hd, href]; rfl
    · exact hd
    · exact hd
  have htotal (r : Role) : (t.withReference z).totalDelay z r = (s.withReference z).totalDelay z r := by
    refine State.totalDelay_congr (fun y => ?_) (by rw [hdelay]) (fun p => ?_) z r
    · cases z <;> exact hlip y
    · cases z <;> exact hspeaker p
  rw [State.wakeRequest, State.wakeRequest, hdirect, hdelay]
  simp only [htotal]
  generalize (s.withReference z).delay.request _ = r
  cases r with
  | error e => rfl
  | ok d => cases z <;> rfl

theorem State.pendingTaken_wakeRequest (u : State) (z : Zone) :
    (u.pendingTaken z).wakeRequest z = (u.wakeRequest z).map (fun v => (u.pendingTaken z).setDelay v.delay) := by
  obtain ⟨hframe, -⟩ := u.pendingTaken_raises z
  obtain ⟨hself, hothers⟩ := u.pendingTaken_zone z
  have hzone (y : Zone) : ((u.pendingTaken z).zone y).power = (u.zone y).power ∧
      ((u.pendingTaken z).zone y).lipSync = (u.zone y).lipSync := by
    by_cases hy : y = z
    · subst hy; rw [hself]; exact ⟨rfl, rfl⟩
    · rw [hothers y hy]; exact ⟨rfl, rfl⟩
  exact State.wakeRequest_congr z (fun y => (hzone y).1) (fun y => (hzone y).2) (hframe .outputs (by decide))
    (hframe .mix (by decide)) (hframe .delay (by decide))

/-- What a pending ON that is refused leaves. -/
theorem State.runPendingOn_fails {u : State} {z : Zone} {e : Status}
    (heq : u.runPendingOn z = (u.pendingTaken z).completeOpt (u.zone z).pendingSlot .failed [e.code]) :
    let t := u.runPendingOn z
    t.zone z = { u.zone z with pendingPower := none, pendingSlot := none } ∧ zoneReported t z ∧
      (∀ y, y ≠ z → t.zone y = u.zone y) ∧ slotEnded u t (u.zone z).pendingSlot .failed [e.code] ∧
      onlyChanges [.zones, .slots, .ports] u t := by
  obtain ⟨hframe, hraises⟩ := u.pendingTaken_raises z
  obtain ⟨hself, hothers⟩ := u.pendingTaken_zone z
  have hreported : zoneReported (u.pendingTaken z) z := State.raiseZone_reported _ z
  rw [heq]
  refine ⟨by rw [State.completeOpt_zone]; exact hself, reported.mono hreported (State.completeOpt_grown _ _ _ _),
    fun y hy => by rw [State.completeOpt_zone]; exact hothers y hy,
    slotEnded_of_meets (Meets.completeOpt (hraises.meets (hframe .slots (by decide))) _ _ _), ?_⟩
  exact hframe.mono.trans ((State.completeOpt_frame _ _ _ _).1.mono)

theorem State.runPendingOn_refused {u : State} {z : Zone} {e : Status} (hp : (u.zone z).pendingPower = some .on)
    (h : u.wakeTests = .error e ∨ (u.wakeTests = .ok () ∧ u.wakeRequest z = .error e)) :
    u.runPendingOn z = (u.pendingTaken z).completeOpt (u.zone z).pendingSlot .failed [e.code] := by
  rw [State.runPendingOn, if_pos hp]
  obtain h | ⟨h, hr⟩ := h
  · rw [h]; rfl
  · have hreq : (u.pendingTaken z).wakeRequest z = .error e := by
      rw [u.pendingTaken_wakeRequest, hr]; rfl
    rw [State.pendingTaken] at hreq ⊢
    rw [h]
    dsimp only
    rw [hreq]

theorem State.runPendingOn_granted {u v : State} {z : Zone} (hp : (u.zone z).pendingPower = some .on)
    (h : u.wakeTests = .ok ()) (hr : u.wakeRequest z = .ok v) :
    u.runPendingOn z = ((u.pendingTaken z).setDelay v.delay).enterWaking z (u.zone z).pendingSlot := by
  have hreq : (u.pendingTaken z).wakeRequest z = .ok ((u.pendingTaken z).setDelay v.delay) := by
    rw [u.pendingTaken_wakeRequest, hr]; rfl
  rw [State.runPendingOn, if_pos hp]
  rw [State.pendingTaken] at hreq ⊢
  rw [h]
  dsimp only
  rw [hreq]

/-- The record of a zone that wakes on its pending ON. -/
def ZoneRec.wokenAgain (r : ZoneRec) : ZoneRec :=
  { r with
    power := .waking, opSlot := r.pendingSlot, wakeTimer := some 120, pendingPower := none, pendingSlot := none }

/-- What a pending ON that is granted leaves. -/
structure WakesAgain (z : Zone) (u t : State) : Prop where
  self : (u.zone z).wokenAgain.sameButDerived (t.zone z)
  reported : zoneReported t z
  slots : t.slots = u.slots
  others : ∀ y, y ≠ z → (u.zone y).sameButDerived (t.zone y)
  follows : followsOn u t
  changes : onlyChanges [.zones, .outputs, .delay, .decoder, .tuner, .ports] u t

theorem State.runPendingOn_wakes {u v : State} {z : Zone} (hp : (u.zone z).pendingPower = some .on)
    (h : u.wakeTests = .ok ()) (hr : u.wakeRequest z = .ok v) : WakesAgain z u (u.runPendingOn z) := by
  rw [State.runPendingOn_granted hp h hr]
  obtain ⟨-, -, hcompaction⟩ := State.wakeTests_ok h
  obtain ⟨hvc, -⟩ := State.wakeRequest_delay hr
  obtain ⟨hframe, hraises⟩ := u.pendingTaken_raises z
  obtain ⟨hself, hothers⟩ := u.pendingTaken_zone z
  generalize u.pendingTaken z = w at hframe hraises hself hothers ⊢
  have hentry := (w.setDelay v.delay).enterWaking_entry z (u.zone z).pendingSlot
  obtain ⟨hslots, -⟩ := State.enterWaking_slots (s := w.setDelay v.delay) z (u.zone z).pendingSlot (hvc.trans hcompaction)
  have hzone (y : Zone) : (w.setDelay v.delay).zone y = w.zone y := rfl
  have hchanges : onlyChanges [.zones, .delay, .ports] u (w.setDelay v.delay) :=
    hframe.mono.trans ((w.setDelay_frame v.delay).1.mono)
  have hdelayed : onlyChanges [.delay] w (w.setDelay v.delay) := (w.setDelay_frame v.delay).1
  have htaken : Settled u (w.setDelay v.delay) := by
    refine ⟨hchanges .decoder (by decide), hchanges .tuner (by decide), hchanges .inputs (by decide), fun y => ?_, hraises.2⟩
    rw [hzone]
    by_cases hy : y = z
    · subst hy; rw [hself]; exact ⟨rfl, rfl, rfl⟩
    · rw [hothers y hy]; exact ⟨rfl, rfl, rfl⟩
  have hsame : (w.setDelay v.delay).slots = u.slots := hchanges .slots (by decide)
  generalize w.setDelay v.delay = x at hentry hslots hzone hchanges hdelayed htaken hsame ⊢
  have hall : onlyChanges [.slots, .zones, .outputs, .delay, .decoder, .tuner, .ports] u
      (x.enterWaking z (u.zone z).pendingSlot) := hchanges.mono.trans hentry.changes.mono
  refine ⟨?_, hentry.reported, hslots.trans hsame, fun y hy => ?_, hentry.follows.after htaken,
    hall.but_slots (hslots.trans hsame)⟩
  · have h := hentry.self
    rw [hzone, hself] at h
    exact h
  · have h := hentry.others y hy
    rw [hzone, hothers y hy] at h
    exact h

/-! ### RELAY_STAGE_END -/

theorem exec_relayStageEnd (z : Zone) (s : State) : exec (.relayStageEnd z) s = .next (s.endRelayStage z) := rfl

theorem State.endRelayStage_relay {s : State} {z : Zone} (hp : (s.zone z).power = .quieting)
    (hq : (s.zone z).quietStage = some .relay) : s.endRelayStage z = (s.toStandby z).runPendingOn z := if_pos ⟨hp, hq⟩

/-- Settles O24: freeing, releasing and regranting reach no output of the zone that goes, and a pending ON reads what they
left. -/
theorem relayStagesEndInStandby : Obligations.RelayStagesEndInStandby := by
  intro z s
  refine ⟨fun h => ?_, fun hp hq => ?_⟩
  · rw [exec_relayStageEnd, State.endRelayStage, if_neg h]
  rw [exec_relayStageEnd, State.endRelayStage_relay hp hq]
  have hstands := s.shutDown_standsBy z
  rw [s.toStandby_eq]
  dsimp only
  generalize (s.shutDown z).reportZones = v at hstands ⊢
  have hframe : onlyChanges [.slots, .ports] v (v.completeOpt (s.zone z).opSlot .done []) := (v.completeOpt_frame _ _ _).1
  have hgrown := v.completeOpt_grown (s.zone z).opSlot .done []
  have hset := v.completeOpt_settled (s.zone z).opSlot .done []
  have hends (hc : s.delay.compaction = none) := slotEnded_of_meets ((hstands.meets hc).completeOpt (s.zone z).opSlot .done [])
  have hv : ∃ w : State, v.completeOpt (s.zone z).opSlot .done [] = w.completeOpt (s.zone z).opSlot .done [] ∧
      ∀ k b, (s.zone z).opSlot = some k → s.slot k = some b → (∀ c, s.delay.compaction = some c → c.slot ≠ k) →
        ∃ x, w.slot k = some { b with inChain := x } := ⟨v, rfl, fun k b _ hb hk => hstands.slots k b hb hk⟩
  generalize v.completeOpt (s.zone z).opSlot .done [] = u at hframe hgrown hset hends hv ⊢
  have hzone (y : Zone) : u.zone y = v.zone y := hframe.zone (by decide) y
  have hout (o : Fin 13) : u.out o = v.out o := by
    rw [State.out, hframe .outputs (by decide)]; rfl
  have hdelay : u.delay = v.delay := hframe .delay (by decide)
  have hself := hstands.self
  rw [← hzone, ZoneRec.sameButDerived] at hself
  have hpending : (u.zone z).pendingPower = (s.zone z).pendingPower := by rw [hself]; rfl
  have hslot : (u.zone z).pendingSlot = (s.zone z).pendingSlot := by rw [hself]; rfl
  refine ⟨⟨hself, fun o => ?_, hstands.reported.mono hgrown, fun y hy => ?_, hstands.follows.then hset, fun o ho => ?_,
    fun e he => ((hstands.cancelled e he).mono hgrown).bits, fun hz => ?_, hends, hv, ?_⟩, fun hnot => ?_, fun hon => ?_⟩
  · rw [hout]; exact hstands.unheld o
  · rw [hzone]; exact hstands.others y hy
  · rw [hdelay, hout]; exact hstands.freed o ho
  · rw [hdelay]; exact hstands.dref hz
  · exact hstands.changes.trans hframe.mono
  · rw [State.runPendingOn, if_neg (by rw [hpending]; exact hnot)]
  rw [← hpending] at hon
  rw [← hslot]
  have hfails {e : Status} (h : u.wakeTests = .error e ∨ (u.wakeTests = .ok () ∧ u.wakeRequest z = .error e)) :=
    State.runPendingOn_fails (State.runPendingOn_refused hon h)
  obtain ⟨hprotected, htests⟩ := u.wakeTests_spec
  refine ⟨fun hl => ⟨_, rfl, hfails (.inl (hprotected hl))⟩, fun hl => ?_⟩
  obtain ⟨hbusy, hfree⟩ := htests hl
  refine ⟨fun hb => ⟨_, rfl, hfails (.inl (hbusy hb))⟩, fun hc => ?_⟩
  obtain ⟨hunready, hready⟩ := hfree hc
  refine ⟨fun hn => ⟨_, rfl, hfails (.inl (hunready hn))⟩, fun hr => ⟨fun e he => ⟨_, rfl, hfails (.inr ⟨hready hr, he⟩)⟩,
    fun w hw => ?_⟩⟩
  have hwakes := State.runPendingOn_wakes hon (hready hr) hw
  exact ⟨_, rfl, hwakes.self, hwakes.reported, hwakes.slots, hwakes.others, hwakes.follows, hwakes.changes⟩

end Sys2Proof.Machine

end

section
/-! PROOFS. Delay changes: Set Lip Sync and Set Speaker (R19, R89, R126, R127, R131; O31, O46). -/

open Sys2Proof Sys2Proof.Machine

namespace Sys2Proof.Machine

/-! ### The delay change of a zone (R126) -/

theorem State.asked_eq (s s1 : State) (z : Zone) : s.asked s1 z = s.newDelay s1 z := rfl

theorem State.changeDelays_eq (s s1 : State) (z : Zone) : s.changeDelays s1 z =
    (s.delay.requestChange (wantList (s.newDelay s1 z))).map (fun x =>
      if x.2 then (s1.setDelay { x.1 with dref := s1.delay.dref }).retryPass
      else s1.setDelay { x.1 with dref := s1.delay.dref }) := by
  unfold State.changeDelays
  dsimp only
  rw [State.asked_list, State.asked_eq]
  generalize s.delay.requestChange _ = x
  cases x <;> rfl

/-- The tests of a zone's delay change in their order, and what follows one that is granted (R126, R131). -/
theorem State.changeDelays_spec (s s1 : State) (z : Zone) :
    let want := s.newDelay s1 z
    (s.delay.state = .initializing ∨ s.delay.compaction ≠ none → s.changeDelays s1 z = .error .memoryBusy) ∧
    (s.delay.compaction = none →
      (s.delay.state = .uninit ∨ s.delay.state = .fault → s.changeDelays s1 z = .error .notReady) ∧
      (s.delay.state = .ready → (s.delay.segments.map (·.output)).Nodup →
        ((s.delay.withoutChanges want).freePages < s.delay.pagesAsked want → s.changeDelays s1 z = .error .noDelayMemory) ∧
        (s.delay.pagesAsked want ≤ (s.delay.withoutChanges want).freePages →
          ((¬ ∃ d, changeGranted s.delay want d) → s.changeDelays s1 z = .error .fragmented) ∧
          ∀ d, changeGranted s.delay want d → ∃ v, s.changeDelays s1 z = .ok v ∧
            State.retriedAfter (s1.setDelay { d with dref := s1.delay.dref }) s.delay want v))) := by
  dsimp only
  rw [s.changeDelays_eq s1 z]
  refine ⟨fun h => ?_, fun hc => ⟨fun h => ?_, fun hr hn => ?_⟩⟩
  · rw [DelayState.requestChange_busy _ h]; rfl
  · rw [DelayState.requestChange_unready _ hc h]; rfl
  obtain ⟨hnone, hplace⟩ := DelayState.requestChange_spec (s.newDelay s1 z) hc hr hn
  refine ⟨fun h => by rw [hnone h]; rfl, fun h => ?_⟩
  obtain ⟨hfragmented, hgranted⟩ := hplace h
  refine ⟨fun h => by rw [hfragmented h]; rfl, fun d hd => ⟨_, by rw [hgranted d hd]; rfl, ?_⟩⟩
  have hiff := withdraws_iff (d := s.delay) hn (want := s.newDelay s1 z)
  dsimp only
  constructor
  · intro hfreed
    rw [if_pos (hiff.2 hfreed)]
    rfl
  · intro hkept
    rw [if_neg (fun h => hkept (hiff.1 h))]

theorem changeGranted.delay {d d' : DelayState} {want : Fin 13 → Option Nat} (h : changeGranted d want d') :
    d' = { d with segments := d'.segments } := h.1

/-! ### The retries that follow (R131) -/

/-- What a retry of outputs other than `o` leaves of its segment. -/
theorem State.retryOne_segment {s : State} {o q : Fin 13} (h : o ≠ q) : (s.retryOne q).delay.segment o = s.delay.segment o := by
  obtain h1 | ⟨z, r, d, -, hd, h1⟩ := s.retryOne_cases q
  · rw [h1]
  · rw [h1, State.granted_delay]
    have hne : d.segment o = s.delay.segment o := DelayState.request_segment_ne hd h
    exact hne

theorem State.retries_segment {o : Fin 13} {l : List (Fin 13)} (h : o ∉ l) (s : State) :
    (l.foldl State.retryOne s).delay.segment o = s.delay.segment o := by
  induction l generalizing s with
  | nil => rfl
  | cons q l ih =>
    obtain ⟨hq, hl⟩ := List.ne_and_not_mem_of_not_mem_cons h
    exact (ih hl _).trans (State.retryOne_segment hq)

/-- What follows a granted change: retries of the starved outputs, or nothing. -/
structure Retried (s t : State) : Prop where
  quiet : QuietStep s t
  segments : ∀ o, o ∉ s.delay.starved → t.delay.segment o = s.delay.segment o
  calm : s.delay.starved = [] → t = s

theorem State.retriedAfter.retried {v t : State} {d : DelayState} {want : Fin 13 → Option Nat}
    (h : State.retriedAfter v d want t) : Retried v t := by
  obtain ⟨hfreed, hkept⟩ := h
  by_cases hf : ∃ g c, g ∈ d.segments ∧ want g.output ≠ none ∧ g.change = some c ∧ (c.kind = .grow ∨ c.kind = .relocate)
  · rw [hfreed hf]
    exact ⟨QuietStep.foldl _ State.retryOne_quiet _ v, fun o ho => State.retries_segment ho v, fun h => by rw [h]; rfl⟩
  · rw [hkept hf]
    exact ⟨.refl v, fun _ _ => rfl, fun _ => rfl⟩

/-! ### Set Lip Sync (R19) and Set Sleep Timer (R21) -/

theorem ZoneRec.isUp_false_iff (r : ZoneRec) : r.isUp = false ↔ r.power = .standby ∨ r.power = .quieting := by
  unfold ZoneRec.isUp
  cases r.power <;> simp

theorem runCmd_setLipSync {s : State} {x : Ctx} {zone : Byte} {z : Zone} {v : Half} (hz : zoneOf zone = some z) :
    (min v.toNat 500 = (s.zone z).lipSync → runCmd x (.setLipSync zone v) s = (Answer.plain .doneNoChange, s)) ∧
    (min v.toNat 500 ≠ (s.zone z).lipSync →
      let u := s.setZone z { s.zone z with lipSync := min v.toNat 500 }
      ((s.zone z).isUp = false → runCmd x (.setLipSync zone v) s = (Answer.plain .done, u.raiseZone z)) ∧
      ((s.zone z).isUp = true →
        (∀ e, s.changeDelays u z = .error e → runCmd x (.setLipSync zone v) s = (Answer.plain e, s)) ∧
        ∀ t, s.changeDelays u z = .ok t → runCmd x (.setLipSync zone v) s = (Answer.plain .done, t.raiseZone z))) := by
  simp only [runCmd, doSetLipSync]
  rw [withZone_some s _ hz]
  refine ⟨fun h => if_pos h, fun h => ?_⟩
  rw [if_neg h]
  refine ⟨fun hu => if_neg (by rw [hu]; exact Bool.false_ne_true), fun hu => ?_⟩
  rw [if_pos hu]
  exact ⟨fun e he => by rw [he], fun t ht => by rw [ht]⟩

theorem runCmd_setSleepTimer {s : State} {x : Ctx} {zone : Byte} {z : Zone} {n : Byte} (hz : zoneOf zone = some z) :
    ((s.zone z).isUp = false → runCmd x (.setSleepTimer zone n) s = (Answer.plain .notOn, s)) ∧
    ((s.zone z).isUp = true → runCmd x (.setSleepTimer zone n) s =
      (Answer.plain (if n = 0 ∧ (s.zone z).sleepTimer = 0 then .doneNoChange else .done),
        s.setZone z { s.zone z with sleepTimer := min n.toNat 120 })) := by
  simp only [runCmd, doSetSleepTimer]
  rw [withZone_some s _ hz]
  refine ⟨fun hu => if_neg (by rw [hu]; exact Bool.false_ne_true), fun hu => (if_pos hu).trans (congrArg (·, _) ?_)⟩
  have hzero : min n.toNat 120 = 0 ↔ n = 0 := by
    constructor
    · intro h; exact BitVec.eq_of_toNat_eq (by simp; omega)
    · rintro rfl; rfl
  by_cases h : n = 0 ∧ (s.zone z).sleepTimer = 0
  · rw [if_pos h, Answer.changed]
    simp [h]
  · rw [if_neg h, Answer.changed]
    rw [if_pos]
    simpa [hzero, imp_iff_not_or] using h

/-- What a granted change of the lip-sync delay leaves. -/
structure LipSynced (z : Zone) (ms : Nat) (d : DelayState) (s t : State) : Prop where
  self : t.zone z = { s.zone z with lipSync := ms, noOutput := (t.zone z).noOutput }
  others : ∀ y, y ≠ z → t.zone y = { s.zone y with noOutput := (t.zone y).noOutput }
  segments : ∀ o, o ∉ s.delay.starved → t.delay.segment o = d.segment o
  calm : s.delay.starved = [] → t.zones = (s.setZone z { s.zone z with lipSync := ms }).zones ∧ t.outputs = s.outputs ∧ t.delay = d
  reported : zoneReported t z
  raised : portsRaised s t
  changes : onlyChanges [.zones, .outputs, .delay, .slots, .ports] s t

theorem Retried.lipSynced {s v : State} {z : Zone} {ms : Nat} {d : DelayState} (hd : d.starved = s.delay.starved)
    (h : Retried ((s.setZone z { s.zone z with lipSync := ms }).setDelay d) v) : LipSynced z ms d s (v.raiseZone z) := by
  obtain ⟨hquiet, hsegments, hcalm⟩ := h
  have hraise := (v.raiseZone_frame z).1
  have hzone (y : Zone) : (v.raiseZone z).zone y = v.zone y := hraise.zone (by decide) y
  have hdelay : (v.raiseZone z).delay = v.delay := hraise .delay (by decide)
  have hset (y : Zone) : ((s.setZone z { s.zone z with lipSync := ms }).setDelay d).zone y =
      (s.setZone z { s.zone z with lipSync := ms }).zone y := rfl
  have hchanges : onlyChanges [.zones, .delay] s ((s.setZone z { s.zone z with lipSync := ms }).setDelay d) :=
    ((s.setZone_frame z _).1.mono).trans ((State.setDelay_frame _ d).1.mono)
  refine ⟨?_, fun y hy => ?_, fun o ho => ?_, fun hs => ?_, State.raiseZone_reported _ z, ?_, ?_⟩
  · rw [hzone, hquiet.zones z, hset, State.zone_setZone_self]
  · rw [hzone, hquiet.zones y, hset, State.zone_setZone_ne _ _ hy]
  · rw [hdelay]; exact hsegments o (by rw [State.setDelay_delay, hd]; exact ho)
  · have heq := hcalm (by rw [State.setDelay_delay, hd]; exact hs)
    rw [hdelay, hraise .zones (by decide), hraise .outputs (by decide), heq]
    exact ⟨rfl, rfl, rfl⟩
  · exact (portsRaised.trans (.refl _) hquiet.raised).trans (v.raiseZone_raises z).1
  · exact (hchanges.mono.trans hquiet.frame.1.mono).trans hraise.mono

/-- Settles O31: the command's answer is that of the delay change, which `changeDelays_spec` says. -/
theorem lipSyncAndSleepTimer : Obligations.LipSyncAndSleepTimer := by
  intro p h zone z s hz
  dsimp only
  refine ⟨fun v ht => ?_, fun n ht => ⟨fun hp => ?_, fun hp => ?_⟩⟩
  · obtain ⟨hsame, hnew⟩ := runCmd_setLipSync (s := s) (x := unlinked p h) (v := v) hz
    refine ⟨fun hm => exec_takenAtOnce_same rfl ht (hsame hm), fun hm hp => ?_, fun hm hp => ?_⟩
    · obtain ⟨hdown, -⟩ := hnew hm
      exact exec_takenAtOnce_kept rfl ht ((s.setZone_frame z _).comp (State.raiseZone_frame _ z)).2
        (hdown ((ZoneRec.isUp_false_iff _).2 hp))
    obtain ⟨-, hup⟩ := hnew hm
    obtain ⟨hrefused, hgranted⟩ := hup ((ZoneRec.isUp_iff _).2 hp)
    have hno (e : Status) (he : s.changeDelays (s.setZone z { s.zone z with lipSync := min v.toNat 500 }) z = .error e) :=
      exec_takenAtOnce_same (c := .setLipSync zone v) rfl ht (hrefused e he)
    obtain ⟨hbusy, hfree⟩ := s.changeDelays_spec (s.setZone z { s.zone z with lipSync := min v.toNat 500 }) z
    refine ⟨fun hb => hno _ (hbusy hb), fun hc => ?_⟩
    obtain ⟨hunready, hready⟩ := hfree hc
    refine ⟨fun hn => hno _ (hunready hn), fun hr hnodup => ?_⟩
    obtain ⟨hpages, hplaced⟩ := hready hr hnodup
    refine ⟨fun hf => hno _ (hpages hf), fun hf => ?_⟩
    obtain ⟨hfragmented, hok⟩ := hplaced hf
    refine ⟨fun hn => hno _ (hfragmented hn), fun ⟨d, hd⟩ => ?_⟩
    obtain ⟨w, hw, hafter⟩ := hok d hd
    have hdelay := hd.delay
    have hdref : ({ d with dref := (s.setZone z { s.zone z with lipSync := min v.toNat 500 }).delay.dref } : DelayState) = d := by
      rw [hdelay]; rfl
    rw [hdref] at hafter
    have hlip := hafter.retried.lipSynced (by rw [hdelay])
    have hkept : portsKept s (w.raiseZone z) := by
      have hk := runCmd_kept (unlinked p h) (c := .setLipSync zone v) s rfl
      rwa [hgranted w hw] at hk
    have hexec := exec_takenAtOnce_kept (c := .setLipSync zone v) rfl ht hkept (hgranted w hw)
    have hclosed := (w.raiseZone z).closed_onlyChanges p h (.setLipSync zone v) (Answer.plain .done)
    have hzone (y : Zone) : ((w.raiseZone z).closed p h (.setLipSync zone v) (Answer.plain .done)).zone y =
        (w.raiseZone z).zone y := rfl
    refine ⟨_, d, w, hexec, hd, hafter, rfl, ?_, fun y hy => ?_, fun hs => ?_, fun o ho => ?_, fun hs => ?_, ?_, ?_, ?_,
      hlip.reported.mono (State.closed_grown _ _ _ _ _), ?_, hlip.changes.trans hclosed.mono⟩
    · exact hlip.self
    · exact hlip.others y hy
    · obtain ⟨h1, h2, -⟩ := hlip.calm hs
      exact ⟨h1, h2⟩
    · exact hlip.segments o ho
    · obtain ⟨-, -, h3⟩ := hlip.calm hs
      exact h3
    · rw [hzone, hlip.self]
    · rw [hzone, hlip.self]
    · rw [hzone, hlip.self]
    · rw [State.closed_port_self]; rfl
  · obtain ⟨hdown, -⟩ := runCmd_setSleepTimer (s := s) (x := unlinked p h) (n := n) hz
    exact exec_takenAtOnce_same rfl ht (hdown ((ZoneRec.isUp_false_iff _).2 hp))
  · obtain ⟨-, hup⟩ := runCmd_setSleepTimer (s := s) (x := unlinked p h) (n := n) hz
    exact exec_takenAtOnce_kept rfl ht (s.setZone_frame z _).2 (hup ((ZoneRec.isUp_iff _).2 hp))

end Sys2Proof.Machine

end

section
/-! PROOFS. Set Speaker and Set Crossover (R89 to R91; O46). -/

open Sys2Proof Sys2Proof.Machine

namespace Sys2Proof.Machine

/-! ### An output that is not starved is left alone by the regrants of the others -/

/-- An output that is not on the starved list keeps its record, and does not come to the list. -/
def Shields (o : Fin 13) (s t : State) : Prop := o ∉ s.delay.starved → o ∉ t.delay.starved ∧ t.out o = s.out o

theorem Shields.refl (o : Fin 13) (s : State) : Shields o s s := fun h => ⟨h, rfl⟩

theorem Shields.trans {o : Fin 13} {s t u : State} (h1 : Shields o s t) (h2 : Shields o t u) : Shields o s u := fun h => by
  obtain ⟨hs1, ho1⟩ := h1 h
  obtain ⟨hs2, ho2⟩ := h2 hs1
  exact ⟨hs2, ho2.trans ho1⟩

theorem RetryKeeps.shields {o : Fin 13} {s t : State} (h : o ∉ s.delay.starved → RetryKeeps o s t) : Shields o s t :=
  fun ho => ⟨fun ht => ho ((h ho).starved o ht), (h ho).out⟩

theorem Shields.of_delay {o : Fin 13} {s t : State} (hd : t.delay = s.delay) (ho : t.out o = s.out o) : Shields o s t :=
  fun h => ⟨by rw [hd]; exact h, ho⟩

theorem State.raise_shields (s : State) (o : Fin 13) (k : EventKind) (d : EventDetail) : Shields o s (s.raise k d) := by
  have hframe := (s.raise_frame k d).1
  refine .of_delay (hframe .delay (by decide)) ?_
  rw [State.out, hframe .outputs (by decide)]
  rfl

theorem State.raiseChannel_shields (s : State) (o q : Fin 13) (n : Byte) : Shields o s (s.raiseChannel q n) :=
  s.raise_shields o .channel _

theorem State.updateOut_shields (s : State) {o q : Fin 13} (h : o ≠ q) (r : OutputRec) : Shields o s (s.updateOut q r) :=
  .of_delay (s.updateOut_delay q r) (s.updateOut_out_ne r h)

theorem State.setOut_shields (s : State) {o q : Fin 13} (h : o ≠ q) (r : OutputRec) : Shields o s (s.setOut q r) :=
  .of_delay rfl (State.out_setOut_ne _ _ h)

theorem State.leaveStarved_shields (s : State) (o q : Fin 13) : Shields o s (s.leaveStarved q) :=
  fun h => ⟨fun hm => h (List.mem_of_mem_filter hm), rfl⟩

theorem State.freeSegment_shields (s : State) (o q : Fin 13) : Shields o s (s.freeSegment q) := by
  unfold State.freeSegment
  split
  · exact .refl o s
  · have hset : Shields o s (s.setDelay (s.delay.removeSegment q)) := fun h => ⟨h, rfl⟩
    dsimp only
    split
    · exact hset.trans (RetryKeeps.shields (State.retries_keep _))
    · split
      · exact hset.trans (RetryKeeps.shields (State.continueCompaction_keeps _))
      · exact hset

theorem State.placeInZone_shields (s : State) {o q : Fin 13} (h : o ≠ q) (z : Zone) (r : Role) :
    Shields o s (s.placeInZone q z r).1 := by
  intro ho
  cases hd : s.delay.request [(q, s.totalDelay z r)] with
  | ok d =>
    rw [State.placeInZone_ok hd]
    dsimp only
    rw [State.becomeGranted_out_ne _ _ _ h, State.becomeGranted_delay, State.setDelay_delay, DelayState.request_keeps hd]
    exact ⟨ho, rfl⟩
  | error e =>
    rw [State.placeInZone_error hd]
    dsimp only
    obtain ⟨hdelay, hstarved, -, hout, -⟩ := s.becomeStarved_spec q z r
    exact ⟨fun hm => ((hstarved o).1 hm).elim h ho, hout o h⟩

theorem State.directGrant_shields (s : State) {o q : Fin 13} (h : o ≠ q) (z : Zone) (r : Role) :
    Shields o s (s.directGrant q z r) := by
  unfold State.directGrant
  split
  · exact (s.updateOut_shields h _).trans (State.raiseChannel_shields _ _ _ _)
  · dsimp only
    split
    · exact (s.placeInZone_shields h z r).trans (State.raiseChannel_shields _ _ _ _)
    · exact s.placeInZone_shields h z r

theorem State.reallocate_shields (s : State) {o q : Fin 13} (h : o ≠ q) (b : Bool) : Shields o s (s.reallocate q b) := by
  have henter : Shields o s (s.enterReallocate q b) := by
    unfold State.enterReallocate
    dsimp only
    split
    · exact (s.setOut_shields h _).trans (State.raiseChannel_shields _ _ _ _)
    · exact s.setOut_shields h _
  have hfreed := (henter.trans (State.freeSegment_shields _ o q)).trans (State.setOut_shields _ h
    { ((s.enterReallocate q b).freeSegment q).out q with segment := false })
  unfold State.reallocate
  dsimp only
  refine hfreed.trans ?_
  split
  · exact (State.updateOut_shields _ h _).trans (State.raiseChannel_shields _ _ _ _)
  · split
    · split
      · exact ((State.placeInZone_shields _ h _ _).trans (State.raiseChannel_shields _ _ _ _)).trans
          (State.raiseChannel_shields _ _ _ _)
      · exact (State.placeInZone_shields _ h _ _).trans (State.raiseChannel_shields _ _ _ _)
    · exact State.placeInZone_shields _ h _ _

theorem State.regrant_shields (s : State) {o q : Fin 13} (h : o ≠ q) : Shields o s (s.regrant q) := by
  obtain ⟨hfault, hidle, hgranted, hstarved, hhandover⟩ := s.regrant_cases q
  cases hs : (s.out q).state with
  | fault => rw [hfault hs]; exact .refl o s
  | idle =>
    cases hg : s.grantRule q with
    | none => rw [(hidle hs).1 hg]; exact .refl o s
    | some g => rw [(hidle hs).2 _ _ hg]; exact s.directGrant_shields h _ _
  | granted =>
    by_cases hst : s.grantStays q
    · rw [(hgranted hs).1 hst]; exact .refl o s
    · rw [(hgranted hs).2 hst]; exact (s.updateOut_shields h _).trans (State.raiseChannel_shields _ _ _ _)
  | starved =>
    by_cases hst : s.grantStays q
    · rw [(hstarved hs).1 hst]; exact .refl o s
    · rw [(hstarved hs).2 hst]; exact (s.leaveStarved_shields o q).trans (State.reallocate_shields _ h true)
  | handover =>
    by_cases hown : s.ownGrant q
    · rw [(hhandover hs).1 hown]; exact (s.updateOut_shields h _).trans (State.raiseChannel_shields _ _ _ _)
    · rw [(hhandover hs).2 hown]; exact s.setOut_shields h _

theorem State.regrants_shields {o : Fin 13} {l : List (Fin 13)} (h : o ∉ l) (s : State) :
    Shields o s (l.foldl State.regrant s) := by
  induction l generalizing s with
  | nil => exact .refl o s
  | cons q l ih =>
    obtain ⟨hq, hl⟩ := List.ne_and_not_mem_of_not_mem_cons h
    exact (s.regrant_shields hq).trans (ih hl _)

theorem State.regrants_step (l : List (Fin 13)) (s : State) : OutStep s (l.foldl State.regrant s) :=
  (FreeStep.foldl _ State.regrant_free l s).1

/-- The outputs in their order, parted at one of them. -/
theorem allOutputs_parts (o : Fin 13) : ∃ l1 l2, allOutputs = l1 ++ o :: l2 ∧ o ∉ l1 ∧ o ∉ l2 := by
  obtain ⟨l1, l2, hl⟩ := List.append_of_mem (mem_allOutputs o)
  have hn : (l1 ++ o :: l2).Nodup := hl ▸ (by decide)
  exact ⟨l1, l2, hl, fun e => (List.nodup_append.1 hn).2.2 o e o List.mem_cons_self rfl,
    (List.nodup_cons.1 (List.nodup_append.1 hn).2.1).1⟩

/-- A GRANTED output that the rule leaves IDLE starts its handover in the regrants of all outputs (R43, R45). -/
theorem State.regrantAll_handover {u : State} {o : Fin 13} {z : Zone} (hs : (u.out o).state = .granted)
    (hz : (u.out o).zone = some z) (ho : o ∉ u.delay.starved) (hg : u.grantRule o = none) (hq : (u.zone z).power ≠ .quieting) :
    u.regrantAll.out o = { u.out o with state := .handover, phase := some .rampDown, target := some none } := by
  obtain ⟨l1, l2, hl, h1, h2⟩ := allOutputs_parts o
  rw [State.regrantAll, hl, List.foldl_append, List.foldl_cons]
  have hstep := State.regrants_step l1 u
  obtain ⟨hstarved, hout⟩ := State.regrants_shields h1 u ho
  generalize l1.foldl State.regrant u = v at hstep hstarved hout ⊢
  have hrule : v.grantRule o = none := (hstep.grantRule o).trans hg
  have hstays : ¬ v.grantStays o := by
    rintro (⟨hown, -⟩ | ⟨-, y, hy, hpower⟩)
    · exact hown hrule
    · rw [hout, hz] at hy
      obtain rfl := Option.some.inj hy
      rw [hstep.zones z] at hpower
      exact hq hpower
  obtain ⟨-, -, hgranted, -⟩ := v.regrant_cases o
  have heq := (hgranted (hout ▸ hs)).2 hstays
  have hself : (v.regrant o).out o = { u.out o with state := .handover, phase := some .rampDown, target := some none } := by
    rw [heq, State.startHandover, State.raiseChannel_out, State.updateOut_out_self, hout, hrule]
    rfl
  have hleft : o ∉ (v.regrant o).delay.starved := by
    rw [heq, State.startHandover, State.raiseChannel_delay, State.updateOut_delay]
    exact hstarved
  exact (State.regrants_shields h2 _ hleft).2.trans hself

theorem State.wellGranted_congr {u t : State} {q : Fin 13} (hg : t.grantRule q = u.grantRule q) (ho : t.out q = u.out q)
    (hp : ∀ z, (t.zone z).power = (u.zone z).power) (h : u.wellGranted q) : t.wellGranted q := by
  simpa only [State.wellGranted, State.grantStays, State.ownGrant, hg, ho, hp] using h

theorem State.regrants_well {l : List (Fin 13)} {u : State} (h : ∀ q, q ∈ l → u.wellGranted q) : l.foldl State.regrant u = u := by
  induction l with
  | nil => rfl
  | cons q l ih =>
    obtain ⟨hwell, -⟩ := u.regrant_regrants q
    rw [List.foldl_cons, hwell (h q List.mem_cons_self)]
    exact ih fun q hq => h q (List.mem_cons_of_mem _ hq)

/-- Where one IDLE output alone has something to get, the regrants of all outputs are its own (R43, R44). -/
theorem State.regrantAll_one {u : State} {o : Fin 13} (hs : (u.out o).state = .idle) (hw : ∀ q, q ≠ o → u.wellGranted q) :
    u.regrantAll = u.regrant o := by
  obtain ⟨l1, l2, hl, h1, h2⟩ := allOutputs_parts o
  obtain ⟨-, hmoves⟩ := u.regrant_regrants o
  obtain ⟨hothers, hzones, -, -, houtputs, -⟩ := hmoves fun h => by rw [hs] at h; cases h
  have hstep := (u.regrant_free o).1
  rw [State.regrantAll, hl, List.foldl_append, List.foldl_cons, State.regrants_well fun q hq => hw q fun e => h1 (e ▸ hq)]
  refine State.regrants_well fun q hq => ?_
  have hne : q ≠ o := fun e => h2 (e ▸ hq)
  exact State.wellGranted_congr (hstep.grantRule q) (hothers q hne) (fun z => by rw [hzones z]) (hw q hne)

/-! ### Set Speaker (R89, R90) -/

theorem positionOf_none {b : Byte} (h : 11 ≤ b.toNat) : positionOf b = none := List.getElem?_eq_none h

/-- The speaker record that a Set Speaker names, clamped (R89). -/
def speakerNamed (z : SpeakerSize) (dist : Half) (tr pol : Byte) : SpeakerRec :=
  { size := z, distance := min dist.toNat 1800, trim := max (-24) (min tr.toInt 24), inverted := pol == 1 }

theorem runCmd_setSpeaker_bad {s : State} {x : Ctx} {a b : Byte} {dist : Half} {tr pol : Byte} :
    (11 ≤ a.toNat → runCmd x (.setSpeaker a b dist tr pol) s = (Answer.badParam 0, s)) ∧
    ∀ w, positionOf a = some w →
      (sizeOf w b = none → runCmd x (.setSpeaker a b dist tr pol) s = (Answer.badParam 1, s)) ∧
      ∀ z, sizeOf w b = some z → 2 ≤ pol.toNat → runCmd x (.setSpeaker a b dist tr pol) s = (Answer.badParam 4, s) := by
  refine ⟨fun h => ?_, fun w hw => ⟨fun hz => ?_, fun z hz hp => ?_⟩⟩
  · simp only [runCmd, doSetSpeaker, positionOf_none h]
  · simp only [runCmd, doSetSpeaker, hw, hz]
  · simp only [runCmd, doSetSpeaker, hw, hz, flagOf_eq_none hp]

theorem runCmd_setSpeaker {s : State} {x : Ctx} {a b : Byte} {dist : Half} {tr pol : Byte} {w : Position} {z : SpeakerSize}
    (hw : positionOf a = some w) (hz : sizeOf w b = some z) (hp : pol.toNat < 2) :
    let r := speakerNamed z dist tr pol
    (r = s.speaker w → runCmd x (.setSpeaker a b dist tr pol) s = (Answer.plain .doneNoChange, s)) ∧
    (r ≠ s.speaker w →
      (∀ e, s.takeSpeaker w r = .error e → runCmd x (.setSpeaker a b dist tr pol) s = (Answer.plain e, s)) ∧
      ∀ t, s.takeSpeaker w r = .ok t → runCmd x (.setSpeaker a b dist tr pol) s = (Answer.plain .done, t)) := by
  have hr : (⟨z, min dist.toNat 1800, clampInt (-24) 24 tr.toInt, pol == 1⟩ : SpeakerRec) = speakerNamed z dist tr pol := rfl
  dsimp only
  simp only [runCmd, doSetSpeaker, hw, hz, flagOf_eq_some hp, hr]
  refine ⟨fun h => if_pos h, fun h => ⟨fun e he => (if_neg h).trans ?_, fun t ht => (if_neg h).trans ?_⟩⟩
  · rw [he]
  · rw [ht]

/-- The state after a speaker record has been taken, its delays having changed: a size that changes to or from NONE is
regranted (R89). -/
def State.resized (v : State) (old r : SpeakerRec) : State :=
  if r.size = .none ↔ old.size = .none then v else v.regrantAll

theorem State.resized_eq (v : State) (old r : SpeakerRec) :
    (if (r.size == .none) = (old.size == .none) then v else v.regrantAll) = v.resized old r := by
  have hiff : (r.size == .none) = (old.size == .none) ↔ (r.size = .none ↔ old.size = .none) := by
    rw [Bool.eq_iff_iff, beq_iff_eq, beq_iff_eq]
  rw [State.resized]
  exact if_congr hiff rfl rfl

theorem State.takeSpeaker_eq (s : State) (w : Position) (r : SpeakerRec) :
    s.takeSpeaker w r = (if r.distance = (s.speaker w).distance then Except.ok (s.setSpeakerRec w r)
      else s.changeDistances (s.setSpeakerRec w r)).map (fun v => v.resized (s.speaker w) r) := by
  unfold State.takeSpeaker
  simp only [State.resized_eq]

theorem State.takeSpeaker_still {s : State} {w : Position} {r : SpeakerRec}
    (h : r.distance = (s.speaker w).distance ∨ (s.zone .main).isUp = false) :
    s.takeSpeaker w r = .ok ((s.setSpeakerRec w r).resized (s.speaker w) r) := by
  rw [State.takeSpeaker_eq]
  by_cases hd : r.distance = (s.speaker w).distance
  · rw [if_pos hd]; rfl
  · rw [if_neg hd, State.changeDistances, if_neg (by rw [h.resolve_left hd]; exact Bool.false_ne_true)]; rfl

theorem State.changeReference_unique {s u : State} {m : Nat} (hle : ∀ q, q ∈ s.speakerSet → (u.speaker q).distance ≤ m)
    (hm : m = 0 ∨ ∃ q, q ∈ s.speakerSet ∧ (u.speaker q).distance = m) : s.changeReference u = m := by
  obtain ⟨-, hbound, hreach⟩ := foldl_max_spec (fun q => (u.speaker q).distance) s.speakerSet 0
  have href : s.changeReference u = s.speakerSet.foldl (fun m q => max m (u.speaker q).distance) 0 := rfl
  rw [← href] at hbound hreach
  refine Nat.le_antisymm ?_ ?_
  · obtain h | ⟨q, hq, h⟩ := hreach
    · omega
    · exact h ▸ hle q hq
  · obtain rfl | ⟨q, hq, rfl⟩ := hm
    · exact Nat.zero_le _
    · exact hbound q hq

theorem State.takeSpeaker_moved {s : State} {w : Position} {r : SpeakerRec} {m : Nat}
    (hd : r.distance ≠ (s.speaker w).distance) (hu : (s.zone .main).isUp = true) (hm : s.changeReference (s.setSpeakerRec w r) = m) :
    s.takeSpeaker w r = (s.changeDelays ((s.setSpeakerRec w r).setDelay { s.delay with dref := some m }) .main).map
      (fun v => v.resized (s.speaker w) r) := by
  rw [State.takeSpeaker_eq, if_neg hd, State.changeDistances, if_pos hu, hm]
  rfl

theorem State.resized_step (v : State) (old r : SpeakerRec) : OutStep v (v.resized old r) := by
  unfold State.resized
  split
  · exact .refl v
  · exact v.regrantAll_free.1

theorem State.setSpeakerRec_changes (s : State) (w : Position) (r : SpeakerRec) : onlyChanges [.mix] s (s.setSpeakerRec w r) :=
  (s.setSpeakerRec_frame w r).1

theorem placedOr.mono {u t t' : State} {o : Fin 13} {z : Zone} {x : Role} {old : List (Fin 13)} {a b : Byte}
    (h : placedOr u t o z x old a b) (hd : t'.delay = t.delay) (ho : t'.out o = t.out o) (hg : eventsGrow t t') :
    placedOr u t' o z x old a b := by
  obtain ⟨hok, herror⟩ := h
  refine ⟨fun d hr => ?_, fun e hr => ?_⟩
  · obtain ⟨h1, h2, h3⟩ := hok d hr
    exact ⟨hd.trans h1, ho.trans h2, h3.mono hg⟩
  · obtain ⟨h1, h2, h3, h4, h5⟩ := herror e hr
    rw [hd, ho]
    exact ⟨h1, h2, h3, h4.mono hg, h5.mono hg⟩

theorem exec_setSpeaker {s t : State} {p : Port} {h : FrameHead} {a b : Byte} {dist : Half} {tr pol : Byte}
    (ht : takenAtOnce s p h (.setSpeaker a b dist tr pol))
    (hrun : runCmd (unlinked p h) (.setSpeaker a b dist tr pol) s = (Answer.plain .done, t)) :
    exec (.setSpeaker p h a b dist tr pol) s = .next (t.closed p h (.setSpeaker a b dist tr pol) (Answer.plain .done)) := by
  have hk := runCmd_kept (unlinked p h) (c := .setSpeaker a b dist tr pol) s rfl
  rw [hrun] at hk
  exact exec_takenAtOnce_kept (c := .setSpeaker a b dist tr pol) rfl ht hk hrun

theorem regranted_eq (v : State) : (List.finRange 13).foldl State.regrant v = v.regrantAll := rfl

/-- A speaker record whose size changes to or from NONE, without a delay change (R89). -/
theorem regranted_speaker {s u : State} {p : Port} {h : FrameHead} {c : Cmd} {w : Position} {r : SpeakerRec}
    (hu : u = s.setSpeakerRec w r) :
    let t := u.regrantAll.closed p h c (Answer.plain .done)
    t.mix = u.mix ∧
    (∀ o, (s.out o).state = .idle → u.grantRule o = some (.main, .pos w) → s.delay.segment o = none →
      (∀ q, q ≠ o → u.wellGranted q) → placedOr u t o .main (.pos w) s.delay.starved 1 2 ∧ ∀ q, q ≠ o → t.out q = s.out q) ∧
    t.delay.dref = s.delay.dref ∧ t.outputs.assign = s.outputs.assign ∧
    (∀ o, (s.out o).state = .granted → (s.out o).zone = some .main → (s.out o).role = some (.pos w) →
      o ∉ s.delay.starved → u.grantRule o = none → ¬ (s.zone .main).power = .quieting →
      t.out o = { s.out o with state := .handover, phase := some .rampDown, target := some none }) ∧
    onlyChanges [.mix, .zones, .outputs, .delay, .slots, .ports] s t := by
  have hset : onlyChanges [.mix] s u := hu ▸ s.setSpeakerRec_changes w r
  have hout (o : Fin 13) : u.out o = s.out o := by rw [hu]; rfl
  have hstep := u.regrantAll_free.1
  have hgrown := u.regrantAll.closed_grown p h c (Answer.plain .done)
  have hclosed := u.regrantAll.closed_onlyChanges p h c (Answer.plain .done)
  have htout (o : Fin 13) : (u.regrantAll.closed p h c (Answer.plain .done)).out o = u.regrantAll.out o := by
    rw [State.out, hclosed .outputs (by decide)]; rfl
  have htdelay : (u.regrantAll.closed p h c (Answer.plain .done)).delay = u.regrantAll.delay := hclosed .delay (by decide)
  obtain ⟨-, -, -, hdref⟩ := hstep.delay
  refine ⟨(hclosed .mix (by decide)).trans (hstep.frame.1 .mix (by decide)), fun o hs hg hseg hw => ?_, ?_, ?_,
    fun o hs hz hr ho hg hq => ?_, (hset.mono.trans hstep.frame.1.mono).trans hclosed.mono⟩
  · have hone := State.regrantAll_one (by rw [hout]; exact hs) hw
    obtain ⟨-, hmoves⟩ := u.regrant_regrants o
    obtain ⟨hothers, -, -, -, -, hidle, -⟩ := hmoves fun e => by rw [hout, hs] at e; cases e
    obtain ⟨-, hplaced⟩ := hidle .main (.pos w) (by rw [hout]; exact hs) hg
    have hdelay : u.delay = s.delay := hset .delay (by decide)
    rw [hdelay] at hplaced
    refine ⟨(hplaced hseg).mono (by rw [htdelay, hone]) (by rw [htout, hone]) (hone ▸ hgrown), fun q hq => ?_⟩
    rw [htout, hone, hothers q hq, hout]
  · rw [htdelay, hdref, hset .delay (by decide)]
  · rw [hclosed .outputs (by decide), hstep.outputs, hset .outputs (by decide)]
  · rw [htout, State.regrantAll_handover (by rw [hout]; exact hs) (by rw [hout]; exact hz)
      (by rw [hset .delay (by decide)]; exact ho) hg (by rw [hset.zone (by decide)]; exact hq), hout]

/-- A speaker record whose distance changes while MAIN is up, its delay change granted (R89, R90, R131). -/
theorem moved_speaker {s u v : State} {p : Port} {h : FrameHead} {c : Cmd} {w : Position} {r old : SpeakerRec} {d : DelayState}
    {m : Nat} {want : Fin 13 → Option Nat} (hu : u = s.setSpeakerRec w r) (hd : d.starved = s.delay.starved)
    (hafter : State.retriedAfter (u.setDelay { d with dref := some m }) s.delay want v) :
    let t := (v.resized old r).closed p h c (Answer.plain .done)
    (s.delay.starved = [] → (r.size = .none ↔ old.size = .none) → t.delay = { d with dref := some m }) ∧
    t.mix = u.mix ∧ t.delay.dref = some m ∧ onlyChanges [.mix, .zones, .outputs, .delay, .slots, .ports] s t := by
  have hretried := hafter.retried
  have hset : onlyChanges [.mix, .delay] s (u.setDelay { d with dref := some m }) :=
    ((hu ▸ s.setSpeakerRec_changes w r).mono).trans (u.setDelay_frame _).1.mono
  have hstep := hretried.quiet.toOutStep.trans (v.resized_step old r)
  have hclosed := (v.resized old r).closed_onlyChanges p h c (Answer.plain .done)
  have htdelay : ((v.resized old r).closed p h c (Answer.plain .done)).delay = (v.resized old r).delay := hclosed .delay (by decide)
  obtain ⟨-, -, -, hdref⟩ := hstep.delay
  refine ⟨fun hs hsize => ?_, (hclosed .mix (by decide)).trans (hstep.frame.1 .mix (by decide)), htdelay ▸ hdref,
    (hset.mono.trans hstep.frame.1.mono).trans hclosed.mono⟩
  rw [htdelay, State.resized, if_pos hsize, hretried.calm (hd.trans hs)]
  rfl

theorem runCmd_setCrossover (x : Ctx) (hz : Byte) (s : State) :
    (¬ (hz = 60 ∨ hz = 80 ∨ hz = 100 ∨ hz = 120) → runCmd x (.setCrossover hz) s = (Answer.badParam 0, s)) ∧
    (hz = 60 ∨ hz = 80 ∨ hz = 100 ∨ hz = 120 →
      (hz = s.mix.crossover → runCmd x (.setCrossover hz) s = (Answer.plain .doneNoChange, s)) ∧
      (hz ≠ s.mix.crossover →
        runCmd x (.setCrossover hz) s = (Answer.plain .done, s.setMix { s.mix with crossover := hz }))) := by
  simp only [runCmd, doSetCrossover]
  exact ⟨fun h => if_neg h, fun h => ⟨fun he => (if_pos h).trans (if_pos he), fun he => (if_pos h).trans (if_neg he)⟩⟩

/-- Settles O46: the delay change is `changeDelays_spec`'s, the regrants are those of `regrantAll_one` and
`regrantAll_handover`. -/
theorem speakersAndCrossover : Obligations.SpeakersAndCrossover := by
  refine ⟨fun p h a b dist tr pol s ht => ?_, State.regrant_regrants, fun p h hz s ht => ?_⟩
  · obtain ⟨hbad, hnamed⟩ := runCmd_setSpeaker_bad (s := s) (x := unlinked p h) (a := a) (b := b) (dist := dist) (tr := tr) (pol := pol)
    have hsame {x : Answer} (hrun : runCmd (unlinked p h) (.setSpeaker a b dist tr pol) s = (x, s)) :=
      exec_takenAtOnce_same (c := .setSpeaker a b dist tr pol) rfl ht hrun
    refine ⟨fun ha => hsame (hbad ha), fun w hw => ?_⟩
    obtain ⟨hsize, hpol⟩ := hnamed w hw
    refine ⟨fun hz => hsame (hsize hz), fun z hz => ⟨fun hp => hsame (hpol z hz hp), fun hp => ?_⟩⟩
    obtain ⟨hkeep, hnew⟩ := runCmd_setSpeaker (s := s) (x := unlinked p h) (dist := dist) (tr := tr) hw hz hp
    intro old r u up regranted
    have hr : speakerNamed z dist tr pol = r := rfl
    rw [hr] at hkeep hnew
    clear hr
    have hu : u = s.setSpeakerRec w r := rfl
    clear_value r u
    have hstill (hd : r.distance = (s.speaker w).distance ∨ ¬ ((s.zone .main).power = .waking ∨ (s.zone .main).power = .on)) :
        s.takeSpeaker w r = .ok (u.resized (s.speaker w) r) := by
      rw [State.takeSpeaker_still (hd.imp_right fun h => ?_), hu]
      rwa [← ZoneRec.isUp_iff, Bool.not_eq_true] at h
    refine ⟨fun h => hsame (hkeep h), fun hne hd hsz => ?_, fun hd hup m hle hm => ?_, fun hd hsz => ?_⟩
    · obtain ⟨-, hok⟩ := hnew hne
      have hrun := hok _ (hstill hd)
      rw [State.resized, if_pos hsz] at hrun
      exact exec_setSpeaker ht hrun
    · obtain ⟨herror, hok⟩ := hnew fun e => hd (congrArg SpeakerRec.distance e)
      have htake := State.takeSpeaker_moved hd ((ZoneRec.isUp_iff _).2 hup) (State.changeReference_unique (hu ▸ hle) (hu ▸ hm))
      rw [← hu] at htake
      have hno (e : Status) (he : s.changeDelays (u.setDelay { s.delay with dref := some m }) .main = .error e) :=
        hsame (herror e (by rw [htake, he]; rfl))
      obtain ⟨hbusy, hfree⟩ := s.changeDelays_spec (u.setDelay { s.delay with dref := some m }) .main
      refine ⟨fun hb => hno _ (hbusy hb), fun hc => ?_⟩
      obtain ⟨hunready, hready⟩ := hfree hc
      refine ⟨fun hn => hno _ (hunready hn), fun hr hnodup => ?_⟩
      obtain ⟨hpages, hplaced⟩ := hready hr hnodup
      refine ⟨fun hf => hno _ (hpages hf), fun hf => ?_⟩
      obtain ⟨hfragmented, hgranted⟩ := hplaced hf
      refine ⟨fun hn => hno _ (hfragmented hn), fun ⟨d, hd⟩ => ?_⟩
      obtain ⟨v, hv, hafter⟩ := hgranted d hd
      have hrun := hok (v.resized (s.speaker w) r) (by rw [htake, hv]; rfl)
      obtain ⟨hcalm, hmix, hdref, hchanges⟩ := moved_speaker (p := p) (h := h) (c := .setSpeaker a b dist tr pol)
        (old := s.speaker w) hu (by rw [hd.delay]) hafter
      exact ⟨_, d, v, exec_setSpeaker ht hrun, hd, hafter, rfl, hcalm, hmix, hdref, by rw [State.closed_port_self]; rfl, hchanges⟩
    · obtain ⟨-, hok⟩ := hnew fun e => hsz (by rw [e])
      have hrun := hok _ (hstill hd)
      rw [State.resized, if_neg hsz] at hrun
      obtain ⟨hmix, hidle, hdref, hassign, hhandover, hchanges⟩ :=
        regranted_speaker (p := p) (h := h) (c := .setSpeaker a b dist tr pol) hu
      exact ⟨_, exec_setSpeaker ht hrun, rfl, hmix, hidle, hdref, hassign, hhandover, by rw [State.closed_port_self]; rfl, hchanges⟩
  · obtain ⟨hbad, hgood⟩ := runCmd_setCrossover (unlinked p h) hz s
    refine ⟨fun h1 h2 h3 h4 => exec_takenAtOnce_same (c := .setCrossover hz) rfl ht (hbad ?_), fun hok => ?_⟩
    · rintro (h | h | h | h) <;> contradiction
    obtain ⟨hkeep, hnew⟩ := hgood hok
    exact ⟨fun he => exec_takenAtOnce_same (c := .setCrossover hz) rfl ht (hkeep he),
      fun he => exec_takenAtOnce_kept (c := .setCrossover hz) rfl ht (s.setMix_frame _).2 (hnew he)⟩

end Sys2Proof.Machine

end

section
/-! PROOFS. Compaction: examinations, the copying of pages, the end (R132 to R136; O51). -/

open Sys2Proof Sys2Proof.Machine

namespace Sys2Proof.Machine

/-! ### One examination (R133) -/

/-- The first element of a strictly sorted list with a property is its least one. -/
theorem List.find?_least {α : Type} (f : α → Nat) (p : α → Bool) {l : List α} (hl : l.Pairwise (fun a b => f a < f b)) {a : α} :
    l.find? p = some a ↔ a ∈ l ∧ p a = true ∧ ∀ b, b ∈ l → p b = true → f a ≤ f b := by
  induction l with
  | nil => simp
  | cons c l ih =>
    obtain ⟨hc, hl⟩ := List.pairwise_cons.1 hl
    by_cases hp : p c = true
    · rw [List.find?_cons_of_pos hp]
      constructor
      · rintro h
        obtain rfl := Option.some.inj h
        refine ⟨List.mem_cons_self, hp, fun b hb _ => ?_⟩
        obtain rfl | hb := List.mem_cons.1 hb
        · exact le_rfl
        · exact (hc b hb).le
      · rintro ⟨ha, -, hmin⟩
        obtain rfl | ha := List.mem_cons.1 ha
        · rfl
        · exact absurd (hmin c List.mem_cons_self hp) (Nat.not_le.2 (hc a ha))
    · rw [List.find?_cons_of_neg hp, ih hl]
      have hne (b : α) (hb : p b = true) : b ∈ c :: l ↔ b ∈ l :=
        ⟨fun h => (List.mem_cons.1 h).resolve_left fun e => hp (e ▸ hb), List.mem_cons_of_mem c⟩
      constructor
      · rintro ⟨ha, hpa, hmin⟩
        exact ⟨(hne a hpa).2 ha, hpa, fun b hb hpb => hmin b ((hne b hpb).1 hb) hpb⟩
      · rintro ⟨ha, hpa, hmin⟩
        exact ⟨(hne a hpa).1 ha, hpa, fun b hb hpb => hmin b ((hne b hpb).2 hb) hpb⟩

/-- The table is in strict base order. -/
def DelayState.Sorted (d : DelayState) : Prop := d.segments.Pairwise (fun g h => g.base < h.base)

theorem DelayState.nextExamined_iff {d : DelayState} (hd : d.Sorted) {c : CompactionRec} {g : Segment} :
    d.nextExamined c = some g ↔ d.nextSegment c g := by
  have hp (h : Segment) : (decide (c.scanStart ≤ h.base) && !c.examined.contains h.output) = true ↔
      c.scanStart ≤ h.base ∧ h.output ∉ c.examined := by simp
  rw [DelayState.nextExamined, List.find?_least Segment.base _ hd]
  simp only [hp]
  exact ⟨fun ⟨h1, ⟨h2, h3⟩, h4⟩ => ⟨h1, h2, h3, fun h hm hs he => h4 h hm ⟨hs, he⟩⟩,
    fun ⟨h1, h2, h3, h4⟩ => ⟨h1, ⟨h2, h3⟩, fun h hm ⟨hs, he⟩ => h4 h hm hs he⟩⟩

theorem DelayState.nextExamined_mem {d : DelayState} {c : CompactionRec} {g : Segment} (h : d.nextExamined c = some g) :
    g ∈ d.segments ∧ g.output ∉ c.examined := by
  have hp := List.find?_some h
  simp only [Bool.and_eq_true, decide_eq_true_eq, Bool.not_eq_true', List.contains_eq_mem, decide_eq_false_iff_not] at hp
  exact ⟨List.mem_of_find?_eq_some h, hp.2⟩

theorem DelayState.moveTarget_eq (d : DelayState) (start : Nat) (g : Segment) : d.moveTarget start g =
    (List.range g.base).find? (fun b => decide (start ≤ b) && (List.range g.count).all (fun i =>
      decide (b + i < pageTotal) && !d.pageBad (b + i) && (d.pageFree (b + i) || g.hasPage (b + i)))) := by
  rw [DelayState.moveTarget, List.find?_filter]
  simp only [Bool.decide_and, Bool.decide_eq_true]

theorem DelayState.lowerRun_iff (d : DelayState) (start : Nat) (g : Segment) (b : Nat) : d.lowerRun start g b ↔ b < g.base ∧
    (decide (start ≤ b) && (List.range g.count).all (fun i =>
      decide (b + i < pageTotal) && !d.pageBad (b + i) && (d.pageFree (b + i) || g.hasPage (b + i)))) = true := by
  simp only [DelayState.lowerRun, Bool.and_eq_true, decide_eq_true_eq, List.all_eq_true, List.mem_range, Bool.not_eq_true',
    Bool.or_eq_true, and_assoc]
  exact and_left_comm

theorem DelayState.moveTarget_iff {d : DelayState} {start b : Nat} {g : Segment} :
    d.moveTarget start g = some b ↔ d.lowerRun start g b ∧ ∀ b', b' < b → ¬ d.lowerRun start g b' := by
  rw [DelayState.moveTarget_eq, List.find?_range_eq_some]
  simp only [DelayState.lowerRun_iff, List.mem_range]
  constructor
  · rintro ⟨hp, hb, hmin⟩
    exact ⟨⟨hb, hp⟩, fun b' hb' ⟨_, h⟩ => by have := hmin b' hb'; rw [h] at this; cases this⟩
  · rintro ⟨⟨hb, hp⟩, hmin⟩
    exact ⟨hp, hb, fun j hj => by rw [Bool.not_eq_true', ← Bool.not_eq_true]; exact fun h => hmin j hj ⟨by omega, h⟩⟩

theorem DelayState.moveTarget_none {d : DelayState} {start : Nat} {g : Segment} (h : ∀ b, ¬ d.lowerRun start g b) :
    d.moveTarget start g = none := by
  cases hm : d.moveTarget start g with
  | none => rfl
  | some b => exact absurd (DelayState.moveTarget_iff.1 hm).1 (h b)

/-- The record after an examination has passed a segment over (R133). -/
def CompactionRec.passed (c : CompactionRec) (g : Segment) : CompactionRec :=
  { c with examined := c.examined ++ [g.output], scanStart := g.base + g.count }

theorem DelayState.examine_ends {d : DelayState} {c : CompactionRec} (n : Nat) (h : d.nextExamined c = none) :
    DelayState.examine (n + 1) d c = ({ d with compaction := some { c with current := none } }, true) := by
  rw [DelayState.examine, h]

theorem DelayState.examine_passes {d : DelayState} {c : CompactionRec} {g : Segment} (n : Nat) (h : d.nextExamined c = some g)
    (hp : g.change ≠ none ∨ ∀ b, ¬ d.lowerRun c.scanStart g b) :
    DelayState.examine (n + 1) d c = DelayState.examine n d (c.passed g) := by
  rw [DelayState.examine, h]
  dsimp only
  by_cases hc : g.change = none
  · rw [if_neg (by simp [hc]), DelayState.moveTarget_none (hp.resolve_left (not_not.2 hc))]
    rfl
  · rw [if_pos (Option.isSome_iff_ne_none.2 hc)]
    rfl

theorem DelayState.examine_moves {d : DelayState} {c : CompactionRec} {g : Segment} {b : Nat} (n : Nat)
    (h : d.nextExamined c = some g) (hc : g.change = none) (hb : d.lowerRun c.scanStart g b)
    (hmin : ∀ b', b' < b → ¬ d.lowerRun c.scanStart g b') : DelayState.examine (n + 1) d c = (d.moves c g b, false) := by
  rw [DelayState.examine, h]
  dsimp only
  rw [if_neg (by simp [hc]), DelayState.moveTarget_iff.2 ⟨hb, hmin⟩]
  rfl

/-! ### Any number of examinations -/

/-- The number of segments that a compaction has not examined. -/
def DelayState.unseen (d : DelayState) (c : CompactionRec) : Nat :=
  (d.segments.filter (fun g => !c.examined.contains g.output)).length

theorem DelayState.unseen_lt_fuel (d : DelayState) (c : CompactionRec) : d.unseen c < examineFuel d :=
  Nat.lt_succ_of_le (List.length_filter_le _ _)

theorem DelayState.unseen_passed {d : DelayState} {c : CompactionRec} {g : Segment} (hg : g ∈ d.segments)
    (hn : g.output ∉ c.examined) : d.unseen (c.passed g) < d.unseen c := by
  have hfilter : d.segments.filter (fun h => !(c.passed g).examined.contains h.output) =
      (d.segments.filter (fun h => !c.examined.contains h.output)).filter (fun h => h.output != g.output) := by
    rw [List.filter_filter]
    refine List.filter_congr fun h _ => ?_
    simp [CompactionRec.passed, bne, Bool.beq_eq_decide_eq, Bool.and_comm]
  rw [DelayState.unseen, hfilter]
  exact List.length_filter_lt_length_iff_exists.2
    ⟨g, List.mem_filter.2 ⟨hg, by simpa using hn⟩, by simp⟩

/-- The examinations run on to any record that passing segments over leads to (R133). -/
theorem DelayState.examine_reaches {d : DelayState} (hd : d.Sorted) {c0 c : CompactionRec}
    (h : Relation.ReflTransGen d.passesOver c0 c) (n : Nat) (hn : d.unseen c0 < n) :
    ∃ k, DelayState.examine n d c0 = DelayState.examine (k + 1) d c := by
  induction h using Relation.ReflTransGen.head_induction_on generalizing n with
  | refl =>
    obtain ⟨k, rfl⟩ : ∃ k, n = k + 1 := ⟨n - 1, by omega⟩
    exact ⟨k, rfl⟩
  | @head c1 c2 hstep _ ih =>
    obtain ⟨g, hnext, hp, rfl⟩ := hstep
    obtain ⟨k, rfl⟩ : ∃ k, n = k + 1 := ⟨n - 1, by omega⟩
    have hexamined := (DelayState.nextExamined_iff hd).2 hnext
    obtain ⟨hg, -, hex, -⟩ := hnext
    have hless := DelayState.unseen_passed hg hex
    rw [DelayState.examine_passes k hexamined hp]
    exact ih k (by change d.unseen (c1.passed g) < k; omega)

/-! ### The end of a compaction (R136) -/

theorem State.endCompaction_eq (s : State) (c : CompactionRec) : s.endCompaction c = s.compactionEnds c := rfl

theorem State.endCompaction_record (s : State) (x : Option CompactionRec) (c : CompactionRec) :
    (s.setDelay { s.delay with compaction := x }).endCompaction { c with current := none } = s.compactionEnds c := rfl

theorem State.continueCompaction_aborted {s : State} {c : CompactionRec} (h : c.abort = true) :
    s.continueCompaction c = s.compactionEnds c := by
  rw [State.continueCompaction, if_pos h]; rfl

theorem State.continueCompaction_moves {s : State} {c : CompactionRec} {d : DelayState} (h : c.abort = false)
    (he : DelayState.examine (examineFuel s.delay) s.delay c = (d, false)) : s.continueCompaction c = s.setDelay d := by
  rw [State.continueCompaction, if_neg (by simp [h]), he]
  rfl

theorem State.continueCompaction_ends {s : State} {c c' : CompactionRec} (h : c.abort = false)
    (he : DelayState.examine (examineFuel s.delay) s.delay c =
      ({ s.delay with compaction := some { c' with current := none } }, true)) :
    s.continueCompaction c = s.compactionEnds c' := by
  rw [State.continueCompaction, if_neg (by simp [h]), he]
  exact s.endCompaction_record _ c'

/-- Where the examinations of a compaction lead (R133): to a move, or to its end. -/
theorem State.continueCompaction_spec {s : State} (hd : s.delay.Sorted) {c0 c : CompactionRec} (ha : c0.abort = false)
    (h : Relation.ReflTransGen s.delay.passesOver c0 c) :
    (∀ g b, s.delay.nextSegment c g → g.change = none → s.delay.lowerRun c.scanStart g b →
      (∀ b', b' < b → ¬ s.delay.lowerRun c.scanStart g b') → s.continueCompaction c0 = s.setDelay (s.delay.moves c g b)) ∧
    ((∀ g, ¬ s.delay.nextSegment c g) → s.continueCompaction c0 = s.compactionEnds c) := by
  obtain ⟨k, hk⟩ := DelayState.examine_reaches hd h _ (s.delay.unseen_lt_fuel c0)
  refine ⟨fun g b hg hc hb hmin => State.continueCompaction_moves ha ?_, fun hnone => State.continueCompaction_ends ha ?_⟩
  · rw [hk, DelayState.examine_moves k ((DelayState.nextExamined_iff hd).2 hg) hc hb hmin]
  · rw [hk, DelayState.examine_ends k]
    cases hn : s.delay.nextExamined c with
    | none => rfl
    | some g => exact absurd ((DelayState.nextExamined_iff hd).1 hn) (hnone g)

/-! ### What a compaction that goes on leaves, whatever the table (R133, R135, R136) -/

/-- The record that examinations leave: slot, count and abort are kept, and the examined segments stay examined. -/
structure CompactionRec.Goes (c c' : CompactionRec) : Prop where
  slot : c'.slot = c.slot
  moved : c'.moved = c.moved
  abort : c'.abort = c.abort
  examined : ∀ o, o ∈ c.examined → o ∈ c'.examined

theorem DelayState.examine_outcome (n : Nat) (d : DelayState) (c : CompactionRec) : ∃ c', c.Goes c' ∧
    (DelayState.examine n d c = ({ d with compaction := some c' }, true) ∨
      ∃ g b, d.nextExamined c' = some g ∧ DelayState.examine n d c = (d.moves c' g b, false)) := by
  induction n generalizing c with
  | zero => exact ⟨c, ⟨rfl, rfl, rfl, fun _ => id⟩, .inl rfl⟩
  | succ n ih =>
    cases hn : d.nextExamined c with
    | none => exact ⟨{ c with current := none }, ⟨rfl, rfl, rfl, fun _ => id⟩, .inl (DelayState.examine_ends n hn)⟩
    | some g =>
      by_cases hp : g.change ≠ none ∨ ∀ b, ¬ d.lowerRun c.scanStart g b
      · obtain ⟨c', ⟨h1, h2, h3, h4⟩, h⟩ := ih (c.passed g)
        rw [DelayState.examine_passes n hn hp]
        exact ⟨c', ⟨h1, h2, h3, fun o ho => h4 o (List.mem_append_left _ ho)⟩, h⟩
      · obtain ⟨hc, hb⟩ := not_or.1 hp
        obtain ⟨b, hb⟩ := not_forall.1 hb
        classical
        refine ⟨c, ⟨rfl, rfl, rfl, fun _ => id⟩, .inr ⟨g, Nat.find ⟨b, not_not.1 hb⟩, hn, ?_⟩⟩
        exact DelayState.examine_moves n hn (not_not.1 hc) (Nat.find_spec ⟨b, not_not.1 hb⟩) fun b' hb' => Nat.find_min _ hb'

theorem State.compactionEnds_goes {c c' : CompactionRec} (h : c.Goes c') (s : State) : s.compactionEnds c' = s.compactionEnds c := by
  simp only [State.compactionEnds, h.slot, h.moved, h.abort]

theorem State.compactionEnds_delay {s : State} (h : s.delay.starved = []) (c : CompactionRec) :
    (s.compactionEnds c).delay = { s.delay with compaction := none } ∧
    onlyChanges [.delay, .slots, .ports] s (s.compactionEnds c) := by
  have hretry : s.delay.starved.foldl State.retryOne (s.setDelay { s.delay with compaction := none }) =
      s.setDelay { s.delay with compaction := none } := by rw [h]; rfl
  rw [State.compactionEnds]
  dsimp only
  rw [hretry]
  have hframe := (State.complete_frame (s.setDelay { s.delay with compaction := none }) c.slot
    (if c.abort = true then .aborted else .done) (halfBytes (BitVec.ofNat 16 c.moved) ++
      halfBytes (BitVec.ofNat 16 (s.setDelay { s.delay with compaction := none }).delay.largestHole))).1
  exact ⟨hframe .delay (by decide), ((s.setDelay_frame _).1.mono).trans hframe.mono⟩

/-- The end of a compaction ends its slot with the pages moved and the largest hole (R136). -/
theorem State.compactionEnds_posts (s : State) (c : CompactionRec) {b : SlotBody} (hb : canPost s c.slot b) :
    slotPosted s (s.compactionEnds c) c.slot b (if c.abort = true then .aborted else .done)
      (halfBytes (BitVec.ofNat 16 c.moved) ++ halfBytes (BitVec.ofNat 16 (s.compactionEnds c).delay.largestHole)) := by
  have hquiet : QuietStep (s.setDelay { s.delay with compaction := none })
      (s.delay.starved.foldl State.retryOne (s.setDelay { s.delay with compaction := none })) :=
    QuietStep.foldl _ State.retryOne_quiet _ _
  have hmeets : Meets s (s.delay.starved.foldl State.retryOne (s.setDelay { s.delay with compaction := none })) :=
    ⟨hquiet.slots, hquiet.raised⟩
  rw [State.compactionEnds]
  dsimp only
  generalize s.delay.starved.foldl State.retryOne _ = v at hmeets ⊢
  obtain ⟨-, -, -, hposted⟩ := slotEnded_of_meets (k := some c.slot) (hmeets.completeOpt (some c.slot)
    (if c.abort = true then .aborted else .done)
    (halfBytes (BitVec.ofNat 16 c.moved) ++ halfBytes (BitVec.ofNat 16 v.delay.largestHole)))
  have hdelay : (v.complete c.slot (if c.abort = true then .aborted else .done)
      (halfBytes (BitVec.ofNat 16 c.moved) ++ halfBytes (BitVec.ofNat 16 v.delay.largestHole))).delay = v.delay :=
    (State.complete_frame v c.slot _ _).1 .delay (by decide)
  rw [hdelay]
  exact hposted c.slot b rfl hb

/-- What a compaction that goes on leaves of an examined segment, of the memory and of its own record. -/
structure GoesOn (o : Fin 13) (c : CompactionRec) (s t : State) : Prop where
  segment : t.delay.segment o = s.delay.segment o
  dram : t.delay.dram = s.delay.dram
  record : ∀ c', t.delay.compaction = some c' →
    c'.moved = c.moved ∧ c'.slot = c.slot ∧ c'.abort = false ∧ t.slots = s.slots ∧ t.ports = s.ports
  ends : c.abort = true ∨ (∀ x, x ∈ s.delay.segments → x.output ∈ c.examined) → t.delay.compaction = none
  posts : t.delay.compaction = none → t = s.compactionEnds c
  changes : onlyChanges [.delay, .slots, .ports] s t

theorem GoesOn.of_ends {s t : State} {c : CompactionRec} (hs : s.delay.starved = []) (h : t = s.compactionEnds c) (o : Fin 13) :
    GoesOn o c s t := by
  obtain ⟨hdelay, hchanges⟩ := s.compactionEnds_delay hs c
  rw [← h] at hdelay hchanges
  refine ⟨by rw [hdelay]; rfl, by rw [hdelay], fun c' hc' => ?_, fun _ => by rw [hdelay], fun _ => h, hchanges⟩
  rw [hdelay] at hc'
  cases hc'

theorem State.continueCompaction_goesOn {s : State} {c : CompactionRec} {o : Fin 13} (hs : s.delay.starved = [])
    (ho : o ∈ c.examined) : GoesOn o c s (s.continueCompaction c) := by
  cases ha : c.abort with
  | true => exact .of_ends hs (State.continueCompaction_aborted ha) o
  | false =>
    obtain ⟨c', hgoes, he | ⟨g, b, hg, he⟩⟩ := DelayState.examine_outcome (examineFuel s.delay) s.delay c
    · refine .of_ends hs ?_ o
      rw [State.continueCompaction, if_neg (by simp [ha]), he]
      exact State.compactionEnds_goes hgoes s
    · have heq := State.continueCompaction_moves ha he
      obtain ⟨hmem, hnot⟩ := DelayState.nextExamined_mem hg
      have hne : o ≠ g.output := fun e => hnot (e ▸ hgoes.examined o ho)
      rw [heq]
      refine ⟨DelayState.segment_setSegment_ne (d := { s.delay with compaction := _ })
          { g with move := some { target := b, stage := .ramp, copied := 0 } } hne, rfl, fun x hx => ?_, fun hall => ?_,
        fun h => (nomatch h), (s.setDelay_frame _).1.mono⟩
      · obtain rfl := Option.some.inj hx
        exact ⟨hgoes.moved, hgoes.slot, hgoes.abort.trans ha, rfl, rfl⟩
      · obtain hall | hall := hall
        · rw [ha] at hall; cases hall
        · exact absurd (hgoes.examined _ (hall g hmem)) hnot

/-! ### The copying of a page (R134) -/

theorem Dram.read_copying (m : Dram) {src dst n : Nat} (h : src = dst ∨ src + n ≤ dst ∨ dst + n ≤ src) (k : Nat) (hk : k ≤ n)
    (a : Nat) : Dram.read ((List.range k).foldl (fun m i => Dram.write m (dst + i) (Dram.read m (src + i))) m) a =
      if dst ≤ a ∧ a < dst + k then Dram.read m (src + (a - dst)) else Dram.read m a := by
  induction k generalizing a with
  | zero => rw [if_neg (by omega)]; rfl
  | succ k ih =>
    have hword := ih (by omega) (src + k)
    rw [if_neg (by omega)] at hword
    rw [List.range_succ, List.foldl_append, List.foldl_cons, List.foldl_nil, Dram.read_write, hword, ih (by omega)]
    by_cases ha : a = dst + k
    · rw [if_pos ha, if_pos (by omega), ha, Nat.add_sub_cancel_left]
    · rw [if_neg ha]
      exact if_congr (by omega) rfl rfl

/-- A copy between runs that are the same or apart. -/
theorem Dram.read_copy (m : Dram) {src dst n : Nat} (h : src = dst ∨ src + n ≤ dst ∨ dst + n ≤ src) (a : Nat) :
    Dram.read (Dram.copy m src dst n) a = if dst ≤ a ∧ a < dst + n then Dram.read m (src + (a - dst)) else Dram.read m a :=
  Dram.read_copying m h n le_rfl a

theorem DelayState.pageCopied_dram (d : DelayState) (g : Segment) (m : MoveRec) : (d.pageCopied g m).dram =
    Dram.copy d.dram ((g.base + m.copied) * 256) ((m.target + m.copied) * 256) 256 := by
  rw [DelayState.pageCopied, show pageWords = 256 from rfl]

/-- The words of one copied page, and the others (R134). -/
theorem DelayState.pageCopied_reads (d : DelayState) (g : Segment) (m : MoveRec) :
    (∀ i, i < 256 → (d.pageCopied g m).dram.read ((m.target + m.copied) * 256 + i) =
      d.dram.read ((g.base + m.copied) * 256 + i)) ∧
    ∀ a, a < (m.target + m.copied) * 256 ∨ (m.target + m.copied) * 256 + 256 ≤ a →
      (d.pageCopied g m).dram.read a = d.dram.read a := by
  rw [DelayState.pageCopied_dram]
  generalize g.base + m.copied = x
  generalize m.target + m.copied = y
  have hapart : x * 256 = y * 256 ∨ x * 256 + 256 ≤ y * 256 ∨ y * 256 + 256 ≤ x * 256 := by omega
  refine ⟨fun i hi => ?_, fun a ha => ?_⟩
  · rw [Dram.read_copy _ hapart, if_pos (by omega), Nat.add_sub_cancel_left]
  · rw [Dram.read_copy _ hapart, if_neg (by omega)]

end Sys2Proof.Machine

end

section
/-! PROOFS. PAGE_COPY and Compact Delay Memory (R132 to R136; O51). -/

open Sys2Proof Sys2Proof.Machine

namespace Sys2Proof.Machine

/-! ### PAGE_COPY (R134) -/

theorem exec_pageCopy {s : State} (h : s.delay.inDram = true) : exec .pageCopy s = .next s.pageCopies := if_pos h

theorem State.pageCopies_still {s : State} (h : s.delay.compaction = none ∨ ∀ c o, s.delay.compaction = some c →
    c.current = some o → ∀ g m, s.delay.segment o = some g → g.move = some m → m.stage = .ramp) : s.pageCopies = s := by
  unfold State.pageCopies
  split
  · rfl
  · next c hc =>
    split
    · rfl
    · next g hg =>
      split
      · rfl
      · next m hm =>
        obtain ⟨o, ho, hs⟩ := Option.bind_eq_some_iff.1 hg
        obtain h | h := h
        · rw [hc] at h; cases h
        · rw [if_neg (by rw [h c o hc ho g m hs hm]; decide)]

/-- The move that the compaction copies. -/
structure Copies (s : State) (c : CompactionRec) (o : Fin 13) (g : Segment) (m : MoveRec) : Prop where
  compaction : s.delay.compaction = some c
  current : c.current = some o
  segment : s.delay.segment o = some g
  move : g.move = some m
  stage : m.stage = .copy

theorem Copies.output {s : State} {c : CompactionRec} {o : Fin 13} {g : Segment} {m : MoveRec} (h : Copies s c o g m) :
    g.output = o := (DelayState.segment_mem h.segment).2

theorem Copies.pageCopies {s : State} {c : CompactionRec} {o : Fin 13} {g : Segment} {m : MoveRec} (h : Copies s c o g m) :
    s.pageCopies = s.copyMove c g m := by
  have hbind : c.current.bind s.delay.segment = some g := by rw [h.current]; exact h.segment
  rw [State.pageCopies, h.compaction]
  dsimp only
  rw [hbind]
  dsimp only
  rw [h.move]
  exact if_pos h.stage

/-- The segment at the end of its move (R134). -/
def Segment.landed (g : Segment) (m : MoveRec) : Segment :=
  { g with base := m.target, writePos := g.writePos + m.target * 256 - g.base * 256, move := none }

/-- The segment after the copy of one of its pages (R134). -/
def Segment.onePage (g : Segment) (m : MoveRec) : Segment := { g with move := some { m with copied := m.copied + 1 } }

/-- The controller at the end of a move. -/
def DelayState.moveDone (d : DelayState) (g : Segment) (m : MoveRec) : DelayState := (d.copyPage g m).finishMove g m

/-- The record of a compaction at the end of a move (R133). -/
def CompactionRec.moveDone (c : CompactionRec) (g : Segment) (m : MoveRec) : CompactionRec :=
  { c with current := none, moved := c.moved + g.count, scanStart := m.target + g.count }

theorem State.copyMove_goes {s : State} {c : CompactionRec} {g : Segment} {m : MoveRec} (h : m.copied + 1 < g.count) :
    s.copyMove c g m = s.setDelay ((s.delay.pageCopied g m).setSegment g.output (g.onePage m)) := by
  rw [State.copyMove, if_neg (by omega), DelayState.copyPage_eq, Segment.onePage]

theorem State.copyMove_ends {s : State} {c : CompactionRec} {g : Segment} {m : MoveRec} (h : g.count ≤ m.copied + 1) :
    s.copyMove c g m = (s.setDelay (s.delay.moveDone g m)).continueCompaction (c.moveDone g m) := by
  rw [State.copyMove, if_pos h, State.endMove, DelayState.moveDone, CompactionRec.moveDone]
  rfl

theorem DelayState.moveDone_eq (d : DelayState) (g : Segment) (m : MoveRec) :
    d.moveDone g m = (d.pageCopied g m).setSegment g.output (g.landed m) := by
  have h := congrFun (DelayState.setSegment_setSegment (d.pageCopied g m) g (g.onePage m) rfl) (g.landed m)
  rw [← h, DelayState.moveDone, DelayState.copyPage_eq, DelayState.finishMove, Segment.landed, Segment.onePage]
  rfl

theorem DelayState.pageCopied_segment (d : DelayState) (g : Segment) (m : MoveRec) (o : Fin 13) :
    (d.pageCopied g m).segment o = d.segment o := by
  simp only [DelayState.segment, DelayState.pageCopied]

/-- The controller after the copy of a page, whatever the record that the segment takes. -/
structure Copied (d : DelayState) (g h : Segment) (m : MoveRec) (d' : DelayState) : Prop where
  self : d'.segment g.output = some h
  others : ∀ q, q ≠ g.output → d'.segment q = d.segment q
  outputs : ∀ x, x ∈ d'.segments → x.output = g.output ∨ x ∈ d.segments
  moved : ∀ i, i < 256 → d'.dram.read ((m.target + m.copied) * 256 + i) = d.dram.read ((g.base + m.copied) * 256 + i)
  words : ∀ a, a < (m.target + m.copied) * 256 ∨ (m.target + m.copied) * 256 + 256 ≤ a → d'.dram.read a = d.dram.read a
  compaction : d'.compaction = d.compaction
  starved : d'.starved = d.starved
  dref : d'.dref = d.dref

theorem DelayState.pageCopied_copied (d : DelayState) {g h : Segment} (m : MoveRec) (ho : h.output = g.output) :
    Copied d g h m ((d.pageCopied g m).setSegment g.output h) := by
  obtain ⟨hmoved, hwords⟩ := d.pageCopied_reads g m
  have hself := (d.pageCopied g m).segment_setSegment_self h
  have hothers {q : Fin 13} (hq : q ≠ h.output) := (d.pageCopied g m).segment_setSegment_ne h hq
  rw [ho] at hself hothers
  refine ⟨hself, fun q hq => (hothers hq).trans (d.pageCopied_segment g m q), fun x hx => ?_, ?_, ?_, ?_, ?_, ?_⟩
  · obtain rfl | hx := List.mem_cons.1 ((insertSegment_perm _ _).mem_iff.1 hx)
    · exact .inl ho
    · have hmem := List.mem_of_mem_filter hx
      simp only [DelayState.pageCopied] at hmem
      exact .inr hmem
  · rw [DelayState.setSegment_dram]; exact hmoved
  · rw [DelayState.setSegment_dram]; exact hwords
  · simp only [DelayState.setSegment, DelayState.pageCopied]
  · simp only [DelayState.setSegment, DelayState.pageCopied]
  · simp only [DelayState.setSegment, DelayState.pageCopied]

theorem DelayState.moveDone_copied (d : DelayState) (g : Segment) (m : MoveRec) : Copied d g (g.landed m) m (d.moveDone g m) := by
  rw [DelayState.moveDone_eq]
  exact d.pageCopied_copied m rfl

theorem DelayState.moveDone_sorted {d : DelayState} (h : d.InOrder) {g : Segment} {m : MoveRec} (hs : d.segment g.output = some g)
    (hm : g.move = some m) : (d.moveDone g m).Sorted := by
  have hfinish := (DelayState.finishMove_order (h.pageCopied g m) ((d.pageCopied_segment g m _).trans hs) hm).1
  rw [DelayState.moveDone_eq]
  rw [DelayState.finishMove] at hfinish
  exact hfinish.table.sorted

/-- The last page of a move, and what its compaction goes on to (R134, R135). -/
theorem Copies.ends {s : State} {c : CompactionRec} {o : Fin 13} {g : Segment} {m : MoveRec} (h : Copies s c o g m)
    (hl : g.count ≤ m.copied + 1) : s.pageCopies = (s.setDelay (s.delay.moveDone g m)).continueCompaction (c.moveDone g m) :=
  h.pageCopies.trans (State.copyMove_ends hl)

/-! ### The retry of one starved output (R131) -/

theorem State.retryOne_answer {s : State} {q : Fin 13} {z : Zone} {r : Role} (hz : (s.out q).zone = some z)
    (hr : (s.out q).role = some r) (hq : q ∈ s.delay.starved) (hup : (s.zone z).isUp = true) :
    (∀ e, s.delay.request [(q, s.totalDelay z r)] = .error e → s.retryOne q = s) ∧
    ∀ d, s.delay.request [(q, s.totalDelay z r)] = .ok d →
      s.retryOne q = (((s.setDelay d).leaveStarved q).becomeGranted q z r).raiseChannel q channelStarved := by
  have htest : (s.delay.starved.contains q && (s.zone z).isUp) = true := by simp [hq, hup]
  rw [State.retryOne, hz, hr]
  dsimp only
  rw [if_pos htest, State.requestOne]
  exact ⟨fun e he => by rw [he]; rfl, fun d hd => by rw [hd]; rfl⟩

/-- What the retry of the one starved output leaves (R131). -/
structure RetriesOne (q : Fin 13) (z : Zone) (r : Role) (d : DelayState) (s t : State) : Prop where
  refused : ∀ e, d.request [(q, s.totalDelay z r)] = .error e → t.delay = d ∧ t.outputs = s.outputs
  granted : ∀ d', d.request [(q, s.totalDelay z r)] = .ok d' → t.delay = { d' with starved := [] } ∧
    t.out q = grantedRec q z r ∧ (∀ x, x ≠ q → t.out x = s.out x) ∧
    reported t .channel { EventDetail.zero with outputs := outputBit q, reasons := 2 }

theorem State.setDelay_retriesOne {s : State} {d : DelayState} {q : Fin 13} {z : Zone} {r : Role} (hz : (s.out q).zone = some z)
    (hr : (s.out q).role = some r) (hup : (s.zone z).isUp = true) (hd : d.starved = [q]) (hdref : d.dref = s.delay.dref) :
    RetriesOne q z r d s ((s.setDelay d).retryOne q) := by
  have htotal : (s.setDelay d).totalDelay z r = s.totalDelay z r := 
    State.totalDelay_congr (s := s) (t := s.setDelay d) (fun _ => rfl) hdref (fun _ => rfl) z r
  obtain ⟨herror, hok⟩ := State.retryOne_answer (s := s.setDelay d) hz hr (by rw [State.setDelay_delay, hd]; exact List.mem_singleton_self q) hup
  rw [htotal] at herror hok
  refine ⟨fun e he => ?_, fun d' hd' => ?_⟩
  · rw [herror e he]; exact ⟨rfl, rfl⟩
  · have hstarved : d'.starved = [q] := by rw [DelayState.request_keeps hd']; exact hd
    rw [hok d' hd']
    refine ⟨?_, ?_, fun x hx => ?_, State.raiseChannel_reported _ _ _⟩
    · rw [State.granted_delay]
      change ({ d' with starved := d'.starved.filter (fun p => p != q) } : DelayState) = _
      rw [hstarved]
      simp
    · rw [State.raiseChannel_out, State.becomeGranted_out]
    · rw [State.granted_out_ne _ _ _ _ hx]; rfl

/-! ### The end that an abort brings -/

theorem State.moveDone_aborted {s : State} {d : DelayState} {c : CompactionRec} {q : Fin 13} {z : Zone} {r : Role}
    (hz : (s.out q).zone = some z) (hr : (s.out q).role = some r) (hup : (s.zone z).isUp = true) (hd : d.starved = [q])
    (hdref : d.dref = s.delay.dref) :
    RetriesOne q z r { d with compaction := none } s ((s.setDelay d).compactionEnds c) ∧
    onlyChanges [.zones, .outputs, .delay, .slots, .ports] s ((s.setDelay d).compactionEnds c) := by
  have hone : RetriesOne q z r { d with compaction := none } s ((s.setDelay { d with compaction := none }).retryOne q) :=
    State.setDelay_retriesOne (d := { d with compaction := none }) hz hr hup hd hdref
  have hquiet := (s.setDelay { d with compaction := none }).retryOne_quiet q
  have hstart : onlyChanges [.delay] s (s.setDelay { d with compaction := none }) := (s.setDelay_frame _).1
  have heq : (s.setDelay d).compactionEnds c =
      ((s.setDelay { d with compaction := none }).retryOne q).complete c.slot (if c.abort = true then .aborted else .done)
        (halfBytes (BitVec.ofNat 16 c.moved) ++ halfBytes (BitVec.ofNat 16
          ((s.setDelay { d with compaction := none }).retryOne q).delay.largestHole)) := by
    have hfold : (s.setDelay d).delay.starved.foldl State.retryOne
        ((s.setDelay d).setDelay { (s.setDelay d).delay with compaction := none }) =
        (s.setDelay { d with compaction := none }).retryOne q :=
      congrArg (fun l => l.foldl State.retryOne (s.setDelay { d with compaction := none })) hd
    rw [State.compactionEnds]
    dsimp only
    rw [hfold]
  rw [heq]
  generalize (s.setDelay { d with compaction := none }).retryOne q = v at hone hquiet ⊢
  have hgrown : eventsGrow v _ := .of_events_eq (v.complete_events c.slot (if c.abort = true then .aborted else .done)
    (halfBytes (BitVec.ofNat 16 c.moved) ++ halfBytes (BitVec.ofNat 16 v.delay.largestHole)))
  have hframe := (v.complete_frame c.slot (if c.abort = true then .aborted else .done)
    (halfBytes (BitVec.ofNat 16 c.moved) ++ halfBytes (BitVec.ofNat 16 v.delay.largestHole))).1
  generalize v.complete c.slot _ _ = t at hgrown hframe ⊢
  have hdelay : t.delay = v.delay := hframe .delay (by decide)
  have houtputs : t.outputs = v.outputs := hframe .outputs (by decide)
  have hout (o : Fin 13) : t.out o = v.out o := by rw [State.out, houtputs]; rfl
  obtain ⟨hrefused, hgranted⟩ := hone
  refine ⟨⟨fun e he => ?_, fun d' hd' => ?_⟩, (hstart.mono.trans hquiet.frame.1.mono).trans hframe.mono⟩
  · rw [hdelay, houtputs]; exact hrefused e he
  · obtain ⟨h1, h2, h3, h4⟩ := hgranted d' hd'
    exact ⟨hdelay.trans h1, (hout q).trans h2, fun x hx => (hout x).trans (h3 x hx), h4.mono hgrown⟩

/-! ### Compact Delay Memory (R132) -/

/-- The record of a compaction that starts. -/
def CompactionRec.start (k : Fin 8) : CompactionRec :=
  { slot := k, scanStart := 0, examined := [], current := none, moved := 0, abort := false }

theorem runCmd_compact (x : Ctx) (s : State) :
    (s.delay.state = .initializing ∨ s.delay.compaction ≠ none →
      runCmd x .compactDelayMemory s = (Answer.plain .memoryBusy, s)) ∧
    (s.delay.compaction = none →
      (s.delay.state = .uninit ∨ s.delay.state = .fault → runCmd x .compactDelayMemory s = (Answer.plain .notReady, s)) ∧
      (s.delay.state = .ready →
        (s.freeSlot = none → runCmd x .compactDelayMemory s = (Answer.plain .busy, s)) ∧
        ∀ k, s.freeSlot = some k → runCmd x .compactDelayMemory s =
          (Answer.acceptedIn k, (s.takeSlot k .compact none x).continueCompaction (.start k)))) := by
  simp only [runCmd, doCompact]
  refine ⟨fun h => ?_, fun hc => ⟨fun h => ?_, fun hr => ?_⟩⟩
  · rw [show s.delay.takesRequests = .error .memoryBusy from if_pos (by simpa [Option.isSome_iff_ne_none] using h)]
  · rw [show s.delay.takesRequests = .error .notReady by obtain h | h := h <;> simp [DelayState.takesRequests, h, hc]]
  · rw [show s.delay.takesRequests = .ok () by simp [DelayState.takesRequests, hr, hc]]
    exact ⟨fun hf => by rw [hf], fun k hf => by rw [hf]; rfl⟩

theorem DelayState.nextExamined_start {d : DelayState} {g : Segment} {rest : List Segment} (k : Fin 8) (h : d.segments = g :: rest) :
    d.nextExamined (.start k) = some g := by
  simp [DelayState.nextExamined, h, CompactionRec.start]

theorem DelayState.nextExamined_nil {d : DelayState} (c : CompactionRec) (h : d.segments = []) : d.nextExamined c = none := by
  rw [DelayState.nextExamined, h]; rfl

/-- A slot taken and left again. -/
theorem slots_taken_left {s : State} {k : Fin 8} (h : s.slot k = none) (b : Slot) : (s.slots.set k b).set k none = s.slots := by
  rw [Vector.set_set]
  have hk : s.slots[k] = none := h
  rw [← hk]
  exact Vector.set_getElem_self k.isLt

/-- A compaction of an empty table ends at once (R133, R136). -/
structure EndsAtOnce (p : Port) (h : FrameHead) (k : Fin 8) (s t : State) : Prop where
  slots : t.slots = s.slots
  delay : t.delay = s.delay
  port : t.port p = { s.port p with completions := (s.port p).completions ++
    [{ tag := h.tag, code := 0x61, status := .done, slot := some k, mark := .none
       result := [0, 0] ++ halfBytes (BitVec.ofNat 16 s.delay.largestHole), heldBack := false }] }
  others : ∀ q, q ≠ p → t.port q = s.port q
  changes : onlyChanges [.slots, .ports] s t

theorem compactionEnds_atOnce {s : State} {p : Port} (h : FrameHead) {k : Fin 8} (hk : s.slot k = none)
    (hc : s.delay.compaction = none) (hs : s.delay.starved = []) (hroom : (s.port p).completions.length < 8)
    (hchain : (s.port p).chain ≠ .holding) :
    EndsAtOnce p h k s ((s.setSlot k (unlinkedSlot .compact none p h)).compactionEnds (.start k)) := by
  obtain ⟨u, hu⟩ : ∃ u, u = s.setSlot k (unlinkedSlot .compact none p h) := ⟨_, rfl⟩
  have hdelay : u.delay = s.delay := by rw [hu]; rfl
  have hnone : ({ u.delay with compaction := none } : DelayState) = u.delay := by rw [hdelay, ← hc]
  have hfold : u.delay.starved.foldl State.retryOne (u.setDelay { u.delay with compaction := none }) = u := by
    rw [hnone, hdelay, hs, ← hdelay]; rfl
  have hpost : canPost u k ⟨.compact, p, h.tag, none, .none, false, none⟩ := by
    rw [hu]; exact ⟨State.slot_setSlot_self s k _, hroom, hchain⟩
  have hend : u.compactionEnds (.start k) = u.complete k .done ([0, 0] ++ halfBytes (BitVec.ofNat 16 s.delay.largestHole)) := by
    rw [State.compactionEnds]
    dsimp only
    rw [hfold, hdelay, show halfBytes (BitVec.ofNat 16 (CompactionRec.start k).moved) = [0, 0] by simp only [CompactionRec.start]; decide]
    rfl
  have hframe : onlyChanges [.slots, .ports] s (u.compactionEnds (.start k)) := by
    rw [hend]
    exact ((hu ▸ (s.setSlot_frame k _).1.mono)).trans (u.complete_frame _ _ _).1
  rw [← hu]
  refine ⟨?_, hframe .delay (by decide), ?_, fun q hq => ?_, hframe⟩
  · rw [hend, State.complete_posts hpost, hu]
    exact slots_taken_left hk _
  · rw [hend, State.complete_posts hpost]
    change (u.setPort p _).port p = _
    rw [State.port_setPort_self, hu]
    rfl
  · rw [hend, State.complete_posts hpost]
    change (u.setPort p _).port q = _
    rw [State.port_setPort_ne _ _ hq, hu]
    rfl

/-- Settles O51: examinations run on along `passesOver`, and what the compaction goes on to is said once for its start and
for the end of a move. -/
theorem compactionMovesSegments : Obligations.CompactionMovesSegments := by
  refine ⟨fun p h s ht => ?_, fun s hin => ⟨fun hstill => ?_, fun c o g m hc ho hs hm hst => ?_⟩⟩
  · obtain ⟨hbusy, hfree⟩ := runCmd_compact (unlinked p h) s
    have hsame {x : Answer} (hrun : runCmd (unlinked p h) .compactDelayMemory s = (x, s)) :=
      exec_takenAtOnce_same (c := .compactDelayMemory) rfl ht hrun
    refine ⟨fun hb => hsame (hbusy hb), fun hc => ?_⟩
    obtain ⟨hunready, hready⟩ := hfree hc
    refine ⟨fun hn => hsame (hunready hn), fun hr => ?_⟩
    obtain ⟨hnone, htakes⟩ := hready hr
    refine ⟨fun hf => hsame (hnone hf), fun k hf => ?_⟩
    have hexec {t : State} (heq : (s.setSlot k (unlinkedSlot .compact none p h)).continueCompaction (.start k) = t) :
        exec (.compactDelayMemory p h) s = .next (t.closed p h .compactDelayMemory (Answer.acceptedIn k)) := by
      have hrun := htakes k hf
      rw [State.takeSlot_unlinked, heq] at hrun
      have hk := runCmd_kept (unlinked p h) (c := .compactDelayMemory) s rfl
      rw [hrun] at hk
      exact exec_takenAtOnce_kept (c := .compactDelayMemory) rfl ht hk hrun
    refine ⟨fun g rest b hsegs hg hb hfit hmin => ?_, fun hok c hpasses => ?_, fun hsegs hstarved hroom => ?_⟩
    · refine hexec (State.continueCompaction_moves rfl (DelayState.examine_moves _ (DelayState.nextExamined_start k hsegs) hg
        ⟨Nat.zero_le _, hb, hfit⟩ fun b' hb' ⟨_, _, h⟩ => hmin b' hb' h))
    · have hsorted : s.delay.Sorted := (State.segmentsOk_iff.1 hok).table.sorted
      obtain ⟨hmoves, hends⟩ := State.continueCompaction_spec (s := s.setSlot k (unlinkedSlot .compact none p h)) hsorted
        (c0 := .start k) rfl hpasses
      exact ⟨fun g b hg hgc hb hmin => hexec (hmoves g b hg hgc hb hmin), fun hn => hexec (hends hn)⟩
    · obtain ⟨-, -, hchain, -⟩ := ht
      have hends := compactionEnds_atOnce h (State.freeSlot_some hf) hc hstarved hroom (by rw [hchain]; decide)
      have heq := State.continueCompaction_ends (s := s.setSlot k (unlinkedSlot .compact none p h)) (c := .start k)
        (c' := .start k) rfl (DelayState.examine_ends _ (DelayState.nextExamined_nil _ hsegs))
      generalize (s.setSlot k (unlinkedSlot .compact none p h)).compactionEnds (.start k) = v at hends heq
      have hclosed := v.closed_onlyChanges p h .compactDelayMemory (Answer.acceptedIn k)
      refine ⟨_, hexec heq, hends.delay, hends.slots, ?_, ?_, fun q hq => ?_, hends.changes.trans hclosed.mono⟩
      · rw [State.closed_port_self, hends.port]; rfl
      · rw [State.closed_port_self]; rfl
      · rw [State.closed_port_ne _ _ _ _ hq]; exact hends.others q hq
  · rw [exec_pageCopy hin, State.pageCopies_still hstill]
  · rw [exec_pageCopy hin]
    have hcopies : Copies s c o g m := ⟨hc, ho, hs, hm, hst⟩
    have hout := hcopies.output
    refine ⟨fun hl => ?_, fun hl hex hstarved => ?_, fun hl hok => ?_, fun q z r hl ha hstarved hz hr hup => ?_⟩
    · have hcopied := s.delay.pageCopied_copied m (g := g) (h := g.onePage m) rfl
      rw [hcopies.pageCopies, State.copyMove_goes hl]
      generalize (s.delay.pageCopied g m).setSegment g.output (g.onePage m) = d at hcopied ⊢
      exact ⟨_, rfl, hout ▸ hcopied.self, fun q hq => hcopied.others q (hout ▸ hq), hcopied.moved, hcopied.words,
        hcopied.compaction, (s.setDelay_frame d).1⟩
    · have hcopied := s.delay.moveDone_copied g m
      rw [hcopies.ends hl]
      generalize s.delay.moveDone g m = d at hcopied ⊢
      have hgoes := State.continueCompaction_goesOn (s := s.setDelay d) (c := c.moveDone g m) (o := o)
        (hcopied.starved.trans hstarved) hex
      generalize (s.setDelay d).continueCompaction (c.moveDone g m) = t at hgoes ⊢
      refine ⟨t, rfl, hgoes.segment.trans (hout ▸ hcopied.self), fun i hi => ?_, fun a ha => ?_, hgoes.record, fun hall => ?_,
        fun b hn hb => ?_, (s.setDelay_frame d).1.mono.trans hgoes.changes⟩
      · rw [hgoes.dram]; exact hcopied.moved i hi
      · rw [hgoes.dram]; exact hcopied.words a ha
      · refine hgoes.ends (hall.imp id fun h x hx => ?_)
        obtain hx | hx := hcopied.outputs x hx
        · rw [hx, hout]; exact hex
        · exact h x hx
      · have hposted := State.compactionEnds_posts (s.setDelay d) (c.moveDone g m) (b := b) hb
        rw [← hgoes.posts hn] at hposted
        exact hposted
    · have hsorted := DelayState.moveDone_sorted (State.segmentsOk_iff.1 hok) (hout.symm ▸ hs) hm
      rw [hcopies.ends hl]
      refine ⟨fun ha => ?_, fun ha c' hpasses => ?_⟩
      · rw [State.continueCompaction_aborted (c := c.moveDone g m) ha]; rfl
      · obtain ⟨hmoves, hends⟩ := State.continueCompaction_spec (s := s.setDelay (s.delay.moveDone g m)) hsorted
          (c0 := c.moveDone g m) ha hpasses
        refine ⟨fun g' b hg hgc hb hmin => ?_, fun hn => ?_⟩
        · rw [hmoves g' b hg hgc hb hmin]; rfl
        · rw [hends hn]; rfl
    · have hcopied := s.delay.moveDone_copied g m
      rw [hcopies.ends hl, State.continueCompaction_aborted (c := c.moveDone g m) ha]
      intro moved
      have hmoved : moved = { s.delay.moveDone g m with compaction := none } := rfl
      clear_value moved
      generalize s.delay.moveDone g m = d at hcopied hmoved ⊢
      subst hmoved
      obtain ⟨⟨hrefused, hgranted⟩, hchanges⟩ := State.moveDone_aborted (s := s) (d := d) (c := c.moveDone g m) hz hr
        ((ZoneRec.isUp_iff _).2 hup) (hcopied.starved.trans hstarved) hcopied.dref
      refine ⟨_, rfl, hrefused, hgranted, fun b hb => ?_, hchanges⟩
      have hposted := State.compactionEnds_posts (s.setDelay d) (c.moveDone g m) (b := b) hb
      rw [if_pos (show (c.moveDone g m).abort = true from ha)] at hposted
      exact hposted

end Sys2Proof.Machine

end

section
/-! PROOFS. Samples: mantissas, gain, source and virtual channels, downmix (R73, R93 to R96, R103, R110; O43). -/

open Sys2Proof Sys2Proof.Machine

namespace Sys2Proof.Machine

/-! ### Mantissas (R73) and samples after gain (R110) -/

theorem toInt_ofInt_sample {x : Int} (h1 : -8388608 ≤ x) (h2 : x ≤ 8388607) : (BitVec.ofInt 24 x).toInt = x := by
  rw [BitVec.toInt_ofInt]
  exact Int.bmod_eq_of_le (by norm_num; omega) (by norm_num; omega)

theorem saturate_eq (x : Int) : saturate x = max (-8388608) (min x 8388607) := rfl

theorem saturate_bounds (x : Int) : -8388608 ≤ saturate x ∧ saturate x ≤ 8388607 := by
  rw [saturate_eq]; omega

theorem toSample_toInt (x : Int) : (toSample x).toInt = saturate x := by
  obtain ⟨h1, h2⟩ := saturate_bounds x
  exact toInt_ofInt_sample h1 h2

theorem outputSample_toInt (word : Nat) (x : Int) :
    (outputSample word false x).toInt = saturate ((x * word + 524288) / 1048576) ∧
    (outputSample word true x).toInt = min (-saturate ((x * word + 524288) / 1048576)) 8388607 := by
  obtain ⟨h1, h2⟩ := saturate_bounds ((x * word + 524288) / 1048576)
  rw [outputSample, outputSample, toSample_toInt, toSample_toInt]
  generalize saturate ((x * word + 524288) / 1048576) = y at h1 h2
  rw [if_neg Bool.false_ne_true, if_pos rfl, saturate_eq, saturate_eq]
  omega

/-- A number between −N and N stays so when it is divided. -/
theorem ediv_bounds {a n d : Int} (hd : 1 ≤ d) (hn : 0 ≤ n) (h1 : -n ≤ a) (h2 : a < n) : -n ≤ a / d ∧ a / d < n := by
  refine ⟨Int.le_ediv_of_mul_le (by omega) ?_, Int.ediv_lt_of_lt_mul (by omega) ?_⟩
  · nlinarith
  · nlinarith

theorem mantissa_range {w m : Nat} (hm : m < 2 ^ w) :
    (if 2 ^ w ≤ 2 * m then (m : Int) - 2 ^ w else m) = (BitVec.ofNat w m).toInt ∧
    -2 ^ (w - 1) ≤ (BitVec.ofNat w m).toInt ∧ (BitVec.ofNat w m).toInt < 2 ^ (w - 1) := by
  refine ⟨?_, ?_, BitVec.toInt_lt⟩
  · rw [BitVec.toInt_eq_toNat_cond, BitVec.toNat_ofNat, Nat.mod_eq_of_lt hm]
    by_cases h : 2 ^ w ≤ 2 * m
    · rw [if_pos h, if_neg (by omega)]; push_cast; rfl
    · rw [if_neg h, if_pos (by omega)]
  · exact BitVec.le_toInt _

/-- A mantissa of width `w` is scaled to 24 bits and divided by 2^e (R73). -/
theorem mantissaSample_spec {w e m : Nat} (h1 : 1 ≤ w) (h2 : w ≤ 24) (hm : m < 2 ^ w) :
    (mantissaSample w e m).toInt = ((BitVec.ofNat w m).toInt * 2 ^ (24 - w)) / 2 ^ e ∧
    -8388608 ≤ ((BitVec.ofNat w m).toInt * 2 ^ (24 - w)) / 2 ^ e ∧
    ((BitVec.ofNat w m).toInt * 2 ^ (24 - w)) / 2 ^ e ≤ 8388607 := by
  obtain ⟨hv, hlo, hhi⟩ := mantissa_range hm
  have hscale : (2 : Int) ^ (w - 1) * 2 ^ (24 - w) = 8388608 := by
    rw [← pow_add, show w - 1 + (24 - w) = 23 by omega]; norm_num
  have hpos : (0 : Int) < 2 ^ (24 - w) := by positivity
  have hbounds := ediv_bounds (a := (BitVec.ofNat w m).toInt * 2 ^ (24 - w)) (n := 8388608) (d := 2 ^ e)
    (one_le_pow₀ (by norm_num)) (by norm_num) (by nlinarith) (by nlinarith)
  refine ⟨?_, hbounds.1, by omega⟩
  rw [mantissaSample, hv]
  exact toInt_ofInt_sample hbounds.1 (by omega)

/-! ### Waves -/

theorem Wave.silent_getD (i : Nat) : Wave.silent.getD i 0 = 0 := by
  rw [Wave.silent, List.getD_eq_getElem?_getD, List.getElem?_replicate]
  split <;> rfl

theorem getD_map_range {α : Type} (f : Nat → α) {i n : Nat} (h : i < n) (d : α) : ((List.range n).map f).getD i d = f i := by
  simp [List.getD_eq_getElem?_getD, h]

theorem Wave.of_getD (xs : List Sample) {i : Nat} (h : i < 48) : (Wave.of xs).getD i 0 = (xs.getD i 0).toInt :=
  getD_map_range _ h 0

/-- A fold that adds is the sum of a list. -/
theorem foldl_add_eq_sum {α : Type} (f : α → Int) (l : List α) (a : Int) :
    l.foldl (fun a x => a + f x) a = a + (l.map f).sum := by
  induction l generalizing a with
  | nil => simp
  | cons x l ih => rw [List.foldl_cons, ih, List.map_cons, List.sum_cons, add_assoc]

theorem weighted_getD (terms : List (Int × Wave)) {i : Nat} (h : i < 48) :
    (weighted terms).getD i 0 = saturate (((terms.map (fun t => t.1 * t.2.getD i 0)).sum + 2048) / 4096) := by
  rw [weighted, getD_map_range (n := blockLength) _ h, foldl_add_eq_sum, zero_add, div4096]

theorem meanWave_getD (l r : Wave) {i : Nat} (h : i < 48) :
    (meanWave l r).getD i 0 = saturate (((l.getD i 0 + r.getD i 0) * 2048 + 2048) / 4096) := by
  rw [meanWave, weighted_getD _ h]
  congr 2
  simp
  ring

/-! ### Virtual channel sets (R94 to R96) -/

theorem Position.channel_iff (p : Position) (ch : Channel) : p.channel = some ch ↔ Channel.position ch = some p := by
  cases p <;> cases ch <;> decide

theorem inSet_iff (set : List Position) (ch : Channel) : inSet set ch = true ↔ ∃ p, p ∈ set ∧ p.channel = some ch := by
  simp only [Position.channel_iff, inSet]
  cases hp : Channel.position ch with
  | none => simp
  | some p => simp

theorem Channel.mem_all (ch : Channel) : ch ∈ Channel.all := by cases ch <;> decide

theorem mem_madeChannels {src : List Channel} {made : Channel → Bool} {ch : Channel} : ch ∈ madeChannels src made ↔
    ch = .fl ∨ ch = .fr ∨ (ch = .lfe ∧ Channel.lfe ∈ src) ∨ (ch ≠ .lfe ∧ made ch = true) := by
  rw [madeChannels, List.mem_filter, and_iff_right (Channel.mem_all ch)]
  cases ch <;> simp

theorem twoChannel_iff (set : List Channel) : twoChannel set = true ↔ set = [.fl, .fr] := by
  rw [twoChannel, beq_iff_eq]

/-- The virtual channels of each surround mode (R94 to R96). -/
theorem virtualChannels_spec (src : List Channel) (set : List Position) (ch : Channel) :
    let two := src = [.fl, .fr]
    let speaker := ∃ p, p ∈ set ∧ p.channel = some ch
    virtualChannels .direct src set = src ∧
    (ch ∈ virtualChannels .stereo src set ↔ ch ∈ src ∧ (ch = .fl ∨ ch = .fr ∨ ch = .lfe)) ∧
    (¬ two → virtualChannels .matrix src set = src) ∧
    (two → (ch ∈ virtualChannels .matrix src set ↔
      ch = .fl ∨ ch = .fr ∨ ch = .c ∨ ch = .sl ∨ ch = .sr ∨ ((ch = .bl ∨ ch = .br) ∧ speaker))) ∧
    (ch ∈ virtualChannels .allStereo src set ↔
      ch = .fl ∨ ch = .fr ∨ (ch = .lfe ∧ Channel.lfe ∈ src) ∨ speaker) := by
  dsimp only
  rw [← inSet_iff]
  refine ⟨rfl, ?_, fun h => if_neg ((twoChannel_iff src).not.2 h), fun h => ?_, ?_⟩
  · simp [virtualChannels, or_assoc]
  · rw [virtualChannels, if_pos ((twoChannel_iff src).2 h), mem_madeChannels, h]
    cases ch <;> simp
  · rw [virtualChannels, mem_madeChannels]
    cases ch <;> simp [inSet, Channel.position]

/-! ### The downmix and the virtual channels' samples (R95, R96, R103) -/

theorem downmix_two {k : DownmixCoef} {v : Sound} (h : v.channels = [.fl, .fr]) : downmix k v = (v.get .fl, v.get .fr) :=
  if_pos ((twoChannel_iff _).2 h)

theorem downmix_many {k : DownmixCoef} {v : Sound} (h : v.channels ≠ [.fl, .fr]) {i : Nat} (hi : i < 48) :
    let x := fun ch : Channel => (v.get ch).getD i 0
    (downmix k v).1.getD i 0 =
      saturate ((4096 * x .fl + k.c * x .c + k.s * x .sl + k.s * x .bl + 2896 * x .hl + 2048) / 4096) ∧
    (downmix k v).2.getD i 0 =
      saturate ((4096 * x .fr + k.c * x .c + k.s * x .sr + k.s * x .br + 2896 * x .hr + 2048) / 4096) := by
  have hd : downmix k v = _ := if_neg ((twoChannel_iff _).not.2 h)
  rw [hd, weighted_getD _ hi, weighted_getD _ hi]
  dsimp only
  constructor
  · congr 2
    simp
    ring
  · congr 2
    simp
    ring

/-- The samples of the virtual channels and of the downmix (R94 to R96, R103). -/
theorem virtualWave_spec (k : DownmixCoef) (v : Sound) {i : Nat} (hi : i < 48) :
    let two := v.channels = [.fl, .fr]
    let x := fun ch : Channel => (v.get ch).getD i 0
    let y := fun (mode : SurroundMode) (ch : Channel) => (virtualWave mode k v ch).getD i 0
    let lo := (downmix k v).1.getD i 0
    let ro := (downmix k v).2.getD i 0
    (∀ ch, y .direct ch = x ch ∧ y .stereo ch = x ch ∧ (¬ two → y .matrix ch = x ch)) ∧
    (two → y .matrix .fl = x .fl ∧ y .matrix .fr = x .fr ∧
      y .matrix .c = saturate (((x .fl + x .fr) * 2048 + 2048) / 4096) ∧
      y .matrix .sl = saturate (((x .fl - x .fr) * 2896 + 2048) / 4096) ∧
      y .matrix .sr = saturate (((x .fr - x .fl) * 2896 + 2048) / 4096) ∧
      y .matrix .bl = y .matrix .sl ∧ y .matrix .br = y .matrix .sr) ∧
    (∀ ch, ch = .fl ∨ ch = .sl ∨ ch = .bl ∨ ch = .hl → y .allStereo ch = lo) ∧
    (∀ ch, ch = .fr ∨ ch = .sr ∨ ch = .br ∨ ch = .hr → y .allStereo ch = ro) ∧
    y .allStereo .c = saturate (((lo + ro) * 2048 + 2048) / 4096) ∧ y .allStereo .lfe = x .lfe := by
  dsimp only
  refine ⟨fun ch => ⟨rfl, rfl, fun h => ?_⟩, fun h => ?_, fun ch h => ?_, fun ch h => ?_, meanWave_getD _ _ hi, rfl⟩
  · have hsame : virtualWave .matrix k v ch = v.get ch := if_neg ((twoChannel_iff _).not.2 h)
    rw [hsame]
  · have hmatrix (ch : Channel) (w : Wave) (hw : virtualWave .matrix k v ch = if twoChannel v.channels = true then w else v.get ch) :
        virtualWave .matrix k v ch = w := hw.trans (if_pos ((twoChannel_iff _).2 h))
    have hside (l r : Wave) : (weighted [(2896, l), (-2896, r)]).getD i 0 =
        saturate (((l.getD i 0 - r.getD i 0) * 2896 + 2048) / 4096) := by
      rw [weighted_getD _ hi]
      congr 2
      simp
      ring
    rw [hmatrix .fl _ rfl, hmatrix .fr _ rfl, hmatrix .c _ rfl, hmatrix .sl _ rfl, hmatrix .sr _ rfl, hmatrix .bl _ rfl,
      hmatrix .br _ rfl]
    exact ⟨rfl, rfl, meanWave_getD _ _ hi, hside _ _, hside _ _, rfl, rfl⟩
  · rcases h with rfl | rfl | rfl | rfl <;> rfl
  · rcases h with rfl | rfl | rfl | rfl <;> rfl

theorem State.headerFor_input {s : State} {z : Zone} {i : Fin 12} (hl : (s.zone z).live = .input i) :
    s.headerFor z = if s.boundTo i then s.decoder.header else none := by
  rw [State.headerFor, State.playsBound, hl]

theorem State.downmixCoefs_spec (s : State) (z : Zone) :
    (∀ i h c r, (s.zone z).live = .input i → s.boundTo i = true → s.decoder.header = some h →
      h.downmix = some (c, r) → c ≤ 3 → r ≤ 3 →
      s.downmixCoefs z = ⟨[4096, 3446, 2896, 2440].getD c 0, [4096, 2896, 2048, 0].getD r 0⟩) ∧
    ((∀ i h, (s.zone z).live = .input i → s.boundTo i = true → s.decoder.header = some h → h.downmix = none) →
      s.downmixCoefs z = ⟨2896, 2896⟩) := by
  refine ⟨fun i h c r hl hb hh hd hc hr => ?_, fun hnone => ?_⟩
  · have hcentre : centreCoef c = [4096, 3446, 2896, 2440].getD c 0 := by
      interval_cases c <;> rfl
    have hsurround : surroundCoef r = [4096, 2896, 2048, 0].getD r 0 := by
      interval_cases r <;> rfl
    rw [State.downmixCoefs, State.headerFor_input hl, if_pos hb, hh]
    dsimp only
    rw [hd]
    dsimp only
    rw [hcentre, hsurround]
  · rw [State.downmixCoefs]
    cases hf : s.headerFor z with
    | none => rfl
    | some h =>
      cases hl : (s.zone z).live with
      | tuner => rw [State.headerFor, State.playsBound, hl] at hf; cases hf
      | input i =>
        rw [State.headerFor_input hl] at hf
        by_cases hb : s.boundTo i = true
        · rw [if_pos hb] at hf
          dsimp only
          rw [hnone i h hl hb hf]
          rfl
        · rw [if_neg hb] at hf; cases hf

end Sys2Proof.Machine

end

section
/-! PROOFS. The fold matrix and the speaker sums (R97 to R99; O43). -/

open Sys2Proof Sys2Proof.Machine

namespace Sys2Proof.Machine

/-! ### Coefficients (R97, R98) -/

/-- The sum of the coefficients that a list gives a position. -/
def coefAt (l : List (Position × Nat)) (p : Position) : Nat := ((l.filter (fun e => decide (e.1 = p))).map (·.2)).sum

@[simp] theorem coefAt_nil (p : Position) : coefAt [] p = 0 := rfl

@[simp] theorem coefAt_cons (q : Position) (k : Nat) (l : List (Position × Nat)) (p : Position) :
    coefAt ((q, k) :: l) p = (if q = p then k else 0) + coefAt l p := by
  by_cases h : q = p
  · simp [coefAt, h]
  · simp [coefAt, h]

@[simp] theorem coefAt_append (l m : List (Position × Nat)) (p : Position) : coefAt (l ++ m) p = coefAt l p + coefAt m p := by
  simp [coefAt]

theorem foldCoef_eq (set : List Position) (p : Position) (ch : Channel) : foldCoef set p ch = coefAt (contributions set ch) p := by
  rw [foldCoef, coefAt]
  congr 3

/-- Positions of a list without repeats, each with one coefficient. -/
theorem coefAt_map {l : List Position} (h : l.Nodup) (k : Nat) (p : Position) :
    coefAt (l.map fun q => (q, k)) p = if p ∈ l then k else 0 := by
  induction l with
  | nil => rfl
  | cons q l ih =>
    obtain ⟨hq, hl⟩ := List.nodup_cons.1 h
    rw [List.map_cons, coefAt_cons, ih hl]
    by_cases hp : q = p
    · subst hp; simp [hq]
    · simp [hp, Ne.symm hp]

theorem mulCoef_values : mulCoef 4096 2896 = 2896 ∧ mulCoef 2896 2896 = 2048 ∧ mulCoef 2048 2896 = 1448 ∧
    mulCoef 4096 4096 = 4096 := by decide

/-- A channel whose own position is in the speaker set goes there alone (R97). -/
theorem foldCoef_own {set : List Position} {ch : Channel} {q : Position} (p : Position) (hq : Channel.position ch = some q)
    (hm : q ∈ set) : foldCoef set p ch = if p = q then 4096 else 0 := by
  rw [foldCoef_eq, contributions, hq]
  simp [hm, eq_comm]

theorem Position.isSub_iff (p : Position) : p.isSub = true ↔ p = .sub1 ∨ p = .sub2 := by
  cases p <;> simp [Position.isSub]

/-- LFE goes to every subwoofer of the speaker set (R97). -/
theorem foldCoef_subs {set : List Position} (hn : set.Nodup) {p : Position} (hp : p ∈ set)
    (hs : Position.sub1 ∈ set ∨ Position.sub2 ∈ set) :
    foldCoef set p .lfe = if p = .sub1 ∨ p = .sub2 then 4096 else 0 := by
  have hne : set.filter Position.isSub ≠ [] := by
    obtain hs | hs := hs
    · exact List.ne_nil_of_mem (List.mem_filter.2 ⟨hs, rfl⟩)
    · exact List.ne_nil_of_mem (List.mem_filter.2 ⟨hs, rfl⟩)
  have hsub : contributions set .lfe = (set.filter Position.isSub).map fun q => (q, 4096) := by
    rw [contributions]
    dsimp only [Channel.position]
    cases hf : set.filter Position.isSub with
    | nil => exact absurd hf hne
    | cons q l => rfl
  rw [foldCoef_eq, hsub, coefAt_map (hn.filter _)]
  refine if_congr ?_ rfl rfl
  rw [List.mem_filter, and_iff_right hp, Position.isSub_iff]

theorem coefAt_fronts {l : List Position} (h : l.Nodup) (p : Position) :
    coefAt (l.filterMap fun q => if q = .fl ∨ q = .fr then some (q, 2896) else none) p =
      coefAt (if Position.fl ∈ l then [(.fl, 2896)] else []) p + coefAt (if Position.fr ∈ l then [(.fr, 2896)] else []) p := by
  have hmap : (l.filterMap fun q => if q = .fl ∨ q = .fr then some (q, 2896) else none) =
      (l.filter fun q => decide (q = .fl ∨ q = .fr)).map fun q => (q, 2896) := by
    induction l with
    | nil => rfl
    | cons q l ih =>
      rw [List.filterMap_cons, List.filter_cons, ih (List.nodup_cons.1 h).2]
      by_cases hq : q = .fl ∨ q = .fr
      · simp [hq]
      · simp [hq]
  rw [hmap, coefAt_map (h.filter _)]
  simp only [List.mem_filter, decide_eq_true_eq]
  by_cases hfl : Position.fl ∈ l
  · by_cases hfr : Position.fr ∈ l
    · cases p <;> simp [hfl, hfr]
    · cases p <;> simp [hfl, hfr]
  · by_cases hfr : Position.fr ∈ l
    · cases p <;> simp [hfl, hfr]
    · cases p <;> simp [hfl, hfr]

/-! ### The paths (R98) -/

/-- The path through one entry. -/
theorem foldPaths_one (set : List Position) (n : Nat) (v : List Position) (q : Position) (k coef : Nat) :
    foldPaths set (n + 1) v [(q, k)] coef =
      if q ∈ v then [] else if q ∈ set then [(q, mulCoef coef k)]
      else foldPaths set n (q :: v) (foldTable q) (mulCoef coef k) := by
  simp [foldPaths]

theorem foldPaths_append (set : List Position) (n : Nat) (v : List Position) (l m : List (Position × Nat)) (coef : Nat) :
    foldPaths set (n + 1) v (l ++ m) coef = foldPaths set (n + 1) v l coef ++ foldPaths set (n + 1) v m coef := by
  simp [foldPaths]

/-- The paths that leave C, one front position being where they came from. -/
theorem foldPaths_centre {set : List Position} {near far : Position} {v : List Position} (n coef : Nat) (hn : near ∈ v) (hf : far ∉ v)
    (hset : far ∉ set → foldPaths set n (far :: v) (foldTable far) (mulCoef coef 2896) = [])
    (hpair : (near = .fl ∧ far = .fr) ∨ (near = .fr ∧ far = .fl)) :
    foldPaths set (n + 1) v (foldTable .c) coef = if far ∈ set then [(far, mulCoef coef 2896)] else [] := by
  have htable : foldTable .c = [(.fl, 2896)] ++ [(.fr, 2896)] := rfl
  have hend : foldPaths set (n + 1) v [(far, 2896)] coef = if far ∈ set then [(far, mulCoef coef 2896)] else [] := by
    rw [foldPaths_one, if_neg hf]
    by_cases h : far ∈ set
    · rw [if_pos h, if_pos h]
    · rw [if_neg h, if_neg h, hset h]
  have hnear : foldPaths set (n + 1) v [(near, 2896)] coef = [] := by rw [foldPaths_one, if_pos hn]
  rw [htable, foldPaths_append]
  obtain ⟨rfl, rfl⟩ | ⟨rfl, rfl⟩ := hpair
  · rw [hnear, hend, List.nil_append]
  · rw [hnear, hend, List.append_nil]

/-- The path of a channel that folds to a front position (R97, R98). -/
theorem foldPaths_side {set : List Position} {near far : Position} {v : List Position}
    (hpair : (near = .fl ∧ far = .fr) ∨ (near = .fr ∧ far = .fl)) (hn : near ∉ v) (hf : far ∉ v) (hc : Position.c ∉ v) :
    foldPaths set 3 v [(near, 2896)] 4096 = frontFold set near far 2896 2048 1448 := by
  have htable : foldTable near = [(.c, 2896)] := by obtain ⟨rfl, -⟩ | ⟨rfl, -⟩ := hpair <;> rfl
  have hne : near ≠ .c ∧ far ≠ .c ∧ far ≠ near := by obtain ⟨rfl, rfl⟩ | ⟨rfl, rfl⟩ := hpair <;> decide
  obtain ⟨h1, h2, h3⟩ := hne
  obtain ⟨m1, m2, m3, -⟩ := mulCoef_values
  rw [foldPaths_one, if_neg hn, htable, foldPaths_one, if_neg (show Position.c ∉ near :: v by simp [hc, h1.symm]), m1, m2,
    foldPaths_centre (near := near) (far := far) 0 2048 (by simp) (by simp [h2, h3, hf]) (fun _ => rfl) hpair, m3, frontFold]

/-- The path of a front channel (R97, R98). -/
theorem foldPaths_frontal {set : List Position} {near far : Position}
    (hpair : (near = .fl ∧ far = .fr) ∨ (near = .fr ∧ far = .fl)) :
    foldPaths set 3 [near] (foldTable near) 4096 = frontFold set .c far 2896 0 2048 := by
  have htable (q : Position) (hq : q = near ∨ q = far) : foldTable q = [(.c, 2896)] := by
    obtain ⟨rfl, rfl⟩ | ⟨rfl, rfl⟩ := hpair <;> rcases hq with rfl | rfl <;> rfl
  have hne : near ≠ .c ∧ far ≠ .c ∧ far ≠ near := by obtain ⟨rfl, rfl⟩ | ⟨rfl, rfl⟩ := hpair <;> decide
  obtain ⟨h1, h2, h3⟩ := hne
  obtain ⟨m1, m2, -, -⟩ := mulCoef_values
  rw [htable near (.inl rfl), foldPaths_one, if_neg (by simp [h1.symm]), m1, foldPaths_centre (near := near) (far := far) 1 2896
    (by simp) (by simp [h2, h3]) (fun _ => by rw [htable far (.inr rfl), foldPaths_one, if_pos (by simp)]) hpair, m2, frontFold]
  by_cases hc : Position.c ∈ set
  · simp [hc]
  · simp [hc]

/-- The path of a back channel: to the side position, else on through the front ones; a fourth hop is dropped (R97, R98). -/
theorem foldPaths_back {set : List Position} {back side near far : Position} (hside : back ∉ [side, near, .c])
    (hsides : side ∉ [near, .c]) (hn : near ≠ .c) (ht : foldTable back = [(side, 4096)]) (hts : foldTable side = [(near, 2896)])
    (htn : foldTable near = [(.c, 2896)]) (p : Position) :
    coefAt (foldPaths set 3 [back] (foldTable back) 4096) p =
      coefAt (if side ∈ set then [(side, 4096)] else frontFold set near far 2896 2048 0) p := by
  obtain ⟨m1, m2, -, m4⟩ := mulCoef_values
  simp only [List.mem_cons, List.not_mem_nil, or_false, not_or] at hside hsides
  obtain ⟨b1, b2, b3⟩ := hside
  obtain ⟨s1, s2⟩ := hsides
  rw [ht, foldPaths_one, if_neg (by simpa using Ne.symm b1), m4]
  by_cases h1 : side ∈ set
  · rw [if_pos h1, if_pos h1]
  · rw [if_neg h1, if_neg h1, hts, foldPaths_one, if_neg (by simp [Ne.symm s1, Ne.symm b2]), m1, frontFold]
    by_cases h2 : near ∈ set
    · rw [if_pos h2, if_pos h2]
    · rw [if_neg h2, if_neg h2, htn, foldPaths_one, if_neg (by simp [hn.symm, Ne.symm s2, Ne.symm b3]), m2]
      by_cases h3 : Position.c ∈ set
      · rw [if_pos h3, if_pos h3]
      · rw [if_neg h3, if_neg h3]
        by_cases h4 : far ∈ set
        · simp [foldPaths, h4]
        · simp [foldPaths, h4]

/-- The path of C: to both front positions (R97). -/
theorem foldPaths_c {set : List Position} (hn : set.Nodup) (p : Position) :
    coefAt (foldPaths set 3 [.c] (foldTable .c) 4096) p =
      coefAt (set.filterMap fun q => if q = .fl ∨ q = .fr then some (q, 2896) else none) p := by
  obtain ⟨m1, -⟩ := mulCoef_values
  have hfront (q : Position) (hq : q = .fl ∨ q = .fr) :
      foldPaths set 3 [.c] [(q, 2896)] 4096 = if q ∈ set then [(q, 2896)] else [] := by
    have hqc : q ≠ .c := by rcases hq with rfl | rfl <;> decide
    have htable : foldTable q = [(.c, 2896)] := by rcases hq with rfl | rfl <;> rfl
    rw [foldPaths_one, if_neg (by simpa using hqc), m1, htable, foldPaths_one, if_pos (show Position.c ∈ [q, .c] by simp)]
  rw [coefAt_fronts hn, show foldTable .c = [(.fl, 2896)] ++ [(.fr, 2896)] from rfl, foldPaths_append,
    hfront .fl (.inl rfl), hfront .fr (.inr rfl), coefAt_append]

/-- What a channel without its own position, and for LFE without a subwoofer, gives the positions it reaches (R97, R98). -/
theorem foldCoef_ends {set : List Position} (hn : set.Nodup) (p : Position) {ch : Channel}
    (hown : ∀ q, Channel.position ch = some q → q ∉ set)
    (hsubs : ¬ (ch = .lfe ∧ (Position.sub1 ∈ set ∨ Position.sub2 ∈ set))) :
    foldCoef set p ch = coefAt (foldEnds set ch) p := by
  have hpath (q : Position) (hq : Channel.position ch = some q) :
      contributions set ch = foldPaths set 3 [q] (foldTable q) 4096 := by
    rw [contributions, hq]
    simp [hown q hq]
  have hleft : (Position.fl = .fl ∧ Position.fr = .fr) ∨ (Position.fl = .fr ∧ Position.fr = .fl) := .inl ⟨rfl, rfl⟩
  have hright : (Position.fr = .fl ∧ Position.fl = .fr) ∨ (Position.fr = .fr ∧ Position.fl = .fl) := .inr ⟨rfl, rfl⟩
  rw [foldCoef_eq]
  cases ch with
  | fl => rw [hpath _ rfl, foldPaths_frontal hleft]; rfl
  | fr => rw [hpath _ rfl, foldPaths_frontal hright]; rfl
  | c => rw [hpath _ rfl, foldPaths_c hn]; rfl
  | lfe =>
    have hno : set.filter Position.isSub = [] := by
      rw [List.filter_eq_nil_iff]
      intro q hq hsub
      obtain rfl | rfl := (Position.isSub_iff q).1 hsub
      · exact hsubs ⟨rfl, .inl hq⟩
      · exact hsubs ⟨rfl, .inr hq⟩
    have hlfe : contributions set .lfe = foldPaths set 3 [] ([(.fl, 2896)] ++ [(.fr, 2896)]) 4096 := by
      rw [contributions]
      dsimp only [Channel.position]
      rw [hno]
      rfl
    rw [hlfe, foldPaths_append, foldPaths_side hleft (by simp) (by simp) (by simp),
      foldPaths_side hright (by simp) (by simp) (by simp)]
    rfl
  | sl => rw [hpath _ rfl, show foldTable .sl = [(.fl, 2896)] from rfl, foldPaths_side hleft (by decide) (by decide) (by decide)]; rfl
  | sr => rw [hpath _ rfl, show foldTable .sr = [(.fr, 2896)] from rfl, foldPaths_side hright (by decide) (by decide) (by decide)]; rfl
  | hl => rw [hpath _ rfl, show foldTable .hl = [(.fl, 2896)] from rfl, foldPaths_side hleft (by decide) (by decide) (by decide)]; rfl
  | hr => rw [hpath _ rfl, show foldTable .hr = [(.fr, 2896)] from rfl, foldPaths_side hright (by decide) (by decide) (by decide)]; rfl
  | bl =>
    rw [hpath _ rfl, foldPaths_back (side := .sl) (near := .fl) (far := .fr) (by decide) (by decide) (by decide) rfl rfl rfl]
    rfl
  | br =>
    rw [hpath _ rfl, foldPaths_back (side := .sr) (near := .fr) (far := .fl) (by decide) (by decide) (by decide) rfl rfl rfl]
    rfl

end Sys2Proof.Machine

end

section
/-! PROOFS. What a block writes for an output (R81, R93, R99 to R104, R152; O43). -/

open Sys2Proof Sys2Proof.Machine

namespace Sys2Proof.Machine

/-! ### Lists -/

/-- The one element of a list with a property is the one found. -/
theorem find?_unique {α : Type} {l : List α} {p : α → Bool} {x : α} (hx : x ∈ l) (hp : p x = true)
    (hu : ∀ y, y ∈ l → p y = true → y = x) : l.find? p = some x := by
  cases hf : l.find? p with
  | none => exact absurd hp (by simpa using List.find?_eq_none.1 hf x hx)
  | some y => rw [hu y (List.mem_of_find?_eq_some hf) (List.find?_some hf)]

theorem sum_filter_nonzero {α : Type} (f : α → Nat) (x : α → Int) (l : List α) :
    (((l.map fun a => (a, f a)).filter fun e => e.2 != 0).map fun e => (e.2 : Int) * x e.1).sum =
      (l.map fun a => (f a : Int) * x a).sum := by
  induction l with
  | nil => rfl
  | cons a l ih =>
    rw [List.map_cons, List.filter_cons]
    by_cases h : f a = 0
    · simp [h, ih]
    · simp [h, ih]

/-! ### The samples of a source (R81, R93, R152) -/

theorem sample_bounds (x : Sample) : -8388608 ≤ x.toInt ∧ x.toInt ≤ 8388607 := by
  have h1 := BitVec.le_toInt x
  have h2 := BitVec.toInt_lt (x := x)
  norm_num at h1 h2
  omega

theorem State.tunerWave_getD (s : State) (audio : BlockAudio) (ch : Channel) {k : Nat} (hk : k < 48) :
    let x := (s.tunerWave audio (ch == .fr)).getD k 0
    let left := (audio.tunerLeft.getD k 0).toInt
    let right := (audio.tunerRight.getD k 0).toInt
    (s.tuner.state ≠ .idle → x = 0) ∧
    (s.tuner.state = .idle →
      (s.tuner.band = .am → x = left) ∧
      (s.tuner.band = .fm → s.tuner.blend = .stereo → x = if ch = .fr then right else left) ∧
      (s.tuner.band = .fm → s.tuner.blend = .mono → x = ((left + right) * 2048 + 2048) / 4096)) := by
  dsimp only
  refine ⟨fun h => ?_, fun h => ⟨fun hb => ?_, fun hb hbl => ?_, fun hb hbl => ?_⟩⟩
  · rw [State.tunerWave, if_neg h, Wave.silent_getD]
  · rw [State.tunerWave, if_pos h, hb, Wave.of_getD _ hk]
  · rw [State.tunerWave, if_pos h, hb, hbl]
    dsimp only
    rw [Wave.of_getD _ hk]
    by_cases hc : ch = .fr
    · simp [hc]
    · simp [hc]
  · obtain ⟨l1, l2⟩ := sample_bounds (audio.tunerLeft.getD k 0)
    obtain ⟨r1, r2⟩ := sample_bounds (audio.tunerRight.getD k 0)
    rw [State.tunerWave, if_pos h, hb, hbl]
    dsimp only
    rw [meanWave_getD _ _ hk, Wave.of_getD _ hk, Wave.of_getD _ hk, saturate_eq]
    omega

theorem inputWave_getD (audio : BlockAudio) (i : Fin 12) (ch : Channel) {k : Nat} (hk : k < 48) :
    (∀ a, a ∈ audio.inputs → a.input = i → a.channel = ch →
      (∀ b, b ∈ audio.inputs → b.input = i → b.channel = ch → b = a) →
      (inputWave audio i ch).getD k 0 = (a.samples.getD k 0).toInt) ∧
    ((∀ a, a ∈ audio.inputs → ¬ (a.input = i ∧ a.channel = ch)) → (inputWave audio i ch).getD k 0 = 0) := by
  refine ⟨fun a ha hi hc hu => ?_, fun hnone => ?_⟩
  · have hf : audio.inputs.find? (fun a => a.input == i && a.channel == ch) = some a :=
      find?_unique ha (by simp [hi, hc]) fun b hb hp => by
        simp only [Bool.and_eq_true, beq_iff_eq] at hp
        exact hu b hb hp.1 hp.2
    rw [inputWave, hf, Wave.of_getD _ hk]
  · have hf : audio.inputs.find? (fun a => a.input == i && a.channel == ch) = none :=
      List.find?_eq_none.2 fun a ha => by simpa using hnone a ha
    rw [inputWave, hf, Wave.silent_getD]

theorem State.delivers_iff (s : State) : s.delivers = true ↔ s.decoder.state = .locked ∨ s.decoder.state = .concealing := by
  simp [State.delivers]

theorem State.decodedWave_getD (s : State) (ch : Channel) {k : Nat} (hk : k < 48) :
    (s.delivers = false → (s.decodedWave ch).getD k 0 = 0) ∧
    ∀ xs v, s.delivers = true → s.decoder.fifo[ch.index]? = some xs → xs[k]? = some v →
      (s.decodedWave ch).getD k 0 = v.toInt := by
  refine ⟨fun h => ?_, fun xs v h hx hv => ?_⟩
  · rw [State.decodedWave, if_neg (by simp [h]), Wave.silent_getD]
  · rw [State.decodedWave, if_pos h, getD_map_range (n := blockLength) _ hk, List.getD_eq_getElem?_getD, hx, Option.getD_some, hv]
    rfl

/-- The samples of one source channel of a zone (R93). -/
theorem State.sourceWave_cases (s : State) (audio : BlockAudio) (z : Zone) (ch : Channel) :
    let r := s.zone z
    (r.power = .standby ∨ r.status ≠ .playing → s.sourceWave audio z ch = Wave.silent) ∧
    (r.power ≠ .standby → r.status = .playing →
      (r.live = .tuner → s.sourceWave audio z ch = s.tunerWave audio (ch == .fr)) ∧
      ∀ i, r.live = .input i → s.sourceWave audio z ch =
        if (s.input i).state = .packed then (if s.boundTo i then s.decodedWave ch else Wave.silent)
        else inputWave audio i ch) := by
  dsimp only
  refine ⟨fun h => if_pos h, fun hp hst => ?_⟩
  have hplays : ¬ ((s.zone z).power = .standby ∨ (s.zone z).status ≠ .playing) := by
    rintro (h | h)
    · exact hp h
    · exact h hst
  refine ⟨fun hl => ?_, fun i hl => ?_⟩
  · rw [State.sourceWave, if_neg hplays, hl]
  · rw [State.sourceWave, if_neg hplays, hl]

theorem State.sourceWave_spec (s : State) (audio : BlockAudio) (z : Zone) (ch : Channel) {k : Nat} (hk : k < 48) :
    let r := s.zone z
    let x := (s.sourceWave audio z ch).getD k 0
    let left := (audio.tunerLeft.getD k 0).toInt
    let right := (audio.tunerRight.getD k 0).toInt
    (r.power = .standby ∨ r.status ≠ .playing → x = 0) ∧
    (r.power ≠ .standby → r.status = .playing →
      (r.live = .tuner →
        (s.tuner.state ≠ .idle → x = 0) ∧
        (s.tuner.state = .idle →
          (s.tuner.band = .am → x = left) ∧
          (s.tuner.band = .fm → s.tuner.blend = .stereo → x = if ch = .fr then right else left) ∧
          (s.tuner.band = .fm → s.tuner.blend = .mono → x = ((left + right) * 2048 + 2048) / 4096))) ∧
      (∀ i, r.live = .input i → (s.input i).state ≠ .packed →
        (∀ a, a ∈ audio.inputs → a.input = i → a.channel = ch →
          (∀ b, b ∈ audio.inputs → b.input = i → b.channel = ch → b = a) → x = (a.samples.getD k 0).toInt) ∧
        ((∀ a, a ∈ audio.inputs → ¬ (a.input = i ∧ a.channel = ch)) → x = 0)) ∧
      (∀ i, r.live = .input i → (s.input i).state = .packed →
        (s.boundTo i = false ∨ (s.decoder.state ≠ .locked ∧ s.decoder.state ≠ .concealing) → x = 0) ∧
        (∀ xs v, s.boundTo i = true → s.decoder.state = .locked ∨ s.decoder.state = .concealing →
          s.decoder.fifo[ch.index]? = some xs → xs[k]? = some v → x = v.toInt))) := by
  dsimp only
  obtain ⟨hsilent, hplays⟩ := s.sourceWave_cases audio z ch
  refine ⟨fun h => by rw [hsilent h, Wave.silent_getD], fun hp hst => ?_⟩
  obtain ⟨htuner, hinput⟩ := hplays hp hst
  refine ⟨fun hl => ?_, fun i hl hs => ?_, fun i hl hs => ?_⟩
  · rw [htuner hl]; exact s.tunerWave_getD audio ch hk
  · rw [hinput i hl, if_neg hs]; exact inputWave_getD audio i ch hk
  · rw [hinput i hl, if_pos hs]
    obtain ⟨hidle, hdelivers⟩ := s.decodedWave_getD ch hk
    refine ⟨fun h => ?_, fun xs v hb hd hx hv => ?_⟩
    · by_cases hb : s.boundTo i = true
      · have hnot : s.delivers = false := by
          rw [← Bool.not_eq_true, State.delivers_iff, not_or]
          exact h.resolve_left fun he => by rw [hb] at he; cases he
        rw [if_pos hb, hidle hnot]
      · rw [if_neg hb, Wave.silent_getD]
    · rw [if_pos hb, hdelivers xs v ((State.delivers_iff s).2 hd) hx hv]

/-! ### Sounds -/

/-- A sound made of a list of channels gives each its wave. -/
theorem Sound.get_map (l : List Channel) (f : Channel → Wave) (ch : Channel) :
    (ch ∈ l → Sound.get (l.map fun x => (x, f x)) ch = f ch) ∧
    (ch ∉ l → Sound.get (l.map fun x => (x, f x)) ch = Wave.silent) := by
  induction l with
  | nil => exact ⟨(fun h => nomatch h), fun _ => rfl⟩
  | cons x l ih =>
    obtain ⟨h1, h2⟩ := ih
    by_cases hx : x = ch
    · subst hx
      refine ⟨fun _ => ?_, fun h => absurd List.mem_cons_self h⟩
      simp [Sound.get]
    · have hget : Sound.get ((x :: l).map fun x => (x, f x)) ch = Sound.get (l.map fun x => (x, f x)) ch := by
        simp [Sound.get, hx]
      rw [hget]
      exact ⟨fun h => h1 ((List.mem_cons.1 h).resolve_left (Ne.symm hx)), fun h => h2 fun hm => h (List.mem_cons_of_mem x hm)⟩

theorem State.sounds_spec (s : State) (audio : BlockAudio) (z : Zone) (ch : Channel) :
    (s.source audio z).channels = s.mix.sourceSet.get z ∧
    (ch ∈ s.mix.sourceSet.get z → (s.source audio z).get ch = s.sourceWave audio z ch) ∧
    (ch ∈ s.mix.virtualSet → (s.virtualSound audio).get ch =
      virtualWave (s.zone .main).mode (s.mix.downmix.get .main) (s.source audio .main) ch) ∧
    (ch ∉ s.mix.virtualSet → (s.virtualSound audio).get ch = Wave.silent) := by
  obtain ⟨hin, hout⟩ := Sound.get_map s.mix.virtualSet
    (virtualWave (s.zone .main).mode (s.mix.downmix.get .main) (s.source audio .main)) ch
  refine ⟨?_, (Sound.get_map _ (s.sourceWave audio z) ch).1, hin, hout⟩
  simp [State.source, Sound.channels, Function.comp_def]

/-! ### Speaker sums (R99) -/

theorem buildMatrix_sum {set : List Position} {virtual : List Channel} {row : FoldRow} (v : Sound) {i : Nat} (hi : i < 48)
    (hr : row ∈ buildMatrix set virtual) : (row.sum v).getD i 0 =
      saturate (((virtual.map (fun ch => (foldCoef set row.position ch : Int) * (v.get ch).getD i 0)).sum + 2048) / 4096) := by
  obtain ⟨p, -, rfl⟩ := List.mem_map.1 hr
  rw [FoldRow.sum, weighted_getD _ hi, List.map_map]
  congr 3
  exact sum_filter_nonzero (fun ch => foldCoef set p ch) (fun ch => (v.get ch).getD i 0) virtual

/-- A weighted wave is the list of its 48 samples. -/
theorem weighted_eq (terms : List (Int × Wave)) : weighted terms = (List.range 48).map fun i => (weighted terms).getD i 0 := by
  refine List.map_congr_left fun i hi => ?_
  rw [weighted, getD_map_range (n := blockLength) _ (List.mem_range.1 hi)]

theorem State.speakerSum_eq {s : State} {v : Sound} {p : Position}
    (hm : s.mix.foldMatrix = some (buildMatrix s.mix.speakerSet s.mix.virtualSet)) (hp : p ∈ s.mix.speakerSet) :
    s.speakerSum v p = (List.range 48).map (s.sumAt v p) := by
  obtain ⟨row, hfind⟩ : ∃ row, (buildMatrix s.mix.speakerSet s.mix.virtualSet).find? (fun row => row.position == p) = some row := by
    rw [← Option.isSome_iff_exists, List.find?_isSome]
    exact ⟨_, List.mem_map.2 ⟨p, hp, rfl⟩, by simp⟩
  have hrow := List.mem_of_find?_eq_some hfind
  have hpos : row.position = p := by simpa using List.find?_some hfind
  rw [State.speakerSum, hm, Option.getD_some, hfind]
  dsimp only
  rw [FoldRow.sum, weighted_eq]
  refine List.map_congr_left fun i hi => ?_
  have hsum := buildMatrix_sum v (List.mem_range.1 hi) hrow
  rw [hpos] at hsum
  exact hsum

/-! ### Redirected positions (R101, R102) -/

/-- The position at place `k` of FL to HR. -/
def mainPosition (k : Fin 9) : Position := mainPositions.getD k.val .fl

theorem mainPositions_eq : mainPositions = (List.finRange 9).map mainPosition := by decide

theorem mainPosition_filterIndex (k : Fin 9) : (mainPosition k).filterIndex = some k := by
  revert k; decide

theorem mainPosition_injective {j k : Fin 9} (h : mainPosition j = mainPosition k) : j = k :=
  Option.some.inj ((mainPosition_filterIndex j).symm.trans ((congrArg _ h).trans (mainPosition_filterIndex k)))

theorem mainPosition_iff {k : Fin 9} {p : Position} : mainPositions[k.val]? = some p ↔ mainPosition k = p := by
  revert k; cases p <;> decide

theorem State.redirected_iff (s : State) (p : Position) : s.redirected p = true ↔ s.isRedirected p := by
  have hsubs : s.mix.speakerSet.any Position.isSub = true ↔ Position.sub1 ∈ s.mix.speakerSet ∨ Position.sub2 ∈ s.mix.speakerSet := by
    simp only [List.any_eq_true, Position.isSub_iff]
    constructor
    · rintro ⟨q, hq, rfl | rfl⟩
      · exact .inl hq
      · exact .inr hq
    · rintro (h | h)
      · exact ⟨_, h, .inl rfl⟩
      · exact ⟨_, h, .inr rfl⟩
  have hnot : (!p.isSub) = true ↔ p ≠ .sub1 ∧ p ≠ .sub2 := by
    rw [Bool.not_eq_true', ← Bool.not_eq_true, Position.isSub_iff, not_or]
  simp only [State.redirected, State.isRedirected, Bool.and_eq_true, hsubs, hnot, List.contains_iff_mem, beq_iff_eq, and_assoc]

/-- The places of the redirected positions, in order. -/
def State.redirectedPlaces (s : State) : List (Fin 9) := (List.finRange 9).filter fun k => s.redirected (mainPosition k)

theorem State.mem_redirectedPlaces (s : State) (k : Fin 9) : k ∈ s.redirectedPlaces ↔ s.isRedirected (mainPosition k) := by
  rw [State.redirectedPlaces, List.mem_filter, State.redirected_iff, and_iff_right (List.mem_finRange k)]

theorem State.redirects_eq (s : State) (v : Sound) :
    s.redirects v = s.redirectedPlaces.map fun k => s.redirect v (mainPosition k) k := by
  rw [State.redirects, mainPositions_eq, List.filter_map, List.filterMap_map, State.redirectedPlaces]
  rw [← List.filterMap_eq_map]
  exact List.filterMap_congr fun k _ => by simp [mainPosition_filterIndex]

theorem State.redirects_find {s : State} (v : Sound) {p : Position} :
    (¬ s.isRedirected p → (s.redirects v).find? (fun r => r.position == p) = none) ∧
    ∀ k, mainPosition k = p → s.isRedirected p → (s.redirects v).find? (fun r => r.position == p) = some (s.redirect v p k) := by
  rw [State.redirects_eq]
  refine ⟨fun h => List.find?_eq_none.2 fun r hr hp => ?_, fun k hk h => ?_⟩
  · obtain ⟨k, hk, rfl⟩ := List.mem_map.1 hr
    have hpos : mainPosition k = p := by simpa [State.redirect] using hp
    exact h (hpos ▸ (s.mem_redirectedPlaces k).1 hk)
  · subst hk
    refine find?_unique (List.mem_map.2 ⟨k, (s.mem_redirectedPlaces k).2 h, rfl⟩) (by simp [State.redirect]) fun r hr hp => ?_
    obtain ⟨j, -, rfl⟩ := List.mem_map.1 hr
    have hpos : mainPosition j = mainPosition k := by simpa [State.redirect] using hp
    rw [mainPosition_injective hpos]

theorem State.redirect_waves {s : State} (v : Sound) {p : Position} (k : Fin 9)
    (hm : s.mix.foldMatrix = some (buildMatrix s.mix.speakerSet s.mix.virtualSet)) (hp : p ∈ s.mix.speakerSet) :
    (s.redirect v p k).high = (List.range 48).map (fun i => saturate
      (runOut (Config.highPass s.mix.crossover.toNat) (s.filterStart k).highPass (s.sumAt v p) i)) ∧
    (s.redirect v p k).low = (List.range 48).map (fun i => saturate
      (runOut (Config.lowPass s.mix.crossover.toNat) (s.filterStart k).lowPass (s.sumAt v p) i)) := by
  rw [State.redirect, State.speakerSum_eq hm hp]
  dsimp only
  rw [runFilter_signal, runFilter_signal]
  exact ⟨rfl, rfl⟩

theorem addWaves_getD (ws : List Wave) {i : Nat} (hi : i < 48) :
    (addWaves ws).getD i 0 = saturate (ws.map fun w => w.getD i 0).sum := by
  rw [addWaves, getD_map_range (n := blockLength) _ hi, foldl_add_eq_sum, zero_add]

/-- What stage 4 gives a position of the speaker set (R101, R102). -/
theorem State.positionWave_spec {s : State} (v : Sound) {p : Position}
    (hm : s.mix.foldMatrix = some (buildMatrix s.mix.speakerSet s.mix.virtualSet)) (hp : p ∈ s.mix.speakerSet) {i : Nat} (hi : i < 48) :
    let hz := s.mix.crossover.toNat
    let high := fun (k : Fin 9) (i : Nat) => saturate (runOut (Config.highPass hz) (s.filterStart k).highPass
      (s.sumAt v (mainPosition k)) i)
    let low := fun (k : Fin 9) (i : Nat) => saturate (runOut (Config.lowPass hz) (s.filterStart k).lowPass
      (s.sumAt v (mainPosition k)) i)
    let w := s.positionWave v (s.redirects v) p
    (p ≠ .sub1 → p ≠ .sub2 → ¬ s.isRedirected p → w.getD i 0 = s.sumAt v p i) ∧
    (∀ k : Fin 9, mainPosition k = p → s.isRedirected p → w.getD i 0 = high k i) ∧
    (∀ ks : List (Fin 9), ks.Nodup → (∀ k : Fin 9, k ∈ ks ↔ s.isRedirected (mainPosition k)) → p = .sub1 ∨ p = .sub2 →
      w.getD i 0 = saturate (s.sumAt v p i + (ks.map (fun k => low k i)).sum)) := by
  dsimp only
  obtain ⟨hnone, hsome⟩ := s.redirects_find v (p := p)
  refine ⟨fun h1 h2 hr => ?_, fun k hk hr => ?_, fun ks hn hks hsub => ?_⟩
  · have hsub : ¬ p.isSub = true := by rw [Position.isSub_iff]; exact not_or.2 ⟨h1, h2⟩
    rw [State.positionWave, if_neg hsub, hnone hr]
    dsimp only
    rw [State.speakerSum_eq hm hp, getD_map_range _ hi]
  · have hfound := hsome k hk hr
    obtain ⟨-, h1, h2, -⟩ := hr
    have hsub : ¬ p.isSub = true := by rw [Position.isSub_iff]; exact not_or.2 ⟨h1, h2⟩
    rw [State.positionWave, if_neg hsub, hfound]
    dsimp only
    rw [(s.redirect_waves v k hm hp).1, getD_map_range _ hi, hk]
  · have hperm : s.redirectedPlaces.Perm ks :=
      (List.perm_ext_iff_of_nodup ((List.nodup_finRange 9).filter _) hn).2 fun k => (s.mem_redirectedPlaces k).trans (hks k).symm
    have hlow (k : Fin 9) (hk : k ∈ s.redirectedPlaces) : ((s.redirect v (mainPosition k) k).low).getD i 0 =
        saturate (runOut (Config.lowPass s.mix.crossover.toNat) (s.filterStart k).lowPass (s.sumAt v (mainPosition k)) i) := by
      obtain ⟨-, -, -, hset, -⟩ := (s.mem_redirectedPlaces k).1 hk
      rw [(s.redirect_waves v k hm hset).2, getD_map_range _ hi]
    rw [State.positionWave, if_pos ((Position.isSub_iff p).2 hsub), addWaves_getD _ hi, List.map_cons, List.sum_cons,
      State.speakerSum_eq hm hp, getD_map_range _ hi, State.redirects_eq, List.map_map, List.map_map]
    rw [← (hperm.map _).sum_eq]
    congr 2
    exact congrArg List.sum (List.map_congr_left hlow)

/-! ### What is written for an output (R104) -/

theorem State.writtenWave_main {s : State} {audio : BlockAudio} {v : Sound} {rs : List Redirect} {o : Fin 13} {p : Position}
    (hs : (s.out o).state = .granted) (hz : (s.out o).zone = some .main) (hr : (s.out o).role = some (.pos p)) :
    s.writtenWave audio v rs o = some (if s.mix.speakerSet.contains p then s.positionWave v rs p else Wave.silent) := by
  simp only [State.writtenWave, hs, hz, hr]

theorem State.writtenWave_remote {s : State} {audio : BlockAudio} {v : Sound} {rs : List Redirect} {o : Fin 13} {z : Zone} {r : Role}
    (hs : (s.out o).state = .granted) (hz : (s.out o).zone = some z) (hr : (s.out o).role = some r) (hm : z ≠ .main) :
    s.writtenWave audio v rs o = some (s.remoteWave audio z r) := by
  cases z with
  | main => exact absurd rfl hm
  | z2 => simp only [State.writtenWave, hs, hz, hr]
  | z3 => simp only [State.writtenWave, hs, hz, hr]

theorem State.writtenWave_leaving {s : State} {audio : BlockAudio} {v : Sound} {rs : List Redirect} {o : Fin 13} {z : Zone} {r : Role}
    (hs : (s.out o).state = .handover) (hp : (s.out o).phase = some .rampDown) (hz : (s.out o).zone = some z)
    (hr : (s.out o).role = some r) :
    (z ≠ .main → s.writtenWave audio v rs o = some (s.leavingWave audio z r)) ∧
    ∀ p ch, z = .main → r = .pos p → p.channel = some ch → s.writtenWave audio v rs o = some (v.get ch) := by
  refine ⟨fun hm => ?_, fun p ch hm hpos hch => ?_⟩
  · cases z with
    | main => exact absurd rfl hm
    | z2 => simp only [State.writtenWave, hs, hp, hz, hr]
    | z3 => simp only [State.writtenWave, hs, hp, hz, hr]
  · subst hm hpos
    simp only [State.writtenWave, hs, hp, hz, hr, hch]

theorem Role.isLeft_iff (r : Role) : r.isLeft = true ↔ r = .z2l ∨ r = .z3l := by
  cases r <;> simp [Role.isLeft]

theorem State.leavingWave_eq (s : State) (audio : BlockAudio) (z : Zone) (r : Role) : s.leavingWave audio z r =
    if r = .z2l ∨ r = .z3l then (downmix (s.mix.downmix.get z) (s.source audio z)).1
    else (downmix (s.mix.downmix.get z) (s.source audio z)).2 :=
  if_congr (Role.isLeft_iff r) rfl rfl

theorem State.remoteWave_both {s : State} {z : Zone} (audio : BlockAudio) (r : Role) (h : s.pairOf z = .both) :
    s.remoteWave audio z r = s.leavingWave audio z r := by
  rw [State.remoteWave, h]; rfl

theorem State.remoteWave_one {s : State} {z : Zone} (audio : BlockAudio) (r : Role) {q : Role} (h : s.pairOf z = .one q) :
    s.remoteWave audio z r = meanWave (downmix (s.mix.downmix.get z) (s.source audio z)).1
      (downmix (s.mix.downmix.get z) (s.source audio z)).2 := by
  rw [State.remoteWave, h]

/-- Settles O43: each stage of the mix is a weighted sum of waves, read at one sample. -/
theorem mantissasGiveSamples : Obligations.MantissasGiveSamples := by
  refine ⟨fun code e m hcode _ hm => mantissaSample_spec (by omega) (by omega) hm, virtualChannels_spec, fun k v i hi => ?_,
    State.downmixCoefs_spec, fun set p ch hn hp => ⟨fun q => foldCoef_own p, fun ⟨hch, hs⟩ => ?_, foldCoef_ends hn p⟩,
    fun set virtual v row i hi hr => buildMatrix_sum v hi hr, fun s audio v rs o z role hz hr => ⟨fun hs hm => ⟨fun hb => ?_,
      fun q hq => ?_⟩, fun hs hp => ?_⟩,
    fun s audio z ch k hk => s.sourceWave_spec audio z ch hk, fun s audio z ch => s.sounds_spec audio z ch,
    fun s audio o p hm hn hs hz hr => ⟨fun hp => ?_, fun hp => ?_⟩, fun word x => outputSample_toInt word x⟩
  · obtain ⟨h1, h2, h3, h4, h5, h6⟩ := virtualWave_spec k v hi
    exact ⟨h1, h2, h3, h4, h5, h6, fun htwo => by rw [downmix_two htwo]; exact ⟨rfl, rfl⟩, fun htwo => downmix_many htwo hi⟩
  · subst hch
    exact foldCoef_subs hn hp hs
  · rw [State.writtenWave_remote hs hz hr hm, State.remoteWave_both audio role hb, State.leavingWave_eq]
  · exact ⟨_, (State.writtenWave_remote hs hz hr hm).trans (congrArg some (State.remoteWave_one audio role hq)),
      fun i hi => meanWave_getD _ _ hi⟩
  · obtain ⟨hremote, hmain⟩ := State.writtenWave_leaving (audio := audio) (v := v) (rs := rs) hs hp hz hr
    exact ⟨fun hm => (hremote hm).trans (congrArg some (s.leavingWave_eq audio z role)), hmain⟩
  · rw [State.writtenWave_main hs hz hr, if_neg (by simpa using hp)]
    rfl
  · refine ⟨_, (State.writtenWave_main hs hz hr).trans (congrArg some (if_pos (by simpa using hp))), fun i hi => ?_⟩
    obtain ⟨h1, h2, h3⟩ := State.positionWave_spec (s.virtualSound audio) hm hp hi
    exact ⟨h1, fun k hk => h2 k (mainPosition_iff.1 hk), h3⟩

end Sys2Proof.Machine

end

section
/-! PROOFS. Rings and lines of the delay DRAM, and the updates of a block one index after another (R105, R123; O49). -/

open Sys2Proof Sys2Proof.Machine

namespace Sys2Proof.Machine

/-! ### One update for each index -/

/-- Updates of single records, one index after another: each record is the update of what it was. -/
theorem foldl_records {β γ : Type} [DecidableEq β] {f : State → β → State} {get : State → β → γ} {g : β → γ → γ}
    (hself : ∀ s b, get (f s b) b = g b (get s b)) (hother : ∀ s b c, c ≠ b → get (f s b) c = get s c) {l : List β}
    (hl : l.Nodup) (s : State) (c : β) : get (l.foldl f s) c = if c ∈ l then g c (get s c) else get s c := by
  induction l generalizing s with
  | nil => simp
  | cons b l ih =>
    obtain ⟨hb, hl⟩ := List.nodup_cons.1 hl
    rw [List.foldl_cons, ih hl]
    by_cases hc : c = b
    · subst hc
      rw [if_neg hb, if_pos List.mem_cons_self, hself]
    · rw [hother _ _ _ hc]
      simp [hc]

/-- The update of one index among those of all: what is the same to it goes before and after. -/
theorem foldl_at {β : Type} {f : State → β → State} {R : State → State → Prop} (hrefl : ∀ s, R s s)
    (htrans : ∀ s t u, R s t → R t u → R s u) {l : List β} (hl : l.Nodup) {b : β} (hb : b ∈ l)
    (hother : ∀ s c, c ≠ b → R s (f s c)) (s : State) : ∃ u, R s u ∧ R (f u b) (l.foldl f s) := by
  have hrest (l : List β) (h : b ∉ l) (s : State) : R s (l.foldl f s) := by
    induction l generalizing s with
    | nil => exact hrefl s
    | cons c l ih =>
      obtain ⟨hc, hl⟩ := not_or.1 fun hm => h (List.mem_cons.2 hm)
      exact htrans _ _ _ (hother s c (Ne.symm hc)) (ih hl _)
  obtain ⟨l1, l2, rfl⟩ := List.append_of_mem hb
  have hnot : b ∉ l1 ∧ b ∉ l2 := by
    rw [List.nodup_append] at hl
    obtain ⟨-, h2, h3⟩ := hl
    exact ⟨fun h => h3 b h b List.mem_cons_self rfl, (List.nodup_cons.1 h2).1⟩
  refine ⟨l1.foldl f s, hrest l1 hnot.1 s, ?_⟩
  rw [List.foldl_append, List.foldl_cons]
  exact hrest l2 hnot.2 _

/-! ### Rings (R123) -/

/-- Two places of a ring less than its length apart are one place only if they are equal. -/
theorem ring_inj {len i a b : Nat} (ha : a < len) (hb : b < len) (h : (i + a) % len = (i + b) % len) : a = b := by
  have hab : a ≡ b [MOD len] := Nat.ModEq.add_left_cancel' i h
  exact hab.eq_of_lt_of_lt ha hb

theorem Dram.read_writeRing_other {m : Dram} {base len i a : Nat} {xs : List Sample}
    (h : ∀ j, j < xs.length → a ≠ base + (i + j) % len) : (Dram.writeRing m base len i xs).read a = m.read a := by
  induction xs generalizing m i with
  | nil => rfl
  | cons x xs ih =>
    rw [Dram.writeRing, ih fun j hj => ?_, Dram.read_write, if_neg (by simpa using h 0 (Nat.succ_pos _))]
    rw [show i + 1 + j = i + (j + 1) by omega]
    exact h (j + 1) (Nat.succ_lt_succ hj)

theorem Dram.read_writeRing_at {m : Dram} {base len i j : Nat} {xs : List Sample} (hlen : xs.length ≤ len) (hj : j < xs.length) :
    (Dram.writeRing m base len i xs).read (base + (i + j) % len) = xs[j] := by
  induction xs generalizing m i j with
  | nil => cases hj
  | cons x xs ih =>
    rw [List.length_cons] at hlen hj
    rw [Dram.writeRing]
    cases j with
    | zero =>
      rw [Dram.read_writeRing_other, Dram.read_write, Nat.add_zero, if_pos rfl, List.getElem_cons_zero]
      intro k hk he
      rw [show i + 1 + k = i + (k + 1) by omega] at he
      have := ring_inj (by omega) (by omega) (Nat.add_left_cancel he)
      omega
    | succ j =>
      rw [show i + (j + 1) = i + 1 + j by omega]
      exact ih (by omega) (by omega)

/-- The words of the ring of a segment, counted from its write position. -/
theorem Segment.ringWord_eq (g : Segment) (n k : Nat) (hn : n ≤ g.words) :
    g.ringWord n k = g.base * pageWords + (g.place + (g.words - n) + k) % g.words := by
  have hwords : g.words = 256 * g.count := Nat.mul_comm _ _
  have hplace : g.place = g.writePos - 256 * g.base := congrArg (g.writePos - ·) (Nat.mul_comm _ _)
  rw [hwords] at hn
  rw [Segment.ringWord, hwords, hplace, show pageWords = 256 from rfl, Nat.mul_comm 256 g.base, Nat.add_sub_assoc hn]

theorem Segment.ringWord_zero (g : Segment) (k : Nat) : g.ringWord 0 k = g.base * pageWords + (g.place + k) % g.words := by
  rw [g.ringWord_eq 0 k (Nat.zero_le _), Nat.sub_zero, Nat.add_right_comm, Nat.add_mod_right]

/-- The word read `n` words back is the one that the block reads. -/
theorem Segment.ringBack_word {g : Segment} {n : Nat} (hn : n < g.words) (k : Nat) :
    g.base * pageWords + (ringBack g.words g.place n + k) % g.words = g.ringWord n k := by
  rw [g.ringWord_eq n k hn.le, ringBack, Nat.mod_eq_of_lt hn, Nat.mod_add_mod, Nat.add_sub_assoc hn.le]

/-- A word that the block has written, read `n` words back. -/
theorem Segment.ringWord_written {g : Segment} {n k : Nat} (hn : n ≤ g.words) (hk : n ≤ k) : g.ringWord n k = g.ringWord 0 (k - n) := by
  rw [g.ringWord_eq n k hn, g.ringWord_zero, show g.place + (g.words - n) + k = g.place + (k - n) + g.words by omega,
    Nat.add_mod_right]

/-- A word from before the block, read `n` words back. -/
theorem Segment.ringWord_before {g : Segment} {n k j : Nat} (hn : n + 48 ≤ g.words) (hk : k < n) (hj : j < 48) :
    g.ringWord n k ≠ g.ringWord 0 j := by
  rw [g.ringWord_eq n k (by omega), g.ringWord_zero, Nat.add_assoc]
  intro h
  have := ring_inj (by omega) (by omega) (Nat.add_left_cancel h)
  omega

/-- An address in the run of a segment. -/
def Segment.covers (g : Segment) (a : Nat) : Prop := 256 * g.base ≤ a ∧ a < 256 * (g.base + g.count)

theorem Segment.covers_ringWord {g : Segment} (h : 1 ≤ g.count) (n k : Nat) : g.covers (g.ringWord n k) := by
  have hmod := Nat.mod_lt (g.writePos - 256 * g.base + 256 * g.count - n + k) (show 0 < 256 * g.count by omega)
  unfold Segment.covers Segment.ringWord
  omega

/-- Runs that hold no page in common have no address in common. -/
theorem Segment.Apart.not_covers {g h : Segment} (hgh : g.Apart h) (htop : g.base + g.count ≤ 1024) {a : Nat} (ha : g.covers a) :
    ¬ h.covers a := by
  rintro ⟨hlow, hhigh⟩
  obtain ⟨glow, ghigh⟩ := ha
  exact hgh (a / 256) (by omega) ⟨.inl (Segment.hasPage_iff.2 ⟨by omega, by omega⟩),
    .inl (Segment.hasPage_iff.2 ⟨by omega, by omega⟩)⟩

/-! ### Segments that stay where they are -/

/-- A segment but for its write position. -/
def Segment.laid (g : Segment) : Segment := { g with writePos := 0 }

theorem Segment.laid_iff {g h : Segment} : h.laid = g.laid ↔ h = { g with writePos := h.writePos } := by
  cases g; cases h
  simp [Segment.laid]

/-- The segments of every output are as they were but for their write positions. -/
def laidAlike (d e : DelayState) : Prop := ∀ o, (e.segment o).map Segment.laid = (d.segment o).map Segment.laid

theorem laidAlike.refl (d : DelayState) : laidAlike d d := fun _ => rfl

theorem laidAlike.trans {d e f : DelayState} (h1 : laidAlike d e) (h2 : laidAlike e f) : laidAlike d f :=
  fun o => (h2 o).trans (h1 o)

theorem laidAlike.symm {d e : DelayState} (h : laidAlike d e) : laidAlike e d := fun o => (h o).symm

theorem laidAlike.of_some {d e : DelayState} (h : laidAlike d e) {o : Fin 13} {g : Segment} (hg : d.segment o = some g) :
    ∃ g', e.segment o = some g' ∧ g' = { g with writePos := g'.writePos } := by
  have ho := h o
  rw [hg] at ho
  obtain ⟨g', hg', hlaid⟩ := Option.map_eq_some_iff.1 ho
  exact ⟨g', hg', Segment.laid_iff.1 hlaid⟩

theorem laidAlike.of_none {d e : DelayState} (h : laidAlike d e) {o : Fin 13} (hg : d.segment o = none) : e.segment o = none := by
  have ho := h o
  rw [hg] at ho
  exact Option.map_eq_none_iff.1 ho

/-- A segment whose write position alone moves. -/
theorem laidAlike.setSegment {d : DelayState} {o : Fin 13} {g k : Segment} (hs : d.segment o = some g) (hk : k.laid = g.laid) :
    laidAlike d (d.setSegment o k) := by
  have hgo : g.output = o := DelayState.segment_output hs
  have ho : k.output = o := by rw [Segment.laid_iff.1 hk]; exact hgo
  subst ho
  intro q
  by_cases hq : q = k.output
  · subst hq
    rw [DelayState.segment_setSegment_self, hs, Option.map_some, Option.map_some, hk]
  · rw [DelayState.segment_setSegment_ne _ _ hq]

end Sys2Proof.Machine

end

section
/-! PROOFS. The values that a block is computed from: the times one less, the changes taken (R86, R87, R93, R100, R105; O49). -/

open Sys2Proof Sys2Proof.Machine

namespace Sys2Proof.Machine

/-! ### The times one less -/

theorem State.timersDown_frame (s : State) : Frame [.zones, .outputs, .inputs] s s.timersDown :=
  ((Frame.foldl State.zoneDown (fun s z => s.setZone_frame z _) Zone.all s).mono.trans
    (Frame.foldl State.outDown (fun s o => s.setOut_frame o _) allOutputs _).mono).trans
    (Frame.foldl State.inputDown (fun s i => s.setInput_frame _ _) allDigital _).mono

theorem State.clockOn_changes (s : State) : onlyChanges [.tuner, .minute] s s.clockOn := by
  intro q hq
  cases q with
  | tuner | minute => exact absurd (by decide) hq
  | zones | outputs | inputs | decoder | mix | delay | slots | ports | freeCount | pending => rfl

theorem State.countDown_changes (s : State) : onlyChanges [.zones, .outputs, .inputs, .tuner, .minute] s s.countDown := by
  rw [State.countDown_eq]
  exact (s.timersDown_frame.1.mono (by decide)).trans (s.timersDown.clockOn_changes.mono (by decide))

theorem State.countDown_tuner (s : State) : s.countDown.tuner = s.tuner.tick := by
  have h : s.timersDown.tuner = s.tuner := s.timersDown_frame.1 .tuner (by decide)
  rw [State.countDown_eq, State.clockOn, h]

theorem Zone.mem_all (z : Zone) : z ∈ Zone.all := by cases z <;> decide

theorem State.countDown_zone (s : State) (z : Zone) : s.countDown.zone z = (s.zone z).tick := by
  have hzones := foldl_records (f := State.zoneDown) (get := State.zone) (g := fun _ r => r.tick)
    (fun s z => s.zone_setZone_self z _) (fun s z y hy => s.zone_setZone_ne _ hy) (l := Zone.all) (by decide) s z
  have houts := (Frame.foldl State.outDown (fun s o => s.setOut_frame o _) allOutputs (Zone.all.foldl State.zoneDown s)).1
  have hins := (Frame.foldl State.inputDown (fun s i => s.setInput_frame _ _) allDigital
    (allOutputs.foldl State.outDown (Zone.all.foldl State.zoneDown s))).1
  have hclock : s.countDown.zone z = s.timersDown.zone z := s.timersDown.clockOn_changes.zone (by decide) z
  rw [hclock, State.timersDown, hins.zone (by decide), houts.zone (by decide), hzones, if_pos (Zone.mem_all z)]

theorem State.countDown_out (s : State) (o : Fin 13) :
    s.countDown.out o = { s.out o with relayOpenTimer := tick (s.out o).relayOpenTimer } := by
  have houts := foldl_records (f := State.outDown) (get := State.out)
    (g := fun _ r => { r with relayOpenTimer := tick r.relayOpenTimer })
    (fun s o => s.out_setOut_self o _) (fun s o q hq => s.out_setOut_ne _ hq) (l := allOutputs) (by decide)
    (Zone.all.foldl State.zoneDown s) o
  have hzones : (Zone.all.foldl State.zoneDown s).out o = s.out o := by
    rw [State.out, (Frame.foldl State.zoneDown (fun s z => s.setZone_frame z _) Zone.all s).1 .outputs (by decide)]; rfl
  have hrest : s.countDown.out o = (allOutputs.foldl State.outDown (Zone.all.foldl State.zoneDown s)).out o := by
    have hins := (Frame.foldl State.inputDown (fun s i => s.setInput_frame _ _) allDigital
      (allOutputs.foldl State.outDown (Zone.all.foldl State.zoneDown s))).1
    rw [State.countDown_eq, State.out, s.timersDown.clockOn_changes .outputs (by decide), State.timersDown,
      hins .outputs (by decide)]
    rfl
  rw [hrest, houts, if_pos (mem_allOutputs o), hzones]

theorem mem_digital (i : Fin 12) : i ∈ allDigital.map digital ↔ i.val < 8 := by
  revert i; decide

/-- The time of one input one less. -/
def State.timerDown (s : State) (i : Fin 12) : State := s.setInput i { s.input i with timer := tick (s.input i).timer }

theorem State.inputsDown_eq (s : State) : allDigital.foldl State.inputDown s = (allDigital.map digital).foldl State.timerDown s := by
  rw [List.foldl_map]
  exact congrArg (fun f => List.foldl f s allDigital) (funext fun s => funext fun i => rfl)

theorem State.countDown_input (s : State) (i : Fin 12) : s.countDown.input i =
    { s.input i with timer := if i.val < 8 then tick (s.input i).timer else (s.input i).timer } := by
  obtain ⟨u, hu⟩ : ∃ u, u = allOutputs.foldl State.outDown (Zone.all.foldl State.zoneDown s) := ⟨_, rfl⟩
  have hbefore : u.input i = s.input i := by
    rw [hu, State.input, (Frame.foldl State.outDown (fun s o => s.setOut_frame o _) allOutputs _).1 .inputs (by decide),
      (Frame.foldl State.zoneDown (fun s z => s.setZone_frame z _) Zone.all s).1 .inputs (by decide)]
    rfl
  have hins := foldl_records (f := State.timerDown) (get := State.input) (g := fun _ r => { r with timer := tick r.timer })
    (fun s i => s.input_setInput_self i _) (fun s i j hj => s.input_setInput_ne _ hj) (l := allDigital.map digital)
    (by decide) u i
  have hrest : s.countDown.input i = ((allDigital.map digital).foldl State.timerDown u).input i := by
    rw [← State.inputsDown_eq, hu, State.countDown_eq, State.input, s.timersDown.clockOn_changes .inputs (by decide)]
    rfl
  rw [hrest, hins, hbefore]
  by_cases hi : i.val < 8
  · rw [if_pos ((mem_digital i).2 hi), if_pos hi]
  · rw [if_neg fun h => hi ((mem_digital i).1 h), if_neg hi]

theorem State.countDown_outputs (s : State) : s.countDown.outputs = { s.outputs with outs := s.countDown.outputs.outs } := by
  have hfold (l : List (Fin 13)) (s : State) :
      (l.foldl State.outDown s).outputs = { s.outputs with outs := (l.foldl State.outDown s).outputs.outs } := by
    induction l generalizing s with
    | nil => rfl
    | cons o l ih => rw [List.foldl_cons, ih]; rfl
  have hzones : (Zone.all.foldl State.zoneDown s).outputs = s.outputs :=
    (Frame.foldl State.zoneDown (fun s z => s.setZone_frame z _) Zone.all s).1 .outputs (by decide)
  have hrest : s.countDown.outputs = (allOutputs.foldl State.outDown (Zone.all.foldl State.zoneDown s)).outputs := by
    have hins := (Frame.foldl State.inputDown (fun s i => s.setInput_frame _ _) allDigital
      (allOutputs.foldl State.outDown (Zone.all.foldl State.zoneDown s))).1
    rw [State.countDown_eq, s.timersDown.clockOn_changes .outputs (by decide), State.timersDown, hins .outputs (by decide)]
  rw [hrest, hfold, hzones]

/-! ### The switch-ins taken (R105) -/

theorem State.takeSwitchIn_frame (s : State) (z : Zone) : Frame [.zones, .delay] s (s.takeSwitchIn z) := by
  unfold State.takeSwitchIn
  split
  · exact (s.clearOutputLines_frame _).mono.trans (State.setZone_frame _ z _).mono
  · exact .refl _ s

theorem State.takeSwitchIn_zone_self (s : State) (z : Zone) : (s.takeSwitchIn z).zone z = { s.zone z with switchIn := false } := by
  unfold State.takeSwitchIn
  by_cases h : (s.zone z).switchIn = true
  · rw [if_pos h, State.zone_setZone_self]
  · rw [if_neg h]
    have hfalse : (s.zone z).switchIn = false := by simpa using h
    generalize s.zone z = r at hfalse
    cases r
    simp_all

theorem State.takeSwitchIn_zone_ne (s : State) {z y : Zone} (hy : y ≠ z) : (s.takeSwitchIn z).zone y = s.zone y := by
  unfold State.takeSwitchIn
  split
  · rw [State.zone_setZone_ne _ _ hy]
    exact (s.clearOutputLines_frame _).1.zone (by decide) y
  · rfl

/-- The state that the routing of a block is computed from: the times one less, the switch-ins taken. -/
def State.switchesTaken (s : State) : State := Zone.all.foldl State.takeSwitchIn s.countDown

theorem State.atBlock_eq (s : State) : s.atBlock = s.switchesTaken.takeRouting.stepGains := rfl

theorem State.switchesTaken_frame (s : State) : Frame [.zones, .delay] s.countDown s.switchesTaken :=
  Frame.foldl _ State.takeSwitchIn_frame _ _

theorem State.switchesTaken_zone (s : State) (z : Zone) :
    s.switchesTaken.zone z = { (s.zone z).tick with switchIn := false } := by
  have hzones := foldl_records (f := State.takeSwitchIn) (get := State.zone) (g := fun _ r => { r with switchIn := false })
    State.takeSwitchIn_zone_self (fun s z y hy => s.takeSwitchIn_zone_ne hy) (l := Zone.all) (by decide) s.countDown z
  rw [State.switchesTaken, hzones, if_pos (Zone.mem_all z), s.countDown_zone]

theorem State.takeRouting_frame (s : State) : Frame [.mix] s s.takeRouting := s.setMix_frame _

theorem State.stepGains_frame (s : State) : Frame [.mix] s s.stepGains :=
  Frame.foldl _ (fun s o => s.setGain_frame o _) _ _

/-- The routing and the gains are the Mix Engine's alone. -/
theorem State.atBlock_frame (s : State) : Frame [.mix] s.switchesTaken s.atBlock :=
  s.switchesTaken.takeRouting_frame.trans (State.stepGains_frame _)

theorem State.stepGains_mix (s : State) : s.stepGains.mix = { s.mix with gains := s.stepGains.mix.gains } := by
  unfold State.stepGains
  generalize allOutputs = l
  induction l generalizing s with
  | nil => rfl
  | cons o l ih => rw [List.foldl_cons, ih]; rfl

theorem State.atBlock_changes (s : State) :
    onlyChanges [.zones, .outputs, .inputs, .tuner, .minute, .delay, .mix] s s.atBlock :=
  (s.countDown_changes.mono (by decide)).trans ((s.switchesTaken_frame.1.mono (by decide)).trans
    (s.atBlock_frame.1.mono (by decide)))

theorem State.atBlock_zone (s : State) (z : Zone) : s.atBlock.zone z = { s.zone z with
    wakeTimer := (s.zone z).wakeTimer.map (· - 1), relayTimer := (s.zone z).relayTimer.map (· - 1), switchIn := false } := by
  rw [s.atBlock_frame.1.zone (by decide), s.switchesTaken_zone]
  rfl

theorem State.switchesTaken_out (s : State) (o : Fin 13) :
    s.switchesTaken.out o = { s.out o with relayOpenTimer := (s.out o).relayOpenTimer.map (· - 1) } := by
  rw [State.out, s.switchesTaken_frame.1 .outputs (by decide)]
  exact s.countDown_out o

theorem State.atBlock_out (s : State) (o : Fin 13) :
    s.atBlock.out o = { s.out o with relayOpenTimer := (s.out o).relayOpenTimer.map (· - 1) } := by
  rw [State.out, s.atBlock_frame.1 .outputs (by decide)]
  exact s.switchesTaken_out o

theorem State.switchesTaken_input (s : State) (i : Fin 12) : s.switchesTaken.input i = { s.input i with
    timer := if i.val < 8 then (s.input i).timer.map (· - 1) else (s.input i).timer } := by
  rw [State.input, s.switchesTaken_frame.1 .inputs (by decide)]
  exact s.countDown_input i

theorem State.atBlock_input (s : State) (i : Fin 12) : s.atBlock.input i = { s.input i with
    timer := if i.val < 8 then (s.input i).timer.map (· - 1) else (s.input i).timer } := by
  rw [State.input, s.atBlock_frame.1 .inputs (by decide)]
  exact s.switchesTaken_input i

theorem State.atBlock_tuner (s : State) : s.atBlock.tuner = s.tuner.tick := by
  rw [s.atBlock_frame.1 .tuner (by decide), s.switchesTaken_frame.1 .tuner (by decide), s.countDown_tuner]

theorem State.atBlock_decoder (s : State) : s.atBlock.decoder = s.decoder := s.atBlock_changes .decoder (by decide)

theorem State.switchesTaken_decoder (s : State) : s.switchesTaken.decoder = s.decoder := by
  rw [s.switchesTaken_frame.1 .decoder (by decide), s.countDown_changes .decoder (by decide)]

theorem State.switchesTaken_mix (s : State) : s.switchesTaken.mix = s.mix := by
  rw [s.switchesTaken_frame.1 .mix (by decide), s.countDown_changes .mix (by decide)]

/-! ### The routing (R51, R86, R87, R93, R100) -/

theorem State.atBlock_mix (s : State) : s.atBlock.mix = { s.switchesTaken.takeRouting.mix with gains := s.atBlock.mix.gains } := by
  rw [State.atBlock_eq]
  exact State.stepGains_mix _

theorem State.switchesTaken_speaker (s : State) (p : Position) : s.switchesTaken.speaker p = s.speaker p := by
  rw [State.speaker, s.switchesTaken_mix]; rfl

theorem State.atBlock_speaker (s : State) (p : Position) : s.atBlock.speaker p = s.speaker p := by
  rw [State.speaker, s.atBlock_mix]
  exact s.switchesTaken_speaker p

theorem State.switchesTaken_speakerSet (s : State) : s.switchesTaken.speakerSet = s.speakerSet := by
  have hassign : s.switchesTaken.outputs.assign = s.outputs.assign := by
    rw [s.switchesTaken_frame.1 .outputs (by decide), s.countDown_outputs]
  have hposition (p : Position) : s.switchesTaken.positionOutput p = s.positionOutput p := by
    simp only [State.positionOutput, hassign]
  have hgranted (o : Fin 13) : (s.switchesTaken.out o).grantedTo .main = (s.out o).grantedTo .main := by
    rw [s.switchesTaken_out]; rfl
  have hrole (o : Fin 13) : (s.switchesTaken.out o).role = (s.out o).role := by rw [s.switchesTaken_out]
  simp only [State.speakerSet, hposition, s.switchesTaken_speaker, hgranted, hrole]

theorem State.switchesTaken_sourceChannels (s : State) (z : Zone) : s.switchesTaken.sourceChannels z = s.sourceChannels z := by
  have hz : s.switchesTaken.zone z = _ := s.switchesTaken_zone z
  have hstate (i : Fin 12) : (s.switchesTaken.input i).state = (s.input i).state := by rw [s.switchesTaken_input]
  have hmask (i : Fin 12) : (s.switchesTaken.input i).mask = (s.input i).mask := by rw [s.switchesTaken_input]
  have hbound (i : Fin 12) : s.switchesTaken.boundTo i = s.boundTo i := by
    rw [State.boundTo, State.boundTo, s.switchesTaken_decoder]
  simp only [State.sourceChannels, hz, ZoneRec.tick, hstate, hmask, hbound, s.switchesTaken_decoder]

theorem State.switchesTaken_downmixCoefs (s : State) (z : Zone) : s.switchesTaken.downmixCoefs z = s.downmixCoefs z := by
  have hz : s.switchesTaken.zone z = _ := s.switchesTaken_zone z
  have hbound (i : Fin 12) : s.switchesTaken.boundTo i = s.boundTo i := by
    rw [State.boundTo, State.boundTo, s.switchesTaken_decoder]
  have hplays : s.switchesTaken.playsBound z = s.playsBound z := by
    simp only [State.playsBound, hz, ZoneRec.tick, hbound]
  have hheader : s.switchesTaken.headerFor z = s.headerFor z := by
    rw [State.headerFor, State.headerFor, hplays, s.switchesTaken_decoder]
  rw [State.downmixCoefs, State.downmixCoefs, hheader]

theorem State.switchesTaken_pairState (s : State) (z : Zone) (l r : Role) :
    s.switchesTaken.pairState z l r = s.pairState z l r := by
  have hgranted (o : Fin 13) : (s.switchesTaken.out o).grantedTo z = (s.out o).grantedTo z := by
    rw [s.switchesTaken_out]; rfl
  have hrole (o : Fin 13) : (s.switchesTaken.out o).role = (s.out o).role := by rw [s.switchesTaken_out]
  simp only [State.pairState, State.roleGranted, hgranted, hrole]

/-- What the Mix Engine takes at a block start (R86). -/
structure Routed (s : State) (m : MixState) : Prop where
  speakers : m.speakers = s.mix.speakers
  crossover : m.crossover = s.mix.crossover
  speakerSet : m.speakerSet = s.speakerSet
  sourceSet : ∀ z, m.sourceSet.get z = s.sourceChannels z
  downmix : ∀ z, m.downmix.get z = s.downmixCoefs z
  virtualSet : m.virtualSet = if (s.zone .main).power = .standby then [] else
    virtualChannels (s.zone .main).mode (s.sourceChannels .main) s.speakerSet
  foldMatrix : m.foldMatrix = if (s.zone .main).power = .standby then none else some (buildMatrix s.speakerSet m.virtualSet)
  pair2 : m.pair2 = s.pairState .z2 .z2l .z2r
  pair3 : m.pair3 = s.pairState .z3 .z3l .z3r

theorem State.atBlock_routed (s : State) : Routed s s.atBlock.mix := by
  have hpower : (s.switchesTaken.zone .main).power = (s.zone .main).power := by rw [s.switchesTaken_zone]; rfl
  have hmode : (s.switchesTaken.zone .main).mode = (s.zone .main).mode := by rw [s.switchesTaken_zone]; rfl
  rw [s.atBlock_mix]
  refine ⟨?_, ?_, s.switchesTaken_speakerSet, fun z => ?_, fun z => ?_, ?_, ?_, s.switchesTaken_pairState _ _ _,
    s.switchesTaken_pairState _ _ _⟩
  · exact (congrArg MixState.speakers s.switchesTaken_mix :)
  · exact (congrArg MixState.crossover s.switchesTaken_mix :)
  · cases z <;> exact s.switchesTaken_sourceChannels _
  · cases z <;> exact s.switchesTaken_downmixCoefs _
  · simp only [State.takeRouting, State.setMix_mix, hpower, hmode, s.switchesTaken_sourceChannels, s.switchesTaken_speakerSet]
  · simp only [State.takeRouting, State.setMix_mix, hpower, hmode, s.switchesTaken_sourceChannels, s.switchesTaken_speakerSet]

theorem State.atBlock_filters (s : State) : s.atBlock.mix.filters = s.mix.filters := by
  rw [s.atBlock_mix]
  exact (congrArg MixState.filters s.switchesTaken_mix :)

theorem State.atBlock_lanes (s : State) : s.atBlock.mix.lanes = s.mix.lanes := by
  rw [s.atBlock_mix]
  exact (congrArg MixState.lanes s.switchesTaken_mix :)

/-- The source channel set of a zone (R93). -/
theorem State.sourceChannels_spec (s : State) (z : Zone) :
    let r := s.zone z
    let set := s.sourceChannels z
    (r.power = .standby ∨ r.status ≠ .playing ∨ r.live = .tuner → set = [.fl, .fr]) ∧
    (∀ i, r.power ≠ .standby → r.status = .playing → r.live = .input i →
      ((s.input i).state = .pcm2 → set = [.fl, .fr]) ∧
      (∀ m, (s.input i).state = .pcmn → (s.input i).mask = some m → set = channelsOf m) ∧
      (∀ h, (s.input i).state = .packed → s.boundTo i = true → s.decoder.header = some h → set = channelsOf h.mask) ∧
      ((s.input i).state = .packed → s.boundTo i = false ∨ s.decoder.header = none → set = [.fl, .fr])) := by
  dsimp only
  refine ⟨fun h => ?_, fun i hp hst hl => ?_⟩
  · by_cases hidle : (s.zone z).power = .standby ∨ (s.zone z).status ≠ .playing
    · rw [State.sourceChannels, if_pos hidle]
    · obtain ⟨hp, hst⟩ := not_or.1 hidle
      have hl := (h.resolve_left hp).resolve_left hst
      rw [State.sourceChannels, if_neg hidle, hl]
  · have hplays : ¬ ((s.zone z).power = .standby ∨ (s.zone z).status ≠ .playing) := fun h => h.elim hp fun h => h hst
    rw [State.sourceChannels, if_neg hplays, hl]
    dsimp only
    refine ⟨fun h => by rw [h], fun m h hm => by rw [h, hm]; rfl, fun hd h hb hh => by rw [h, hh]; exact if_pos hb, fun h hn => ?_⟩
    rw [h]
    cases hh : s.decoder.header with
    | none => rfl
    | some hd =>
      have hb : s.boundTo i = false := hn.resolve_right (by rw [hh]; exact Option.some_ne_none hd)
      dsimp only
      rw [hb]
      rfl

theorem State.roleGranted_iff (s : State) (z : Zone) (r : Role) :
    s.roleGranted z r = true ↔ ∃ o, (s.out o).grantedTo z = true ∧ (s.out o).role = some r := by
  simp [State.roleGranted, mem_allOutputs]

/-- The pair state of a remote zone (R51). -/
theorem State.pairState_spec (s : State) (z : Zone) (l r : Role) :
    let held := fun r : Role => ∃ o, (s.out o).grantedTo z = true ∧ (s.out o).role = some r
    (held l → held r → s.pairState z l r = .both) ∧ (held l → ¬ held r → s.pairState z l r = .one l) ∧
    (¬ held l → held r → s.pairState z l r = .one r) ∧ (¬ held l → ¬ held r → s.pairState z l r = .none) := by
  simp only [← State.roleGranted_iff, Bool.not_eq_true, State.pairState]
  refine ⟨fun h1 h2 => by rw [h1, h2], fun h1 h2 => by rw [h1, h2], fun h1 h2 => by rw [h1, h2], fun h1 h2 => by rw [h1, h2]⟩

end Sys2Proof.Machine

end

section
/-! PROOFS. The lines that a block start clears at a switch-in (R105, R123; O49). -/

open Sys2Proof Sys2Proof.Machine

namespace Sys2Proof.Machine

/-- An address in the line of a segment, or in what a move has copied of it. -/
def Segment.clears (g : Segment) (a : Nat) : Prop :=
  g.covers a ∨ ∃ m, g.move = some m ∧ 256 * m.target ≤ a ∧ a < 256 * (m.target + m.copied)

theorem Segment.clears_laid (g : Segment) (a : Nat) : g.laid.clears a ↔ g.clears a := Iff.rfl

/-- An address in the line of one of some outputs, or in what a move has copied of it. -/
def DelayState.sweeps (d : DelayState) (os : Fin 13 → Prop) (a : Nat) : Prop :=
  ∃ o g, os o ∧ d.segment o = some g ∧ g.clears a

theorem laidAlike.sweeps {d e : DelayState} (h : laidAlike d e) {os : Fin 13 → Prop} {a : Nat} (hd : d.sweeps os a) :
    e.sweeps os a := by
  obtain ⟨o, g, ho, hg, ha⟩ := hd
  obtain ⟨g', hg', heq⟩ := h.of_some hg
  refine ⟨o, g', ho, hg', ?_⟩
  rw [← Segment.clears_laid, Segment.laid_iff.2 heq, Segment.clears_laid]
  exact ha

/-- The lines of some outputs are cleared, with what moves have copied of them; no other word changes. -/
structure Swept (os : Fin 13 → Prop) (d e : DelayState) : Prop where
  laid : laidAlike d e
  zero : ∀ a, d.sweeps os a → e.dram.read a = 0
  kept : ∀ a, ¬ d.sweeps os a → e.dram.read a = d.dram.read a

theorem Swept.of_none {os : Fin 13 → Prop} (h : ∀ o, ¬ os o) (d : DelayState) : Swept os d d :=
  ⟨.refl d, fun _ ⟨o, _, ho, _⟩ => absurd ho (h o), fun _ _ => rfl⟩

theorem Swept.trans {os ps : Fin 13 → Prop} {d e f : DelayState} (h1 : Swept os d e) (h2 : Swept ps e f) :
    Swept (fun o => os o ∨ ps o) d f where
  laid := h1.laid.trans h2.laid
  zero := fun a ha => by
    by_cases hps : e.sweeps ps a
    · exact h2.zero a hps
    · rw [h2.kept a hps]
      obtain ⟨o, g, ho, hg, hga⟩ := ha
      refine h1.zero a ⟨o, g, ho.resolve_right fun hp => hps ?_, hg, hga⟩
      exact h1.laid.sweeps ⟨o, g, hp, hg, hga⟩
  kept := fun a ha => by
    have hos : ¬ d.sweeps os a := fun ⟨o, g, ho, h⟩ => ha ⟨o, g, .inl ho, h⟩
    have hps : ¬ e.sweeps ps a := fun h => by
      obtain ⟨o, g, ho, h⟩ := h1.laid.symm.sweeps h
      exact ha ⟨o, g, .inr ho, h⟩
    rw [h2.kept a hps, h1.kept a hos]

theorem Swept.congr {os ps : Fin 13 → Prop} {d e : DelayState} (h : Swept os d e) (hp : ∀ o, os o ↔ ps o) : Swept ps d e := by
  obtain rfl : os = ps := funext fun o => propext (hp o)
  exact h

/-! ### One line -/

theorem DelayState.clearCopied_dram (d : DelayState) (g : Segment) (a : Nat) : (d.clearCopied g).dram.read a =
    if ∃ m, g.move = some m ∧ 256 * m.target ≤ a ∧ a < 256 * (m.target + m.copied) then 0 else d.dram.read a := by
  unfold DelayState.clearCopied
  cases hm : g.move with
  | none => rw [if_neg fun ⟨m, h, _⟩ => nomatch h]
  | some m =>
    dsimp only
    rw [Dram.read_clear, show pageWords = 256 from rfl]
    refine if_congr ⟨fun h => ⟨m, rfl, by omega, by omega⟩, fun ⟨m', h, h1, h2⟩ => ?_⟩ rfl rfl
    obtain rfl := Option.some.inj h
    omega

theorem DelayState.clearLine_dram (d : DelayState) (g : Segment) (a : Nat) :
    (d.clearLine g).dram.read a = if 256 * g.base ≤ a ∧ a < 256 * (g.base + g.count) then 0 else d.dram.read a := by
  have hread : (d.clearLine g).dram.read a = (d.dram.clear (g.base * pageWords) (g.count * pageWords)).read a := rfl
  rw [hread, Dram.read_clear, show pageWords = 256 from rfl]
  exact if_congr (by omega) rfl rfl

theorem State.clearOutputLine_swept (s : State) (o : Fin 13) :
    Swept (fun q => q = o) s.delay (s.clearOutputLine o).delay := by
  unfold State.clearOutputLine
  cases hg : s.delay.segment o with
  | none =>
    refine ⟨.refl _, fun a ⟨q, g, hq, hs, _⟩ => ?_, fun _ _ => rfl⟩
    rw [hq, hg] at hs; cases hs
  | some g =>
    have ho := DelayState.segment_output hg
    subst ho
    have hkeep : (s.delay.clearCopied g).segment g.output = some g := by rw [DelayState.segment_clearCopied, hg]
    have hlaid : laidAlike s.delay ((s.delay.clearCopied g).clearLine g) := by
      intro q
      by_cases hq : q = g.output
      · subst hq
        rw [DelayState.segment_clearLine_self, hg]; rfl
      · rw [DelayState.segment_clearLine_ne _ hq, DelayState.segment_clearCopied]
    refine ⟨hlaid, fun a ⟨q, g', hq, hs, ha⟩ => ?_, fun a ha => ?_⟩
    · rw [hq, hg] at hs
      obtain rfl := Option.some.inj hs
      rw [State.setDelay_delay, DelayState.clearLine_dram, DelayState.clearCopied_dram]
      by_cases hrun : 256 * g.base ≤ a ∧ a < 256 * (g.base + g.count)
      · rw [if_pos hrun]
      · rw [if_neg hrun, if_pos (ha.resolve_left hrun)]
    · obtain ⟨hrun, hcopied⟩ : ¬ (256 * g.base ≤ a ∧ a < 256 * (g.base + g.count)) ∧ _ :=
        not_or.1 fun h : g.clears a => ha ⟨_, g, rfl, hg, h⟩
      rw [State.setDelay_delay, DelayState.clearLine_dram, DelayState.clearCopied_dram, if_neg hrun, if_neg hcopied]

theorem State.clearOutputLines_swept (l : List (Fin 13)) (s : State) :
    Swept (fun o => o ∈ l) s.delay (l.foldl State.clearOutputLine s).delay := by
  induction l generalizing s with
  | nil => exact .of_none (fun _ h => nomatch h) _
  | cons o l ih => exact ((s.clearOutputLine_swept o).trans (ih _)).congr fun q => List.mem_cons.symm

/-! ### The lines of the zones (R105) -/

/-- The outputs whose lines a switch-in of one of some zones clears. -/
def State.switchesIn (s : State) (l : List Zone) (o : Fin 13) : Prop :=
  ∃ z, z ∈ l ∧ (s.zone z).switchIn = true ∧ (s.out o).grantedTo z = true

theorem State.takeSwitchIn_swept (s : State) (z : Zone) : Swept (s.switchesIn [z]) s.delay (s.takeSwitchIn z).delay := by
  unfold State.takeSwitchIn
  by_cases h : (s.zone z).switchIn = true
  · rw [if_pos h]
    refine (State.clearOutputLines_swept (s.grantedOutputs z) s).congr fun o => ?_
    simp [State.switchesIn, State.grantedOutputs, mem_allOutputs, h]
  · rw [if_neg h]
    refine .of_none (fun o ⟨y, hy, hs, _⟩ => h ?_) _
    rw [List.mem_singleton] at hy
    exact hy ▸ hs

theorem State.takeSwitchIns_swept {l : List Zone} (hl : l.Nodup) (s : State) :
    Swept (s.switchesIn l) s.delay (l.foldl State.takeSwitchIn s).delay := by
  induction l generalizing s with
  | nil => exact .of_none (fun _ ⟨_, h, _⟩ => nomatch h) _
  | cons z l ih =>
    obtain ⟨hz, hl⟩ := List.nodup_cons.1 hl
    refine ((s.takeSwitchIn_swept z).trans (ih hl _)).congr fun o => ?_
    have hout : (s.takeSwitchIn z).out o = s.out o := by
      rw [State.out, (s.takeSwitchIn_frame z).1 .outputs (by decide)]; rfl
    have hsame (y : Zone) (hy : y ∈ l) : (s.takeSwitchIn z).zone y = s.zone y :=
      s.takeSwitchIn_zone_ne fun e => hz (e ▸ hy)
    constructor
    · rintro (⟨y, hy, h⟩ | ⟨y, hy, h1, h2⟩)
      · exact ⟨y, List.mem_cons.2 (.inl (List.mem_singleton.1 hy)), h⟩
      · exact ⟨y, List.mem_cons_of_mem z hy, hsame y hy ▸ h1, hout ▸ h2⟩
    · rintro ⟨y, hy, h1, h2⟩
      obtain rfl | hy := List.mem_cons.1 hy
      · exact .inl ⟨y, List.mem_singleton_self y, h1, h2⟩
      · exact .inr ⟨y, hy, by rw [hsame y hy]; exact h1, by rw [hout]; exact h2⟩

/-- A block start clears the lines of the zones whose switch-in it takes, and no other word (R105). -/
theorem State.atBlock_swept (s : State) :
    Swept (fun o => ∃ z, (s.zone z).switchIn = true ∧ (s.out o).grantedTo z = true) s.delay s.atBlock.delay := by
  have hswitched := State.takeSwitchIns_swept (l := Zone.all) (by decide) s.countDown
  have hdelay : s.atBlock.delay = s.switchesTaken.delay := s.atBlock_frame.1 .delay (by decide)
  rw [hdelay]
  rw [s.countDown_delay] at hswitched
  refine hswitched.congr fun o => ?_
  have hgranted (z : Zone) : (s.countDown.out o).grantedTo z = (s.out o).grantedTo z := by rw [s.countDown_out]; rfl
  simp only [State.switchesIn, Zone.mem_all, true_and, s.countDown_zone, hgranted]
  rfl

end Sys2Proof.Machine

end

section
/-! PROOFS. What a block writes, and what its lanes carry (R101, R102, R105, R110, R123; O49). -/

open Sys2Proof Sys2Proof.Machine

namespace Sys2Proof.Machine

/-! ### The filters (R101) -/

/-- The filters of a position after a block. -/
def filtersAfter (rs : List Redirect) (p : Position) (old : FilterPair) : FilterPair :=
  ((rs.find? (fun r => r.position == p)).map Redirect.filters).getD { old with redirected := false }

/-- The filters of one position after a block. -/
def State.takeFilter (rs : List Redirect) (s : State) (k : Fin 9) : State :=
  s.setMix { s.mix with filters := s.mix.filters.set k (filtersAfter rs (mainPosition k) s.mix.filters[k]) }

theorem State.takeFilters_eq (s : State) (rs : List Redirect) : s.takeFilters rs = (List.finRange 9).foldl (State.takeFilter rs) s := by
  rw [State.takeFilters, mainPositions_eq, List.foldl_map]
  refine congrArg (fun f => List.foldl f s (List.finRange 9)) (funext fun s => funext fun k => ?_)
  dsimp only
  rw [mainPosition_filterIndex, State.takeFilter, filtersAfter]
  dsimp only
  cases rs.find? (fun r => r.position == mainPosition k) with
  | none => rfl
  | some r => rfl

theorem State.takeFilters_filters (s : State) (rs : List Redirect) (k : Fin 9) :
    (s.takeFilters rs).mix.filters[k] = filtersAfter rs (mainPosition k) s.mix.filters[k] := by
  have hself (s : State) (k : Fin 9) : (s.takeFilter rs k).mix.filters[k] = filtersAfter rs (mainPosition k) s.mix.filters[k] := by
    simp [State.takeFilter]
  have hother (s : State) (k j : Fin 9) (hj : j ≠ k) : (s.takeFilter rs k).mix.filters[j] = s.mix.filters[j] := by
    have hval : k.val ≠ j.val := fun e => hj (Fin.ext e.symm)
    simp [State.takeFilter, Vector.getElem_set_ne, hval]
  rw [State.takeFilters_eq, foldl_records (f := State.takeFilter rs) (get := fun s k => s.mix.filters[k])
    (g := fun k old => filtersAfter rs (mainPosition k) old) hself hother (List.nodup_finRange 9) s k,
    if_pos (List.mem_finRange k)]

theorem State.takeFilters_frame (s : State) (rs : List Redirect) : Frame [.mix] s (s.takeFilters rs) := by
  rw [State.takeFilters_eq]
  exact Frame.foldl _ (fun s k => s.setMix_frame _) _ _

theorem State.takeFilters_mix (s : State) (rs : List Redirect) :
    (s.takeFilters rs).mix = { s.mix with filters := (s.takeFilters rs).mix.filters } := by
  rw [State.takeFilters_eq]
  generalize List.finRange 9 = l
  induction l generalizing s with
  | nil => rfl
  | cons k l ih => rw [List.foldl_cons, ih]; rfl

/-- The speaker sum of a position of the speaker set, none being summed while MAIN is in STANDBY (R99, R100). -/
theorem State.atBlock_speakerSum (s : State) (v : Sound) {p : Position} (hp : p ∈ s.atBlock.mix.speakerSet) :
    s.atBlock.speakerSum v p = (List.range 48).map (s.atBlock.sumAt v p) := by
  have hr := s.atBlock_routed
  by_cases hz : (s.zone .main).power = .standby
  · have hvirtual : s.atBlock.mix.virtualSet = [] := by rw [hr.virtualSet, if_pos hz]
    have hmatrix : s.atBlock.mix.foldMatrix = none := by rw [hr.foldMatrix, if_pos hz]
    have hsum (i : Nat) : s.atBlock.sumAt v p i = 0 := by
      rw [State.sumAt, hvirtual]; rfl
    rw [State.speakerSum, hmatrix]
    exact (List.map_congr_left (l := List.range 48) (f := fun _ => (0 : Int)) fun i _ => (hsum i).symm)
  · refine State.speakerSum_eq ?_ hp
    rw [hr.foldMatrix, if_neg hz, hr.speakerSet]

/-- The filters after a block start (R101). -/
theorem State.atBlock_filtersAfter (s : State) (v : Sound) (k : Fin 9) :
    (¬ s.atBlock.isRedirected (mainPosition k) →
      filtersAfter (s.atBlock.redirects v) (mainPosition k) s.mix.filters[k] = { s.mix.filters[k] with redirected := false }) ∧
    (s.atBlock.isRedirected (mainPosition k) →
      filtersAfter (s.atBlock.redirects v) (mainPosition k) s.mix.filters[k] =
        { highPass := runInner (Config.highPass s.mix.crossover.toNat) (s.filterStart k).highPass
            (s.atBlock.sumAt v (mainPosition k)) 48
          lowPass := runInner (Config.lowPass s.mix.crossover.toNat) (s.filterStart k).lowPass
            (s.atBlock.sumAt v (mainPosition k)) 48
          redirected := true }) := by
  obtain ⟨hnone, hsome⟩ := s.atBlock.redirects_find v (p := mainPosition k)
  refine ⟨fun h => by rw [filtersAfter, hnone h]; rfl, fun h => ?_⟩
  obtain ⟨-, -, -, hset, -⟩ := id h
  have hstart : s.atBlock.filterStart k = s.filterStart k := by
    rw [State.filterStart, State.filterStart, s.atBlock_filters]
  rw [filtersAfter, hsome k rfl h, Option.map_some, Option.getD_some, State.redirect, s.atBlock_speakerSum v hset]
  dsimp only
  rw [runFilter_signal, runFilter_signal]
  rw [← hstart, ← s.atBlock_routed.crossover]
  rfl

/-! ### Every wave has 48 samples -/

theorem weighted_length (l : List (Int × Wave)) : (weighted l).length = 48 := by
  rw [weighted, List.length_map, List.length_range]; rfl

theorem Wave.silent_length : Wave.silent.length = 48 := rfl

theorem Wave.of_length (xs : List Sample) : (Wave.of xs).length = 48 := by
  rw [Wave.of, List.length_map, List.length_range]; rfl

/-- Every channel of a sound has 48 samples. -/
def Sound.Full (v : Sound) : Prop := ∀ cw, cw ∈ v → cw.2.length = 48

theorem Sound.Full.get {v : Sound} (h : v.Full) (ch : Channel) : (v.get ch).length = 48 := by
  rw [Sound.get]
  cases hf : v.find? (fun cw => cw.1 == ch) with
  | none => rfl
  | some cw => exact h cw (List.mem_of_find?_eq_some hf)

theorem Sound.full_map (l : List Channel) {f : Channel → Wave} (h : ∀ ch, (f ch).length = 48) :
    Sound.Full (l.map fun ch => (ch, f ch)) := by
  intro cw hcw
  obtain ⟨ch, -, rfl⟩ := List.mem_map.1 hcw
  exact h ch

theorem State.tunerWave_length (s : State) (audio : BlockAudio) (right : Bool) : (s.tunerWave audio right).length = 48 := by
  unfold State.tunerWave
  split
  · split
    · exact Wave.of_length _
    · exact weighted_length _
    · exact Wave.of_length _
  · rfl

theorem State.decodedWave_length (s : State) (ch : Channel) : (s.decodedWave ch).length = 48 := by
  unfold State.decodedWave
  split
  · rw [List.length_map, List.length_range]; rfl
  · rfl

theorem inputWave_length (audio : BlockAudio) (i : Fin 12) (ch : Channel) : (inputWave audio i ch).length = 48 := by
  unfold inputWave
  split
  · exact Wave.of_length _
  · rfl

theorem State.sourceWave_length (s : State) (audio : BlockAudio) (z : Zone) (ch : Channel) :
    (s.sourceWave audio z ch).length = 48 := by
  unfold State.sourceWave
  dsimp only
  split
  · rfl
  · split
    · exact s.tunerWave_length audio _
    · split
      · split
        · exact s.decodedWave_length ch
        · rfl
      · exact inputWave_length audio _ ch

theorem State.source_full (s : State) (audio : BlockAudio) (z : Zone) : (s.source audio z).Full :=
  Sound.full_map _ fun ch => s.sourceWave_length audio z ch

theorem downmix_length (k : DownmixCoef) {v : Sound} (h : v.Full) : (downmix k v).1.length = 48 ∧ (downmix k v).2.length = 48 := by
  unfold downmix
  split
  · exact ⟨h.get .fl, h.get .fr⟩
  · exact ⟨weighted_length _, weighted_length _⟩

theorem virtualWave_length (mode : SurroundMode) (k : DownmixCoef) {v : Sound} (h : v.Full) (ch : Channel) :
    (virtualWave mode k v ch).length = 48 := by
  obtain ⟨hlo, hro⟩ := downmix_length k h
  cases mode with
  | direct | stereo => exact h.get ch
  | matrix =>
    unfold virtualWave
    dsimp only
    split
    · cases ch with
      | c | sl | bl | sr | br => exact weighted_length _
      | fl | fr | lfe | hl | hr => exact h.get _
    · exact h.get ch
  | allStereo =>
    cases ch with
    | fl | sl | bl | hl => exact hlo
    | fr | sr | br | hr => exact hro
    | c => exact weighted_length _
    | lfe => exact h.get .lfe

theorem State.virtualSound_full (s : State) (audio : BlockAudio) : (s.virtualSound audio).Full :=
  Sound.full_map _ fun ch => virtualWave_length _ _ (s.source_full audio .main) ch

theorem State.speakerSum_length (s : State) (v : Sound) (p : Position) : (s.speakerSum v p).length = 48 := by
  unfold State.speakerSum
  split
  · exact weighted_length _
  · rfl

theorem runFilter_length (f : FilterState → Int → FilterState × Int) (st : FilterState) (w : Wave) :
    (runFilter f st w).2.length = w.length := by
  have hfold (l : Wave) (a : FilterState × Wave) :
      (l.foldl (fun (a : FilterState × Wave) x => ((f a.1 x).1, saturate (f a.1 x).2 :: a.2)) a).2.length = a.2.length + l.length := by
    induction l generalizing a with
    | nil => rfl
    | cons x l ih => rw [List.foldl_cons, ih, List.length_cons, List.length_cons]; omega
  rw [runFilter]
  dsimp only
  rw [List.length_reverse, hfold, List.length_nil, Nat.zero_add]

theorem State.positionWave_length (s : State) (v : Sound) (p : Position) : (s.positionWave v (s.redirects v) p).length = 48 := by
  unfold State.positionWave
  split
  · rw [addWaves, List.length_map, List.length_range]; rfl
  · cases hf : (s.redirects v).find? (fun r => r.position == p) with
    | none => exact s.speakerSum_length v p
    | some r =>
      have hr := List.mem_of_find?_eq_some hf
      rw [State.redirects_eq] at hr
      obtain ⟨k, -, rfl⟩ := List.mem_map.1 hr
      exact (runFilter_length _ _ _).trans (s.speakerSum_length v _)

theorem State.remoteWave_length (s : State) (audio : BlockAudio) (z : Zone) (r : Role) : (s.remoteWave audio z r).length = 48 := by
  obtain ⟨hlo, hro⟩ := downmix_length (s.mix.downmix.get z) (s.source_full audio z)
  unfold State.remoteWave
  dsimp only
  split
  · exact weighted_length _
  · split
    · exact hlo
    · exact hro

theorem State.leavingWave_length (s : State) (audio : BlockAudio) (z : Zone) (r : Role) : (s.leavingWave audio z r).length = 48 := by
  obtain ⟨hlo, hro⟩ := downmix_length (s.mix.downmix.get z) (s.source_full audio z)
  unfold State.leavingWave
  dsimp only
  split
  · exact hlo
  · exact hro

theorem State.writtenWave_length {s : State} {audio : BlockAudio} {o : Fin 13} {w : Wave}
    (h : s.writtenWave audio (s.virtualSound audio) (s.redirects (s.virtualSound audio)) o = some w) : w.length = 48 := by
  unfold State.writtenWave at h
  dsimp only at h
  split at h
  · obtain rfl := Option.some.inj h
    split
    · exact s.positionWave_length _ _
    · rfl
  · obtain rfl := Option.some.inj h
    exact s.remoteWave_length audio _ _
  · obtain rfl := Option.some.inj h
    split
    · exact (s.virtualSound_full audio).get _
    · rfl
  · obtain rfl := Option.some.inj h
    exact s.leavingWave_length audio _ _
  · cases h

end Sys2Proof.Machine

end

section
/-! PROOFS. The rendering of the outputs: what is written, read and put on the lanes (R105, R110, R123, R124; O49). -/

open Sys2Proof Sys2Proof.Machine

namespace Sys2Proof.Machine

/-! ### One output -/

/-- A block writes for an output. -/
def plays (d : DelayState) (W : Fin 13 → Option Wave) (o : Fin 13) (g : Segment) (w : Wave) : Prop :=
  d.segment o = some g ∧ W o = some w ∧ g.copying = false

theorem State.renderOutput_cases (s : State) (W : Fin 13 → Option Wave) (o : Fin 13) :
    (s.renderOutput o (W o) = s.silenceLane o ∧ ∀ g w, ¬ plays s.delay W o g w) ∨
    ∃ g w, plays s.delay W o g w ∧ s.renderOutput o (W o) = s.playOutput o g w := by
  unfold State.renderOutput
  cases hs : s.delay.segment o with
  | none => exact .inl ⟨rfl, fun g w ⟨h, _⟩ => by rw [hs] at h; cases h⟩
  | some g =>
    cases hw : W o with
    | none => exact .inl ⟨rfl, fun g w ⟨_, h, _⟩ => by rw [hw] at h; cases h⟩
    | some w =>
      dsimp only
      by_cases hc : g.copying = true
      · refine .inl ⟨if_pos hc, fun g' w' ⟨h, _, hn⟩ => ?_⟩
        rw [hs] at h
        obtain rfl := Option.some.inj h
        rw [hc] at hn; cases hn
      · exact .inr ⟨g, w, ⟨hs, hw, by simpa using hc⟩, if_neg hc⟩

/-- The words that a block writes for an output. -/
def DelayState.writes (d : DelayState) (W : Fin 13 → Option Wave) (o : Fin 13) (a : Nat) : Prop :=
  ∃ g w k, plays d W o g w ∧ k < 48 ∧ a = g.ringWord 0 k

theorem State.playOutput_dram (s : State) (o : Fin 13) (g : Segment) (w : Wave) : (s.playOutput o g w).delay.dram =
    Dram.writeRing s.delay.dram (g.base * pageWords) g.words g.place (w.map toSample) := rfl

theorem State.playOutput_segments (s : State) (o : Fin 13) (g : Segment) (w : Wave) :
    (s.playOutput o g w).delay = { s.delay.setSegment o g.advance with dram := (s.playOutput o g w).delay.dram } := rfl

theorem Segment.advance_eq (g : Segment) : g.advance = { g with writePos := g.ringWord 0 48 } := by
  rw [g.ringWord_zero]; rfl

theorem State.playOutput_segment_self {s : State} {o : Fin 13} {g : Segment} (w : Wave) (hs : s.delay.segment o = some g) :
    (s.playOutput o g w).delay.segment o = some { g with writePos := g.ringWord 0 48 } := by
  have ho := DelayState.segment_output hs
  subst ho
  rw [← g.advance_eq]
  exact DelayState.segment_setSegment_self s.delay g.advance

theorem State.playOutput_laid {s : State} {o : Fin 13} {g : Segment} (w : Wave) (hs : s.delay.segment o = some g) :
    laidAlike s.delay (s.playOutput o g w).delay :=
  laidAlike.setSegment hs (k := g.advance) rfl

theorem State.renderOutput_laid (s : State) (W : Fin 13 → Option Wave) (o : Fin 13) :
    laidAlike s.delay (s.renderOutput o (W o)).delay := by
  obtain ⟨h, -⟩ | ⟨g, w, ⟨hs, -⟩, h⟩ := s.renderOutput_cases W o
  · rw [h]; exact .refl _
  · rw [h]; exact State.playOutput_laid w hs

theorem State.renderOutput_segment_ne (s : State) (W : Fin 13 → Option Wave) {o q : Fin 13} (hq : q ≠ o) :
    (s.renderOutput o (W o)).delay.segment q = s.delay.segment q := by
  obtain ⟨h, -⟩ | ⟨g, w, ⟨hs, -⟩, h⟩ := s.renderOutput_cases W o
  · rw [h]; rfl
  · have ho := DelayState.segment_output hs
    subst ho
    rw [h]
    exact DelayState.segment_setSegment_ne s.delay g.advance hq

theorem State.renderOutput_read {s : State} {W : Fin 13 → Option Wave} {o : Fin 13} (hW : ∀ w, W o = some w → w.length = 48) {a : Nat}
    (ha : ¬ s.delay.writes W o a) : (s.renderOutput o (W o)).delay.dram.read a = s.delay.dram.read a := by
  obtain ⟨h, -⟩ | ⟨g, w, hp, h⟩ := s.renderOutput_cases W o
  · rw [h]; rfl
  · rw [h, State.playOutput_dram]
    refine Dram.read_writeRing_other fun j hj he => ha ⟨g, w, j, hp, ?_, ?_⟩
    · rwa [List.length_map, hW w hp.2.1] at hj
    · rw [he, g.ringWord_zero]

theorem State.renderOutput_lane_ne (s : State) (W : Fin 13 → Option Wave) {o q : Fin 13} (hq : q ≠ o) :
    (s.renderOutput o (W o)).mix.lanes[q] = s.mix.lanes[q] := by
  have hset (v : Vector (List Sample) 13) (x : List Sample) : (v.set o x)[q] = v[q] :=
    Vector.getElem_set_ne _ _ fun e => hq (Fin.ext e.symm)
  obtain ⟨h, -⟩ | ⟨g, w, -, h⟩ := s.renderOutput_cases W o
  · rw [h]; exact hset _ _
  · rw [h]; exact hset _ _

theorem State.renderOutput_frame (s : State) (o : Fin 13) (w : Option Wave) : Frame [.mix, .delay] s (s.renderOutput o w) := by
  unfold State.renderOutput
  split
  · split
    · exact (s.silenceLane_frame o).mono
    · exact (State.setDelay_frame s _).mono.trans ((State.setDelay_frame _ _).mono.trans (State.setMix_frame _ _).mono)
  · exact (s.silenceLane_frame o).mono

theorem State.renderOutput_mix (s : State) (o : Fin 13) (w : Option Wave) :
    (s.renderOutput o w).mix = { s.mix with lanes := (s.renderOutput o w).mix.lanes } := by
  unfold State.renderOutput
  split
  · split
    · rfl
    · rfl
  · rfl

theorem State.silenceLane_lane (s : State) (o : Fin 13) : (s.silenceLane o).mix.lanes[o] = List.replicate 48 0 :=
  Vector.getElem_set_self _

theorem State.playOutput_lane (s : State) (o : Fin 13) (g : Segment) (w : Wave) : (s.playOutput o g w).mix.lanes[o] =
    ((s.writeBlock g w).readBlock g).map fun x => outputSample (gainWord (s.gain o).current) (s.isInverted o) x.toInt :=
  Vector.getElem_set_self _

/-- A word that a block has written for an output (R123). -/
theorem State.playOutput_written (s : State) (o : Fin 13) {g : Segment} {w : Wave} (hw : w.length = 48) (hg : 48 ≤ g.words) {k : Nat}
    (hk : k < 48) : (s.playOutput o g w).delay.dram.read (g.ringWord 0 k) = toSample (w.getD k 0) := by
  have hlen : (w.map toSample).length = 48 := by rw [List.length_map, hw]
  rw [State.playOutput_dram, g.ringWord_zero, Dram.read_writeRing_at (by omega) (by omega), List.getElem_map,
    List.getD_eq_getElem _ _ (by omega)]

/-- The lane of an output carries the words of its total delay ago, with gain and polarity (R105, R110, R123). -/
theorem State.playOutput_delayed (s : State) (o : Fin 13) {g : Segment} {w : Wave} (hw : w.length = 48) (hg : g.delay + 48 ≤ g.words) :
    (s.playOutput o g w).mix.lanes[o] = (List.range 48).map fun k =>
      outputSample (gainWord (s.gain o).current) (s.isInverted o)
        (if g.delay ≤ k then toSample (w.getD (k - g.delay) 0) else s.delay.dram.read (g.ringWord g.delay k)).toInt := by
  rw [State.playOutput_lane, State.readBlock, Dram.readRing, List.map_map]
  refine List.map_congr_left fun k hk => ?_
  have hk : k < 48 := List.mem_range.1 hk
  rw [Function.comp_apply, Segment.ringBack_word (by omega)]
  congr 2
  by_cases hd : g.delay ≤ k
  · rw [if_pos hd, Segment.ringWord_written (by omega) hd]
    exact s.playOutput_written o hw (by omega) (by omega)
  · rw [if_neg hd]
    refine Dram.read_writeRing_other fun j hj he => ?_
    rw [List.length_map, hw] at hj
    rw [← g.ringWord_zero] at he
    exact Segment.ringWord_before hg (Nat.not_le.1 hd) hj he

theorem outputSample_silent (inverted : Bool) (x : Int) : outputSample (gainWord (-161)) inverted x = 0 := by
  have hword : gainWord (-161) = 0 := rfl
  rw [hword, outputSample, Nat.cast_zero, mul_zero]
  cases inverted <;> rfl

theorem State.playOutput_lane_length (s : State) (o : Fin 13) (g : Segment) (w : Wave) :
    (s.playOutput o g w).mix.lanes[o].length = 48 := by
  rw [State.playOutput_lane, List.length_map, State.readBlock, Dram.readRing, List.length_map, List.length_range]
  rfl

theorem State.playOutput_silent {s : State} {o : Fin 13} (g : Segment) (w : Wave) (h : (s.gain o).current = -161) :
    (s.playOutput o g w).mix.lanes[o] = List.replicate 48 0 := by
  refine List.eq_replicate_iff.2 ⟨s.playOutput_lane_length o g w, fun x hx => ?_⟩
  rw [State.playOutput_lane, h] at hx
  obtain ⟨y, -, rfl⟩ := List.mem_map.1 hx
  exact outputSample_silent _ _

/-! ### All outputs -/

/-- Every output is rendered. -/
def State.renderAll (s : State) (W : Fin 13 → Option Wave) : State := allOutputs.foldl (fun s o => s.renderOutput o (W o)) s

theorem State.renderBlock_eq (s : State) (audio : BlockAudio) :
    s.renderBlock audio = (s.takeFilters (s.redirects (s.virtualSound audio))).renderAll
      (s.writtenWave audio (s.virtualSound audio) (s.redirects (s.virtualSound audio))) := by
  rw [State.renderBlock, State.renderAll, List.foldl_map]

theorem State.renderAll_laid (s : State) (W : Fin 13 → Option Wave) : laidAlike s.delay (s.renderAll W).delay := by
  unfold State.renderAll
  exact List.foldlRecOn (motive := fun t : State => laidAlike s.delay t.delay) _ _ (.refl _)
    fun t ht o _ => ht.trans (t.renderOutput_laid W o)

theorem State.renderAll_frame (s : State) (W : Fin 13 → Option Wave) : Frame [.mix, .delay] s (s.renderAll W) :=
  Frame.foldl _ (fun s o => s.renderOutput_frame o _) _ _

theorem State.renderAll_mix (s : State) (W : Fin 13 → Option Wave) :
    (s.renderAll W).mix = { s.mix with lanes := (s.renderAll W).mix.lanes } := by
  unfold State.renderAll
  generalize allOutputs = l
  induction l generalizing s with
  | nil => rfl
  | cons o l ih => rw [List.foldl_cons, ih, s.renderOutput_mix]

theorem DelayState.writes_congr {d e : DelayState} {W : Fin 13 → Option Wave} {o : Fin 13} {a : Nat} (h : e.segment o = d.segment o) :
    e.writes W o a ↔ d.writes W o a := by
  simp only [DelayState.writes, plays, h]

theorem State.renderAll_read {s : State} {W : Fin 13 → Option Wave} (hW : ∀ o w, W o = some w → w.length = 48) {a : Nat}
    (ha : ∀ o, ¬ s.delay.writes W o a) : (s.renderAll W).delay.dram.read a = s.delay.dram.read a := by
  have hfold (l : List (Fin 13)) (hl : l.Nodup) (u : State) (hu : ∀ o, o ∈ l → ¬ u.delay.writes W o a) :
      (l.foldl (fun s o => s.renderOutput o (W o)) u).delay.dram.read a = u.delay.dram.read a := by
    induction l generalizing u with
    | nil => rfl
    | cons o l ih =>
      obtain ⟨ho, hl⟩ := List.nodup_cons.1 hl
      rw [List.foldl_cons, ih hl _ fun q hq => ?_, State.renderOutput_read (hW o) (hu o List.mem_cons_self)]
      have hne : q ≠ o := fun e => ho (e ▸ hq)
      rw [DelayState.writes_congr (u.renderOutput_segment_ne W hne)]
      exact hu q (List.mem_cons_of_mem o hq)
  unfold State.renderAll
  exact hfold allOutputs (by decide) s fun o _ => ha o

/-- The segments of other outputs keep off the words of `A`. -/
def DelayState.spares (d : DelayState) (o : Fin 13) (A : Nat → Prop) : Prop :=
  ∀ q g, q ≠ o → d.segment q = some g → 1 ≤ g.count ∧ ∀ a, A a → ¬ g.covers a

theorem laidAlike.spares {d e : DelayState} (h : laidAlike d e) {o : Fin 13} {A : Nat → Prop} (hd : d.spares o A) : e.spares o A := by
  intro q g hq hg
  obtain ⟨g', hg', heq⟩ := h.symm.of_some hg
  rw [heq] at hg'
  exact (hd q _ hq hg' :)

/-- What the rendering of other outputs leaves to an output, whose words are those of `A`. -/
structure Beside (o : Fin 13) (A : Nat → Prop) (u v : State) : Prop where
  segment : v.delay.segment o = u.delay.segment o
  lane : v.mix.lanes[o] = u.mix.lanes[o]
  outputs : v.outputs = u.outputs
  mix : v.mix = { u.mix with lanes := v.mix.lanes }
  laid : laidAlike u.delay v.delay
  read : u.delay.spares o A → ∀ a, A a → v.delay.dram.read a = u.delay.dram.read a

theorem Beside.refl (o : Fin 13) (A : Nat → Prop) (u : State) : Beside o A u u :=
  ⟨rfl, rfl, rfl, rfl, .refl _, fun _ _ _ => rfl⟩

theorem Beside.trans {o : Fin 13} {A : Nat → Prop} {u v w : State} (h1 : Beside o A u v) (h2 : Beside o A v w) : Beside o A u w where
  segment := h2.segment.trans h1.segment
  lane := h2.lane.trans h1.lane
  outputs := h2.outputs.trans h1.outputs
  mix := by rw [h2.mix, h1.mix]
  laid := h1.laid.trans h2.laid
  read := fun hs a ha => (h2.read (h1.laid.spares hs) a ha).trans (h1.read hs a ha)

theorem State.renderOutput_beside {s : State} {W : Fin 13 → Option Wave} (hW : ∀ o w, W o = some w → w.length = 48) {o q : Fin 13}
    (A : Nat → Prop) (hq : q ≠ o) : Beside o A s (s.renderOutput q (W q)) where
  segment := s.renderOutput_segment_ne W hq.symm
  lane := s.renderOutput_lane_ne W hq.symm
  outputs := (s.renderOutput_frame q (W q)).1 .outputs (by decide)
  mix := s.renderOutput_mix q (W q)
  laid := s.renderOutput_laid W q
  read := fun hs a ha => State.renderOutput_read (hW q) fun ⟨g, w, k, hp, hk, he⟩ => by
    obtain ⟨hseg, -, -⟩ := hp
    obtain ⟨hpos, hoff⟩ := hs q g hq hseg
    exact hoff a ha (he ▸ Segment.covers_ringWord hpos 0 k)

/-- The rendering of one output among all. -/
theorem State.renderAll_at (s : State) {W : Fin 13 → Option Wave} (hW : ∀ o w, W o = some w → w.length = 48) (o : Fin 13)
    (A : Nat → Prop) : ∃ u, Beside o A s u ∧ Beside o A (u.renderOutput o (W o)) (s.renderAll W) := by
  unfold State.renderAll
  exact foldl_at (R := Beside o A) (Beside.refl o A) (fun _ _ _ => Beside.trans) (by decide) (mem_allOutputs o)
    (fun u q hq => State.renderOutput_beside hW A hq) s

theorem Beside.gain {o : Fin 13} {A : Nat → Prop} {u v : State} (h : Beside o A u v) (q : Fin 13) : v.gain q = u.gain q := by
  rw [State.gain, h.mix]; rfl

theorem Beside.isInverted {o : Fin 13} {A : Nat → Prop} {u v : State} (h : Beside o A u v) (q : Fin 13) :
    v.isInverted q = u.isInverted q := by
  have hspeaker (p : Position) : v.speaker p = u.speaker p := by rw [State.speaker, h.mix]; rfl
  simp only [State.isInverted, State.out, h.outputs, hspeaker]

theorem Beside.plays {o : Fin 13} {A : Nat → Prop} {u v : State} (h : Beside o A u v) {W : Fin 13 → Option Wave} {g : Segment} {w : Wave} :
    Machine.plays v.delay W o g w ↔ Machine.plays u.delay W o g w := by
  rw [Machine.plays, h.segment]; rfl

/-- The lane of an output after a block: silence, or what is read of its line. -/
theorem State.renderAll_lane (s : State) {W : Fin 13 → Option Wave} (hW : ∀ o w, W o = some w → w.length = 48) (o : Fin 13) :
    ((∀ g w, ¬ plays s.delay W o g w) → (s.renderAll W).mix.lanes[o] = List.replicate 48 0) ∧
    (s.renderAll W).mix.lanes[o].length = 48 ∧
    ((s.gain o).current = -161 → (s.renderAll W).mix.lanes[o] = List.replicate 48 0) := by
  obtain ⟨u, hu, hv⟩ := s.renderAll_at hW o fun _ => False
  rw [hv.lane]
  obtain ⟨h, -⟩ | ⟨g, w, hp, h⟩ := u.renderOutput_cases W o
  · rw [h, State.silenceLane_lane]
    exact ⟨fun _ => rfl, rfl, fun _ => rfl⟩
  · rw [h]
    exact ⟨fun hn => absurd (hu.plays.1 hp) (hn g w), State.playOutput_lane_length _ _ _ _,
      fun hg => State.playOutput_silent g w (by rw [hu.gain]; exact hg)⟩

/-- An output that is played, its segment being long enough and apart from the others. -/
theorem State.renderAll_plays {s : State} {W : Fin 13 → Option Wave} (hW : ∀ o w, W o = some w → w.length = 48) {o : Fin 13}
    {g : Segment} {w : Wave} (hp : plays s.delay W o g w) (hg : g.delay + 48 ≤ g.words) (hs : s.delay.spares o g.covers) :
    (s.renderAll W).mix.lanes[o] = (List.range 48).map (fun k =>
      outputSample (gainWord (s.gain o).current) (s.isInverted o)
        (if g.delay ≤ k then toSample (w.getD (k - g.delay) 0) else s.delay.dram.read (g.ringWord g.delay k)).toInt) ∧
    (∀ k, k < 48 → (s.renderAll W).delay.dram.read (g.ringWord 0 k) = toSample (w.getD k 0)) ∧
    (s.renderAll W).delay.segment o = some { g with writePos := g.ringWord 0 48 } := by
  obtain ⟨u, hu, hv⟩ := s.renderAll_at hW o g.covers
  have hpu := hu.plays.2 hp
  obtain ⟨hseg, hw, -⟩ := id hpu
  have hcount : 1 ≤ g.count := by
    have : g.words = g.count * 256 := rfl
    omega
  have hplay : u.renderOutput o (W o) = u.playOutput o g w := by
    obtain ⟨-, hn⟩ | ⟨g', w', ⟨hseg', hw', -⟩, h⟩ := u.renderOutput_cases W o
    · exact absurd hpu (hn g w)
    · rw [hseg] at hseg'; rw [hw] at hw'
      obtain rfl := Option.some.inj hseg'
      obtain rfl := Option.some.inj hw'
      exact h
  rw [hplay] at hv
  refine ⟨?_, fun k hk => ?_, by rw [hv.segment]; exact State.playOutput_segment_self w hseg⟩
  · rw [hv.lane, State.playOutput_delayed u o (hW o w hw) hg, hu.gain, hu.isInverted]
    refine List.map_congr_left fun k _ => ?_
    rw [hu.read hs _ (Segment.covers_ringWord hcount _ _)]
  · have hspares : (u.playOutput o g w).delay.spares o g.covers :=
      (State.playOutput_laid w hseg).spares (hu.laid.spares hs)
    rw [hv.read hspares _ (Segment.covers_ringWord hcount _ _)]
    exact u.playOutput_written o (hW o w hw) (by omega) hk

end Sys2Proof.Machine

end

section
/-! PROOFS. What the Delay Memory Controller makes of the report of a block (R128, R131, R134; O49). -/

open Sys2Proof Sys2Proof.Machine

namespace Sys2Proof.Machine

/-! ### A pending change applied (R128) -/

/-- The first page of a segment that has taken its change. -/
def Segment.newBase (g : Segment) (c : PendingChange) : Nat := if c.kind = .relocate then c.base else g.base

/-- A segment that has taken its change: its line is cleared but by a RETIME. -/
def Segment.changed (g : Segment) (c : PendingChange) : Segment :=
  { g with delay := c.delay, base := g.newBase c, count := if c.kind = .retime then g.count else c.count, change := none
           writePos := if c.kind = .retime then g.writePos else g.newBase c * 256 }

/-- The pending change of an output's segment clears an address. -/
def DelayState.applies (d : DelayState) (o : Fin 13) (a : Nat) : Prop :=
  ∃ g c, d.segment o = some g ∧ g.change = some c ∧ c.kind ≠ .retime ∧
    256 * g.newBase c ≤ a ∧ a < 256 * (g.newBase c + c.count)

theorem DelayState.applyChange_none {d : DelayState} {o : Fin 13} (h : ∀ g c, d.segment o = some g → g.change ≠ some c) :
    d.applyChange o = (d, false) := by
  unfold DelayState.applyChange
  cases hg : d.segment o with
  | none => rfl
  | some g =>
    dsimp only
    cases hc : g.change with
    | none => rfl
    | some c => exact absurd hc (h g c hg)

theorem DelayState.applyChange_some {d : DelayState} {o : Fin 13} {g : Segment} {c : PendingChange} (hg : d.segment o = some g)
    (hc : g.change = some c) : (d.applyChange o).1 =
      if c.kind = .retime then d.setSegment o (g.changed c)
      else d.clearLine { g.changed c with writePos := g.writePos } := by
  unfold DelayState.applyChange
  rw [hg]
  dsimp only
  rw [hc]
  dsimp only
  unfold Segment.changed Segment.newBase
  cases hk : c.kind with
  | retime => rfl
  | shrink => rfl
  | grow => rfl
  | relocate => rfl

/-- What an applied change leaves of the table and the DRAM. -/
structure Applied (d : DelayState) (o : Fin 13) (e : DelayState) : Prop where
  self : ∀ g c, d.segment o = some g → g.change = some c → e.segment o = some (g.changed c)
  same : (∀ g c, d.segment o = some g → g.change ≠ some c) → e = d
  others : ∀ q, q ≠ o → e.segment q = d.segment q
  starved : e.starved = d.starved
  read : ∀ a, ¬ d.applies o a → e.dram.read a = d.dram.read a

theorem DelayState.applyChange_applied (d : DelayState) (o : Fin 13) : Applied d o (d.applyChange o).1 := by
  by_cases h : ∀ g c, d.segment o = some g → g.change ≠ some c
  · rw [DelayState.applyChange_none h]
    exact ⟨fun g c hg hc => absurd hc (h g c hg), fun _ => rfl, fun _ _ => rfl, rfl, fun _ _ => rfl⟩
  · obtain ⟨g, c, hg, hc⟩ : ∃ g c, d.segment o = some g ∧ g.change = some c := by
      simpa using h
    have ho := DelayState.segment_output hg
    subst ho
    have hself (e : DelayState) (he : e.segment g.output = some (g.changed c)) (g' : Segment) (c' : PendingChange)
        (hg' : d.segment g.output = some g') (hc' : g'.change = some c') : e.segment g.output = some (g'.changed c') := by
      rw [hg] at hg'
      obtain rfl := Option.some.inj hg'
      rw [hc] at hc'
      obtain rfl := Option.some.inj hc'
      exact he
    rw [DelayState.applyChange_some hg hc]
    by_cases hk : c.kind = .retime
    · rw [if_pos hk]
      exact ⟨hself _ (DelayState.segment_setSegment_self d (g.changed c)), fun hn => absurd hc (hn g c hg),
        fun q hq => DelayState.segment_setSegment_ne d (g.changed c) hq, rfl, fun _ _ => rfl⟩
    · rw [if_neg hk]
      have hcleared : { ({ g.changed c with writePos := g.writePos } : Segment) with
          writePos := ({ g.changed c with writePos := g.writePos } : Segment).base * pageWords } = g.changed c := by
        simp only [Segment.changed, if_neg hk]
        rfl
      refine ⟨hself _ ?_, fun hn => absurd hc (hn g c hg), fun q hq => DelayState.segment_clearLine_ne d hq, rfl, fun a ha => ?_⟩
      · exact (d.segment_clearLine_self { g.changed c with writePos := g.writePos }).trans (congrArg some hcleared)
      · rw [DelayState.clearLine_dram]
        refine if_neg fun ⟨hlow, hhigh⟩ => ha ⟨g, c, hg, hc, hk, hlow, ?_⟩
        simp only [Segment.changed, if_neg hk] at hhigh
        exact hhigh

/-! ### What the reports of the controller leave -/

/-- A segment with neither a pending change nor a move. -/
def Segment.Idle (g : Segment) : Prop := g.change = none ∧ g.move = none

/-- What a part of the reports leaves: the segments of the outputs in `P` may take their changes and moves, the lines of those
in `Q` are cleared where a change is applied, and starved outputs may get new segments. -/
structure Reports (P Q : Fin 13 → Prop) (s t : State) : Prop where
  lost : ∀ o, o ∈ t.delay.starved → o ∈ s.delay.starved
  out : ∀ o, o ∉ s.delay.starved → t.out o = s.out o
  mix : t.mix = s.mix
  kept : ∀ o, ¬ P o → (o ∈ s.delay.starved → o ∈ t.delay.starved) → t.delay.segment o = s.delay.segment o
  idle : ∀ o g, o ∉ s.delay.starved → s.delay.segment o = some g → g.Idle → t.delay.segment o = some g
  granted : ∀ o, o ∈ s.delay.starved → o ∉ t.delay.starved → ∃ g, t.delay.segment o = some g ∧ g.Idle
  read : ∀ a, t.delay.dram.read a = s.delay.dram.read a ∨
    (∃ o, Q o ∧ (s.gain o).current = -161 ∧ s.delay.applies o a) ∨
    ∃ o g, o ∈ s.delay.starved ∧ o ∉ t.delay.starved ∧ t.delay.segment o = some g ∧ g.covers a

theorem Reports.refl (P Q : Fin 13 → Prop) (s : State) : Reports P Q s s :=
  ⟨fun _ => id, fun _ _ => rfl, rfl, fun _ _ _ => rfl, fun _ _ _ h _ => h, fun _ h hn => absurd h hn, fun _ => .inl rfl⟩

theorem Reports.gain {P Q : Fin 13 → Prop} {s t : State} (h : Reports P Q s t) (o : Fin 13) : t.gain o = s.gain o := by
  rw [State.gain, State.gain, h.mix]

/-- Parts of the reports one after the other, the lines cleared being those of segments not touched before. -/
theorem Reports.trans {P1 Q1 P2 Q2 : Fin 13 → Prop} {s t u : State} (h1 : Reports P1 Q1 s t) (h2 : Reports P2 Q2 t u)
    (hd : ∀ o, Q2 o → ¬ P1 o) : Reports (fun o => P1 o ∨ P2 o) (fun o => Q1 o ∨ Q2 o) s u where
  lost := fun o ho => h1.lost o (h2.lost o ho)
  out := fun o ho => (h2.out o fun h => ho (h1.lost o h)).trans (h1.out o ho)
  mix := h2.mix.trans h1.mix
  kept := fun o ho hs => by
    obtain ⟨hp1, hp2⟩ := not_or.1 ho
    exact (h2.kept o hp2 fun h => hs (h1.lost o h)).trans (h1.kept o hp1 fun h => h2.lost o (hs h))
  idle := fun o g ho hg hi => h2.idle o g (fun h => ho (h1.lost o h)) (h1.idle o g ho hg hi) hi
  granted := fun o ho hn => by
    by_cases ht : o ∈ t.delay.starved
    · exact h2.granted o ht hn
    · obtain ⟨g, hg, hi⟩ := h1.granted o ho ht
      exact ⟨g, h2.idle o g ht hg hi, hi⟩
  read := fun a => by
    obtain hr2 | ⟨o, ho, hg, ha⟩ | ⟨o, g, ho, hn, hg, ha⟩ := h2.read a
    · obtain hr1 | ⟨o, ho, h⟩ | ⟨o, g, ho, hn, hg, ha⟩ := h1.read a
      · exact .inl (hr2.trans hr1)
      · exact .inr (.inl ⟨o, .inl ho, h⟩)
      · obtain ⟨g', hg', hi⟩ := h1.granted o ho hn
        rw [hg] at hg'
        obtain rfl := Option.some.inj hg'
        exact .inr (.inr ⟨o, g, ho, fun h => hn (h2.lost o h), h2.idle o g hn hg hi, ha⟩)
    · refine .inr (.inl ⟨o, .inr ho, by rw [← h1.gain]; exact hg, ?_⟩)
      have hsame : t.delay.segment o = s.delay.segment o := by
        refine h1.kept o (hd o ho) fun hs => ?_
        by_contra hn
        obtain ⟨g, hg, hi, -⟩ := h1.granted o hs hn
        obtain ⟨g', c, hg', hc, -⟩ := ha
        rw [hg] at hg'
        obtain rfl := Option.some.inj hg'
        rw [hi] at hc; cases hc
      simpa only [DelayState.applies, hsame] using ha
    · exact .inr (.inr ⟨o, g, h1.lost o ho, hn, hg, ha⟩)

theorem Reports.mono {P Q P' Q' : Fin 13 → Prop} {s t : State} (h : Reports P Q s t) (hp : ∀ o, P o → P' o) (hq : ∀ o, Q o → Q' o) :
    Reports P' Q' s t :=
  ⟨h.lost, h.out, h.mix, fun o ho => h.kept o fun hpo => ho (hp o hpo), h.idle, h.granted,
    fun a => (h.read a).imp_right (.imp_left fun ⟨o, ho, h⟩ => ⟨o, hq o ho, h⟩)⟩

/-! ### Retries (R131) -/

/-- A granted request of one output: its new segment is clear, and no other segment and no other word has changed. -/
theorem DelayState.request_created {d d' : DelayState} {q : Fin 13} {n : Nat} (h : d.request [(q, n)] = .ok d') :
    d'.starved = d.starved ∧ (∀ o, o ≠ q → d'.segment o = d.segment o) ∧
    ∃ g, d'.segment q = some g ∧ g.Idle ∧ ∀ a, ¬ g.covers a → d'.dram.read a = d.dram.read a := by
  refine ⟨by rw [DelayState.request_keeps h], fun o ho => DelayState.request_segment_ne h ho, ?_⟩
  obtain ⟨hnil, -⟩ | ⟨-, -, -, bases, hb, rfl⟩ := DelayState.request_ok h
  · exact absurd hnil (List.cons_ne_nil _ _)
  · cases bases with
    | nil => exact hb.elim
    | cons b bases =>
      refine ⟨_, d.segment_clearLine_self ⟨q, b, pagesFor n, n, b * pageWords, none, none⟩, ⟨rfl, rfl⟩, fun a ha => ?_⟩
      exact (d.clearLine_dram _ a).trans (if_neg ha)

theorem State.retryOne_reports (s : State) (q : Fin 13) : Reports (fun _ => False) (fun _ => False) s (s.retryOne q) := by
  have hquiet := s.retryOne_quiet q
  have hmix : (s.retryOne q).mix = s.mix := hquiet.frame.1 .mix (by decide)
  obtain h | ⟨z, r, d, hq, hd, h⟩ := s.retryOne_cases q
  · rw [h]; exact .refl _ _ s
  · obtain ⟨hstarved, hothers, g, hg, hidle, hread⟩ := DelayState.request_created hd
    have hdelay : (s.retryOne q).delay = { d with starved := d.starved.filter (fun o => o != q) } := by
      rw [h, State.granted_delay]; rfl
    have hleft (o : Fin 13) : o ∈ (s.retryOne q).delay.starved ↔ o ∈ s.delay.starved ∧ o ≠ q := by
      rw [hdelay, ← hstarved]
      simp
    have hsegment (o : Fin 13) : (s.retryOne q).delay.segment o = d.segment o := by rw [hdelay]; rfl
    refine ⟨fun o ho => ((hleft o).1 ho).1, fun o ho => ?_, hmix, fun o _ ho => ?_, fun o g' ho hg' _ => ?_, fun o ho hn => ?_, fun a => ?_⟩
    · have hne : o ≠ q := fun e => ho (e ▸ hq)
      rw [h, State.granted_out_ne _ _ _ _ hne]; rfl
    · rw [hsegment]
      refine hothers o fun e => ?_
      subst e
      exact ((hleft o).1 (ho hq)).2 rfl
    · rw [hsegment, hothers o fun e => ho (e ▸ hq)]; exact hg'
    · obtain rfl : o = q := by
        by_contra hne
        exact hn ((hleft o).2 ⟨ho, hne⟩)
      exact ⟨g, (hsegment o).trans hg, hidle⟩
    · by_cases ha : g.covers a
      · exact .inr (.inr ⟨q, g, hq, fun hin => ((hleft q).1 hin).2 rfl, (hsegment q).trans hg, ha⟩)
      · exact .inl ((congrArg (fun d : DelayState => d.dram.read a) hdelay).trans (hread a ha))

theorem State.retries_report (l : List (Fin 13)) (s : State) :
    Reports (fun _ => False) (fun _ => False) s (l.foldl State.retryOne s) := by
  induction l generalizing s with
  | nil => exact .refl _ _ s
  | cons q l ih =>
    exact ((s.retryOne_reports q).trans (ih _) fun _ h => h.elim).mono (fun _ => or_self_iff.1) (fun _ => or_self_iff.1)

/-! ### The report of one output (R128, R134) -/

theorem State.setApplied_reports {s : State} {o : Fin 13} {e : DelayState} (h : Applied s.delay o e) (hg : (s.gain o).current = -161) :
    Reports (fun q => q = o) (fun q => q = o) s (s.setDelay e) := by
  have hin (q : Fin 13) : q ∈ (s.setDelay e).delay.starved ↔ q ∈ s.delay.starved := by rw [State.setDelay_delay, h.starved]
  refine ⟨fun q => (hin q).1, fun _ _ => rfl, rfl, fun q hq _ => h.others q hq, fun q g _ hs hi => ?_,
    fun q hq hn => absurd ((hin q).2 hq) hn, fun a => ?_⟩
  · rw [State.setDelay_delay]
    by_cases hq : q = o
    · subst hq
      have hnone (g' : Segment) (c : PendingChange) (hg' : s.delay.segment q = some g') : g'.change ≠ some c := by
        rw [hs] at hg'
        obtain rfl := Option.some.inj hg'
        rw [hi.1]
        exact (fun hn => nomatch hn)
      rw [h.same hnone]; exact hs
    · rw [h.others q hq]; exact hs
  · by_cases ha : s.delay.applies o a
    · exact .inr (.inl ⟨o, rfl, hg, ha⟩)
    · exact .inl (h.read a ha)

/-- A pending change applied, with the retries that follow it. -/
theorem State.applyHeld_reports {s : State} {o : Fin 13} (hg : (s.gain o).current = -161) :
    Reports (fun q => q = o) (fun q => q = o) s (s.applyHeld o) ∧
    (o ∉ s.delay.starved → (s.applyHeld o).delay.segment o = (s.delay.applyChange o).1.segment o) := by
  have happlied := State.setApplied_reports (s.delay.applyChange_applied o) hg
  unfold State.applyHeld
  dsimp only
  split
  · have hretry := State.retries_report (s.delay.applyChange o).1.starved (s.setDelay (s.delay.applyChange o).1)
    refine ⟨(happlied.trans hretry fun _ h => h.elim).mono (fun _ h => h.elim id False.elim) (fun _ h => h.elim id False.elim),
      fun ho => hretry.kept o id fun hin => absurd (happlied.lost o hin) ho⟩
  · exact ⟨happlied, fun _ => rfl⟩

/-- A segment whose move goes on to COPY. -/
def Segment.copies (g : Segment) : Segment := { g with move := g.move.map fun m => { m with stage := .copy } }

theorem State.startCopy_segment {s : State} {o : Fin 13} :
    (s.startCopy o).delay.segment o = (s.delay.segment o).map Segment.copies ∧
    (∀ q, q ≠ o → (s.startCopy o).delay.segment q = s.delay.segment q) ∧
    (s.startCopy o).delay.dram = s.delay.dram ∧ (s.startCopy o).delay.starved = s.delay.starved ∧
    Frame [.delay] s (s.startCopy o) := by
  unfold State.startCopy
  cases hg : s.delay.segment o with
  | none => exact ⟨hg, fun _ _ => rfl, rfl, rfl, .refl _ s⟩
  | some g =>
    dsimp only
    cases hm : g.move with
    | none =>
      have hsame : g.copies = g := by
        rw [Segment.copies, hm]
        cases g
        simp_all
      exact ⟨by rw [hg, Option.map_some, hsame], fun _ _ => rfl, rfl, rfl, .refl _ s⟩
    | some m =>
      dsimp only
      have ho := DelayState.segment_output hg
      by_cases hr : m.stage = .ramp
      · have hcopies : { g with move := some { m with stage := .copy } } = g.copies := by rw [Segment.copies, hm]; rfl
        subst ho
        rw [if_pos hr, hcopies]
        exact ⟨DelayState.segment_setSegment_self s.delay g.copies, fun q hq => DelayState.segment_setSegment_ne s.delay g.copies hq,
          rfl, rfl, s.setDelay_frame _⟩
      · have hcopy : m.stage = .copy := by
          cases hst : m.stage with
          | ramp => exact absurd hst hr
          | copy => rfl
        have hsame : g.copies = g := by
          cases g
          cases m
          simp_all [Segment.copies]
        rw [if_neg hr]
        exact ⟨by rw [hg, Option.map_some, hsame], fun _ _ => rfl, rfl, rfl, .refl _ s⟩

theorem State.startCopy_reports (s : State) (o : Fin 13) : Reports (fun q => q = o) (fun _ => False) s (s.startCopy o) := by
  obtain ⟨hself, hothers, hdram, hstarved, hframe⟩ := State.startCopy_segment (s := s) (o := o)
  refine ⟨fun q hq => hstarved ▸ hq, fun q _ => ?_, hframe.1 .mix (by decide), fun q hq _ => hothers q hq, fun q g _ hg hi => ?_,
    fun q hq hn => absurd (by rw [hstarved]; exact hq) hn, fun a => .inl (by rw [hdram])⟩
  · rw [State.out, hframe.1 .outputs (by decide)]; rfl
  · by_cases hq : q = o
    · subst hq
      have hsame : g.copies = g := by
        obtain ⟨-, hm⟩ := hi
        rw [Segment.copies, hm]
        cases g
        simp_all
      rw [hself, hg, Option.map_some, hsame]
    · rw [hothers q hq]; exact hg

theorem State.reportToDelay_reports (s : State) (o : Fin 13) : Reports (fun q => q = o) (fun q => q = o) s (s.reportToDelay o) := by
  unfold State.reportToDelay
  split
  · next hg =>
    exact ((State.applyHeld_reports hg).1.trans (State.startCopy_reports _ o) fun _ h => h.elim).mono
      (fun _ => or_self_iff.1) (fun _ h => h.elim id False.elim)
  · exact .refl _ _ s

/-- The reports of all outputs to the controller. -/
def State.reportDelays (s : State) : State := allOutputs.foldl State.reportToDelay s

theorem State.reportDelays_reports (s : State) : Reports (fun _ => True) (fun _ => True) s s.reportDelays := by
  have hfold (l : List (Fin 13)) (hl : l.Nodup) (s : State) : Reports (fun o => o ∈ l) (fun o => o ∈ l) s (l.foldl State.reportToDelay s) := by
    induction l generalizing s with
    | nil => exact .refl _ _ s
    | cons o l ih =>
      obtain ⟨ho, hl⟩ := List.nodup_cons.1 hl
      exact ((s.reportToDelay_reports o).trans (ih hl _) fun q hq e => ho (e ▸ hq)).mono (fun _ => List.mem_cons.2) (fun _ => List.mem_cons.2)
  exact (hfold allOutputs (by decide) s).mono (fun _ _ => trivial) fun _ _ => trivial

/-- What the reports of other outputs leave to one that is not starved. -/
def untouched (o : Fin 13) (s t : State) : Prop :=
  o ∉ s.delay.starved → o ∉ t.delay.starved ∧ t.delay.segment o = s.delay.segment o ∧ (t.gain o).current = (s.gain o).current

/-- The report of one output among all. -/
theorem State.reportDelays_at (s : State) (o : Fin 13) :
    ∃ u, untouched o s u ∧ untouched o (u.reportToDelay o) s.reportDelays := by
  unfold State.reportDelays
  refine foldl_at (R := untouched o) (fun s h => ⟨h, rfl, rfl⟩) (fun s t u h1 h2 hs => ?_) (by decide) (mem_allOutputs o)
    (fun u q hq ho => ?_) s
  · obtain ⟨ht, hseg1, hg1⟩ := h1 hs
    obtain ⟨hu, hseg2, hg2⟩ := h2 ht
    exact ⟨hu, hseg2.trans hseg1, hg2.trans hg1⟩
  · have h := u.reportToDelay_reports q
    exact ⟨fun hin => ho (h.lost o hin), h.kept o hq.symm fun hin => absurd hin ho, by rw [h.gain]⟩

/-- The segment of an output that is not starved after the reports (R128, R134). -/
theorem State.reportDelays_segment {s : State} {o : Fin 13} {g : Segment} (ho : o ∉ s.delay.starved) (hg : s.delay.segment o = some g) :
    ((s.gain o).current = -161 → s.reportDelays.delay.segment o =
      some (((g.change.map g.changed).getD g).copies)) ∧
    ((s.gain o).current ≠ -161 → s.reportDelays.delay.segment o = some g) := by
  obtain ⟨u, hu, hv⟩ := s.reportDelays_at o
  obtain ⟨huo, hseg, hgain⟩ := hu ho
  have hvo : o ∉ (u.reportToDelay o).delay.starved := fun h => huo ((u.reportToDelay_reports o).lost o h)
  obtain ⟨-, hend, -⟩ := hv hvo
  rw [hend, ← hgain]
  rw [hg] at hseg
  refine ⟨fun hs => ?_, fun hs => by rw [State.reportToDelay, if_neg hs]; exact hseg⟩
  obtain ⟨-, happly⟩ := State.applyHeld_reports hs
  have happlied := u.delay.applyChange_applied o
  rw [State.reportToDelay, if_pos hs, State.startCopy_segment.1, happly huo]
  cases hc : g.change with
  | none =>
    have hnone (g' : Segment) (c : PendingChange) (hg' : u.delay.segment o = some g') : g'.change ≠ some c := by
      rw [hseg] at hg'
      obtain rfl := Option.some.inj hg'
      rw [hc]
      exact (fun hn => nomatch hn)
    rw [happlied.same hnone, hseg]
    rfl
  | some c =>
    rw [happlied.self g c hseg hc]
    rfl

/-- Where no segment has a pending change or a move, the controller does nothing. -/
theorem State.reportDelays_idle {s : State} (h : ∀ o g, s.delay.segment o = some g → g.Idle) : s.reportDelays = s := by
  have hone (o : Fin 13) : s.reportToDelay o = s := by
    have hnone (g : Segment) (c : PendingChange) (hg : s.delay.segment o = some g) : g.change ≠ some c := by
      rw [(h o g hg).1]
      exact (fun hn => nomatch hn)
    have happly : s.applyHeld o = s := by
      unfold State.applyHeld
      rw [DelayState.applyChange_none hnone]
      exact if_neg Bool.false_ne_true
    have hcopy : s.startCopy o = s := by
      unfold State.startCopy
      cases hg : s.delay.segment o with
      | none => rfl
      | some g =>
        dsimp only
        rw [(h o g hg).2]
    unfold State.reportToDelay
    rw [happly, hcopy, ite_id]
  unfold State.reportDelays
  exact List.foldlRecOn (motive := fun t : State => t = s) _ _ rfl fun t ht o _ => by rw [ht, hone]

end Sys2Proof.Machine

end

section
/-! PROOFS. What the zones and the outputs make of the report of a block (R8, R13, R45, R52; O49). -/

open Sys2Proof Sys2Proof.Machine

namespace Sys2Proof.Machine

/-! ### The report of one zone (R8, R13) -/

/-- A zone takes its waiting source at the report. -/
def State.switches (s : State) (z : Zone) (w : Source) : Prop :=
  (s.zone z).power = .on ∧ (s.zone z).waiting = some w ∧ s.allSilent z

theorem State.reportToZone_cases (s : State) (z : Zone) :
    (∃ w, s.switches z w ∧ s.reportToZone z = s.switchIn z w) ∨
    ((∀ w, ¬ s.switches z w) ∧ ((s.zone z).power = .quieting ∧ s.reportToZone z = s.endSilentRamp z ∨
      (s.zone z).power ≠ .quieting ∧ s.reportToZone z = s)) := by
  unfold State.reportToZone State.switches
  cases hp : (s.zone z).power with
  | standby => exact .inr ⟨fun w ⟨h, _⟩ => (nomatch h), .inr ⟨(fun h => nomatch h), rfl⟩⟩
  | waking => exact .inr ⟨fun w ⟨h, _⟩ => (nomatch h), .inr ⟨(fun h => nomatch h), rfl⟩⟩
  | quieting => exact .inr ⟨fun w ⟨h, _⟩ => (nomatch h), .inl ⟨rfl, by cases (s.zone z).waiting <;> rfl⟩⟩
  | on =>
    cases hw : (s.zone z).waiting with
    | none => exact .inr ⟨fun w ⟨_, h, _⟩ => (nomatch h), .inr ⟨(fun h => nomatch h), rfl⟩⟩
    | some w =>
      dsimp only
      by_cases hs : s.allSilent z
      · exact .inl ⟨w, ⟨rfl, rfl, hs⟩, if_pos ((s.zoneSilent_iff z).2 hs)⟩
      · exact .inr ⟨fun w' ⟨_, _, h⟩ => hs h, .inr ⟨(fun h => nomatch h), if_neg fun h => hs ((s.zoneSilent_iff z).1 h)⟩⟩

/-- What the report of a zone makes of the state. -/
structure ZoneTook (z : Zone) (s t : State) : Prop where
  switched : ∀ w, s.switches z w → ((s.zone z).switched w).sameButStatus (t.zone z) ∧ zoneReported t z
  ramped : s.rampDone z → t.zone z = { s.zone z with quietStage := some .relay, relayTimer := some 20 }
  stayed : (∀ w, ¬ s.switches z w) → ¬ s.rampDone z → t = s
  others : ∀ y, y ≠ z → (s.zone y).sameButStatus (t.zone y)
  opened : ∀ o, s.rampDone z → (s.out o).grantedTo z = true → t.out o = { s.out o with relay := false }
  outs : ∀ o, ¬ (s.rampDone z ∧ (s.out o).grantedTo z = true) → t.out o = s.out o
  changes : onlyChanges [.zones, .outputs, .decoder, .tuner, .ports] s t
  calm : (∀ w, ¬ s.switches z w) → onlyChanges [.zones, .outputs] s t
  raises : Raises s t

theorem State.switchIn_outputs (s : State) (z : Zone) (w : Source) :
    onlyChanges [.zones, .decoder, .tuner, .ports] s (s.switchIn z w) ∧ Raises s (s.switchIn z w) ∧
    zoneReported (s.switchIn z w) z := by
  have hset := (s.setZone_frame z ((s.zone z).switched w)).1
  have hraise := State.raiseZone_frame (s.setZone z ((s.zone z).switched w)) z
  have hrefresh := State.refreshStatus_frame ((s.setZone z ((s.zone z).switched w)).raiseZone z) z
  have hreport := (s.switchedIn z w).reportZones_frame
  have hgrown := ((State.raiseZone_raises (s.setZone z ((s.zone z).switched w)) z).trans
    (State.refreshStatus_raises _ z)).trans (State.reportZones_raises (s.switchedIn z w))
  have hlater := (State.refreshStatus_raises ((s.setZone z ((s.zone z).switched w)).raiseZone z) z).trans
    (State.reportZones_raises (s.switchedIn z w))
  refine ⟨?_, (Raises.of_ports_eq rfl).trans hgrown, reported.mono (State.raiseZone_reported _ z) hlater.2⟩
  exact (hset.mono (by decide)).trans ((hraise.1.mono (by decide)).trans ((hrefresh.1.mono (by decide)).trans
    (hreport.1.mono (by decide))))

theorem State.reportToZone_took (s : State) (z : Zone) : ZoneTook z s (s.reportToZone z) := by
  obtain ⟨w, hw, h⟩ | ⟨hnot, ⟨-, h⟩ | ⟨hq, h⟩⟩ := s.reportToZone_cases z
  · obtain ⟨hon, hwait, -⟩ := id hw
    have hramp : ¬ s.rampDone z := fun ⟨hq, _⟩ => by rw [hon] at hq; cases hq
    obtain ⟨hchanges, hraises, hreported⟩ := s.switchIn_outputs z w
    rw [h]
    refine ⟨fun w' ⟨_, hw', _⟩ => ?_, fun hr => absurd hr hramp, fun hn => absurd hw (hn w), fun y hy => s.switchIn_zone_ne w hy,
      fun o hr => absurd hr hramp, fun o _ => ?_, hchanges.mono (by decide), fun hn => absurd hw (hn w), hraises⟩
    · rw [hwait] at hw'
      obtain rfl := Option.some.inj hw'
      exact ⟨s.switchIn_zone_self z w, hreported⟩
    · rw [State.out, hchanges .outputs (by decide)]; rfl
  · have hends := s.endSilentRamp_ends z
    rw [h]
    refine ⟨fun w hw => absurd hw (hnot w), fun hr => (hends.zones z).1 ⟨rfl, hr⟩, fun _ hr => ?_, fun y hy => ?_,
      fun o hr hg => (hends.outs o).1 ⟨z, ⟨rfl, hr⟩, hg⟩, fun o hr => ?_, hends.changes.mono (by decide),
      fun _ => hends.changes, .of_ports_eq hends.ports⟩
    · exact if_neg fun ⟨h1, h2, h3⟩ => hr ⟨h1, h2, (s.zoneSilent_iff z).1 h3⟩
    · rw [(hends.zones y).2 fun he => hy he.1]; exact .refl _
    · exact (hends.outs o).2 fun ⟨y, ⟨hy, hd⟩, hg⟩ => hr ⟨hd, hy ▸ hg⟩
  · rw [h]
    refine ⟨fun w hw => absurd hw (hnot w), fun ⟨hr, _⟩ => absurd hr hq, fun _ _ => rfl, fun y _ => .refl _,
      fun _ ⟨hr, _⟩ => absurd hr hq, fun _ _ => rfl, (Frame.refl _ s).1, fun _ => (Frame.refl _ s).1, .refl s⟩

theorem ZoneTook.granted {z : Zone} {s t : State} (h : ZoneTook z s t) (o : Fin 13) (y : Zone) :
    (t.out o).grantedTo y = (s.out o).grantedTo y := by
  by_cases hr : s.rampDone z ∧ (s.out o).grantedTo z = true
  · rw [h.opened o hr.1 hr.2]; rfl
  · rw [h.outs o hr]

theorem OutputRec.grantedTo_iff (r : OutputRec) (z : Zone) : r.grantedTo z = true ↔ r.state = .granted ∧ r.zone = some z := by
  simp [OutputRec.grantedTo]

/-- What the reports of other zones leave to a zone. -/
structure Aside (z : Zone) (s t : State) : Prop where
  zone : (s.zone z).sameButStatus (t.zone z)
  granted : ∀ o, (t.out o).grantedTo z = (s.out o).grantedTo z
  out : ∀ o, (s.out o).grantedTo z = true → t.out o = s.out o
  mix : t.mix = s.mix
  grown : eventsGrow s t

theorem Aside.refl (z : Zone) (s : State) : Aside z s s := ⟨.refl _, fun _ => rfl, fun _ _ => rfl, rfl, .refl s⟩

theorem Aside.trans {z : Zone} {s t u : State} (h1 : Aside z s t) (h2 : Aside z t u) : Aside z s u where
  zone := h1.zone.trans h2.zone
  granted := fun o => (h2.granted o).trans (h1.granted o)
  out := fun o ho => (h2.out o ((h1.granted o).trans ho)).trans (h1.out o ho)
  mix := h2.mix.trans h1.mix
  grown := h1.grown.trans h2.grown

theorem ZoneTook.aside {y z : Zone} {s t : State} (h : ZoneTook y s t) (hz : z ≠ y) : Aside z s t where
  zone := h.others z hz
  granted := fun o => h.granted o z
  out := fun o ho => by
    refine h.outs o fun ⟨_, hy⟩ => hz ?_
    obtain ⟨-, h1⟩ := (OutputRec.grantedTo_iff _ _).1 ho
    obtain ⟨-, h2⟩ := (OutputRec.grantedTo_iff _ _).1 hy
    exact Option.some.inj (h1.symm.trans h2)
  mix := h.changes .mix (by decide)
  grown := h.raises.2

theorem Aside.allSilent {z : Zone} {s t : State} (h : Aside z s t) : t.allSilent z ↔ s.allSilent z := by
  refine forall_congr' fun o => ?_
  rw [h.granted, State.gain, State.gain, h.mix]

theorem Aside.switches {z : Zone} {s t : State} (h : Aside z s t) (w : Source) : t.switches z w ↔ s.switches z w := by
  have hz : t.zone z = { s.zone z with status := (t.zone z).status } := h.zone
  rw [State.switches, State.switches, h.allSilent, hz]

theorem Aside.rampDone {z : Zone} {s t : State} (h : Aside z s t) : t.rampDone z ↔ s.rampDone z := by
  have hz : t.zone z = { s.zone z with status := (t.zone z).status } := h.zone
  rw [State.rampDone, State.rampDone, h.allSilent, hz]

/-! ### The reports of all zones -/

/-- The reports of all zones. -/
def State.reportToZones (s : State) : State := Zone.all.foldl State.reportToZone s

theorem State.reportToZones_at (s : State) (z : Zone) :
    ∃ u, Aside z s u ∧ Aside z (u.reportToZone z) s.reportToZones := by
  unfold State.reportToZones
  exact foldl_at (R := Aside z) (Aside.refl z) (fun _ _ _ => Aside.trans) (by decide) (Zone.mem_all z)
    (fun s y hy => (s.reportToZone_took y).aside hy.symm) s

/-- The record of a zone after the reports of all. -/
theorem State.reportToZones_zone (s : State) (z : Zone) :
    (∀ w, s.switches z w → ((s.zone z).switched w).sameButStatus (s.reportToZones.zone z) ∧ zoneReported s.reportToZones z) ∧
    (s.rampDone z → ({ s.zone z with quietStage := some .relay, relayTimer := some 20 } : ZoneRec).sameButStatus
      (s.reportToZones.zone z)) ∧
    ((∀ w, ¬ s.switches z w) → ¬ s.rampDone z → (s.zone z).sameButStatus (s.reportToZones.zone z)) := by
  obtain ⟨u, hu, hv⟩ := s.reportToZones_at z
  have htook := u.reportToZone_took z
  have hz : u.zone z = { s.zone z with status := (u.zone z).status } := hu.zone
  refine ⟨fun w hw => ?_, fun hr => ?_, fun hn hr => ?_⟩
  · obtain ⟨hsame, hrep⟩ := htook.switched w ((hu.switches w).2 hw)
    refine ⟨?_, reported.mono hrep hv.grown⟩
    have hfirst : ((s.zone z).switched w).sameButStatus ((u.zone z).switched w) := by rw [hz]; rfl
    exact (hfirst.trans hsame).trans hv.zone
  · have hstep := htook.ramped (hu.rampDone.2 hr)
    have hfirst : ({ s.zone z with quietStage := some .relay, relayTimer := some 20 } : ZoneRec).sameButStatus
        ((u.reportToZone z).zone z) := by rw [hstep, hz]; rfl
    exact hfirst.trans hv.zone
  · have hsame := htook.stayed (fun w hw => hn w ((hu.switches w).1 hw)) fun hd => hr (hu.rampDone.1 hd)
    rw [hsame] at hv
    exact hu.zone.trans hv.zone

/-- The record of an output after the reports of the zones (R8, R52). -/
theorem State.reportToZones_out (s : State) (o : Fin 13) :
    (∀ z, (s.out o).grantedTo z = true →
      (s.rampDone z → s.reportToZones.out o = { s.out o with relay := false }) ∧
      (¬ s.rampDone z → s.reportToZones.out o = s.out o)) ∧
    ((∀ z, (s.out o).grantedTo z ≠ true) → s.reportToZones.out o = s.out o) := by
  refine ⟨fun z hg => ?_, fun hn => ?_⟩
  · obtain ⟨u, hu, hv⟩ := s.reportToZones_at z
    have hgu : (u.out o).grantedTo z = true := (hu.granted o).trans hg
    have htook := u.reportToZone_took z
    rw [hv.out o ((htook.granted o z).trans hgu), ← hu.rampDone]
    refine ⟨fun hr => by rw [htook.opened o hr hgu, hu.out o hg], fun hr => ?_⟩
    rw [htook.outs o fun h => hr h.1, hu.out o hg]
  · unfold State.reportToZones
    refine List.foldlRecOn (motive := fun t : State => t.out o = s.out o) _ _ rfl fun t ht z _ => ?_
    rw [(t.reportToZone_took z).outs o fun h => hn z (by rw [← ht]; exact h.2), ht]

theorem State.reportToZones_changes (s : State) :
    onlyChanges [.zones, .outputs, .decoder, .tuner, .ports] s s.reportToZones ∧ Raises s s.reportToZones := by
  unfold State.reportToZones
  exact List.foldlRecOn (motive := fun t : State => onlyChanges [.zones, .outputs, .decoder, .tuner, .ports] s t ∧ Raises s t)
    _ _ ⟨(Frame.refl _ s).1, .refl s⟩ fun t ht z _ =>
      ⟨ht.1.trans (t.reportToZone_took z).changes, ht.2.trans (t.reportToZone_took z).raises⟩

/-- Where no zone holds a waiting source, nothing follows the zones. -/
theorem State.reportToZones_calm {s : State} (h : ∀ z, (s.zone z).waiting = none) : onlyChanges [.zones, .outputs] s s.reportToZones := by
  have hfold (l : List Zone) (u : State) (hu : ∀ z, (u.zone z).waiting = none) :
      onlyChanges [.zones, .outputs] u (l.foldl State.reportToZone u) := by
    induction l generalizing u with
    | nil => exact (Frame.refl _ u).1
    | cons z l ih =>
      have hnone (w : Source) : ¬ u.switches z w := fun ⟨_, hw, _⟩ => by rw [hu z] at hw; cases hw
      have htook := u.reportToZone_took z
      refine (htook.calm hnone).trans (ih _ fun y => ?_)
      by_cases hy : y = z
      · subst hy
        by_cases hr : u.rampDone y
        · rw [htook.ramped hr]; exact hu y
        · rw [htook.stayed hnone hr]; exact hu y
      · have hsame : (u.reportToZone z).zone y = _ := htook.others y hy
        rw [hsame]; exact hu y
  exact hfold Zone.all s h

/-! ### The reports of the outputs (R45) -/

/-- The reports of all outputs. -/
def State.reportToOutputs (s : State) : State := allOutputs.foldl State.reportToOutput s

/-- An output whose handover ends its ramp-down. -/
def State.rampedDown (s : State) (o : Fin 13) : Prop :=
  (s.out o).state = .handover ∧ (s.out o).phase = some .rampDown ∧ (s.gain o).current = -161

theorem State.reportToOutput_frame' (s : State) (o : Fin 13) : Frame [.outputs] s (s.reportToOutput o) := by
  unfold State.reportToOutput
  dsimp only
  split
  · exact s.setOut_frame o _
  · exact .refl _ s

theorem State.reportToOutputs_frame (s : State) : Frame [.outputs] s s.reportToOutputs :=
  Frame.foldl _ State.reportToOutput_frame' _ s

/-- What the reports of other outputs leave to an output. -/
def asideOut (o : Fin 13) (s t : State) : Prop := t.out o = s.out o ∧ t.mix = s.mix

theorem State.reportToOutputs_out (s : State) (o : Fin 13) :
    (s.rampedDown o → s.reportToOutputs.out o = { s.out o with phase := some .relayOpen, relay := false, relayOpenTimer := some 20 }) ∧
    (¬ s.rampedDown o → s.reportToOutputs.out o = s.out o) := by
  obtain ⟨u, ⟨hout, hmix⟩, ⟨hend, -⟩⟩ : ∃ u, asideOut o s u ∧ asideOut o (u.reportToOutput o) s.reportToOutputs := by
    unfold State.reportToOutputs
    refine foldl_at (R := asideOut o) (fun s => ⟨rfl, rfl⟩) (fun s t u h1 h2 => ⟨h2.1.trans h1.1, h2.2.trans h1.2⟩) (by decide)
      (mem_allOutputs o) (fun u q hq => ⟨?_, (u.reportToOutput_frame' q).1 .mix (by decide)⟩) s
    unfold State.reportToOutput
    dsimp only
    split
    · exact u.out_setOut_ne _ hq.symm
    · rfl
  have hgain : u.gain o = s.gain o := by rw [State.gain, State.gain, hmix]
  rw [hend, State.rampedDown, ← hout, ← hgain, State.reportToOutput]
  dsimp only
  refine ⟨fun h => ?_, fun h => ?_⟩
  · rw [if_pos h, State.out_setOut_self]
  · rw [if_neg h]

end Sys2Proof.Machine

end

section
/-! PROOFS. A block start before its reports, and the whole of it (R8, R13, R45, R86, R101, R105, R128, R134; O49). -/

open Sys2Proof Sys2Proof.Machine

namespace Sys2Proof.Machine

/-! ### The starved list at a block start -/

theorem State.clearOutputLine_starved (s : State) (o : Fin 13) : (s.clearOutputLine o).delay.starved = s.delay.starved := by
  unfold State.clearOutputLine
  split
  · next g _ =>
    change (s.delay.clearCopied g).starved = _
    unfold DelayState.clearCopied
    split
    · rfl
    · rfl
  · rfl

theorem State.takeSwitchIn_starved (s : State) (z : Zone) : (s.takeSwitchIn z).delay.starved = s.delay.starved := by
  unfold State.takeSwitchIn
  split
  · exact List.foldlRecOn (motive := fun t : State => t.delay.starved = s.delay.starved) _ State.clearOutputLine rfl
      fun t ht o _ => (t.clearOutputLine_starved o).trans ht
  · rfl

theorem State.atBlock_starved (s : State) : s.atBlock.delay.starved = s.delay.starved := by
  have hdelay : s.atBlock.delay = s.switchesTaken.delay := s.atBlock_frame.1 .delay (by decide)
  have hcount : s.countDown.delay.starved = s.delay.starved := by rw [s.countDown_delay]
  rw [hdelay, State.switchesTaken]
  exact List.foldlRecOn (motive := fun t : State => t.delay.starved = s.delay.starved) _ State.takeSwitchIn hcount
    fun t ht z _ => (t.takeSwitchIn_starved z).trans ht

theorem State.renderAll_starved (s : State) (W : Fin 13 → Option Wave) : (s.renderAll W).delay.starved = s.delay.starved := by
  have hone (s : State) (o : Fin 13) : (s.renderOutput o (W o)).delay.starved = s.delay.starved := by
    obtain ⟨h, -⟩ | ⟨g, w, -, h⟩ := s.renderOutput_cases W o
    · rw [h]; rfl
    · rw [h]; rfl
  unfold State.renderAll
  exact List.foldlRecOn (motive := fun t : State => t.delay.starved = s.delay.starved) _ _ rfl fun t ht o _ => (hone t o).trans ht

/-! ### A block start before its reports -/

/-- The state that the outputs of a block are rendered in: the filters have run. -/
def State.filtered (s : State) (audio : BlockAudio) : State :=
  s.atBlock.takeFilters (s.atBlock.redirects (s.atBlock.virtualSound audio))

theorem State.filtered_frame (s : State) (audio : BlockAudio) : Frame [.mix] s.atBlock (s.filtered audio) :=
  s.atBlock.takeFilters_frame _

theorem State.filtered_delay (s : State) (audio : BlockAudio) : (s.filtered audio).delay = s.atBlock.delay :=
  (s.filtered_frame audio).1 .delay (by decide)

theorem State.played_eq (s : State) (audio : BlockAudio) :
    s.played audio = ((s.filtered audio).renderAll (s.blockWave audio)).popQueue := by
  rw [State.played, State.renderBlock_eq]; rfl

theorem State.blockWave_length {s : State} {audio : BlockAudio} (o : Fin 13) (w : Wave) (h : s.blockWave audio o = some w) :
    w.length = 48 := State.writtenWave_length h

theorem State.popQueue_delay (s : State) : s.popQueue.delay = s.delay := rfl

theorem State.popQueue_mix (s : State) : s.popQueue.mix = s.mix := rfl

theorem State.played_delay (s : State) (audio : BlockAudio) :
    (s.played audio).delay = ((s.filtered audio).renderAll (s.blockWave audio)).delay := by
  rw [State.played_eq, State.popQueue_delay]

theorem State.played_mix (s : State) (audio : BlockAudio) :
    (s.played audio).mix = ((s.filtered audio).renderAll (s.blockWave audio)).mix := by
  rw [State.played_eq, State.popQueue_mix]

theorem State.played_starved (s : State) (audio : BlockAudio) : (s.played audio).delay.starved = s.delay.starved := by
  rw [s.played_delay, State.renderAll_starved, s.filtered_delay, s.atBlock_starved]

theorem State.played_laid (s : State) (audio : BlockAudio) : laidAlike s.delay (s.played audio).delay := by
  have h := (s.filtered audio).renderAll_laid (s.blockWave audio)
  rw [s.filtered_delay] at h
  rw [s.played_delay]
  exact s.atBlock_swept.laid.trans h

theorem State.popQueue_changes (s : State) : onlyChanges [.decoder, .freeCount] s s.popQueue := by
  intro q hq
  cases q with
  | decoder | freeCount => exact absurd (by decide) hq
  | zones | minute | outputs | inputs | tuner | mix | delay | slots | ports | pending => rfl

theorem State.played_changes (s : State) (audio : BlockAudio) :
    onlyChanges [.mix, .delay, .decoder, .freeCount] s.atBlock (s.played audio) := by
  rw [State.played_eq]
  exact ((s.filtered_frame audio).1.mono (by decide)).trans
    ((((s.filtered audio).renderAll_frame (s.blockWave audio)).1.mono (by decide)).trans
      ((State.popQueue_changes _).mono (by decide)))

theorem State.played_zone (s : State) (audio : BlockAudio) (z : Zone) : (s.played audio).zone z = s.atBlock.zone z :=
  (s.played_changes audio).zone (by decide) z

theorem State.played_out (s : State) (audio : BlockAudio) (o : Fin 13) : (s.played audio).out o = s.atBlock.out o := by
  rw [State.out, (s.played_changes audio) .outputs (by decide)]; rfl

theorem State.played_granted (s : State) (audio : BlockAudio) (o : Fin 13) (z : Zone) :
    ((s.played audio).out o).grantedTo z = (s.out o).grantedTo z := by
  rw [s.played_out, s.atBlock_out]; rfl

/-- The decoded samples of the block have left the delivery queue (R81). -/
theorem State.played_decoder (s : State) (audio : BlockAudio) :
    let rest := s.decoder.fifo.map (List.drop 48)
    (s.played audio).decoder = { s.decoder with fifo := if ∀ xs, xs ∈ rest → xs = [] then [] else rest } := by
  have hbefore : ((s.filtered audio).renderAll (s.blockWave audio)).decoder = s.decoder := by
    rw [((s.filtered audio).renderAll_frame (s.blockWave audio)).1 .decoder (by decide),
      (s.filtered_frame audio).1 .decoder (by decide), s.atBlock_decoder]
  dsimp only
  rw [s.played_eq, State.popQueue]
  dsimp only
  rw [hbefore]
  refine congrArg (fun l => ({ s.decoder with fifo := l } : DecoderRec)) (if_congr ?_ rfl rfl)
  rw [List.all_eq_true]
  exact forall₂_congr fun xs _ => List.isEmpty_iff

/-- The Mix Engine's record after a block start (R86). -/
theorem State.runBlock_mix (s : State) (audio : BlockAudio) :
    (s.runBlock audio).mix = ((s.filtered audio).renderAll (s.blockWave audio)).mix := by
  rw [s.runBlock_eq, (State.reportBlock_frame _).1 .mix (by decide), s.played_mix]

theorem State.runBlock_gain_played (s : State) (audio : BlockAudio) (o : Fin 13) :
    (s.runBlock audio).gain o = (s.played audio).gain o := by
  rw [s.runBlock_eq, (State.reportBlock_frame _).gain (by decide)]

theorem State.filtered_gain (s : State) (audio : BlockAudio) (o : Fin 13) : (s.filtered audio).gain o = (s.runBlock audio).gain o := by
  rw [s.runBlock_gain, State.filtered, State.takeFilters_gain, s.atBlock_gain]

theorem State.runBlock_atBlock_mix (s : State) (audio : BlockAudio) :
    s.atBlock.mix = { (s.runBlock audio).mix with filters := s.mix.filters, lanes := s.mix.lanes } := by
  rw [s.runBlock_mix, State.renderAll_mix, State.filtered, State.takeFilters_mix, ← s.atBlock_filters, ← s.atBlock_lanes]

/-- A Mix Engine's record but for filters and lanes. -/
theorem Routed.congr {s : State} {m n : MixState} {f : Vector FilterPair 9} {l : Vector (List Sample) 13} (h : Routed s m)
    (hm : m = { n with filters := f, lanes := l }) : Routed s n := by
  subst hm
  exact ⟨h.speakers, h.crossover, h.speakerSet, h.sourceSet, h.downmix, h.virtualSet, h.foldMatrix, h.pair2, h.pair3⟩

theorem State.runBlock_routed (s : State) (audio : BlockAudio) : Routed s (s.runBlock audio).mix :=
  s.atBlock_routed.congr (s.runBlock_atBlock_mix audio)

theorem State.renderAll_filters (s : State) (W : Fin 13 → Option Wave) : (s.renderAll W).mix.filters = s.mix.filters :=
  (congrArg MixState.filters (s.renderAll_mix W) :)

theorem State.runBlock_filters (s : State) (audio : BlockAudio) (k : Fin 9) : (s.runBlock audio).mix.filters[k] =
    filtersAfter (s.atBlock.redirects (s.atBlock.virtualSound audio)) (mainPosition k) s.mix.filters[k] := by
  rw [s.runBlock_mix, State.renderAll_filters, State.filtered, State.takeFilters_filters, s.atBlock_filters]

theorem State.isRedirected_congr {s t : State} {f : Vector FilterPair 9} {l : Vector (List Sample) 13}
    (h : s.mix = { t.mix with filters := f, lanes := l }) (p : Position) : t.isRedirected p ↔ s.isRedirected p := by
  have hspeaker : s.speaker p = t.speaker p := by rw [State.speaker, h]; rfl
  rw [State.isRedirected, State.isRedirected, hspeaker, h]

theorem State.runBlock_redirected (s : State) (audio : BlockAudio) (p : Position) :
    (s.runBlock audio).isRedirected p ↔ s.atBlock.isRedirected p :=
  State.isRedirected_congr (s.runBlock_atBlock_mix audio) p

/-! ### The lanes (R105, R110, R123) -/

theorem State.runBlock_lane (s : State) (audio : BlockAudio) (o : Fin 13) : (s.runBlock audio).mix.lanes[o].length = 48 ∧
    (((s.runBlock audio).gain o).current = -161 ∨ s.delay.segment o = none →
      (s.runBlock audio).mix.lanes[o] = List.replicate 48 0) := by
  obtain ⟨hsilent, hlength, hgain⟩ := (s.filtered audio).renderAll_lane State.blockWave_length o
  rw [s.runBlock_mix]
  refine ⟨hlength, fun h => ?_⟩
  obtain h | h := h
  · exact hgain (by rw [s.filtered_gain]; exact h)
  · refine hsilent fun g w ⟨hg, _⟩ => ?_
    rw [s.filtered_delay, s.atBlock_swept.laid.of_none h] at hg
    cases hg

theorem Segment.copying_iff (g : Segment) : g.copying = true ↔ ∃ m, g.move = some m ∧ m.stage = .copy := by
  unfold Segment.copying
  cases g.move with
  | none => simp
  | some m => simp

theorem Segment.not_copying {g : Segment} (h : ∀ m, g.move = some m → m.stage = .ramp) : g.copying = false := by
  rw [← Bool.not_eq_true, Segment.copying_iff]
  rintro ⟨m, hm, hc⟩
  rw [h m hm] at hc
  cases hc

/-- In a table in order the segments of other outputs keep off a segment's words. -/
theorem State.segmentsOk.spares {s : State} (h : s.segmentsOk) {o : Fin 13} {g : Segment} (hg : s.delay.segment o = some g) :
    s.delay.spares o g.covers := by
  have htable := (State.segmentsOk_iff.1 h).table
  intro q k hq hk
  obtain ⟨hgm, hgo⟩ := DelayState.segment_mem hg
  obtain ⟨hkm, hko⟩ := DelayState.segment_mem hk
  have hapart := htable.apart_of_ne hgm hkm (by rw [hgo, hko]; exact hq.symm)
  exact ⟨(htable.fits k hkm).pos, fun a ha => hapart.not_covers (htable.fits g hgm).top ha⟩

theorem Segment.Fits.delay_words {bad : List Nat} {cur : Option (Fin 13)} {g : Segment} (h : g.Fits bad cur) :
    g.delay + 48 ≤ g.words := by
  have hlong := h.long
  have hwords : g.words = g.count * 256 := rfl
  unfold pagesFor at hlong
  omega

theorem State.atBlock_segmentsOk {s : State} (h : s.segmentsOk) : s.atBlock.segmentsOk :=
  State.segmentsOk_iff.2 (s.atBlock_paces.memory.order (State.segmentsOk_iff.1 h))

theorem State.filtered_inverted (s : State) (audio : BlockAudio) (o : Fin 13) : (s.filtered audio).isInverted o = s.isInverted o := by
  have hzone : ((s.filtered audio).out o).zone = (s.out o).zone := by
    rw [State.out, (s.filtered_frame audio).1 .outputs (by decide)]
    exact (congrArg OutputRec.zone (s.atBlock_out o) :)
  have hrole : ((s.filtered audio).out o).role = (s.out o).role := by
    rw [State.out, (s.filtered_frame audio).1 .outputs (by decide)]
    exact (congrArg OutputRec.role (s.atBlock_out o) :)
  have hspeaker (p : Position) : (s.filtered audio).speaker p = s.speaker p := by
    rw [State.speaker, State.filtered, State.takeFilters_mix]
    exact s.atBlock_speaker p
  simp only [State.isInverted, hzone, hrole, hspeaker]

/-- The lanes and the lines of a table in order. -/
theorem State.runBlock_lines {s : State} (audio : BlockAudio) (h : s.segmentsOk) {o : Fin 13} {g : Segment}
    (hg : s.atBlock.delay.segment o = some g) :
    (s.blockWave audio o = none ∨ (∃ m, g.move = some m ∧ m.stage = .copy) →
      (s.runBlock audio).mix.lanes[o] = List.replicate 48 0) ∧
    ∀ w, s.blockWave audio o = some w → (∀ m, g.move = some m → m.stage = .ramp) →
      (s.runBlock audio).mix.lanes[o] = (List.range 48).map (fun k =>
        outputSample (gainWord ((s.runBlock audio).gain o).current) (s.isInverted o)
          (if g.delay ≤ k then toSample (w.getD (k - g.delay) 0)
           else s.atBlock.delay.dram.read (g.ringWord g.delay k)).toInt) ∧
      (∀ k, k < 48 → (s.played audio).delay.dram.read (g.ringWord 0 k) = toSample (w.getD k 0)) ∧
      (s.played audio).delay.segment o = some { g with writePos := g.ringWord 0 48 } := by
  have hok := State.atBlock_segmentsOk h
  have hfits := (State.segmentsOk_iff.1 hok).table.fits g (DelayState.segment_mem hg).1
  rw [s.runBlock_mix, s.played_delay]
  refine ⟨fun hs => ?_, fun w hw hm => ?_⟩
  · refine ((s.filtered audio).renderAll_lane State.blockWave_length o).1 fun g' w' ⟨hg', hw', hc⟩ => ?_
    rw [s.filtered_delay, hg] at hg'
    obtain rfl := Option.some.inj hg'
    obtain hs | hs := hs
    · rw [hs] at hw'; cases hw'
    · rw [(Segment.copying_iff g).2 hs] at hc; cases hc
  · have hplays : plays (s.filtered audio).delay (s.blockWave audio) o g w := by
      rw [s.filtered_delay]; exact ⟨hg, hw, Segment.not_copying hm⟩
    have hspares : (s.filtered audio).delay.spares o g.covers := by rw [s.filtered_delay]; exact hok.spares hg
    have hall := State.renderAll_plays State.blockWave_length hplays hfits.delay_words hspares
    rw [s.filtered_gain, s.filtered_inverted, s.filtered_delay] at hall
    exact hall

/-- The words that a block start leaves before its reports. -/
theorem State.played_read {s : State} {audio : BlockAudio} {a : Nat}
    (hcleared : ∀ z o g, (s.zone z).switchIn = true → (s.out o).grantedTo z = true → s.delay.segment o = some g → ¬ g.clears a)
    (hwritten : ∀ o g k, s.atBlock.delay.segment o = some g → s.blockWave audio o ≠ none →
      (∀ m, g.move = some m → m.stage = .ramp) → k < 48 → a ≠ g.ringWord 0 k) :
    (s.played audio).delay.dram.read a = s.delay.dram.read a := by
  have hkept := s.atBlock_swept.kept a fun ⟨o, g, ⟨z, hz, ho⟩, hg, ha⟩ => hcleared z o g hz ho hg ha
  have hnot (o : Fin 13) : ¬ (s.filtered audio).delay.writes (s.blockWave audio) o a := by
    rintro ⟨g, w, k, ⟨hg, hw, hc⟩, hk, he⟩
    rw [s.filtered_delay] at hg
    refine hwritten o g k hg (by rw [hw]; exact Option.some_ne_none w) (fun m hm => ?_) hk he
    cases hst : m.stage with
    | ramp => rfl
    | copy => rw [(Segment.copying_iff g).2 ⟨m, hm, hst⟩] at hc; cases hc
  rw [s.played_delay, State.renderAll_read State.blockWave_length hnot, s.filtered_delay, hkept]

end Sys2Proof.Machine

end

section
/-! PROOFS. What a block start leaves (R8, R13, R45, R86, R105, R128, R134; O49). -/

open Sys2Proof Sys2Proof.Machine

namespace Sys2Proof.Machine

/-! ### The reports of a block start -/

/-- A block start before the reports to the Delay Memory Controller. -/
def State.unitsTold (s : State) (audio : BlockAudio) : State := (s.played audio).reportToZones.reportToOutputs

theorem State.runBlock_told (s : State) (audio : BlockAudio) : s.runBlock audio = (s.unitsTold audio).reportDelays := by
  rw [s.runBlock_eq]; rfl

theorem State.unitsTold_delay (s : State) (audio : BlockAudio) : (s.unitsTold audio).delay = (s.played audio).delay := by
  rw [State.unitsTold, (State.reportToOutputs_frame _).1 .delay (by decide), (State.reportToZones_changes _).1 .delay (by decide)]

theorem State.unitsTold_starved (s : State) (audio : BlockAudio) : (s.unitsTold audio).delay.starved = s.delay.starved := by
  rw [s.unitsTold_delay, s.played_starved]

theorem State.unitsTold_gain (s : State) (audio : BlockAudio) (o : Fin 13) :
    (s.unitsTold audio).gain o = (s.runBlock audio).gain o := by
  rw [s.runBlock_told, State.gain, State.gain, (State.reportDelays_reports _).mix]

theorem State.setApplied_quiet (s : State) (o : Fin 13) : QuietStep s (s.setDelay (s.delay.applyChange o).1) := by
  by_cases h : ∀ g c, s.delay.segment o = some g → g.change ≠ some c
  · rw [DelayState.applyChange_none h]
    exact s.setDelay_quiet ⟨rfl, rfl, rfl, rfl⟩ rfl
  · obtain ⟨g, c, hg, hc⟩ : ∃ g c, s.delay.segment o = some g ∧ g.change = some c := by simpa using h
    rw [DelayState.applyChange_some hg hc]
    split
    · exact s.setDelay_quiet ⟨rfl, rfl, rfl, rfl⟩ rfl
    · exact s.setDelay_quiet ⟨rfl, rfl, rfl, rfl⟩ rfl

theorem State.applyHeld_quiet (s : State) (o : Fin 13) : QuietStep s (s.applyHeld o) := by
  unfold State.applyHeld
  dsimp only
  split
  · exact (s.setApplied_quiet o).trans (State.retryPass_quiet _)
  · exact s.setApplied_quiet o

theorem State.startCopy_quiet (s : State) (o : Fin 13) : QuietStep s (s.startCopy o) := by
  unfold State.startCopy
  split
  · split
    · split
      · exact s.setDelay_quiet ⟨rfl, rfl, rfl, rfl⟩ rfl
      · exact .refl s
    · exact .refl s
  · exact .refl s

theorem State.reportToDelay_quiet (s : State) (o : Fin 13) : QuietStep s (s.reportToDelay o) := by
  unfold State.reportToDelay
  split
  · exact (s.applyHeld_quiet o).trans (State.startCopy_quiet _ o)
  · exact .refl s

theorem State.reportDelays_quiet (s : State) : QuietStep s s.reportDelays := QuietStep.foldl _ State.reportToDelay_quiet _ s

/-! ### The zones (R8, R13) -/

/-- Every output granted to a zone is silent in the block. -/
def State.fallsSilent (s : State) (audio : BlockAudio) (z : Zone) : Prop :=
  ∀ o, (s.out o).grantedTo z = true → ((s.runBlock audio).gain o).current = -161

theorem State.played_allSilent (s : State) (audio : BlockAudio) (z : Zone) :
    (s.played audio).allSilent z ↔ s.fallsSilent audio z := by
  refine forall_congr' fun o => ?_
  rw [s.played_granted, s.runBlock_gain_played]

theorem State.played_switches (s : State) (audio : BlockAudio) (z : Zone) (w : Source) :
    (s.played audio).switches z w ↔ (s.zone z).power = .on ∧ (s.zone z).waiting = some w ∧ s.fallsSilent audio z := by
  rw [State.switches, s.played_allSilent, s.played_zone, s.atBlock_zone]

theorem State.played_rampDone (s : State) (audio : BlockAudio) (z : Zone) :
    (s.played audio).rampDone z ↔ (s.zone z).power = .quieting ∧ (s.zone z).quietStage = some .ramp ∧ s.fallsSilent audio z := by
  rw [State.rampDone, s.played_allSilent, s.played_zone, s.atBlock_zone]

theorem State.runBlock_zone_told (s : State) (audio : BlockAudio) (z : Zone) :
    (s.runBlock audio).zone z =
      { (s.played audio).reportToZones.zone z with noOutput := ((s.runBlock audio).zone z).noOutput } := by
  have hquiet := (s.unitsTold audio).reportDelays_quiet
  have htold : (s.unitsTold audio).zone z = (s.played audio).reportToZones.zone z :=
    (State.reportToOutputs_frame _).1.zone (by decide) z
  have hz := hquiet.zones z
  rw [htold] at hz
  rw [s.runBlock_told]
  exact hz

theorem ZoneRec.sameButStatus.withMark {r u v : ZoneRec} (h : r.sameButStatus u) (hv : v = { u with noOutput := v.noOutput }) :
    r.sameButDerived v := by
  rw [ZoneRec.sameButStatus] at h
  rw [h] at hv
  rw [ZoneRec.sameButDerived, hv]

/-- The records of the zones after a block start. -/
theorem State.runBlock_zone (s : State) (audio : BlockAudio) (z : Zone) :
    (∀ w, (s.played audio).switches z w → ((s.atBlock.zone z).switched w).sameButDerived ((s.runBlock audio).zone z) ∧
      zoneReported (s.runBlock audio) z) ∧
    ((s.played audio).rampDone z → ({ s.atBlock.zone z with quietStage := some .relay, relayTimer := some 20 } : ZoneRec).sameButDerived
      ((s.runBlock audio).zone z)) ∧
    ((∀ w, ¬ (s.played audio).switches z w) → ¬ (s.played audio).rampDone z →
      (s.atBlock.zone z).sameButDerived ((s.runBlock audio).zone z)) := by
  obtain ⟨hswitch, hramp, hstay⟩ := (s.played audio).reportToZones_zone z
  have hnoted := s.runBlock_zone_told audio z
  rw [s.played_zone] at hswitch hramp hstay
  refine ⟨fun w hw => ⟨(hswitch w hw).1.withMark hnoted, ?_⟩, fun hr => (hramp hr).withMark hnoted,
    fun hn hr => (hstay hn hr).withMark hnoted⟩
  rw [s.runBlock_told]
  refine reported.mono (hswitch w hw).2 (eventsGrow.trans (.of_ports_eq ?_) (s.unitsTold audio).reportDelays_quiet.grown)
  exact (State.reportToOutputs_frame _).1 .ports (by decide)

theorem State.runBlock_zone_kept (s : State) (audio : BlockAudio) (z : Zone) :
    ((s.runBlock audio).zone z).power = (s.zone z).power ∧ ((s.runBlock audio).zone z).volume = (s.zone z).volume ∧
    ((s.runBlock audio).zone z).stack = (s.zone z).stack := by
  obtain ⟨hswitch, hramp, hstay⟩ := s.runBlock_zone audio z
  have hz := s.atBlock_zone z
  by_cases hw : ∃ w, (s.played audio).switches z w
  · obtain ⟨w, hw⟩ := hw
    have hsame : (s.runBlock audio).zone z = _ := (hswitch w hw).1
    rw [hsame, hz]
    exact ⟨rfl, rfl, rfl⟩
  · by_cases hr : (s.played audio).rampDone z
    · have hsame : (s.runBlock audio).zone z = _ := hramp hr
      rw [hsame, hz]
      exact ⟨rfl, rfl, rfl⟩
    · have hsame : (s.runBlock audio).zone z = _ := hstay (fun w h => hw ⟨w, h⟩) hr
      rw [hsame, hz]
      exact ⟨rfl, rfl, rfl⟩

theorem State.runBlock_waiting (s : State) (audio : BlockAudio) {z : Zone} {w : Source} (hon : (s.zone z).power = .on)
    (hw : (s.zone z).waiting = some w) :
    (s.fallsSilent audio z → ((s.runBlock audio).zone z).live = w ∧ ((s.runBlock audio).zone z).waiting = none ∧
      zoneReported (s.runBlock audio) z) ∧
    (¬ s.fallsSilent audio z → ((s.runBlock audio).zone z).live = (s.zone z).live ∧
      ((s.runBlock audio).zone z).waiting = some w) := by
  obtain ⟨hswitch, -, hstay⟩ := s.runBlock_zone audio z
  have hz := s.atBlock_zone z
  refine ⟨fun hs => ?_, fun hs => ?_⟩
  · obtain ⟨hsame, hreported⟩ := hswitch w ((s.played_switches audio z w).2 ⟨hon, hw, hs⟩)
    have hsame : (s.runBlock audio).zone z = _ := hsame
    rw [hsame]
    exact ⟨rfl, rfl, hreported⟩
  · have hsame : (s.runBlock audio).zone z = _ := hstay
      (fun w' h => hs ((s.played_switches audio z w').1 h).2.2)
      (fun h => hs ((s.played_rampDone audio z).1 h).2.2)
    rw [hsame, hz]
    exact ⟨rfl, hw⟩

theorem State.runBlock_ramped (s : State) (audio : BlockAudio) {z : Zone} (hq : (s.zone z).power = .quieting)
    (hr : (s.zone z).quietStage = some .ramp) (hs : s.fallsSilent audio z) :
    ((s.runBlock audio).zone z).quietStage = some .relay ∧ ((s.runBlock audio).zone z).relayTimer = some 20 := by
  obtain ⟨-, hramp, -⟩ := s.runBlock_zone audio z
  have hsame : (s.runBlock audio).zone z = _ := hramp ((s.played_rampDone audio z).2 ⟨hq, hr, hs⟩)
  rw [hsame]
  exact ⟨rfl, rfl⟩

/-! ### The outputs (R8, R45, R52) -/

theorem State.runBlock_out (s : State) (audio : BlockAudio) {o : Fin 13} (ho : o ∉ s.delay.starved) :
    (s.runBlock audio).out o = (s.unitsTold audio).out o := by
  rw [s.runBlock_told]
  exact (State.reportDelays_reports _).out o (by rw [s.unitsTold_starved]; exact ho)

theorem OutputRec.grantedTo_relay (r : OutputRec) (b : Bool) (z : Zone) :
    ({ r with relay := b } : OutputRec).grantedTo z = r.grantedTo z := rfl

/-- An output GRANTED to a zone: its relay opens where the zone's ramp stage ends. -/
theorem State.runBlock_granted (s : State) (audio : BlockAudio) {z : Zone} {o : Fin 13} (hg : (s.out o).grantedTo z = true)
    (ho : o ∉ s.delay.starved) : ((s.runBlock audio).out o).grantedTo z = true ∧
    ((s.zone z).power = .quieting ∧ (s.zone z).quietStage = some .ramp ∧ s.fallsSilent audio z →
      ((s.runBlock audio).out o).relay = false) ∧
    (¬ ((s.zone z).power = .quieting ∧ (s.zone z).quietStage = some .ramp ∧ s.fallsSilent audio z) →
      ((s.runBlock audio).out o).relay = (s.out o).relay) := by
  have hgp : ((s.played audio).out o).grantedTo z = true := (s.played_granted audio o z).trans hg
  obtain ⟨hopen, hstay⟩ := ((s.played audio).reportToZones_out o).1 z hgp
  have hzones : ((s.played audio).reportToZones.out o).grantedTo z = true := by
    by_cases hr : (s.played audio).rampDone z
    · rw [hopen hr, OutputRec.grantedTo_relay, hgp]
    · rw [hstay hr, hgp]
  have hnot : ¬ (s.played audio).reportToZones.rampedDown o := fun ⟨hh, _⟩ => by
    obtain ⟨hgranted, -⟩ := (OutputRec.grantedTo_iff _ _).1 hzones
    rw [hgranted] at hh; cases hh
  have hout : (s.runBlock audio).out o = (s.played audio).reportToZones.out o := by
    rw [s.runBlock_out audio ho, State.unitsTold, (State.reportToOutputs_out _ o).2 hnot]
  rw [hout, ← s.played_rampDone]
  refine ⟨hzones, fun hr => by rw [hopen hr], fun hr => ?_⟩
  rw [hstay hr, s.played_out, s.atBlock_out]

/-- A handover in its ramp-down ends it when the output is silent. -/
theorem State.runBlock_handover (s : State) (audio : BlockAudio) {o : Fin 13} (hh : (s.out o).state = .handover)
    (hp : (s.out o).phase = some .rampDown) (ho : o ∉ s.delay.starved) :
    (((s.runBlock audio).gain o).current = -161 → (s.runBlock audio).out o =
      { s.out o with phase := some .relayOpen, relay := false, relayOpenTimer := some 20 }) ∧
    (((s.runBlock audio).gain o).current ≠ -161 → ((s.runBlock audio).out o).phase = some .rampDown) := by
  have hout : (s.played audio).reportToZones.out o =
      { s.out o with relayOpenTimer := (s.out o).relayOpenTimer.map (· - 1) } := by
    rw [((s.played audio).reportToZones_out o).2 fun z hg => ?_, s.played_out, s.atBlock_out]
    rw [s.played_granted, OutputRec.grantedTo_iff, hh] at hg
    cases hg.1
  have hgain : (s.played audio).reportToZones.gain o = (s.runBlock audio).gain o := by
    rw [s.runBlock_gain_played, State.gain, State.gain, (State.reportToZones_changes _).1 .mix (by decide)]
  have hdown : (s.played audio).reportToZones.rampedDown o ↔ ((s.runBlock audio).gain o).current = -161 := by
    rw [State.rampedDown, hout, hgain]
    exact ⟨fun ⟨_, _, h⟩ => h, fun h => ⟨hh, hp, h⟩⟩
  obtain ⟨hends, hstays⟩ := (s.played audio).reportToZones.reportToOutputs_out o
  rw [s.runBlock_out audio ho, State.unitsTold]
  refine ⟨fun h => by rw [hends (hdown.2 h), hout], fun h => ?_⟩
  rw [hstays (hdown.not.2 h), hout]
  exact hp

/-! ### The segments (R128, R134) -/

/-- The segment of an output that is not starved after a block start. -/
theorem State.runBlock_segment (s : State) (audio : BlockAudio) {o : Fin 13} {g : Segment} (hg : s.delay.segment o = some g)
    (ho : o ∉ s.delay.starved) : ∃ w, let g' := { g with writePos := w };
    (((s.runBlock audio).gain o).current = -161 →
      (s.runBlock audio).delay.segment o = some (((g'.change.map g'.changed).getD g').copies)) ∧
    (((s.runBlock audio).gain o).current ≠ -161 → (s.runBlock audio).delay.segment o = some g') := by
  obtain ⟨g', hg', heq⟩ := (s.played_laid audio).of_some hg
  have htold : (s.unitsTold audio).delay.segment o = some { g with writePos := g'.writePos } := by
    rw [s.unitsTold_delay, hg', ← heq]
  have hends := State.reportDelays_segment (by rw [s.unitsTold_starved]; exact ho) htold
  rw [s.unitsTold_gain, ← s.runBlock_told] at hends
  exact ⟨g'.writePos, hends⟩

theorem State.runBlock_change (s : State) (audio : BlockAudio) {o : Fin 13} {g : Segment} {c : PendingChange}
    (hg : s.delay.segment o = some g) (hc : g.change = some c) (ho : o ∉ s.delay.starved) :
    (((s.runBlock audio).gain o).current = -161 → ∃ g', (s.runBlock audio).delay.segment o = some g' ∧ g'.change = none ∧
      g'.delay = c.delay ∧ g'.base = (if c.kind = .relocate then c.base else g.base) ∧
      g'.count = (if c.kind = .retime then g.count else c.count) ∧ (c.kind ≠ .retime → g'.writePos = g'.base * 256)) ∧
    (((s.runBlock audio).gain o).current ≠ -161 → ∃ g', (s.runBlock audio).delay.segment o = some g' ∧ g'.change = some c) := by
  obtain ⟨w, hsilent, hsounds⟩ := s.runBlock_segment audio hg ho
  refine ⟨fun h => ⟨_, hsilent h, ?_⟩, fun h => ⟨_, hsounds h, hc⟩⟩
  dsimp only
  rw [hc]
  exact ⟨rfl, rfl, rfl, rfl, fun hk => if_neg hk⟩

theorem State.runBlock_move (s : State) (audio : BlockAudio) {o : Fin 13} {g : Segment} {m : MoveRec}
    (hg : s.delay.segment o = some g) (hc : g.change = none) (hm : g.move = some m) (ho : o ∉ s.delay.starved)
    (h : ((s.runBlock audio).gain o).current = -161) :
    ∃ g', (s.runBlock audio).delay.segment o = some g' ∧ g'.move = some { m with stage := .copy } := by
  obtain ⟨w, hsilent, -⟩ := s.runBlock_segment audio hg ho
  refine ⟨_, hsilent h, ?_⟩
  dsimp only
  rw [hc]
  change g.move.map _ = _
  rw [hm]
  rfl

/-! ### What a block start reaches -/

theorem State.runBlock_raised (s : State) (audio : BlockAudio) : portsRaised s (s.runBlock audio) := by
  have hports : (s.played audio).ports = s.ports := by
    rw [(s.played_changes audio) .ports (by decide), s.atBlock_changes .ports (by decide)]
  have hunits : (s.unitsTold audio).ports = (s.played audio).reportToZones.ports :=
    (State.reportToOutputs_frame _).1 .ports (by decide)
  rw [s.runBlock_told]
  exact ((portsRaised.of_ports_eq hports).trans (State.reportToZones_changes _).2.1).trans
    ((portsRaised.of_ports_eq hunits).trans (s.unitsTold audio).reportDelays_quiet.raised)

theorem State.runBlock_changes (s : State) (audio : BlockAudio) :
    onlyChanges [.zones, .minute, .outputs, .inputs, .decoder, .mix, .delay, .tuner, .ports, .freeCount] s (s.runBlock audio) := by
  have hquiet := (s.unitsTold audio).reportDelays_quiet
  have hdelays : onlyChanges [.outputs, .zones, .ports, .delay] (s.unitsTold audio) (s.unitsTold audio).reportDelays :=
    onlyChanges.but_slots (hquiet.frame.1.mono (by decide)) hquiet.slots
  rw [s.runBlock_told]
  exact (s.atBlock_changes.mono (by decide)).trans (((s.played_changes audio).mono (by decide)).trans
    (((State.reportToZones_changes _).1.mono (by decide)).trans
      (((State.reportToOutputs_frame _).1.mono (by decide)).trans (hdelays.mono (by decide)))))

/-- Where no zone holds a waiting source, the decoder changes in its delivery queue alone (R81). -/
theorem State.runBlock_decoder (s : State) (audio : BlockAudio) (h : ∀ z, (s.zone z).waiting = none) :
    (s.runBlock audio).decoder = (s.played audio).decoder := by
  have hcalm := State.reportToZones_calm (s := s.played audio) fun z => by
    rw [s.played_zone, s.atBlock_zone]
    exact h z
  rw [s.runBlock_told, (s.unitsTold audio).reportDelays_quiet.frame.1 .decoder (by decide), State.unitsTold,
    (State.reportToOutputs_frame _).1 .decoder (by decide), hcalm .decoder (by decide)]

/-! ### The words of the DRAM (R105, R123, R128) -/

/-- Where no segment has a pending change or a move, the reports leave the memory as it is. -/
theorem State.runBlock_delay_calm (s : State) (audio : BlockAudio)
    (h : ∀ x, x ∈ s.delay.segments → x.change = none ∧ x.move = none) : (s.runBlock audio).delay = (s.played audio).delay := by
  have hidle (o : Fin 13) (g : Segment) (hg : (s.unitsTold audio).delay.segment o = some g) : g.Idle := by
    rw [s.unitsTold_delay] at hg
    obtain ⟨g', hg', heq⟩ := (s.played_laid audio).symm.of_some hg
    have hsame := h g' (DelayState.segment_mem hg').1
    rw [heq] at hsame
    exact hsame
  rw [s.runBlock_told, State.reportDelays_idle hidle, s.unitsTold_delay]

theorem State.runBlock_read {s : State} {audio : BlockAudio} {a : Nat}
    (happlied : ∀ o g c, s.delay.segment o = some g → g.change = some c → c.kind ≠ .retime →
      ((s.runBlock audio).gain o).current = -161 → ¬ (256 * g.newBase c ≤ a ∧ a < 256 * (g.newBase c + c.count)))
    (hnew : ∀ o g, o ∈ s.delay.starved → (s.runBlock audio).delay.segment o = some g → ¬ g.covers a) :
    (s.runBlock audio).delay.dram.read a = (s.played audio).delay.dram.read a := by
  have hreports := (s.unitsTold audio).reportDelays_reports
  rw [← s.runBlock_told] at hreports
  obtain h | ⟨o, -, hgain, g, c, hg, hc, hk, hlow, hhigh⟩ | ⟨o, g, ho, -, hg, ha⟩ := hreports.read a
  · rw [h, s.unitsTold_delay]
  · rw [s.unitsTold_delay] at hg
    obtain ⟨g', hg', heq⟩ := (s.played_laid audio).symm.of_some hg
    rw [heq] at hg'
    rw [s.unitsTold_gain] at hgain
    exact absurd ⟨hlow, hhigh⟩ (happlied o _ c hg' hc hk hgain)
  · rw [s.unitsTold_starved] at ho
    exact absurd ha (hnew o g ho hg)

end Sys2Proof.Machine

end

section
/-! PROOFS. What a block start takes, computes, completes and reports (O49). -/

open Sys2Proof Sys2Proof.Machine

namespace Sys2Proof.Machine

theorem exec_outsideDram {s : State} (audio : BlockAudio) (h : s.delay.inDram = false) :
    exec (.blockStart audio) s = .fault .outsideDram ∧ exec .pageCopy s = .fault .outsideDram := by
  have hno : ¬ s.delay.inDram = true := by simp [h]
  exact ⟨if_neg hno, if_neg hno⟩

/-- The lines that a switch-in clears read zero (R105). -/
theorem State.atBlock_zeros (s : State) {z : Zone} {o : Fin 13} {g : Segment} (hz : (s.zone z).switchIn = true)
    (ho : (s.out o).grantedTo z = true) (hg : s.atBlock.delay.segment o = some g) {a : Nat} (ha : g.clears a) :
    s.atBlock.delay.dram.read a = 0 :=
  s.atBlock_swept.zero a (s.atBlock_swept.laid.symm.sweeps ⟨o, g, ⟨z, hz, ho⟩, hg, ha⟩)

/-- The pair states of the remote zones (R51). -/
theorem Routed.pairs {s : State} {m : MixState} (h : Routed s m) {z : Zone} {left right : Role} {pair : PairState}
    (hz : (z = .z2 ∧ left = .z2l ∧ right = .z2r ∧ pair = m.pair2) ∨ (z = .z3 ∧ left = .z3l ∧ right = .z3r ∧ pair = m.pair3)) :
    pair = s.pairState z left right := by
  obtain ⟨rfl, rfl, rfl, rfl⟩ | ⟨rfl, rfl, rfl, rfl⟩ := hz
  · exact h.pair2
  · exact h.pair3

/-- Settles O49: the state before the reports is that of the rendering, and each report is placed among those of the other
zones and outputs. -/
theorem blockStartsReport : Obligations.BlockStartsReport := by
  intro audio s
  refine ⟨exec_outsideDram audio, fun hdram => ⟨s.runBlock audio, exec_blockStart s hdram, s.runBlock_lane audio, ?_⟩⟩
  have hr := s.runBlock_routed audio
  refine ⟨hr.speakers, hr.crossover, hr.speakerSet, fun z => ⟨?_, ?_, hr.downmix z⟩, fun hp => ⟨?_, ?_⟩, fun hp => ⟨?_, ?_⟩,
    fun z left right pair hz => ?_, s.runBlock_atBlock_mix audio, s.atBlock_zone, s.atBlock_out, s.atBlock_input, s.atBlock_tuner,
    s.atBlock_decoder, fun k p hk => ?_, fun hw => ?_, fun z o hg ho => ?_, s.runBlock_zone_kept audio,
    fun z w hon hw => s.runBlock_waiting audio hon hw, fun z hq hst hs => s.runBlock_ramped audio hq hst hs,
    fun o hh hp ho => s.runBlock_handover audio hh hp ho, fun o g c hg hc ho => s.runBlock_change audio hg hc ho,
    fun o g m hg hc hm ho h => s.runBlock_move audio hg hc hm ho h, s.runBlock_raised audio, s.runBlock_changes audio,
    fun z o g hz ho hg => ⟨fun a h1 h2 => s.atBlock_zeros hz ho hg (.inl ⟨h1, h2⟩),
      fun m a hm h1 h2 => s.atBlock_zeros hz ho hg (.inr ⟨m, hm, h1, h2⟩)⟩,
    fun hok o g hg => ?_, fun a hcleared hwritten happlied hnew => ?_⟩
  · rw [hr.sourceSet]; exact (s.sourceChannels_spec z).1
  · rw [hr.sourceSet]; exact (s.sourceChannels_spec z).2
  · rw [hr.virtualSet, if_pos hp]
  · rw [hr.foldMatrix, if_pos hp]
  · rw [hr.virtualSet, if_neg hp, hr.sourceSet]
  · rw [hr.foldMatrix, if_neg hp]
  · rw [hr.pairs hz]; exact s.pairState_spec z left right
  · obtain rfl := mainPosition_iff.1 hk
    rw [s.runBlock_redirected, s.runBlock_filters]
    exact s.atBlock_filtersAfter _ k
  · rw [s.runBlock_decoder audio hw]
    exact s.played_decoder audio
  · obtain ⟨hgranted, hopen, hstay⟩ := s.runBlock_granted audio hg ho
    refine ⟨hgranted, ?_⟩
    split
    · next h => exact hopen h
    · next h => exact hstay h
  · obtain ⟨hsilent, hplays⟩ := s.runBlock_lines audio hok hg
    refine ⟨hsilent, fun w hw hm => ?_⟩
    obtain ⟨hlane, hwords, hsegment⟩ := hplays w hw hm
    refine ⟨hlane, fun hcalm => ?_⟩
    rw [s.runBlock_delay_calm audio hcalm]
    exact ⟨hwords, hsegment⟩
  · rw [State.runBlock_read happlied hnew, State.played_read (fun z o g hz ho hg ha => ?_) hwritten]
    obtain ⟨hrun, hcopied⟩ := hcleared z o g hz ho hg
    obtain ha | ⟨m, hm, ha⟩ := ha
    · exact hrun ha
    · exact hcopied m hm ha

end Sys2Proof.Machine

end
